-- ==== Sys2Proof/Word.lean ====
section
/-! DEFINITION. The words of the KA-3072 and the sparse tables that the state is made of (spec R4, R9, R11). -/

namespace Sys2Proof

/-- A 32-bit lane element or instruction word. -/
abbrev W32 := BitVec 32
/-- A 64-bit scalar register, address or doubleword. -/
abbrev W64 := BitVec 64
/-- A byte; multi-byte values are little-endian (R4). -/
abbrev Byte := BitVec 8
/-- A word address in an instruction store (R9, R49). -/
abbrev PC := BitVec 14

/-- A sparse table by number. An entry that is not listed holds the default of its reader. -/
abbrev Tbl (α : Type) := List (Nat × α)

/-- The 32 elements of one lane register; lane L is element L (R11). -/
abbrev Lanes := List W32

end Sys2Proof
end

