-- ==== Sys2Proof/Syntax.lean ====
section
/-! DEFINITION. The syntax of the KA-3072: one constructor for each row of the opcode table. The first 154 are the
instructions of R104, with their operands as the chapters name them (R48 to R67, R90 to R102). The other 131 are the
steps of the device that no instruction word encodes: arrivals, home accesses, timers, host commands. Their operands
say which agent, message or register the step concerns. -/

namespace Sys2Proof

/-- A lane or scalar register number, or the even register of a pair (R53). -/
abbrev Reg := BitVec 5
/-- A lane or scalar predicate number (R53); also other three-bit numbers. -/
abbrev PReg := BitVec 3
/-- A queue number, q0 to q15 (R53). -/
abbrev QReg := BitVec 4
/-- An accumulator number, a0 to a3 (R53). -/
abbrev AReg := BitVec 2

/-- Guard and form of an instruction: GUARD[5], GUARD[4:2] and whether the extended form is encoded (R50, R51, R58). -/
structure Head where
  neg : Bool
  idx : PReg
  ext : Bool
  deriving DecidableEq, Repr

/-- The type codes 0 to 14 of R54, in code order. -/
inductive Ty where
  | b32 | s32 | n32 | s64 | n64 | s16 | n16 | s8 | n8 | f | h | bf | e4 | e5 | b64
  deriving DecidableEq, Repr

/-- Source A: a register, or the queue of XQ and QA (R62). -/
inductive SrcA where
  | reg (r : Reg)
  | queue (q : QReg)
  deriving DecidableEq, Repr

/-- Source B: a register, or the 64-bit literal (R65). -/
inductive SrcB where
  | reg (r : Reg)
  | lit (v : W64)
  deriving DecidableEq, Repr

/-- E0.RND (R57): the mode of FPCTL, or an override. -/
inductive Rnd where
  | fpctl | rtz | rup | rdn
  deriving DecidableEq, Repr

/-- SHFL modes (R92, R121). -/
inductive ShflMode where
  | indexed | up | down | xor
  deriving DecidableEq, Repr

/-- Operations of REDS and SCAN (R92). -/
inductive RedOp where
  | add | min | max | and | or | xor
  deriving DecidableEq, Repr

/-- Conditions 0 to 9 of R55. -/
inductive Cond where
  | eq | ne | lt | le | gt | ge | ltn | len | gtn | gen
  deriving DecidableEq, Repr

/-- The five scopes (R57, R275). -/
inductive Scope where
  | cell | cluster | die | device | system
  deriving DecidableEq, Repr

/-- ACQ, REL and SCOPE (R57, R60). -/
structure Order where
  acq : Bool
  rel : Bool
  scope : Scope
  deriving DecidableEq, Repr

/-- The operand [sA + idx*scale + disp] of R64. -/
structure Addr where
  base : Reg
  noIdx : Bool
  idx : SrcB
  scale : BitVec 2
  disp : W32
  deriving DecidableEq, Repr

/-- Sub-operations of TAGI (R99, R189). -/
inductive TagSub where
  | one | all | region
  deriving DecidableEq, Repr

/-- Operations of ATOM and ATOMX (R99, R191). -/
inductive AtomOp where
  | add | and | or | xor | min | max | swap | cas
  deriving DecidableEq, Repr

/-- A join wire: the row wire of a quadrille (device row 4 * cluster + row) or the cluster wire (R215). -/
inductive Wire where
  | row (n : Nat)
  | cluster (n : Nat)
  deriving DecidableEq, Repr

/-- The uncorrectable cell errors, causes 0x51 to 0x55 (R428). -/
inductive CellError where
  | scratch | regfile | istore | accumulator | array
  deriving DecidableEq, Repr

/-- The errors that stop partitions (R432). -/
inductive StopError where
  | router | dieBridge | clockVoltage
  deriving DecidableEq, Repr

/-- The function of the host port through which a write or command comes (R447). -/
inductive Fn where
  | pf
  | vf (k : Nat)
  deriving DecidableEq, Repr

/-- The register file that a host or sideband write names (R448, R460). -/
inductive HostPort where
  | bar0 (fn : Fn)
  | i3c
  deriving DecidableEq, Repr

/-- One constructor per row of the opcode table. -/
inductive Instr where
  -- Lane integer and data movement, R91
  | add (h : Head) (t : Ty) (sat : Bool) (d : Reg) (a : SrcA) (b : SrcB)
  | sub (h : Head) (t : Ty) (sat : Bool) (d : Reg) (a : SrcA) (b : SrcB)
  | adds (h : Head) (t : Ty) (sat : Bool) (d : Reg) (a : SrcA) (b : SrcB)
  | subs (h : Head) (t : Ty) (sat : Bool) (d : Reg) (a : SrcA) (b : SrcB)
  | mul (h : Head) (t : Ty) (sat : Bool) (d : Reg) (a : SrcA) (b : SrcB)
  | mulh (h : Head) (t : Ty) (d : Reg) (a : SrcA) (b : SrcB)
  | mad (h : Head) (t : Ty) (sat : Bool) (d : Reg) (a : SrcA) (b : SrcB) (c : Reg)
  | min (h : Head) (t : Ty) (d : Reg) (a : SrcA) (b : SrcB)
  | max (h : Head) (t : Ty) (d : Reg) (a : SrcA) (b : SrcB)
  | abs (h : Head) (t : Ty) (sat : Bool) (d : Reg) (a : SrcA)
  | neg (h : Head) (t : Ty) (sat : Bool) (d : Reg) (a : SrcA)
  | and (h : Head) (t : Ty) (d : Reg) (a : SrcA) (b : SrcB)
  | or (h : Head) (t : Ty) (d : Reg) (a : SrcA) (b : SrcB)
  | xor (h : Head) (t : Ty) (d : Reg) (a : SrcA) (b : SrcB)
  | andn (h : Head) (t : Ty) (d : Reg) (a : SrcA) (b : SrcB)
  | not (h : Head) (t : Ty) (d : Reg) (a : SrcA)
  | shl (h : Head) (t : Ty) (d : Reg) (a : SrcA) (b : SrcB)
  | shr (h : Head) (t : Ty) (d : Reg) (a : SrcA) (b : SrcB)
  | sar (h : Head) (t : Ty) (d : Reg) (a : SrcA) (b : SrcB)
  | rol (h : Head) (t : Ty) (d : Reg) (a : SrcA) (b : SrcB)
  | bfx (h : Head) (t : Ty) (d : Reg) (a : SrcA) (b : SrcB)
  | bfi (h : Head) (t : Ty) (d : Reg) (a : SrcA) (b : SrcB)
  | popc (h : Head) (t : Ty) (d : Reg) (a : SrcA)
  | clz (h : Head) (t : Ty) (d : Reg) (a : SrcA)
  | brev (h : Head) (t : Ty) (d : Reg) (a : SrcA)
  | sel (h : Head) (t : Ty) (d : Reg) (a : SrcA) (b : SrcB) (pc : PReg)
  | mov (h : Head) (t : Ty) (d : Reg) (b : SrcB)
  | movs (h : Head) (t : Ty) (d : Reg) (a : SrcA) (b : SrcB)
  | shfl (h : Head) (mode : ShflMode) (t : Ty) (d : Reg) (a : SrcA) (b : SrcB)
  | vote (h : Head) (d : Reg) (pa : PReg)
  | reds (h : Head) (rop : RedOp) (t : Ty) (d : Reg) (a : SrcA)
  | scan (h : Head) (rop : RedOp) (excl : Bool) (t : Ty) (d : Reg) (a : SrcA)
  | addi (h : Head) (d : Reg) (ra : Reg) (imm9 : BitVec 9)
  | widf (h : Head) (lvl : BitVec 4) (d : Reg)
  -- Floating point and conversion, R93
  | fadd (h : Head) (t : Ty) (rnd : Rnd) (d : Reg) (a : SrcA) (b : SrcB)
  | fsub (h : Head) (t : Ty) (rnd : Rnd) (d : Reg) (a : SrcA) (b : SrcB)
  | fmul (h : Head) (t : Ty) (rnd : Rnd) (d : Reg) (a : SrcA) (b : SrcB)
  | fma (h : Head) (t : Ty) (rnd : Rnd) (d : Reg) (a : SrcA) (b : SrcB) (c : Reg)
  | fmin (h : Head) (t : Ty) (d : Reg) (a : SrcA) (b : SrcB)
  | fmax (h : Head) (t : Ty) (d : Reg) (a : SrcA) (b : SrcB)
  | fabs (h : Head) (t : Ty) (d : Reg) (a : SrcA)
  | fneg (h : Head) (t : Ty) (d : Reg) (a : SrcA)
  | fdiv (h : Head) (t : Ty) (rnd : Rnd) (d : Reg) (a : SrcA) (b : SrcB)
  | fsqrt (h : Head) (t : Ty) (rnd : Rnd) (d : Reg) (a : SrcA)
  | frcp (h : Head) (t : Ty) (rnd : Rnd) (d : Reg) (a : SrcA)
  | frsq (h : Head) (t : Ty) (rnd : Rnd) (d : Reg) (a : SrcA)
  | fexp2 (h : Head) (t : Ty) (rnd : Rnd) (d : Reg) (a : SrcA)
  | flog2 (h : Head) (t : Ty) (rnd : Rnd) (d : Reg) (a : SrcA)
  | fscale (h : Head) (t : Ty) (rnd : Rnd) (d : Reg) (a : SrcA) (b : SrcB)
  | frnd (h : Head) (t : Ty) (rnd : Rnd) (d : Reg) (a : SrcA)
  | fclass (h : Head) (t : Ty) (d : Reg) (a : SrcA)
  | cvt (h : Head) (t : Ty) (src : Ty) (rnd : Rnd) (sat : Bool) (d : Reg) (a : SrcA)
  | qpack (h : Head) (t : Ty) (sat : Bool) (d : Reg) (a : SrcA) (b : SrcB)
  | qunpk (h : Head) (t : Ty) (rnd : Rnd) (d : Reg) (a : SrcA) (b : SrcB)
  | amax (h : Head) (d : Reg) (a : SrcA)
  -- Compare and predicates, R94
  | cmp (h : Head) (cond : Cond) (wide : Bool) (pd : PReg) (pe : Option PReg) (a : SrcA) (b : SrcB)
  | fcmp (h : Head) (cond : Cond) (t : Ty) (pd : PReg) (pe : Option PReg) (a : SrcA) (b : SrcB)
  | pand (h : Head) (pd : PReg) (pa : PReg) (pb : PReg)
  | por (h : Head) (pd : PReg) (pa : PReg) (pb : PReg)
  | pxor (h : Head) (pd : PReg) (pa : PReg) (pb : PReg)
  | pnot (h : Head) (pd : PReg) (pa : PReg)
  | pmask (h : Head) (pd : PReg) (a : SrcA)
  | pset (h : Head) (val : Bool) (pd : PReg)
  -- Scalar, R95
  | sadd (h : Head) (d : Reg) (a : SrcA) (b : SrcB)
  | ssub (h : Head) (d : Reg) (a : SrcA) (b : SrcB)
  | smul (h : Head) (d : Reg) (a : SrcA) (b : SrcB)
  | smulh (h : Head) (t : Ty) (d : Reg) (a : SrcA) (b : SrcB)
  | sdiv (h : Head) (t : Ty) (d : Reg) (a : SrcA) (b : SrcB)
  | srem (h : Head) (t : Ty) (d : Reg) (a : SrcA) (b : SrcB)
  | sand (h : Head) (d : Reg) (a : SrcA) (b : SrcB)
  | sor (h : Head) (d : Reg) (a : SrcA) (b : SrcB)
  | sxor (h : Head) (d : Reg) (a : SrcA) (b : SrcB)
  | sshl (h : Head) (d : Reg) (a : SrcA) (b : SrcB)
  | sshr (h : Head) (d : Reg) (a : SrcA) (b : SrcB)
  | ssar (h : Head) (d : Reg) (a : SrcA) (b : SrcB)
  | smov (h : Head) (d : Reg) (b : SrcB)
  | slea (h : Head) (scale : BitVec 2) (disp : W32) (d : Reg) (a : SrcA) (b : SrcB)
  | smin (h : Head) (t : Ty) (d : Reg) (a : SrcA) (b : SrcB)
  | smax (h : Head) (t : Ty) (d : Reg) (a : SrcA) (b : SrcB)
  | scmp (h : Head) (cond : Cond) (pd : PReg) (pe : Option PReg) (a : SrcA) (b : SrcB)
  | sbfx (h : Head) (t : Ty) (d : Reg) (a : SrcA) (b : SrcB)
  | sbfi (h : Head) (d : Reg) (a : SrcA) (b : SrcB)
  | sclz (h : Head) (d : Reg) (a : SrcA)
  | spopc (h : Head) (d : Reg) (a : SrcA)
  | sfmul (h : Head) (rnd : Rnd) (d : Reg) (a : SrcA) (b : SrcB)
  | sfadd (h : Head) (rnd : Rnd) (d : Reg) (a : SrcA) (b : SrcB)
  | sfma (h : Head) (rnd : Rnd) (d : Reg) (a : SrcA) (b : SrcB) (c : Reg)
  | saddi (h : Head) (d : Reg) (ra : Reg) (imm9 : BitVec 9)
  -- Local control, R97
  | br (h : Head) (off : BitVec 14)
  | brl (h : Head) (off : BitVec 14)
  | brx (h : Head) (ra : Reg)
  | ret (h : Head)
  | pushm (h : Head) (pa : PReg)
  | elsem (h : Head) (pa : PReg)
  | popm (h : Head)
  | brany (h : Head) (pa : PReg) (off : BitVec 14)
  | brall (h : Head) (pa : PReg) (off : BitVec 14)
  | loop (h : Head) (d : Reg) (off : BitVec 14)
  -- Memory, R98
  | ld (h : Head) (t : Ty) (d : Reg) (m : Addr)
  | st (h : Head) (t : Ty) (d : Reg) (m : Addr)
  | lds (h : Head) (t : Ty) (d : Reg) (m : Addr)
  | sts (h : Head) (t : Ty) (d : Reg) (m : Addr)
  | ldq (h : Head) (t : Ty) (sform : Bool) (ord : Order) (qd : PReg) (m : Addr)
  | stx (h : Head) (t : Ty) (ord : Order) (d : Reg) (m : Addr)
  | qpop (h : Head) (t : Ty) (toS : Bool) (d : Reg) (q : QReg)
  | qpeek (h : Head) (t : Ty) (toS : Bool) (d : Reg) (q : QReg)
  | qstat (h : Head) (d : Reg) (q : QReg)
  | qdrop (h : Head) (q : QReg)
  | tagl (h : Head) (d : Reg) (ra : Reg)
  | tagw (h : Head) (ra : Reg) (b : SrcB)
  | tagi (h : Head) (tsub : TagSub) (ra : Reg) (b : SrcB)
  | atom (h : Head) (aop : AtomOp) (t : Ty) (d : Reg) (m : Addr) (c : Reg) (e : Reg)
  | atomx (h : Head) (aop : AtomOp) (t : Ty) (ord : Order) (qd : PReg) (m : Addr) (c : Reg) (e : Reg)
  | fence (h : Head) (scope : Scope)
  -- Strands, R100
  | jfar (h : Head) (toS : Bool) (ra : Reg) (live : W32)
  | cfar (h : Head) (toS : Bool) (ra : Reg) (live : W32)
  | rfar (h : Head) (live : W32)
  | fork (h : Head) (ra : Reg) (b : SrcB) (c : Reg) (live : W32)
  | exit (h : Head)
  | yield (h : Head) (live : W32)
  | send (h : Head) (cls : BitVec 5) (ra : Reg) (b : SrcB)
  -- Channels, R100
  | chbind (h : Head) (rdr : Bool) (qc : QReg) (ra : Reg)
  | chw (h : Head) (vec : Bool) (qc : QReg) (ra : Reg)
  | chclose (h : Head) (qc : QReg)
  | chstat (h : Head) (d : Reg) (qc : QReg)
  | chunbind (h : Head) (qc : QReg)
  -- Barriers, R100
  | barc (h : Head) (bar : BitVec 6) (ra : Reg)
  | bara (h : Head) (bar : BitVec 6) (ord : Order)
  | barw (h : Head) (bar : BitVec 6) (ord : Order)
  | bart (h : Head) (bar : BitVec 6) (ord : Order) (pd : PReg)
  | gang (h : Head) (scope : Scope)
  -- Steps and time, R100
  | step (h : Head) (ra : Reg) (b : SrcB) (c : Reg)
  | stepend (h : Head)
  | slack (h : Head) (d : Reg)
  | sleept (h : Head) (ra : Reg)
  -- Matrix, R101
  | tdset (h : Head) (w : BitVec 2) (td : BitVec 6) (ra : Reg)
  | tdget (h : Head) (w : BitVec 2) (td : BitVec 6) (d : Reg)
  | mma (h : Head) (ta : Ty) (tb : BitVec 2) (acc : AReg) (tda : BitVec 6) (tdb : BitVec 6)
  | accz (h : Head) (acc : AReg)
  | accld (h : Head) (t : Ty) (acc : AReg) (ra : Reg)
  | accst (h : Head) (t : Ty) (rnd : Rnd) (sat : Bool) (acc : AReg) (ra : Reg)
  -- Tile walk, R101
  | twset (h : Head) (fld : PReg) (ra : Reg)
  | twgo (h : Head) (ord : Order) (d : Reg)
  | twmap (h : Head) (d : Reg) (ra : Reg) (b : SrcB)
  | twtest (h : Head) (ord : Order) (pd : PReg) (ra : Reg) (b : SrcB)
  | twwait (h : Head) (all : Bool) (ord : Order) (ra : Reg) (b : SrcB)
  -- System, R101
  | nop (h : Head)
  | trap (h : Head) (code : W32)
  | svc (h : Head) (code : W32)
  | mfs (h : Head) (sreg : BitVec 6) (d : Reg)
  | mts (h : Head) (sreg : BitVec 6) (ra : Reg)
  | ckpt (h : Head)
  | brk (h : Head) (code : W32)
  -- Prefix, R67
  | once (cluster : Bool)
  -- Steps of the device that no instruction word encodes
  | inboxArrival (i : Nat)
  | setFormation (cell : Nat)
  | gatherWindowExpiry (cell : Nat) (entry : PC)
  | startMessage (i : Nat)
  | startAck (i : Nat)
  | bankWrite (cell : Nat)
  | homeAccess (i : Nat)
  | queueResponse (i : Nat)
  | stxErrorResponse (i : Nat)
  | sendRefused (i : Nat)
  | resumeNotification (i : Nat)
  | targetSwitchedOut (cell : Nat) (target : Nat)
  | countIncrement (i : Nat)
  | forkAck (i : Nat)
  | forkChildInject (cell : Nat) (ctx : Nat)
  | countDecrement (i : Nat)
  | jobDone (i : Nat)
  | barrierArrival (i : Nat)
  | barrierStateReply (i : Nat)
  | phaseUpdate (i : Nat)
  | joinMatch (wire : Wire)
  | mmaRetire (row : Nat)
  | twChunkComplete (cell : Nat) (slot : Nat)
  | twHandlePush (cell : Nat) (slot : Nat)
  | twFault (cell : Nat) (slot : Nat)
  | twWriteRefused (i : Nat)
  | channelElementArrival (i : Nat)
  | channelRefill (cell : Nat) (chan : Nat)
  | closeMarkArrival (i : Nat)
  | roomNotification (i : Nat)
  | inboxRefill (cell : Nat)
  | poolAppend (i : Nat)
  | poolPopRequest (i : Nat)
  | poolRingRefill (die : Nat) (lane : Nat)
  | sluiceSample (part : Nat)
  | replayStart (part : Nat) (reg : Nat)
  | nodeStart (part : Nat) (reg : Nat) (node : Nat)
  | copyComplete (part : Nat) (reg : Nat) (node : Nat)
  | replayEnd (part : Nat) (reg : Nat)
  | slotArm (die : Nat) (slot : Nat)
  | reserveContexts (i : Nat)
  | dispatchRelease (die : Nat)
  | stationInject (cluster : Nat)
  | class0Reserve (cell : Nat)
  | displacement (cell : Nat)
  | displacedRestore (cell : Nat)
  | watchdog (cell : Nat) (ctx : Nat)
  | preemptRequest (i : Nat)
  | preemptStopped (cell : Nat)
  | cellResume (cell : Nat)
  | sleeptWake (cell : Nat) (ctx : Nat)
  | fenceTimeout (cell : Nat) (ctx : Nat)
  | stepRegistration (i : Nat)
  | stepRetirement (i : Nat)
  | workReport (i : Nat)
  | governorPeriod (part : Nat)
  | clusterBid (i : Nat)
  | weirClear
  | grantArrival (i : Nat)
  | meterWindow (cluster : Nat)
  | railStep (rail : Nat)
  | quiesceDrained (part : Nat)
  | quiesceTimeout (part : Nat)
  | promenadeCopyDone (cell : Nat)
  | tlbFillRequest (i : Nat)
  | tlbFillReply (i : Nat)
  | invalidation (i : Nat)
  | invalidationComplete (id : Nat)
  | svcVersion (i : Nat)
  | svcInvalPage (i : Nat)
  | svcInvalAsid (i : Nat)
  | svcMap (i : Nat)
  | svcUnmap (i : Nat)
  | svcQuote (i : Nat)
  | faultRecord (i : Nat)
  | verdict (i : Nat)
  | jobDrop (i : Nat)
  | ckptTimeout (part : Nat)
  | hookWindowExpiry
  | reelShed (port : Nat)
  | reelRetrainTimer (port : Nat)
  | writeAcknowledgement (i : Nat)
  | tailraceReadLanded (i : Nat)
  | walkerTimeLimit (i : Nat)
  | entdaa
  | powerRemoval
  -- Those that the world outside brings, and the decoding failure
  | kick (part : Nat) (reg : Nat) (value : W64)
  | thermalSample (phys : Nat) (temp : Nat)
  | cellQuarantine (cell : Nat) (err : CellError) (ctx : Option Nat) (words accs : List Nat)
  | hbmError (pa : Nat) (corrected : Bool)
  | partitionStop (err : StopError) (parts : List Nat)
  | machineCheck
  | partCreate (fn : Fn) (cmd0 : W64)
  | partDestroy (fn : Fn) (cmd0 : W64)
  | partSetRail (fn : Fn) (cmd0 : W64)
  | partSetFaultsrv (fn : Fn) (cmd0 : W64)
  | partPreempt (fn : Fn) (cmd0 : W64)
  | partResume (fn : Fn) (cmd0 : W64)
  | asidAlloc (fn : Fn) (cmd0 : W64)
  | asidRelease (fn : Fn) (cmd0 : W64)
  | memMap (fn : Fn) (cmd0 : W64)
  | attestQuote (fn : Fn) (cmd0 : W64)
  | attestPublicKey (fn : Fn) (cmd0 : W64)
  | graphLoad (fn : Fn) (cmd0 : W64)
  | graphUnload (fn : Fn) (cmd0 : W64)
  | ckptPart (fn : Fn) (cmd0 : W64)
  | ckptDevice (fn : Fn) (cmd0 : W64)
  | restorePart (fn : Fn) (cmd0 : W64)
  | debugHalt (fn : Fn) (cmd0 : W64)
  | debugResume (fn : Fn) (cmd0 : W64)
  | traceConfig (fn : Fn) (cmd0 : W64)
  | powerCapSet (fn : Fn) (cmd0 : W64)
  | queryIdentity (fn : Fn) (cmd0 : W64)
  | queryPartitionStatus (fn : Fn) (cmd0 : W64)
  | queryViolationLog (fn : Fn) (cmd0 : W64)
  | queryReelPorts (fn : Fn) (cmd0 : W64)
  | reelBind (fn : Fn) (cmd0 : W64)
  | reelUnbind (fn : Fn) (cmd0 : W64)
  | unknownOpcode (fn : Fn) (cmd0 : W64)
  | verdictDoorbell (part : Nat) (payload : W64)
  | devreset (value : W32)
  | i3cReset (value : W32)
  | hooklen (value : W32)
  | powerGood
  | bar2Access (fn : Fn) (off : Nat) (size : Nat) (write : Option W64)
  | registerWrite (port : HostPort) (off : Nat) (value : W64)
  | reelFlitReceive (port : Nat) (flit : List Byte)
  | reelControlFlit (port : Nat) (ack : BitVec 12)
  | reelRetrainDone (port : Nat) (lanes : Nat)
  | scratchCorrected (cell : Nat)
  | illegalEncoding
  deriving DecidableEq, Repr

end Sys2Proof
end

