-- ==== Sys2Proof/WellFormed.lean ====
section
/-! DEFINITION. Which instructions a word can encode: the operand ranges of R53, R54, R57 to R66 and R90 to R102, one
arm per constructor. The steps that no word encodes have no operands to check. -/

namespace Sys2Proof

/-- A 64-bit type names register pairs (R54). -/
def Ty.wide : Ty → Bool
  | .s64 | .n64 | .b64 => true
  | _ => false
/-- The untyped types B32 and B64. -/
def Ty.isB : Ty → Bool
  | .b32 | .b64 => true
  | _ => false
/-- Type set I6. -/
def Ty.i6 : Ty → Bool
  | .b32 | .s32 | .n32 | .b64 | .s64 | .n64 => true
  | _ => false
/-- Type set I4. -/
def Ty.i4 : Ty → Bool
  | .s32 | .n32 | .s64 | .n64 => true
  | _ => false
/-- Type set BB. -/
def Ty.bb : Ty → Bool
  | .b32 | .b64 => true
  | _ => false
/-- The types of ABS and NEG. -/
def Ty.sx : Ty → Bool
  | .s32 | .s64 => true
  | _ => false
/-- The types of MOVS. -/
def Ty.mv : Ty → Bool
  | .b32 | .s32 | .b64 => true
  | _ => false
/-- The one type of VOTE. -/
def Ty.b32only : Ty → Bool
  | .b32 => true
  | _ => false
/-- Type set SZ. -/
def Ty.sz : Ty → Bool
  | .s8 | .n8 | .s16 | .n16 | .b32 | .b64 => true
  | _ => false
/-- Type set FL3. -/
def Ty.fl3 : Ty → Bool
  | .f | .h | .bf => true
  | _ => false
/-- Type set FL2. -/
def Ty.fl2 : Ty → Bool
  | .f | .h => true
  | _ => false
/-- The one type of AMAX and of the scalar floating-point instructions. -/
def Ty.fonly : Ty → Bool
  | .f => true
  | _ => false
/-- The types of QPACK and QUNPK. -/
def Ty.f8 : Ty → Bool
  | .e4 | .e5 => true
  | _ => false
/-- The types of CVT, codes 1 to 13. -/
def Ty.cv : Ty → Bool
  | .b32 | .b64 => false
  | _ => true
/-- The types of the 64-bit scalar instructions. -/
def Ty.sn64 : Ty → Bool
  | .s64 | .n64 => true
  | _ => false

/-- The conditions that FCMP accepts (R55). -/
def Cond.isFloat : Cond → Bool
  | .ltn | .len | .gtn | .gen => false
  | _ => true

/-- An even register, as a pair is named (R53). -/
def evenReg (r : Reg) : Bool := !r.getLsbD 0
/-- A multiple of 4, as a vector of R159 is named. -/
def quadReg (r : Reg) : Bool := !r.getLsbD 0 && !r.getLsbD 1

/-- Whether source A is a register. -/
def SrcA.isReg : SrcA → Bool
  | .reg _ => true
  | .queue _ => false
/-- A source A that names a pair where the type is 64 bits wide. -/
def SrcA.pairOk (wide : Bool) : SrcA → Bool
  | .reg r => !wide || evenReg r
  | .queue _ => true
/-- A source A that names a vector of R159. -/
def SrcA.quadOk : SrcA → Bool
  | .reg r => quadReg r
  | .queue _ => true

/-- A source B that names a pair where the type is 64 bits wide. -/
def SrcB.pairOk (wide : Bool) : SrcB → Bool
  | .reg r => !wide || evenReg r
  | .lit _ => true
/-- A literal of a 32-bit operand has zero in bits [63:32] (R65). -/
def SrcB.litOk (wide : Bool) : SrcB → Bool
  | .reg _ => true
  | .lit v => wide || v.extractLsb' 32 32 == 0

/-- An address operand that a word encodes; `scalar` says that the index is a scalar register (R64). -/
def Addr.ok (scalar : Bool) (m : Addr) : Bool :=
  (!m.noIdx || m.idx == .reg 0) && m.idx.litOk scalar
/-- The address operands of the short form (R64). -/
def Addr.short (m : Addr) : Bool := !m.noIdx && m.scale == 0 && m.disp == 0

/-- ADD, MIN and MAX, which the untyped types do not take (R99). -/
def AtomOp.isArith : AtomOp → Bool
  | .add | .min | .max => true
  | _ => false

/-- The second destination of a compare differs from the first, unless both are number 7 (R61). -/
def secondOk (pd : PReg) : Option PReg → Bool
  | none => true
  | some pe => pe != pd || pd == 7

/-- The type pairs of MMA (R101). -/
def mmaPair : Ty → BitVec 2 → Bool
  | .e4, tb | .e5, tb => tb != 3
  | .bf, tb | .s8, tb => tb == 0
  | _, _ => false

/-- Scope codes 0 and 1, as GANG takes them (R60). -/
def Scope.near : Scope → Bool
  | .cell | .cluster => true
  | _ => false

/-- The instructions that words encode. -/
def Instr.wf : Instr → Bool
  | .add h t sat d a b => t.i6 && (!t.wide || evenReg d) && a.pairOk t.wide && b.litOk t.wide && b.pairOk t.wide && (!sat || !t.isB) && (h.ext || (a.isReg && !sat))
  | .sub h t sat d a b => t.i6 && (!t.wide || evenReg d) && a.pairOk t.wide && b.litOk t.wide && b.pairOk t.wide && (!sat || !t.isB) && (h.ext || (a.isReg && !sat))
  | .adds h t sat d a b => t.i6 && (!t.wide || evenReg d) && a.pairOk t.wide && b.litOk t.wide && (!sat || !t.isB) && (h.ext || (a.isReg && !sat))
  | .subs h t sat d a b => t.i6 && (!t.wide || evenReg d) && a.pairOk t.wide && b.litOk t.wide && (!sat || !t.isB) && (h.ext || (a.isReg && !sat))
  | .mul h t sat d a b => t.i6 && (!t.wide || evenReg d) && a.pairOk t.wide && b.litOk t.wide && b.pairOk t.wide && (!sat || !t.isB) && (h.ext || (a.isReg && !sat))
  | .mulh h t d a b => t.i4 && (!t.wide || evenReg d) && a.pairOk t.wide && b.litOk t.wide && b.pairOk t.wide && (h.ext || a.isReg)
  | .mad h t sat d a b c => t.i6 && (!t.wide || evenReg d) && a.pairOk t.wide && b.litOk t.wide && b.pairOk t.wide && (!sat || !t.isB) && (!t.wide || evenReg c) && (h.ext || (c == 0 && a.isReg && !sat))
  | .min h t d a b => t.i4 && (!t.wide || evenReg d) && a.pairOk t.wide && b.litOk t.wide && b.pairOk t.wide && (h.ext || a.isReg)
  | .max h t d a b => t.i4 && (!t.wide || evenReg d) && a.pairOk t.wide && b.litOk t.wide && b.pairOk t.wide && (h.ext || a.isReg)
  | .abs h t sat d a => t.sx && (!t.wide || evenReg d) && a.pairOk t.wide && (!sat || !t.isB) && (h.ext || (a.isReg && !sat))
  | .neg h t sat d a => t.sx && (!t.wide || evenReg d) && a.pairOk t.wide && (!sat || !t.isB) && (h.ext || (a.isReg && !sat))
  | .and h t d a b => t.bb && (!t.wide || evenReg d) && a.pairOk t.wide && b.litOk t.wide && b.pairOk t.wide && (h.ext || a.isReg)
  | .or h t d a b => t.bb && (!t.wide || evenReg d) && a.pairOk t.wide && b.litOk t.wide && b.pairOk t.wide && (h.ext || a.isReg)
  | .xor h t d a b => t.bb && (!t.wide || evenReg d) && a.pairOk t.wide && b.litOk t.wide && b.pairOk t.wide && (h.ext || a.isReg)
  | .andn h t d a b => t.bb && (!t.wide || evenReg d) && a.pairOk t.wide && b.litOk t.wide && b.pairOk t.wide && (h.ext || a.isReg)
  | .not h t d a => t.bb && (!t.wide || evenReg d) && a.pairOk t.wide && (h.ext || a.isReg)
  | .shl h t d a b => t.bb && (!t.wide || evenReg d) && a.pairOk t.wide && b.litOk false && (h.ext || a.isReg)
  | .shr h t d a b => t.bb && (!t.wide || evenReg d) && a.pairOk t.wide && b.litOk false && (h.ext || a.isReg)
  | .sar h t d a b => t.bb && (!t.wide || evenReg d) && a.pairOk t.wide && b.litOk false && (h.ext || a.isReg)
  | .rol h t d a b => t.bb && (!t.wide || evenReg d) && a.pairOk t.wide && b.litOk false && (h.ext || a.isReg)
  | .bfx h t d a b => t.i4 && (!t.wide || evenReg d) && a.pairOk t.wide && b.litOk false && (h.ext || a.isReg)
  | .bfi h t d a b => t.bb && (!t.wide || evenReg d) && a.pairOk t.wide && b.litOk false && (h.ext || a.isReg)
  | .popc h t _ a => t.bb && a.pairOk t.wide && (h.ext || a.isReg)
  | .clz h t _ a => t.bb && a.pairOk t.wide && (h.ext || a.isReg)
  | .brev h t d a => t.bb && (!t.wide || evenReg d) && a.pairOk t.wide && (h.ext || a.isReg)
  | .sel h t d a b pc => t.bb && (!t.wide || evenReg d) && a.pairOk t.wide && b.litOk t.wide && b.pairOk t.wide && (h.ext || (pc == 0 && a.isReg))
  | .mov _ t d b => t.bb && (!t.wide || evenReg d) && b.litOk t.wide && b.pairOk t.wide
  | .movs h t _ a _ => t.mv && a.pairOk t.wide && (h.ext || a.isReg)
  | .shfl h mode t d a b => t.bb && (!t.wide || evenReg d) && a.pairOk t.wide && b.litOk false && (h.ext || (a.isReg && mode == .indexed))
  | .vote _ _ _ => true
  | .reds h rop t _ a => t.i6 && a.pairOk t.wide && (h.ext || (a.isReg && rop == .add))
  | .scan h rop excl t d a => t.i6 && (!t.wide || evenReg d) && a.pairOk t.wide && (h.ext || (a.isReg && rop == .add && !excl))
  | .addi _ _ _ _ => true
  | .widf _ lvl d => lvl.toNat < 6 && evenReg d
  | .fadd h t rnd _ a b => t.fl3 && b.litOk false && (h.ext || (a.isReg && rnd == .fpctl))
  | .fsub h t rnd _ a b => t.fl3 && b.litOk false && (h.ext || (a.isReg && rnd == .fpctl))
  | .fmul h t rnd _ a b => t.fl3 && b.litOk false && (h.ext || (a.isReg && rnd == .fpctl))
  | .fma h t rnd _ a b c => t.fl3 && b.litOk false && (h.ext || (c == 0 && a.isReg && rnd == .fpctl))
  | .fmin h t _ a b => t.fl3 && b.litOk false && (h.ext || a.isReg)
  | .fmax h t _ a b => t.fl3 && b.litOk false && (h.ext || a.isReg)
  | .fabs h t _ a => t.fl3 && (h.ext || a.isReg)
  | .fneg h t _ a => t.fl3 && (h.ext || a.isReg)
  | .fdiv h t rnd _ a b => t.fl2 && b.litOk false && (h.ext || (a.isReg && rnd == .fpctl))
  | .fsqrt h t rnd _ a => t.fl2 && (h.ext || (a.isReg && rnd == .fpctl))
  | .frcp h t rnd _ a => t.fl2 && (h.ext || (a.isReg && rnd == .fpctl))
  | .frsq h t rnd _ a => t.fl2 && (h.ext || (a.isReg && rnd == .fpctl))
  | .fexp2 h t rnd _ a => t.fl2 && (h.ext || (a.isReg && rnd == .fpctl))
  | .flog2 h t rnd _ a => t.fl2 && (h.ext || (a.isReg && rnd == .fpctl))
  | .fscale h t rnd _ a b => t.fl3 && b.litOk false && (h.ext || (a.isReg && rnd == .fpctl))
  | .frnd h t rnd _ a => t.fl3 && (h.ext || (a.isReg && rnd == .fpctl))
  | .fclass h t _ a => t.fl3 && (h.ext || a.isReg)
  | .cvt h t src rnd _ d a => t.cv && (!t.wide || evenReg d) && a.pairOk src.wide && (rnd == .fpctl || !(t == .e4 || t == .e5)) && src.cv && h.ext
  | .qpack h t sat _ a b => t.f8 && a.quadOk && b.litOk false && (h.ext || (a.isReg && !sat))
  | .qunpk h t rnd d a b => t.f8 && quadReg d && b.litOk false && (h.ext || (a.isReg && rnd == .fpctl))
  | .amax h _ a => a.quadOk && (h.ext || a.isReg)
  | .cmp h _ wide pd pe a b => a.pairOk wide && b.litOk wide && b.pairOk wide && secondOk pd pe && (h.ext || (pe == none && a.isReg && !wide))
  | .fcmp h cond t pd pe a b => cond.isFloat && b.litOk false && secondOk pd pe && t.fl3 && (h.ext || (pe == none && a.isReg && t == .f))
  | .pand _ _ _ _ => true
  | .por _ _ _ _ => true
  | .pxor _ _ _ _ => true
  | .pnot _ _ _ => true
  | .pmask h _ a => (h.ext || a.isReg)
  | .pset _ _ _ => true
  | .sadd h _ a _ => (h.ext || a.isReg)
  | .ssub h _ a _ => (h.ext || a.isReg)
  | .smul h _ a _ => (h.ext || a.isReg)
  | .smulh h t _ a _ => t.sn64 && (h.ext || a.isReg)
  | .sdiv h t _ a _ => t.sn64 && (h.ext || a.isReg)
  | .srem h t _ a _ => t.sn64 && (h.ext || a.isReg)
  | .sand h _ a _ => (h.ext || a.isReg)
  | .sor h _ a _ => (h.ext || a.isReg)
  | .sxor h _ a _ => (h.ext || a.isReg)
  | .sshl h _ a _ => (h.ext || a.isReg)
  | .sshr h _ a _ => (h.ext || a.isReg)
  | .ssar h _ a _ => (h.ext || a.isReg)
  | .smov _ _ _ => true
  | .slea h scale disp _ a _ => (h.ext || (a.isReg && scale == 0 && disp == 0))
  | .smin h t _ a _ => t.sn64 && (h.ext || a.isReg)
  | .smax h t _ a _ => t.sn64 && (h.ext || a.isReg)
  | .scmp h _ pd pe a _ => secondOk pd pe && (h.ext || (pe == none && a.isReg))
  | .sbfx h t _ a b => t.sn64 && b.litOk false && (h.ext || a.isReg)
  | .sbfi h _ a b => b.litOk false && (h.ext || a.isReg)
  | .sclz h _ a => (h.ext || a.isReg)
  | .spopc h _ a => (h.ext || a.isReg)
  | .sfmul h rnd _ a b => b.litOk false && (h.ext || (a.isReg && rnd == .fpctl))
  | .sfadd h rnd _ a b => b.litOk false && (h.ext || (a.isReg && rnd == .fpctl))
  | .sfma h rnd _ a b c => b.litOk false && (h.ext || (c == 0 && a.isReg && rnd == .fpctl))
  | .saddi _ _ _ _ => true
  | .br _ _ => true
  | .brl _ _ => true
  | .brx _ _ => true
  | .ret _ => true
  | .pushm h _ => (!h.neg && h.idx == 7)
  | .elsem h _ => (!h.neg && h.idx == 7)
  | .popm h => (!h.neg && h.idx == 7)
  | .brany _ _ _ => true
  | .brall _ _ _ => true
  | .loop _ _ _ => true
  | .ld h t d m => t.sz && (!t.wide || evenReg d) && m.ok false && (h.ext || m.short)
  | .st h t d m => t.sz && (!t.wide || evenReg d) && m.ok false && (h.ext || m.short)
  | .lds h t _ m => t.sz && m.ok true && (h.ext || m.short)
  | .sts h t _ m => t.sz && m.ok true && (h.ext || m.short)
  | .ldq h t sform ord _ m => t.sz && m.ok false && (!sform || m.noIdx) && !ord.rel && (h.ext || (m.short && !sform && ord == ⟨false, false, .cell⟩))
  | .stx h t ord d m => t.sz && (!t.wide || evenReg d) && m.ok false && !ord.acq && (h.ext || (m.short && ord == ⟨false, false, .cell⟩))
  | .qpop h t toS d _ => t.bb && (toS || !t.wide || evenReg d) && (h.ext || !toS)
  | .qpeek h t toS d _ => t.bb && (toS || !t.wide || evenReg d) && (h.ext || !toS)
  | .qstat _ _ _ => true
  | .qdrop _ _ => true
  | .tagl _ _ ra => evenReg ra
  | .tagw _ _ _ => true
  | .tagi h tsub ra b => (tsub == .region || b == .reg 0) && (tsub != .all || ra == 0) && (h.ext || tsub == .one)
  | .atom h aop t d m c e => t.i6 && (!t.wide || evenReg d) && m.ok false && (!t.wide || evenReg c) && (if aop == .cas then !t.wide || evenReg e else e == 0) && !(t.isB && aop.isArith) && (h.ext || (m.short && c == 0 && aop == .add && e == 0))
  | .atomx h aop t ord _ m c e => t.i6 && m.ok false && (!t.wide || evenReg c) && (if aop == .cas then !t.wide || evenReg e else e == 0) && !(t.isB && aop.isArith) && (h.ext || (m.short && c == 0 && aop == .add && e == 0 && ord == ⟨false, false, .cell⟩))
  | .fence h scope => (h.ext || scope == .cell)
  | .jfar h toS ra live => (toS || evenReg ra) && (h.ext || (!toS && live == 0))
  | .cfar h toS ra live => (toS || evenReg ra) && (h.ext || (!toS && live == 0))
  | .rfar h live => (h.ext || live == 0)
  | .fork h _ _ c live => evenReg c && (h.ext || (c == 0 && live == 0))
  | .exit _ => true
  | .yield h live => (h.ext || live == 0)
  | .send h cls _ _ => cls != 7 && (h.ext || cls == 0)
  | .chbind h rdr qc _ => qc.getLsbD 3 && (h.ext || !rdr)
  | .chw h vec qc ra => (!vec || evenReg ra) && qc.getLsbD 3 && (h.ext || !vec)
  | .chclose _ qc => qc.getLsbD 3
  | .chstat _ _ qc => qc.getLsbD 3
  | .chunbind _ qc => qc.getLsbD 3
  | .barc h bar _ => (h.ext || bar == 0)
  | .bara h bar ord => (!ord.acq && ord.scope != .system) && (h.ext || (ord == ⟨false, false, .cell⟩ && bar == 0))
  | .barw h bar ord => (!ord.rel && ord.scope != .system) && (h.ext || (ord == ⟨false, false, .cell⟩ && bar == 0))
  | .bart h bar ord _ => (!ord.rel && ord.scope != .system) && (h.ext || (ord == ⟨false, false, .cell⟩ && bar == 0))
  | .gang h scope => scope.near && (h.ext || scope == .cell)
  | .step h _ _ c => (h.ext || c == 0)
  | .stepend _ => true
  | .slack _ _ => true
  | .sleept _ _ => true
  | .tdset h w td _ => (h.ext || (w == 0 && td == 0))
  | .tdget h w td _ => (h.ext || (w == 0 && td == 0))
  | .mma h ta tb _ _ _ => mmaPair ta tb && h.ext
  | .accz _ _ => true
  | .accld h t _ _ => (t == .s32 || t == .f) && h.ext
  | .accst h t _ _ _ _ => (t == .s32 || t == .f || t == .h || t == .bf) && h.ext
  | .twset h fld _ => (h.ext || fld == 0)
  | .twgo h ord _ => !ord.acq && (h.ext || ord == ⟨false, false, .cell⟩)
  | .twmap _ _ _ _ => true
  | .twtest h ord _ _ _ => !ord.rel && (h.ext || ord == ⟨false, false, .cell⟩)
  | .twwait h all ord _ b => (!all || b == .reg 0) && !ord.rel && (h.ext || (ord == ⟨false, false, .cell⟩ && !all))
  | .nop _ => true
  | .trap h code => (h.ext || code == 0)
  | .svc h code => (h.ext || code == 0)
  | .mfs h sreg d => (sreg != 0 || evenReg d) && sreg.toNat ≤ 0x18 && (h.ext || sreg == 0)
  | .mts h sreg _ => (sreg == 0x0D || sreg == 0x0E || sreg == 0x15 || sreg == 0x16) && (h.ext || sreg == 0)
  | .ckpt _ => true
  | .brk h code => (h.ext || code == 0)
  | .once _ => true
  | .inboxArrival _ => true
  | .setFormation _ => true
  | .gatherWindowExpiry _ _ => true
  | .startMessage _ => true
  | .startAck _ => true
  | .bankWrite _ => true
  | .homeAccess _ => true
  | .queueResponse _ => true
  | .stxErrorResponse _ => true
  | .sendRefused _ => true
  | .resumeNotification _ => true
  | .targetSwitchedOut _ _ => true
  | .countIncrement _ => true
  | .forkAck _ => true
  | .forkChildInject _ _ => true
  | .countDecrement _ => true
  | .jobDone _ => true
  | .barrierArrival _ => true
  | .barrierStateReply _ => true
  | .phaseUpdate _ => true
  | .joinMatch _ => true
  | .mmaRetire _ => true
  | .twChunkComplete _ _ => true
  | .twHandlePush _ _ => true
  | .twFault _ _ => true
  | .twWriteRefused _ => true
  | .channelElementArrival _ => true
  | .channelRefill _ _ => true
  | .closeMarkArrival _ => true
  | .roomNotification _ => true
  | .inboxRefill _ => true
  | .poolAppend _ => true
  | .poolPopRequest _ => true
  | .poolRingRefill _ _ => true
  | .sluiceSample _ => true
  | .kick _ _ _ => true
  | .replayStart _ _ => true
  | .nodeStart _ _ _ => true
  | .copyComplete _ _ _ => true
  | .replayEnd _ _ => true
  | .slotArm _ _ => true
  | .reserveContexts _ => true
  | .dispatchRelease _ => true
  | .stationInject _ => true
  | .class0Reserve _ => true
  | .displacement _ => true
  | .displacedRestore _ => true
  | .watchdog _ _ => true
  | .preemptRequest _ => true
  | .preemptStopped _ => true
  | .cellResume _ => true
  | .sleeptWake _ _ => true
  | .fenceTimeout _ _ => true
  | .stepRegistration _ => true
  | .stepRetirement _ => true
  | .workReport _ => true
  | .governorPeriod _ => true
  | .clusterBid _ => true
  | .weirClear => true
  | .grantArrival _ => true
  | .meterWindow _ => true
  | .railStep _ => true
  | .quiesceDrained _ => true
  | .quiesceTimeout _ => true
  | .thermalSample _ _ => true
  | .promenadeCopyDone _ => true
  | .tlbFillRequest _ => true
  | .tlbFillReply _ => true
  | .invalidation _ => true
  | .invalidationComplete _ => true
  | .svcVersion _ => true
  | .svcInvalPage _ => true
  | .svcInvalAsid _ => true
  | .svcMap _ => true
  | .svcUnmap _ => true
  | .svcQuote _ => true
  | .faultRecord _ => true
  | .verdict _ => true
  | .jobDrop _ => true
  | .cellQuarantine _ _ _ _ _ => true
  | .hbmError _ _ => true
  | .partitionStop _ _ => true
  | .machineCheck => true
  | .ckptTimeout _ => true
  | .partCreate _ _ => true
  | .partDestroy _ _ => true
  | .partSetRail _ _ => true
  | .partSetFaultsrv _ _ => true
  | .partPreempt _ _ => true
  | .partResume _ _ => true
  | .asidAlloc _ _ => true
  | .asidRelease _ _ => true
  | .memMap _ _ => true
  | .attestQuote _ _ => true
  | .attestPublicKey _ _ => true
  | .graphLoad _ _ => true
  | .graphUnload _ _ => true
  | .ckptPart _ _ => true
  | .ckptDevice _ _ => true
  | .restorePart _ _ => true
  | .debugHalt _ _ => true
  | .debugResume _ _ => true
  | .traceConfig _ _ => true
  | .powerCapSet _ _ => true
  | .queryIdentity _ _ => true
  | .queryPartitionStatus _ _ => true
  | .queryViolationLog _ _ => true
  | .queryReelPorts _ _ => true
  | .reelBind _ _ => true
  | .reelUnbind _ _ => true
  | .verdictDoorbell _ _ => true
  | .devreset _ => true
  | .i3cReset _ => true
  | .hooklen _ => true
  | .hookWindowExpiry => true
  | .powerGood => true
  | .bar2Access _ _ _ _ => true
  | .registerWrite _ _ _ => true
  | .reelFlitReceive _ _ => true
  | .reelControlFlit _ _ => true
  | .reelShed _ => true
  | .reelRetrainDone _ _ => true
  | .reelRetrainTimer _ => true
  | .illegalEncoding => true
  | .unknownOpcode _ _ => true
  | .writeAcknowledgement _ => true
  | .tailraceReadLanded _ => true
  | .scratchCorrected _ => true
  | .walkerTimeLimit _ => true
  | .entdaa => true
  | .powerRemoval => true

/-- Whether words of the instruction store encode it; the steps of the device are not encoded. -/
def Instr.hasWord : Instr → Bool
  | .inboxArrival _ => false
  | .setFormation _ => false
  | .gatherWindowExpiry _ _ => false
  | .startMessage _ => false
  | .startAck _ => false
  | .bankWrite _ => false
  | .homeAccess _ => false
  | .queueResponse _ => false
  | .stxErrorResponse _ => false
  | .sendRefused _ => false
  | .resumeNotification _ => false
  | .targetSwitchedOut _ _ => false
  | .countIncrement _ => false
  | .forkAck _ => false
  | .forkChildInject _ _ => false
  | .countDecrement _ => false
  | .jobDone _ => false
  | .barrierArrival _ => false
  | .barrierStateReply _ => false
  | .phaseUpdate _ => false
  | .joinMatch _ => false
  | .mmaRetire _ => false
  | .twChunkComplete _ _ => false
  | .twHandlePush _ _ => false
  | .twFault _ _ => false
  | .twWriteRefused _ => false
  | .channelElementArrival _ => false
  | .channelRefill _ _ => false
  | .closeMarkArrival _ => false
  | .roomNotification _ => false
  | .inboxRefill _ => false
  | .poolAppend _ => false
  | .poolPopRequest _ => false
  | .poolRingRefill _ _ => false
  | .sluiceSample _ => false
  | .kick _ _ _ => false
  | .replayStart _ _ => false
  | .nodeStart _ _ _ => false
  | .copyComplete _ _ _ => false
  | .replayEnd _ _ => false
  | .slotArm _ _ => false
  | .reserveContexts _ => false
  | .dispatchRelease _ => false
  | .stationInject _ => false
  | .class0Reserve _ => false
  | .displacement _ => false
  | .displacedRestore _ => false
  | .watchdog _ _ => false
  | .preemptRequest _ => false
  | .preemptStopped _ => false
  | .cellResume _ => false
  | .sleeptWake _ _ => false
  | .fenceTimeout _ _ => false
  | .stepRegistration _ => false
  | .stepRetirement _ => false
  | .workReport _ => false
  | .governorPeriod _ => false
  | .clusterBid _ => false
  | .weirClear => false
  | .grantArrival _ => false
  | .meterWindow _ => false
  | .railStep _ => false
  | .quiesceDrained _ => false
  | .quiesceTimeout _ => false
  | .thermalSample _ _ => false
  | .promenadeCopyDone _ => false
  | .tlbFillRequest _ => false
  | .tlbFillReply _ => false
  | .invalidation _ => false
  | .invalidationComplete _ => false
  | .svcVersion _ => false
  | .svcInvalPage _ => false
  | .svcInvalAsid _ => false
  | .svcMap _ => false
  | .svcUnmap _ => false
  | .svcQuote _ => false
  | .faultRecord _ => false
  | .verdict _ => false
  | .jobDrop _ => false
  | .cellQuarantine _ _ _ _ _ => false
  | .hbmError _ _ => false
  | .partitionStop _ _ => false
  | .machineCheck => false
  | .ckptTimeout _ => false
  | .partCreate _ _ => false
  | .partDestroy _ _ => false
  | .partSetRail _ _ => false
  | .partSetFaultsrv _ _ => false
  | .partPreempt _ _ => false
  | .partResume _ _ => false
  | .asidAlloc _ _ => false
  | .asidRelease _ _ => false
  | .memMap _ _ => false
  | .attestQuote _ _ => false
  | .attestPublicKey _ _ => false
  | .graphLoad _ _ => false
  | .graphUnload _ _ => false
  | .ckptPart _ _ => false
  | .ckptDevice _ _ => false
  | .restorePart _ _ => false
  | .debugHalt _ _ => false
  | .debugResume _ _ => false
  | .traceConfig _ _ => false
  | .powerCapSet _ _ => false
  | .queryIdentity _ _ => false
  | .queryPartitionStatus _ _ => false
  | .queryViolationLog _ _ => false
  | .queryReelPorts _ _ => false
  | .reelBind _ _ => false
  | .reelUnbind _ _ => false
  | .verdictDoorbell _ _ => false
  | .devreset _ => false
  | .i3cReset _ => false
  | .hooklen _ => false
  | .hookWindowExpiry => false
  | .powerGood => false
  | .bar2Access _ _ _ _ => false
  | .registerWrite _ _ _ => false
  | .reelFlitReceive _ _ => false
  | .reelControlFlit _ _ => false
  | .reelShed _ => false
  | .reelRetrainDone _ _ => false
  | .reelRetrainTimer _ => false
  | .illegalEncoding => false
  | .unknownOpcode _ _ => false
  | .writeAcknowledgement _ => false
  | .tailraceReadLanded _ => false
  | .scratchCorrected _ => false
  | .walkerTimeLimit _ => false
  | .entdaa => false
  | .powerRemoval => false
  | _ => true

end Sys2Proof
end

