-- ==== Sys2Proof/Decode.lean ====
section
/-! DEFINITION. Decoding (R48 to R70, R87 to R104): the words at the program counter give an instruction and its length,
or the first check of R70 that fails. The encoder stands at the end. -/

namespace Sys2Proof

/-- The decoding checks of R70 that words alone can fail, in their order; PRIVILEGED depends on the context. -/
inductive DecodeError where
  | istoreBounds | illegalEncoding | reservedField | registerRange | literalMisuse | prefixMisuse
  deriving DecidableEq, Repr

/-- What decoding answers: an instruction and its length in words, or the failed check. -/
inductive Decoded where
  | ok (i : Instr) (n : Nat)
  | bad (e : DecodeError)
  deriving DecidableEq, Repr

/-- Extension words E0 and E1 (R57). All zero is what the short form stands for (R58). -/
structure Ext where
  res : BitVec 3 := 0
  scope : BitVec 3 := 0
  rel : Bool := false
  acq : Bool := false
  rnd : BitVec 2 := 0
  sat : Bool := false
  xq : Bool := false
  qa : BitVec 4 := 0
  xf : BitVec 6 := 0
  e : BitVec 5 := 0
  c : BitVec 5 := 0
  e1 : W32 := 0
  deriving DecidableEq, Repr

/-- The fields of an instruction's words: the base word (R50), the extension and the literal (R48). -/
structure Raw where
  f : BitVec 4 := 0
  b : BitVec 5 := 0
  a : BitVec 5 := 0
  d : BitVec 5 := 0
  op : BitVec 7
  neg : Bool := false
  idx : BitVec 3 := 0
  ext : Option Ext := none
  lit : Option W64 := none
  deriving DecidableEq, Repr

/-- The register class of an operand field (R53). -/
inductive Cls where
  | unused | any | even | quad | low3 | chan | low4 | acc
  deriving DecidableEq, Repr

/-- What an opcode's row uses (R90). `lit` is whether a literal may replace B, and whether all of its 64 bits count;
`az`, `bz` and `fz` say that a field must be zero in this form. -/
structure Row where
  d : Cls := .unused
  a : Cls := .unused
  b : Cls := .unused
  c : Cls := .unused
  e : Cls := .unused
  lit : Option Bool := none
  q : Bool := false
  rnd : Bool := false
  sat : Bool := false
  acq : Bool := false
  rel : Bool := false
  scopes : Nat := 1
  xf : Bool
  e1 : W32 := 0
  guard : Bool := false
  dual : Bool := false
  az : Bool := false
  bz : Bool := false
  fz : Bool := false
  deriving DecidableEq, Repr

/-- A bit as a field of one bit. -/
def bit1 (x : Bool) : BitVec 1 := BitVec.ofBool x
/-- A bit at the low end of a four-bit field. -/
def bit4 (x : Bool) : BitVec 4 := if x then 1 else 0
/-- A bit at the low end of a six-bit field. -/
def bit6 (x : Bool) : BitVec 6 := if x then 1 else 0

/-- The words of an instruction, by LEN (R48). -/
def lenWords (len : BitVec 2) : Nat :=
  if len == 0 then 1 else if len == 3 then 5 else 3

/-- E0 (R57). -/
def Ext.ofWords (e0 e1 : W32) : Ext where
  res := e0.extractLsb' 29 3
  scope := e0.extractLsb' 26 3
  rel := e0.getLsbD 25
  acq := e0.getLsbD 24
  rnd := e0.extractLsb' 22 2
  sat := e0.getLsbD 21
  xq := e0.getLsbD 20
  qa := e0.extractLsb' 16 4
  xf := e0.extractLsb' 10 6
  e := e0.extractLsb' 5 5
  c := e0.extractLsb' 0 5
  e1 := e1

/-- E0 as a word. -/
def Ext.word (x : Ext) : W32 :=
  x.res ++ x.scope ++ bit1 x.rel ++ bit1 x.acq ++ x.rnd ++ bit1 x.sat ++ bit1 x.xq ++ x.qa ++ x.xf ++ x.e ++ x.c

/-- The fields of the base word (R50). -/
def Raw.ofBase (w : W32) (ext : Option Ext) (lit : Option W64) : Raw where
  f := w.extractLsb' 28 4
  b := w.extractLsb' 23 5
  a := w.extractLsb' 18 5
  d := w.extractLsb' 13 5
  op := w.extractLsb' 6 7
  neg := w.getLsbD 5
  idx := w.extractLsb' 2 3
  ext := ext
  lit := lit

/-- LEN: bit 0 says that an extension follows, bit 1 that a literal follows (R48). -/
def Raw.len (r : Raw) : BitVec 2 := bit1 r.lit.isSome ++ bit1 r.ext.isSome

/-- The base word. -/
def Raw.base (r : Raw) : W32 :=
  r.f ++ r.b ++ r.a ++ r.d ++ r.op ++ bit1 r.neg ++ r.idx ++ r.len

/-- The two words of a literal, the low word first (R65). -/
def litWords (v : W64) : List W32 := [v.extractLsb' 0 32, v.extractLsb' 32 32]

/-- The words in the order of R48. -/
def Raw.words (r : Raw) : List W32 :=
  match r.ext, r.lit with
  | none, none => [r.base]
  | some x, none => [r.base, x.word, x.e1]
  | none, some v => r.base :: litWords v
  | some x, some v => r.base :: x.word :: x.e1 :: litWords v

/-- The fields of the words that begin with w; none when the store ends before them (R49). -/
def Raw.ofWords (w : W32) (rest : List W32) : Option Raw :=
  match w.getLsbD 0, w.getLsbD 1, rest with
  | false, false, _ => some (.ofBase w none none)
  | true, false, e0 :: e1 :: _ => some (.ofBase w (some (.ofWords e0 e1)) none)
  | false, true, l0 :: l1 :: _ => some (.ofBase w none (some (l1 ++ l0)))
  | true, true, e0 :: e1 :: l0 :: l1 :: _ => some (.ofBase w (some (.ofWords e0 e1)) (some (l1 ++ l0)))
  | _, _, _ => none

/-- The extension, or what the short form stands for (R58). -/
def Raw.x (r : Raw) : Ext := r.ext.getD {}
/-- The guard and the form. -/
def Raw.head (r : Raw) : Head := ⟨r.neg, r.idx, r.ext.isSome⟩
/-- Source A (R62). -/
def Raw.srcA (r : Raw) : SrcA := if r.x.xq then .queue r.x.qa else .reg r.a
/-- Source B (R65). -/
def Raw.srcB (r : Raw) : SrcB :=
  match r.lit with
  | some v => .lit v
  | none => .reg r.b
/-- XF[0]. -/
def Raw.xf0 (r : Raw) : Bool := r.x.xf.getLsbD 0
/-- XF[2] of an addressed instruction (R64). -/
def Raw.noIdx (r : Raw) : Bool := r.x.xf.getLsbD 2
/-- The address operand (R64). -/
def Raw.addr (r : Raw) : Addr := ⟨r.a, r.noIdx, r.srcB, r.x.xf.extractLsb' 0 2, r.x.e1⟩
/-- The short immediate (R56). -/
def Raw.imm9 (r : Raw) : BitVec 9 := r.f ++ r.b
/-- The offset of the branch form (R96). -/
def Raw.off (r : Raw) : BitVec 14 := r.f ++ r.b ++ r.a
/-- The second destination of a compare (R61). -/
def Raw.second (r : Raw) : Option PReg := if r.x.c.getLsbD 3 then some (r.x.c.extractLsb' 0 3) else none

/-- Type codes (R54). -/
def Ty.code : Ty → BitVec 4
  | .b32 => 0 | .s32 => 1 | .n32 => 2 | .s64 => 3 | .n64 => 4 | .s16 => 5 | .n16 => 6 | .s8 => 7 | .n8 => 8
  | .f => 9 | .h => 10 | .bf => 11 | .e4 => 12 | .e5 => 13 | .b64 => 14
/-- The type of a code; 15 is reserved (R54). -/
def Ty.ofCode (c : BitVec 4) : Option Ty :=
  match c.toNat with
  | 0 => some .b32 | 1 => some .s32 | 2 => some .n32 | 3 => some .s64 | 4 => some .n64 | 5 => some .s16
  | 6 => some .n16 | 7 => some .s8 | 8 => some .n8 | 9 => some .f | 10 => some .h | 11 => some .bf
  | 12 => some .e4 | 13 => some .e5 | 14 => some .b64
  | _ => none
/-- The type of a code that a check has found assigned. -/
def Ty.ofCodeD (c : BitVec 4) : Ty := (Ty.ofCode c).getD .b32
/-- Whether a code names a 64-bit type. -/
def Ty.codeWide (c : BitVec 4) : Bool := (Ty.ofCodeD c).wide
/-- FCMP's operand types in XF (R55). -/
def Ty.ofFcmp (xf : BitVec 6) : Ty := if xf == 10 then .h else if xf == 11 then .bf else .f
/-- XF of FCMP (R55). -/
def fcmpCode : Ty → BitVec 6
  | .h => 10 | .bf => 11 | _ => 0

/-- Condition codes (R55). -/
def Cond.code : Cond → BitVec 4
  | .eq => 0 | .ne => 1 | .lt => 2 | .le => 3 | .gt => 4 | .ge => 5 | .ltn => 6 | .len => 7 | .gtn => 8 | .gen => 9
/-- The condition of a code; 10 to 15 are unassigned, and 6 to 9 for FCMP too (R55). -/
def Cond.ofCode (float : Bool) (c : BitVec 4) : Option Cond :=
  match c.toNat with
  | 0 => some .eq | 1 => some .ne | 2 => some .lt | 3 => some .le | 4 => some .gt | 5 => some .ge
  | 6 => if float then none else some .ltn
  | 7 => if float then none else some .len
  | 8 => if float then none else some .gtn
  | 9 => if float then none else some .gen
  | _ => none

/-- E0.RND (R57). -/
def Rnd.code : Rnd → BitVec 2
  | .fpctl => 0 | .rtz => 1 | .rup => 2 | .rdn => 3
/-- The rounding override of a code (R57). -/
def Rnd.ofCode (c : BitVec 2) : Rnd :=
  match c.toNat with
  | 1 => .rtz | 2 => .rup | 3 => .rdn | _ => .fpctl

/-- E0.SCOPE (R57). -/
def Scope.code : Scope → BitVec 3
  | .cell => 0 | .cluster => 1 | .die => 2 | .device => 3 | .system => 4
/-- The scope of a code; 5 to 7 are reserved (R57). -/
def Scope.ofCode (c : BitVec 3) : Scope :=
  match c.toNat with
  | 1 => .cluster | 2 => .die | 3 => .device | 4 => .system | _ => .cell
/-- The order fields (R60). -/
def Raw.order (r : Raw) : Order := ⟨r.x.acq, r.x.rel, Scope.ofCode r.x.scope⟩

/-- SHFL's XF (R92). -/
def ShflMode.code : ShflMode → BitVec 6
  | .indexed => 0 | .up => 1 | .down => 2 | .xor => 3
/-- The mode of SHFL's XF (R92). -/
def ShflMode.ofCode (xf : BitVec 6) : ShflMode :=
  match xf.toNat with
  | 1 => .up | 2 => .down | 3 => .xor | _ => .indexed

/-- XF[2:0] of REDS and SCAN (R92). -/
def RedOp.code : RedOp → BitVec 6
  | .add => 0 | .min => 1 | .max => 2 | .and => 3 | .or => 4 | .xor => 5
/-- The operation of REDS and SCAN (R92). -/
def RedOp.ofCode (c : BitVec 3) : RedOp :=
  match c.toNat with
  | 1 => .min | 2 => .max | 3 => .and | 4 => .or | 5 => .xor | _ => .add

/-- XF[5:3] of ATOM and ATOMX (R99). -/
def AtomOp.code : AtomOp → BitVec 3
  | .add => 0 | .and => 1 | .or => 2 | .xor => 3 | .min => 4 | .max => 5 | .swap => 6 | .cas => 7
/-- The operation of ATOM and ATOMX (R99). -/
def AtomOp.ofCode (c : BitVec 3) : AtomOp :=
  match c.toNat with
  | 1 => .and | 2 => .or | 3 => .xor | 4 => .min | 5 => .max | 6 => .swap | 7 => .cas | _ => .add
/-- Whether a code names ADD, MIN or MAX (R99). -/
def AtomOp.arith (c : BitVec 3) : Bool := (AtomOp.ofCode c).isArith

/-- XF[1:0] of TAGI (R99). -/
def TagSub.code : TagSub → BitVec 6
  | .one => 0 | .all => 1 | .region => 2
/-- The sub-operation of TAGI (R99). -/
def TagSub.ofCode (xf : BitVec 6) : TagSub :=
  match xf.toNat with
  | 1 => .all | 2 => .region | _ => .one

/-- Whether XF names a type pair of MMA (R101). -/
def mmaTypes (xf : BitVec 6) : Bool := mmaPair (Ty.ofCodeD (xf.extractLsb' 0 4)) (xf.extractLsb' 4 2)

/-- Whether a field holds a value of its class; unused fields are checked by checkReserved (R53). -/
def Cls.ok (k : Cls) (v : BitVec 5) : Bool :=
  match k with
  | .unused | .any => true
  | .even => evenReg v
  | .quad => quadReg v
  | .low3 => v.toNat < 8
  | .chan => 8 ≤ v.toNat && v.toNat < 16
  | .low4 => v.toNat < 16
  | .acc => v.toNat < 4
/-- The class of an operand that names a pair when the type is wide (R54). -/
def Cls.pairIf (wide : Bool) : Cls := if wide then .even else .any
/-- An unused field must be zero (R90). -/
def Cls.zeroOk (k : Cls) (v : BitVec 5) : Bool := k != .unused || v == 0

/-- A row whose F is a type of the given set; any other F is unassigned (R54, R90). -/
def withTy (r : Raw) (accepts : Ty → Bool) (k : Ty → Row × Instr) : Option (Row × Instr) :=
  match Ty.ofCode r.f with
  | some t => if accepts t then some (k t) else none
  | none => none
/-- A row whose F is a condition (R55). -/
def withCond (r : Raw) (float : Bool) (k : Cond → Row × Instr) : Option (Row × Instr) :=
  (Cond.ofCode float r.f).map k
/-- A row whose F lies below n (R90). -/
def withF (r : Raw) (n : Nat) (x : Row × Instr) : Option (Row × Instr) :=
  if r.f.toNat < n then some x else none

/-- The rows of the opcode map for lane integer and data movement, R91 and R92. -/
def laneRow (r : Raw) : Option (Row × Instr) :=
  match r.op.toNat with
  | 0x01 => withTy r Ty.i6 fun t =>
    ({ d := .pairIf t.wide, a := .pairIf t.wide, b := .pairIf t.wide, lit := some t.wide, q := true, sat := !t.isB,
       xf := r.x.xf == 0 }, .add r.head t r.x.sat r.d r.srcA r.srcB)
  | 0x02 => withTy r Ty.i6 fun t =>
    ({ d := .pairIf t.wide, a := .pairIf t.wide, b := .pairIf t.wide, lit := some t.wide, q := true, sat := !t.isB,
       xf := r.x.xf == 0 }, .sub r.head t r.x.sat r.d r.srcA r.srcB)
  | 0x03 => withTy r Ty.i6 fun t =>
    ({ d := .pairIf t.wide, a := .pairIf t.wide, b := .any, lit := some t.wide, q := true, sat := !t.isB, xf :=
       r.x.xf == 0 }, .adds r.head t r.x.sat r.d r.srcA r.srcB)
  | 0x04 => withTy r Ty.i6 fun t =>
    ({ d := .pairIf t.wide, a := .pairIf t.wide, b := .any, lit := some t.wide, q := true, sat := !t.isB, xf :=
       r.x.xf == 0 }, .subs r.head t r.x.sat r.d r.srcA r.srcB)
  | 0x05 => withTy r Ty.i6 fun t =>
    ({ d := .pairIf t.wide, a := .pairIf t.wide, b := .pairIf t.wide, lit := some t.wide, q := true, sat := !t.isB,
       xf := r.x.xf == 0 }, .mul r.head t r.x.sat r.d r.srcA r.srcB)
  | 0x06 => withTy r Ty.i4 fun t =>
    ({ d := .pairIf t.wide, a := .pairIf t.wide, b := .pairIf t.wide, lit := some t.wide, q := true, xf := r.x.xf ==
       0 }, .mulh r.head t r.d r.srcA r.srcB)
  | 0x07 => withTy r Ty.i6 fun t =>
    ({ d := .pairIf t.wide, a := .pairIf t.wide, b := .pairIf t.wide, lit := some t.wide, q := true, sat := !t.isB,
       c := .pairIf t.wide, xf := r.x.xf == 0 }, .mad r.head t r.x.sat r.d r.srcA r.srcB r.x.c)
  | 0x08 => withTy r Ty.i4 fun t =>
    ({ d := .pairIf t.wide, a := .pairIf t.wide, b := .pairIf t.wide, lit := some t.wide, q := true, xf := r.x.xf ==
       0 }, .min r.head t r.d r.srcA r.srcB)
  | 0x09 => withTy r Ty.i4 fun t =>
    ({ d := .pairIf t.wide, a := .pairIf t.wide, b := .pairIf t.wide, lit := some t.wide, q := true, xf := r.x.xf ==
       0 }, .max r.head t r.d r.srcA r.srcB)
  | 0x0A => withTy r Ty.sx fun t =>
    ({ d := .pairIf t.wide, a := .pairIf t.wide, q := true, sat := !t.isB, xf := r.x.xf == 0 }, .abs r.head t
       r.x.sat r.d r.srcA)
  | 0x0B => withTy r Ty.sx fun t =>
    ({ d := .pairIf t.wide, a := .pairIf t.wide, q := true, sat := !t.isB, xf := r.x.xf == 0 }, .neg r.head t
       r.x.sat r.d r.srcA)
  | 0x0C => withTy r Ty.bb fun t =>
    ({ d := .pairIf t.wide, a := .pairIf t.wide, b := .pairIf t.wide, lit := some t.wide, q := true, xf := r.x.xf ==
       0 }, .and r.head t r.d r.srcA r.srcB)
  | 0x0D => withTy r Ty.bb fun t =>
    ({ d := .pairIf t.wide, a := .pairIf t.wide, b := .pairIf t.wide, lit := some t.wide, q := true, xf := r.x.xf ==
       0 }, .or r.head t r.d r.srcA r.srcB)
  | 0x0E => withTy r Ty.bb fun t =>
    ({ d := .pairIf t.wide, a := .pairIf t.wide, b := .pairIf t.wide, lit := some t.wide, q := true, xf := r.x.xf ==
       0 }, .xor r.head t r.d r.srcA r.srcB)
  | 0x0F => withTy r Ty.bb fun t =>
    ({ d := .pairIf t.wide, a := .pairIf t.wide, b := .pairIf t.wide, lit := some t.wide, q := true, xf := r.x.xf ==
       0 }, .andn r.head t r.d r.srcA r.srcB)
  | 0x10 => withTy r Ty.bb fun t =>
    ({ d := .pairIf t.wide, a := .pairIf t.wide, q := true, xf := r.x.xf == 0 }, .not r.head t r.d r.srcA)
  | 0x11 => withTy r Ty.bb fun t =>
    ({ d := .pairIf t.wide, a := .pairIf t.wide, b := .any, lit := some false, q := true, xf := r.x.xf == 0 }, .shl
       r.head t r.d r.srcA r.srcB)
  | 0x12 => withTy r Ty.bb fun t =>
    ({ d := .pairIf t.wide, a := .pairIf t.wide, b := .any, lit := some false, q := true, xf := r.x.xf == 0 }, .shr
       r.head t r.d r.srcA r.srcB)
  | 0x13 => withTy r Ty.bb fun t =>
    ({ d := .pairIf t.wide, a := .pairIf t.wide, b := .any, lit := some false, q := true, xf := r.x.xf == 0 }, .sar
       r.head t r.d r.srcA r.srcB)
  | 0x14 => withTy r Ty.bb fun t =>
    ({ d := .pairIf t.wide, a := .pairIf t.wide, b := .any, lit := some false, q := true, xf := r.x.xf == 0 }, .rol
       r.head t r.d r.srcA r.srcB)
  | 0x15 => withTy r Ty.i4 fun t =>
    ({ d := .pairIf t.wide, a := .pairIf t.wide, b := .any, lit := some false, q := true, xf := r.x.xf == 0 }, .bfx
       r.head t r.d r.srcA r.srcB)
  | 0x16 => withTy r Ty.bb fun t =>
    ({ d := .pairIf t.wide, a := .pairIf t.wide, b := .any, lit := some false, q := true, xf := r.x.xf == 0 }, .bfi
       r.head t r.d r.srcA r.srcB)
  | 0x17 => withTy r Ty.bb fun t =>
    ({ d := .any, a := .pairIf t.wide, q := true, xf := r.x.xf == 0 }, .popc r.head t r.d r.srcA)
  | 0x18 => withTy r Ty.bb fun t =>
    ({ d := .any, a := .pairIf t.wide, q := true, xf := r.x.xf == 0 }, .clz r.head t r.d r.srcA)
  | 0x19 => withTy r Ty.bb fun t =>
    ({ d := .pairIf t.wide, a := .pairIf t.wide, q := true, xf := r.x.xf == 0 }, .brev r.head t r.d r.srcA)
  | 0x1A => withTy r Ty.bb fun t =>
    ({ d := .pairIf t.wide, a := .pairIf t.wide, b := .pairIf t.wide, lit := some t.wide, q := true, c := .low3, xf
       := r.x.xf == 0 }, .sel r.head t r.d r.srcA r.srcB (r.x.c.extractLsb' 0 3))
  | 0x1B => withTy r Ty.bb fun t =>
    ({ d := .pairIf t.wide, b := .pairIf t.wide, lit := some t.wide, xf := r.x.xf == 0 }, .mov r.head t r.d r.srcB)
  | 0x1C => withTy r Ty.mv fun t =>
    ({ d := .any, a := .pairIf t.wide, b := .any, lit := some true, q := true, xf := r.x.xf == 0 }, .movs r.head t
       r.d r.srcA r.srcB)
  | 0x1D => withTy r Ty.bb fun t =>
    ({ d := .pairIf t.wide, a := .pairIf t.wide, b := .any, lit := some false, q := true, xf := decide (r.x.xf.toNat
       < 4) }, .shfl r.head (ShflMode.ofCode r.x.xf) t r.d r.srcA r.srcB)
  | 0x1E => withTy r Ty.b32only fun _ =>
    ({ d := .any, a := .low3, xf := r.x.xf == 0 }, .vote r.head r.d (r.a.extractLsb' 0 3))
  | 0x1F => withTy r Ty.i6 fun t =>
    ({ d := .any, a := .pairIf t.wide, q := true, xf := decide (r.x.xf.toNat < 6) }, .reds r.head (RedOp.ofCode
       (r.x.xf.extractLsb' 0 3)) t r.d r.srcA)
  | 0x20 => withTy r Ty.i6 fun t =>
    ({ d := .pairIf t.wide, a := .pairIf t.wide, q := true, xf := decide (r.x.xf.toNat < 16) && decide (r.x.xf.toNat
       % 8 < 6) }, .scan r.head (RedOp.ofCode (r.x.xf.extractLsb' 0 3)) (r.x.xf.getLsbD 3) t r.d r.srcA)
  | 0x21 => some ({ d := .any, a := .any, b := .any, xf := r.x.xf == 0 }, .addi r.head r.d r.a r.imm9)
  | 0x22 => withF r 6 ({ d := .even, xf := r.x.xf == 0 }, .widf r.head r.f r.d)
  | _ => none

/-- The rows of the opcode map for floating point and conversion, R93. -/
def floatRow (r : Raw) : Option (Row × Instr) :=
  match r.op.toNat with
  | 0x24 => withTy r Ty.fl3 fun t =>
    ({ d := .any, a := .any, b := .any, lit := some false, q := true, rnd := true, xf := r.x.xf == 0 }, .fadd r.head
       t (Rnd.ofCode r.x.rnd) r.d r.srcA r.srcB)
  | 0x25 => withTy r Ty.fl3 fun t =>
    ({ d := .any, a := .any, b := .any, lit := some false, q := true, rnd := true, xf := r.x.xf == 0 }, .fsub r.head
       t (Rnd.ofCode r.x.rnd) r.d r.srcA r.srcB)
  | 0x26 => withTy r Ty.fl3 fun t =>
    ({ d := .any, a := .any, b := .any, lit := some false, q := true, rnd := true, xf := r.x.xf == 0 }, .fmul r.head
       t (Rnd.ofCode r.x.rnd) r.d r.srcA r.srcB)
  | 0x27 => withTy r Ty.fl3 fun t =>
    ({ d := .any, a := .any, b := .any, lit := some false, q := true, rnd := true, c := .any, xf := r.x.xf == 0 },
       .fma r.head t (Rnd.ofCode r.x.rnd) r.d r.srcA r.srcB r.x.c)
  | 0x28 => withTy r Ty.fl3 fun t =>
    ({ d := .any, a := .any, b := .any, lit := some false, q := true, xf := r.x.xf == 0 }, .fmin r.head t r.d r.srcA
       r.srcB)
  | 0x29 => withTy r Ty.fl3 fun t =>
    ({ d := .any, a := .any, b := .any, lit := some false, q := true, xf := r.x.xf == 0 }, .fmax r.head t r.d r.srcA
       r.srcB)
  | 0x2A => withTy r Ty.fl3 fun t => ({ d := .any, a := .any, q := true, xf := r.x.xf == 0 }, .fabs r.head t r.d r.srcA)
  | 0x2B => withTy r Ty.fl3 fun t => ({ d := .any, a := .any, q := true, xf := r.x.xf == 0 }, .fneg r.head t r.d r.srcA)
  | 0x2C => withTy r Ty.fl2 fun t =>
    ({ d := .any, a := .any, b := .any, lit := some false, q := true, rnd := true, xf := r.x.xf == 0 }, .fdiv r.head
       t (Rnd.ofCode r.x.rnd) r.d r.srcA r.srcB)
  | 0x2D => withTy r Ty.fl2 fun t =>
    ({ d := .any, a := .any, q := true, rnd := true, xf := r.x.xf == 0 }, .fsqrt r.head t (Rnd.ofCode r.x.rnd) r.d
       r.srcA)
  | 0x2E => withTy r Ty.fl2 fun t =>
    ({ d := .any, a := .any, q := true, rnd := true, xf := r.x.xf == 0 }, .frcp r.head t (Rnd.ofCode r.x.rnd) r.d
       r.srcA)
  | 0x2F => withTy r Ty.fl2 fun t =>
    ({ d := .any, a := .any, q := true, rnd := true, xf := r.x.xf == 0 }, .frsq r.head t (Rnd.ofCode r.x.rnd) r.d
       r.srcA)
  | 0x30 => withTy r Ty.fl2 fun t =>
    ({ d := .any, a := .any, q := true, rnd := true, xf := r.x.xf == 0 }, .fexp2 r.head t (Rnd.ofCode r.x.rnd) r.d
       r.srcA)
  | 0x31 => withTy r Ty.fl2 fun t =>
    ({ d := .any, a := .any, q := true, rnd := true, xf := r.x.xf == 0 }, .flog2 r.head t (Rnd.ofCode r.x.rnd) r.d
       r.srcA)
  | 0x32 => withTy r Ty.fl3 fun t =>
    ({ d := .any, a := .any, b := .any, lit := some false, q := true, rnd := true, xf := r.x.xf == 0 }, .fscale
       r.head t (Rnd.ofCode r.x.rnd) r.d r.srcA r.srcB)
  | 0x33 => withTy r Ty.fl3 fun t =>
    ({ d := .any, a := .any, q := true, rnd := true, xf := r.x.xf == 0 }, .frnd r.head t (Rnd.ofCode r.x.rnd) r.d
       r.srcA)
  | 0x34 => withTy r Ty.fl3 fun t =>
    ({ d := .any, a := .any, q := true, xf := r.x.xf == 0 }, .fclass r.head t r.d r.srcA)
  | 0x35 => withTy r Ty.cv fun t =>
    ({ d := .pairIf t.wide, a := .pairIf (Ty.codeWide (r.x.xf.extractLsb' 0 4)), q := true, rnd := !(t == .e4 || t
       == .e5), sat := true, xf := decide (1 ≤ r.x.xf.toNat) && decide (r.x.xf.toNat ≤ 13) }, .cvt r.head t
       (Ty.ofCodeD (r.x.xf.extractLsb' 0 4)) (Rnd.ofCode r.x.rnd) r.x.sat r.d r.srcA)
  | 0x36 => withTy r Ty.f8 fun t =>
    ({ d := .any, a := .quad, b := .any, lit := some false, q := true, sat := true, xf := r.x.xf == 0 }, .qpack
       r.head t r.x.sat r.d r.srcA r.srcB)
  | 0x37 => withTy r Ty.f8 fun t =>
    ({ d := .quad, a := .any, b := .any, lit := some false, q := true, rnd := true, xf := r.x.xf == 0 }, .qunpk
       r.head t (Rnd.ofCode r.x.rnd) r.d r.srcA r.srcB)
  | 0x38 => withTy r Ty.fonly fun _ =>
    ({ d := .any, a := .quad, q := true, xf := r.x.xf == 0 }, .amax r.head r.d r.srcA)
  | _ => none

/-- The rows of the opcode map for compare and predicates, R94. -/
def predRow (r : Raw) : Option (Row × Instr) :=
  match r.op.toNat with
  | 0x3A => withCond r false fun c =>
    ({ d := .low3, a := .pairIf (r.x.xf == 14), b := .pairIf (r.x.xf == 14), lit := some (r.x.xf == 14), q := true,
       c := .any, dual := true, xf := r.x.xf == 0 || r.x.xf == 14 }, .cmp r.head c (r.x.xf == 14) (r.d.extractLsb' 0
       3) r.second r.srcA r.srcB)
  | 0x3B => withCond r true fun c =>
    ({ d := .low3, a := .any, b := .any, lit := some false, q := true, c := .any, dual := true, xf := r.x.xf == 0 ||
       r.x.xf == 10 || r.x.xf == 11 }, .fcmp r.head c (Ty.ofFcmp r.x.xf) (r.d.extractLsb' 0 3) r.second r.srcA
       r.srcB)
  | 0x3C =>
    withF r 1 ({ d := .low3, a := .low3, b := .low3, xf := r.x.xf == 0 }, .pand r.head (r.d.extractLsb' 0 3)
            (r.a.extractLsb' 0 3) (r.b.extractLsb' 0 3))
  | 0x3D =>
    withF r 1 ({ d := .low3, a := .low3, b := .low3, xf := r.x.xf == 0 }, .por r.head (r.d.extractLsb' 0 3)
            (r.a.extractLsb' 0 3) (r.b.extractLsb' 0 3))
  | 0x3E =>
    withF r 1 ({ d := .low3, a := .low3, b := .low3, xf := r.x.xf == 0 }, .pxor r.head (r.d.extractLsb' 0 3)
            (r.a.extractLsb' 0 3) (r.b.extractLsb' 0 3))
  | 0x3F =>
    withF r 1 ({ d := .low3, a := .low3, xf := r.x.xf == 0 }, .pnot r.head (r.d.extractLsb' 0 3) (r.a.extractLsb' 0
            3))
  | 0x40 =>
    withF r 1 ({ d := .low3, a := .any, q := true, xf := r.x.xf == 0 }, .pmask r.head (r.d.extractLsb' 0 3) r.srcA)
  | 0x41 => withF r 2 ({ d := .low3, xf := r.x.xf == 0 }, .pset r.head (r.f == 1) (r.d.extractLsb' 0 3))
  | _ => none

/-- The rows of the opcode map for scalar, R95. -/
def scalarRow (r : Raw) : Option (Row × Instr) :=
  match r.op.toNat with
  | 0x44 =>
    withF r 1 ({ d := .any, a := .any, b := .any, lit := some true, q := true, xf := r.x.xf == 0 }, .sadd r.head r.d
            r.srcA r.srcB)
  | 0x45 =>
    withF r 1 ({ d := .any, a := .any, b := .any, lit := some true, q := true, xf := r.x.xf == 0 }, .ssub r.head r.d
            r.srcA r.srcB)
  | 0x46 =>
    withF r 1 ({ d := .any, a := .any, b := .any, lit := some true, q := true, xf := r.x.xf == 0 }, .smul r.head r.d
            r.srcA r.srcB)
  | 0x47 => withTy r Ty.sn64 fun t =>
    ({ d := .any, a := .any, b := .any, lit := some true, q := true, xf := r.x.xf == 0 }, .smulh r.head t r.d r.srcA
       r.srcB)
  | 0x48 => withTy r Ty.sn64 fun t =>
    ({ d := .any, a := .any, b := .any, lit := some true, q := true, xf := r.x.xf == 0 }, .sdiv r.head t r.d r.srcA
       r.srcB)
  | 0x49 => withTy r Ty.sn64 fun t =>
    ({ d := .any, a := .any, b := .any, lit := some true, q := true, xf := r.x.xf == 0 }, .srem r.head t r.d r.srcA
       r.srcB)
  | 0x4A =>
    withF r 1 ({ d := .any, a := .any, b := .any, lit := some true, q := true, xf := r.x.xf == 0 }, .sand r.head r.d
            r.srcA r.srcB)
  | 0x4B =>
    withF r 1 ({ d := .any, a := .any, b := .any, lit := some true, q := true, xf := r.x.xf == 0 }, .sor r.head r.d
            r.srcA r.srcB)
  | 0x4C =>
    withF r 1 ({ d := .any, a := .any, b := .any, lit := some true, q := true, xf := r.x.xf == 0 }, .sxor r.head r.d
            r.srcA r.srcB)
  | 0x4D =>
    withF r 1 ({ d := .any, a := .any, b := .any, lit := some true, q := true, xf := r.x.xf == 0 }, .sshl r.head r.d
            r.srcA r.srcB)
  | 0x4E =>
    withF r 1 ({ d := .any, a := .any, b := .any, lit := some true, q := true, xf := r.x.xf == 0 }, .sshr r.head r.d
            r.srcA r.srcB)
  | 0x4F =>
    withF r 1 ({ d := .any, a := .any, b := .any, lit := some true, q := true, xf := r.x.xf == 0 }, .ssar r.head r.d
            r.srcA r.srcB)
  | 0x50 => withF r 1 ({ d := .any, b := .any, lit := some true, xf := r.x.xf == 0 }, .smov r.head r.d r.srcB)
  | 0x51 =>
    withF r 1 ({ d := .any, a := .any, b := .any, lit := some true, q := true, xf := decide (r.x.xf.toNat < 4), e1
            := 0xFFFFFFFF }, .slea r.head (r.x.xf.extractLsb' 0 2) r.x.e1 r.d r.srcA r.srcB)
  | 0x52 => withTy r Ty.sn64 fun t =>
    ({ d := .any, a := .any, b := .any, lit := some true, q := true, xf := r.x.xf == 0 }, .smin r.head t r.d r.srcA
       r.srcB)
  | 0x53 => withTy r Ty.sn64 fun t =>
    ({ d := .any, a := .any, b := .any, lit := some true, q := true, xf := r.x.xf == 0 }, .smax r.head t r.d r.srcA
       r.srcB)
  | 0x54 => withCond r false fun c =>
    ({ d := .low3, a := .any, b := .any, lit := some true, q := true, c := .any, dual := true, xf := r.x.xf == 0 },
       .scmp r.head c (r.d.extractLsb' 0 3) r.second r.srcA r.srcB)
  | 0x55 => withTy r Ty.sn64 fun t =>
    ({ d := .any, a := .any, b := .any, lit := some false, q := true, xf := r.x.xf == 0 }, .sbfx r.head t r.d r.srcA
       r.srcB)
  | 0x56 =>
    withF r 1 ({ d := .any, a := .any, b := .any, lit := some false, q := true, xf := r.x.xf == 0 }, .sbfi r.head
            r.d r.srcA r.srcB)
  | 0x57 => withF r 1 ({ d := .any, a := .any, q := true, xf := r.x.xf == 0 }, .sclz r.head r.d r.srcA)
  | 0x58 => withF r 1 ({ d := .any, a := .any, q := true, xf := r.x.xf == 0 }, .spopc r.head r.d r.srcA)
  | 0x59 => withTy r Ty.fonly fun _ =>
    ({ d := .any, a := .any, b := .any, lit := some false, q := true, rnd := true, xf := r.x.xf == 0 }, .sfmul
       r.head (Rnd.ofCode r.x.rnd) r.d r.srcA r.srcB)
  | 0x5A => withTy r Ty.fonly fun _ =>
    ({ d := .any, a := .any, b := .any, lit := some false, q := true, rnd := true, xf := r.x.xf == 0 }, .sfadd
       r.head (Rnd.ofCode r.x.rnd) r.d r.srcA r.srcB)
  | 0x5B => withTy r Ty.fonly fun _ =>
    ({ d := .any, a := .any, b := .any, lit := some false, q := true, rnd := true, c := .any, xf := r.x.xf == 0 },
       .sfma r.head (Rnd.ofCode r.x.rnd) r.d r.srcA r.srcB r.x.c)
  | 0x5C => some ({ d := .any, a := .any, b := .any, xf := r.x.xf == 0 }, .saddi r.head r.d r.a r.imm9)
  | _ => none

/-- The rows of the opcode map for local control, R96 and R97. -/
def controlRow (r : Raw) : Option (Row × Instr) :=
  match r.op.toNat with
  | 0x5E => some ({ a := .any, b := .any, xf := r.x.xf == 0 }, .br r.head r.off)
  | 0x5F => some ({ a := .any, b := .any, xf := r.x.xf == 0 }, .brl r.head r.off)
  | 0x60 => some ({ a := .any, xf := r.x.xf == 0, fz := true }, .brx r.head r.a)
  | 0x61 => some ({ xf := r.x.xf == 0, fz := true }, .ret r.head)
  | 0x62 => some ({ a := .low3, guard := true, xf := r.x.xf == 0, fz := true }, .pushm r.head (r.a.extractLsb' 0 3))
  | 0x63 => some ({ a := .low3, guard := true, xf := r.x.xf == 0, fz := true }, .elsem r.head (r.a.extractLsb' 0 3))
  | 0x64 => some ({ guard := true, xf := r.x.xf == 0, fz := true }, .popm r.head)
  | 0x65 => some ({ d := .low3, a := .any, b := .any, xf := r.x.xf == 0 }, .brany r.head (r.d.extractLsb' 0 3) r.off)
  | 0x66 => some ({ d := .low3, a := .any, b := .any, xf := r.x.xf == 0 }, .brall r.head (r.d.extractLsb' 0 3) r.off)
  | 0x67 => some ({ d := .any, a := .any, b := .any, xf := r.x.xf == 0 }, .loop r.head r.d r.off)
  | _ => none

/-- The rows of the opcode map for memory, R98 and R99. -/
def memoryRow (r : Raw) : Option (Row × Instr) :=
  match r.op.toNat with
  | 0x68 => withTy r Ty.sz fun t =>
    ({ d := .pairIf t.wide, a := .any, b := .any, bz := r.noIdx, lit := if r.noIdx then none else some false, e1 :=
       0xFFFFFFFF, xf := decide (r.x.xf.toNat < 8) }, .ld r.head t r.d r.addr)
  | 0x69 => withTy r Ty.sz fun t =>
    ({ d := .pairIf t.wide, a := .any, b := .any, bz := r.noIdx, lit := if r.noIdx then none else some false, e1 :=
       0xFFFFFFFF, xf := decide (r.x.xf.toNat < 8) }, .st r.head t r.d r.addr)
  | 0x6A => withTy r Ty.sz fun t =>
    ({ d := .any, a := .any, b := .any, bz := r.noIdx, lit := if r.noIdx then none else some true, e1 := 0xFFFFFFFF,
       xf := decide (r.x.xf.toNat < 8) }, .lds r.head t r.d r.addr)
  | 0x6B => withTy r Ty.sz fun t =>
    ({ d := .any, a := .any, b := .any, bz := r.noIdx, lit := if r.noIdx then none else some true, e1 := 0xFFFFFFFF,
       xf := decide (r.x.xf.toNat < 8) }, .sts r.head t r.d r.addr)
  | 0x6C => withTy r Ty.sz fun t =>
    ({ d := .low3, a := .any, b := .any, bz := r.noIdx, lit := if r.noIdx then none else some false, e1 :=
       0xFFFFFFFF, xf := decide (r.x.xf.toNat < 16) && (!r.x.xf.getLsbD 3 || r.x.xf.getLsbD 2), acq := true, scopes
       := 5 }, .ldq r.head t (r.x.xf.getLsbD 3) r.order (r.d.extractLsb' 0 3) r.addr)
  | 0x6D => withTy r Ty.sz fun t =>
    ({ d := .pairIf t.wide, a := .any, b := .any, bz := r.noIdx, lit := if r.noIdx then none else some false, e1 :=
       0xFFFFFFFF, xf := decide (r.x.xf.toNat < 8), rel := true, scopes := 5 }, .stx r.head t r.order r.d r.addr)
  | 0x6E => withTy r Ty.bb fun t =>
    ({ d := if r.xf0 then .any else .pairIf t.wide, a := .low4, xf := decide (r.x.xf.toNat < 2) }, .qpop r.head t
       r.xf0 r.d (r.a.extractLsb' 0 4))
  | 0x6F => withTy r Ty.bb fun t =>
    ({ d := if r.xf0 then .any else .pairIf t.wide, a := .low4, xf := decide (r.x.xf.toNat < 2) }, .qpeek r.head t
       r.xf0 r.d (r.a.extractLsb' 0 4))
  | 0x70 => withF r 1 ({ d := .any, a := .low4, xf := r.x.xf == 0 }, .qstat r.head r.d (r.a.extractLsb' 0 4))
  | 0x71 => withF r 1 ({ a := .low4, xf := r.x.xf == 0 }, .qdrop r.head (r.a.extractLsb' 0 4))
  | 0x72 => withF r 1 ({ d := .any, a := .even, xf := r.x.xf == 0 }, .tagl r.head r.d r.a)
  | 0x73 => withF r 1 ({ a := .any, b := .any, lit := some true, xf := r.x.xf == 0 }, .tagw r.head r.a r.srcB)
  | 0x74 =>
    withF r 1 ({ a := .any, b := .any, bz := r.x.xf != 2, az := r.x.xf == 1, lit := if r.x.xf == 2 then some true
            else none, xf := decide (r.x.xf.toNat < 3) }, .tagi r.head (TagSub.ofCode r.x.xf) r.a r.srcB)
  | 0x75 => withTy r Ty.i6 fun t =>
    ({ d := .pairIf t.wide, a := .any, b := .any, bz := r.noIdx, lit := if r.noIdx then none else some false, e1 :=
       0xFFFFFFFF, xf := !(t.isB && AtomOp.arith (r.x.xf.extractLsb' 3 3)), c := .pairIf t.wide, e := if
       r.x.xf.extractLsb' 3 3 == 7 then .pairIf t.wide else .unused }, .atom r.head (AtomOp.ofCode
       (r.x.xf.extractLsb' 3 3)) t r.d r.addr r.x.c r.x.e)
  | 0x76 => withTy r Ty.i6 fun t =>
    ({ d := .low3, a := .any, b := .any, bz := r.noIdx, lit := if r.noIdx then none else some false, e1 :=
       0xFFFFFFFF, xf := !(t.isB && AtomOp.arith (r.x.xf.extractLsb' 3 3)), c := .pairIf t.wide, e := if
       r.x.xf.extractLsb' 3 3 == 7 then .pairIf t.wide else .unused, acq := true, rel := true, scopes := 5 }, .atomx
       r.head (AtomOp.ofCode (r.x.xf.extractLsb' 3 3)) t r.order (r.d.extractLsb' 0 3) r.addr r.x.c r.x.e)
  | 0x77 => withF r 1 ({ scopes := 5, xf := r.x.xf == 0 }, .fence r.head (Scope.ofCode r.x.scope))
  | _ => none

/-- The sub-operations of OP 0x78, strands (R89, R100, R101). -/
def group78 (r : Raw) : Option (Row × Instr) :=
  match r.f.toNat with
  | 0 =>
    some ({ a := if r.xf0 then .any else .even, xf := decide (r.x.xf.toNat < 2), e1 := 0xFFFFFFFF }, .jfar r.head
            r.xf0 r.a r.x.e1)
  | 1 =>
    some ({ a := if r.xf0 then .any else .even, xf := decide (r.x.xf.toNat < 2), e1 := 0xFFFFFFFF }, .cfar r.head
            r.xf0 r.a r.x.e1)
  | 2 => some ({ e1 := 0xFFFFFFFF, xf := r.x.xf == 0 }, .rfar r.head r.x.e1)
  | 3 =>
    some ({ a := .any, b := .any, lit := some true, c := .even, e1 := 0xFFFFFFFF, xf := r.x.xf == 0 }, .fork r.head
            r.a r.srcB r.x.c r.x.e1)
  | 4 => some ({ xf := r.x.xf == 0 }, .exit r.head)
  | 5 => some ({ e1 := 0xFFFFFFFF, xf := r.x.xf == 0 }, .yield r.head r.x.e1)
  | 6 =>
    some ({ a := .any, b := .any, lit := some true, xf := decide (r.x.xf.toNat < 32) && r.x.xf != 7 }, .send r.head
            (r.x.xf.extractLsb' 0 5) r.a r.srcB)
  | _ => none

/-- The sub-operations of OP 0x79, channels (R89, R100, R101). -/
def group79 (r : Raw) : Option (Row × Instr) :=
  match r.f.toNat with
  | 0 =>
    some ({ d := .chan, a := .any, xf := decide (r.x.xf.toNat < 2) }, .chbind r.head r.xf0 (r.d.extractLsb' 0 4)
            r.a)
  | 1 =>
    some ({ d := .chan, a := if r.xf0 then .even else .any, xf := decide (r.x.xf.toNat < 2) }, .chw r.head r.xf0
            (r.d.extractLsb' 0 4) r.a)
  | 2 => some ({ d := .chan, xf := r.x.xf == 0 }, .chclose r.head (r.d.extractLsb' 0 4))
  | 3 => some ({ d := .any, a := .chan, xf := r.x.xf == 0 }, .chstat r.head r.d (r.a.extractLsb' 0 4))
  | 4 => some ({ d := .chan, xf := r.x.xf == 0 }, .chunbind r.head (r.d.extractLsb' 0 4))
  | _ => none

/-- The sub-operations of OP 0x7A, barriers (R89, R100, R101). -/
def group7A (r : Raw) : Option (Row × Instr) :=
  match r.f.toNat with
  | 0 => some ({ a := .any, xf := true }, .barc r.head r.x.xf r.a)
  | 1 => some ({ xf := true, rel := true, scopes := 4 }, .bara r.head r.x.xf r.order)
  | 2 => some ({ xf := true, acq := true, scopes := 4 }, .barw r.head r.x.xf r.order)
  | 3 => some ({ d := .low3, xf := true, acq := true, scopes := 4 }, .bart r.head r.x.xf r.order (r.d.extractLsb' 0 3))
  | 4 => some ({ scopes := 2, xf := r.x.xf == 0 }, .gang r.head (Scope.ofCode r.x.scope))
  | _ => none

/-- The sub-operations of OP 0x7B, steps and time (R89, R100, R101). -/
def group7B (r : Raw) : Option (Row × Instr) :=
  match r.f.toNat with
  | 0 => some ({ a := .any, b := .any, lit := some true, c := .any, xf := r.x.xf == 0 }, .step r.head r.a r.srcB r.x.c)
  | 1 => some ({ xf := r.x.xf == 0 }, .stepend r.head)
  | 2 => some ({ d := .any, xf := r.x.xf == 0 }, .slack r.head r.d)
  | 3 => some ({ a := .any, xf := r.x.xf == 0 }, .sleept r.head r.a)
  | _ => none

/-- The sub-operations of OP 0x7C, matrix (R89, R100, R101). -/
def group7C (r : Raw) : Option (Row × Instr) :=
  match r.f.toNat with
  | 0 =>
    some ({ a := .any, xf := decide (r.x.xf.toNat < 4), e1 := 0x3F }, .tdset r.head (r.x.xf.extractLsb' 0 2)
            (r.x.e1.extractLsb' 0 6) r.a)
  | 1 =>
    some ({ d := .any, xf := decide (r.x.xf.toNat < 4), e1 := 0x3F }, .tdget r.head (r.x.xf.extractLsb' 0 2)
            (r.x.e1.extractLsb' 0 6) r.d)
  | 2 =>
    some ({ d := .acc, xf := mmaTypes r.x.xf, e1 := 0x3F3F }, .mma r.head (Ty.ofCodeD (r.x.xf.extractLsb' 0 4))
            (r.x.xf.extractLsb' 4 2) (r.d.extractLsb' 0 2) (r.x.e1.extractLsb' 0 6) (r.x.e1.extractLsb' 8 6))
  | 3 => some ({ d := .acc, xf := r.x.xf == 0 }, .accz r.head (r.d.extractLsb' 0 2))
  | 4 =>
    some ({ d := .acc, a := .any, xf := r.x.xf == 1 || r.x.xf == 9 }, .accld r.head (Ty.ofCodeD (r.x.xf.extractLsb'
            0 4)) (r.d.extractLsb' 0 2) r.a)
  | 5 =>
    some ({ d := .acc, a := .any, rnd := true, sat := true, xf := r.x.xf == 1 || r.x.xf == 9 || r.x.xf == 10 ||
            r.x.xf == 11 }, .accst r.head (Ty.ofCodeD (r.x.xf.extractLsb' 0 4)) (Rnd.ofCode r.x.rnd) r.x.sat
            (r.d.extractLsb' 0 2) r.a)
  | _ => none

/-- The sub-operations of OP 0x7D, tile walk (R89, R100, R101). -/
def group7D (r : Raw) : Option (Row × Instr) :=
  match r.f.toNat with
  | 0 => some ({ a := .any, xf := decide (r.x.xf.toNat < 8) }, .twset r.head (r.x.xf.extractLsb' 0 3) r.a)
  | 1 => some ({ d := .any, rel := true, scopes := 5, xf := r.x.xf == 0 }, .twgo r.head r.order r.d)
  | 2 => some ({ d := .any, a := .any, b := .any, lit := some true, xf := r.x.xf == 0 }, .twmap r.head r.d r.a r.srcB)
  | 3 =>
    some ({ d := .low3, a := .any, b := .any, lit := some true, acq := true, scopes := 5, xf := r.x.xf == 0 },
            .twtest r.head r.order (r.d.extractLsb' 0 3) r.a r.srcB)
  | 4 =>
    some ({ a := .any, b := .any, bz := r.xf0, lit := if r.xf0 then none else some true, xf := decide (r.x.xf.toNat
            < 2), acq := true, scopes := 5 }, .twwait r.head r.xf0 r.order r.a r.srcB)
  | _ => none

/-- The sub-operations of OP 0x7E, system (R89, R100, R101). -/
def group7E (r : Raw) : Option (Row × Instr) :=
  match r.f.toNat with
  | 0 => some ({ xf := r.x.xf == 0 }, .nop r.head)
  | 1 => some ({ e1 := 0xFFFFFFFF, xf := r.x.xf == 0 }, .trap r.head r.x.e1)
  | 2 => some ({ e1 := 0xFFFFFFFF, xf := r.x.xf == 0 }, .svc r.head r.x.e1)
  | 3 => some ({ d := if r.x.xf == 0 then .even else .any, xf := decide (r.x.xf.toNat ≤ 0x18) }, .mfs r.head r.x.xf r.d)
  | 4 =>
    some ({ a := .any, xf := r.x.xf == 0x0D || r.x.xf == 0x0E || r.x.xf == 0x15 || r.x.xf == 0x16 }, .mts r.head
            r.x.xf r.a)
  | 5 => some ({ xf := r.x.xf == 0 }, .ckpt r.head)
  | 6 => some ({ e1 := 0xFFFFFFFF, xf := r.x.xf == 0 }, .brk r.head r.x.e1)
  | _ => none

/-- The row of an opcode and the instruction it stands for; none for an unassigned OP, sub-operation, type or condition
(R87 to R89, check 2 of R70). -/
def rowOf (r : Raw) : Option (Row × Instr) :=
  let op := r.op.toNat
  if op < 0x24 then laneRow r
  else if op < 0x3A then floatRow r
  else if op < 0x44 then predRow r
  else if op < 0x5E then scalarRow r
  else if op < 0x68 then controlRow r
  else if op < 0x78 then memoryRow r
  else match op with
    | 0x78 => group78 r
    | 0x79 => group79 r
    | 0x7A => group7A r
    | 0x7B => group7B r
    | 0x7C => group7C r
    | 0x7D => group7D r
    | 0x7E => group7E r
    | _ => none

/-- Check 3 of R70: unused fields are zero, and ACQ, REL, SCOPE, RND, SAT, XQ and XF hold accepted values (R57 to R62,
R90, R97 to R102). An unused B under a literal is left to check 5. -/
def checkReserved (k : Row) (r : Raw) : Bool :=
  let x := r.x
  x.res == 0 && decide (x.scope.toNat < k.scopes) && (k.acq || !x.acq) && (k.rel || !x.rel) &&
  (k.rnd || x.rnd == 0) && (k.sat || !x.sat) && (k.q || !x.xq) && (!x.xq || r.a == 0) && (x.xq || x.qa == 0) && k.xf &&
  (!k.guard || (!r.neg && r.idx == 7)) && (!k.fz || r.f == 0) && (!k.az || r.a == 0) && (!k.bz || r.b == 0) &&
  k.d.zeroOk r.d && k.a.zeroOk r.a && (r.lit.isSome || k.b.zeroOk r.b) && k.c.zeroOk x.c && k.e.zeroOk x.e &&
  (!k.dual || x.c.getLsbD 3 || x.c.extractLsb' 0 3 == 0) && x.e1 &&& ~~~k.e1 == 0

/-- Check 4 of R70: the register classes (R53, R61). With XQ, A is zero already; a literal leaves B to check 5. -/
def checkRange (k : Row) (r : Raw) : Bool :=
  let x := r.x
  k.d.ok r.d && (x.xq || k.a.ok r.a) && (r.lit.isSome || k.b.ok r.b) && k.e.ok x.e && k.c.ok x.c &&
  (!k.dual || (!x.c.getLsbD 4 && secondOk (r.d.extractLsb' 0 3) r.second))

/-- Check 5 of R70: a literal stands only for a data source B, with B zero, and fits it (R65). -/
def checkLiteral (k : Row) (r : Raw) : Bool :=
  match r.lit, k.lit with
  | none, _ => true
  | some _, none => false
  | some v, some wide => r.b == 0 && (wide || v.extractLsb' 32 32 == 0)

/-- The ONCE prefix word must be exact (R67). -/
def decodePrefix (r : Raw) : Decoded :=
  if r.f.toNat ≤ 1 && r.d == 0 && r.a == 0 && r.b == 0 && !r.neg && r.idx == 7 && r.ext == none && r.lit == none
  then .ok (.once (r.f == 1)) 1 else .bad .prefixMisuse

/-- Checks 2 to 5 of R70 on the fields, in order; the length is that of LEN. -/
def decodeRaw (r : Raw) (n : Nat) : Decoded :=
  if r.op == 0x7F then decodePrefix r else
  match rowOf r with
  | none => .bad .illegalEncoding
  | some (k, i) =>
    if !checkReserved k r then .bad .reservedField
    else if !checkRange k r then .bad .registerRange
    else if !checkLiteral k r then .bad .literalMisuse
    else .ok i n

/-- Decoding of the words from the program counter to the end of the store, or of at least five of them (R103). -/
def decode : List W32 → Decoded
  | [] => .bad .istoreBounds
  | w :: rest =>
    match Raw.ofWords w rest with
    | none => .bad .istoreBounds
    | some r => decodeRaw r (lenWords (w.extractLsb' 0 2))

/-- The instruction whose bits are w as the opcode table numbers them; the bits above the table's are zero. -/
def decodeTableWord (nbits w : Nat) : Option Instr :=
  let v := w % 2 ^ nbits
  match decode ((List.range 5).map fun k => BitVec.ofNat 32 (v / 2 ^ (32 * k))) with
  | .ok i _ => some i
  | .bad _ => none

/-- The A field of source A. -/
def SrcA.field : SrcA → BitVec 5
  | .reg r => r
  | .queue _ => 0
/-- XQ of source A. -/
def SrcA.isQueue : SrcA → Bool
  | .reg _ => false
  | .queue _ => true
/-- QA of source A. -/
def SrcA.queueNo : SrcA → BitVec 4
  | .reg _ => 0
  | .queue q => q
/-- The B field of source B. -/
def SrcB.field : SrcB → BitVec 5
  | .reg r => r
  | .lit _ => 0
/-- The literal of source B. -/
def SrcB.lit? : SrcB → Option W64
  | .reg _ => none
  | .lit v => some v
/-- XF[2:0] of an address operand (R64). -/
def Addr.xf (m : Addr) : BitVec 6 := (0 : BitVec 3) ++ bit1 m.noIdx ++ m.scale
/-- The C field of a compare (R61). -/
def secondField : Option PReg → BitVec 5
  | none => 0
  | some p => (1 : BitVec 2) ++ p
/-- The fields with the guard of a head, and with the extension when its form has one. -/
def Head.raw (h : Head) (x : Ext) (r : Raw) : Raw :=
  { r with neg := h.neg, idx := h.idx, ext := if h.ext then some x else none }

/-- The fields of the words of an instruction; none for the steps that no word encodes. -/
def toRaw : Instr → Option Raw
  | .add h t sat d a b =>
    some (h.raw { sat := sat, xq := a.isQueue, qa := a.queueNo }
      { op := 0x01, f := t.code, d := d, a := a.field, b := b.field, lit := b.lit? })
  | .sub h t sat d a b =>
    some (h.raw { sat := sat, xq := a.isQueue, qa := a.queueNo }
      { op := 0x02, f := t.code, d := d, a := a.field, b := b.field, lit := b.lit? })
  | .adds h t sat d a b =>
    some (h.raw { sat := sat, xq := a.isQueue, qa := a.queueNo }
      { op := 0x03, f := t.code, d := d, a := a.field, b := b.field, lit := b.lit? })
  | .subs h t sat d a b =>
    some (h.raw { sat := sat, xq := a.isQueue, qa := a.queueNo }
      { op := 0x04, f := t.code, d := d, a := a.field, b := b.field, lit := b.lit? })
  | .mul h t sat d a b =>
    some (h.raw { sat := sat, xq := a.isQueue, qa := a.queueNo }
      { op := 0x05, f := t.code, d := d, a := a.field, b := b.field, lit := b.lit? })
  | .mulh h t d a b =>
    some (h.raw { xq := a.isQueue, qa := a.queueNo }
      { op := 0x06, f := t.code, d := d, a := a.field, b := b.field, lit := b.lit? })
  | .mad h t sat d a b c =>
    some (h.raw { sat := sat, xq := a.isQueue, qa := a.queueNo, c := c }
      { op := 0x07, f := t.code, d := d, a := a.field, b := b.field, lit := b.lit? })
  | .min h t d a b =>
    some (h.raw { xq := a.isQueue, qa := a.queueNo }
      { op := 0x08, f := t.code, d := d, a := a.field, b := b.field, lit := b.lit? })
  | .max h t d a b =>
    some (h.raw { xq := a.isQueue, qa := a.queueNo }
      { op := 0x09, f := t.code, d := d, a := a.field, b := b.field, lit := b.lit? })
  | .abs h t sat d a =>
    some (h.raw { sat := sat, xq := a.isQueue, qa := a.queueNo }
      { op := 0x0A, f := t.code, d := d, a := a.field })
  | .neg h t sat d a =>
    some (h.raw { sat := sat, xq := a.isQueue, qa := a.queueNo }
      { op := 0x0B, f := t.code, d := d, a := a.field })
  | .and h t d a b =>
    some (h.raw { xq := a.isQueue, qa := a.queueNo }
      { op := 0x0C, f := t.code, d := d, a := a.field, b := b.field, lit := b.lit? })
  | .or h t d a b =>
    some (h.raw { xq := a.isQueue, qa := a.queueNo }
      { op := 0x0D, f := t.code, d := d, a := a.field, b := b.field, lit := b.lit? })
  | .xor h t d a b =>
    some (h.raw { xq := a.isQueue, qa := a.queueNo }
      { op := 0x0E, f := t.code, d := d, a := a.field, b := b.field, lit := b.lit? })
  | .andn h t d a b =>
    some (h.raw { xq := a.isQueue, qa := a.queueNo }
      { op := 0x0F, f := t.code, d := d, a := a.field, b := b.field, lit := b.lit? })
  | .not h t d a => some (h.raw { xq := a.isQueue, qa := a.queueNo } { op := 0x10, f := t.code, d := d, a := a.field })
  | .shl h t d a b =>
    some (h.raw { xq := a.isQueue, qa := a.queueNo }
      { op := 0x11, f := t.code, d := d, a := a.field, b := b.field, lit := b.lit? })
  | .shr h t d a b =>
    some (h.raw { xq := a.isQueue, qa := a.queueNo }
      { op := 0x12, f := t.code, d := d, a := a.field, b := b.field, lit := b.lit? })
  | .sar h t d a b =>
    some (h.raw { xq := a.isQueue, qa := a.queueNo }
      { op := 0x13, f := t.code, d := d, a := a.field, b := b.field, lit := b.lit? })
  | .rol h t d a b =>
    some (h.raw { xq := a.isQueue, qa := a.queueNo }
      { op := 0x14, f := t.code, d := d, a := a.field, b := b.field, lit := b.lit? })
  | .bfx h t d a b =>
    some (h.raw { xq := a.isQueue, qa := a.queueNo }
      { op := 0x15, f := t.code, d := d, a := a.field, b := b.field, lit := b.lit? })
  | .bfi h t d a b =>
    some (h.raw { xq := a.isQueue, qa := a.queueNo }
      { op := 0x16, f := t.code, d := d, a := a.field, b := b.field, lit := b.lit? })
  | .popc h t d a => some (h.raw { xq := a.isQueue, qa := a.queueNo } { op := 0x17, f := t.code, d := d, a := a.field })
  | .clz h t d a => some (h.raw { xq := a.isQueue, qa := a.queueNo } { op := 0x18, f := t.code, d := d, a := a.field })
  | .brev h t d a => some (h.raw { xq := a.isQueue, qa := a.queueNo } { op := 0x19, f := t.code, d := d, a := a.field })
  | .sel h t d a b pc =>
    some (h.raw { xq := a.isQueue, qa := a.queueNo, c := pc.zeroExtend 5 }
      { op := 0x1A, f := t.code, d := d, a := a.field, b := b.field, lit := b.lit? })
  | .mov h t d b => some (h.raw {} { op := 0x1B, f := t.code, d := d, b := b.field, lit := b.lit? })
  | .movs h t d a b =>
    some (h.raw { xq := a.isQueue, qa := a.queueNo }
      { op := 0x1C, f := t.code, d := d, a := a.field, b := b.field, lit := b.lit? })
  | .shfl h mode t d a b =>
    some (h.raw { xf := mode.code, xq := a.isQueue, qa := a.queueNo }
      { op := 0x1D, f := t.code, d := d, a := a.field, b := b.field, lit := b.lit? })
  | .vote h d pa => some (h.raw {} { op := 0x1E, d := d, a := pa.zeroExtend 5 })
  | .reds h rop t d a =>
    some (h.raw { xf := rop.code, xq := a.isQueue, qa := a.queueNo }
      { op := 0x1F, f := t.code, d := d, a := a.field })
  | .scan h rop excl t d a =>
    some (h.raw { xf := rop.code ||| (bit6 excl <<< 3), xq := a.isQueue, qa := a.queueNo }
      { op := 0x20, f := t.code, d := d, a := a.field })
  | .addi h d ra imm9 =>
    some (h.raw {}
      { op := 0x21, f := imm9.extractLsb' 5 4, b := imm9.extractLsb' 0 5, d := d, a := ra })
  | .widf h lvl d => some (h.raw {} { op := 0x22, f := lvl, d := d })
  | .fadd h t rnd d a b =>
    some (h.raw { rnd := rnd.code, xq := a.isQueue, qa := a.queueNo }
      { op := 0x24, f := t.code, d := d, a := a.field, b := b.field, lit := b.lit? })
  | .fsub h t rnd d a b =>
    some (h.raw { rnd := rnd.code, xq := a.isQueue, qa := a.queueNo }
      { op := 0x25, f := t.code, d := d, a := a.field, b := b.field, lit := b.lit? })
  | .fmul h t rnd d a b =>
    some (h.raw { rnd := rnd.code, xq := a.isQueue, qa := a.queueNo }
      { op := 0x26, f := t.code, d := d, a := a.field, b := b.field, lit := b.lit? })
  | .fma h t rnd d a b c =>
    some (h.raw { rnd := rnd.code, xq := a.isQueue, qa := a.queueNo, c := c }
      { op := 0x27, f := t.code, d := d, a := a.field, b := b.field, lit := b.lit? })
  | .fmin h t d a b =>
    some (h.raw { xq := a.isQueue, qa := a.queueNo }
      { op := 0x28, f := t.code, d := d, a := a.field, b := b.field, lit := b.lit? })
  | .fmax h t d a b =>
    some (h.raw { xq := a.isQueue, qa := a.queueNo }
      { op := 0x29, f := t.code, d := d, a := a.field, b := b.field, lit := b.lit? })
  | .fabs h t d a => some (h.raw { xq := a.isQueue, qa := a.queueNo } { op := 0x2A, f := t.code, d := d, a := a.field })
  | .fneg h t d a => some (h.raw { xq := a.isQueue, qa := a.queueNo } { op := 0x2B, f := t.code, d := d, a := a.field })
  | .fdiv h t rnd d a b =>
    some (h.raw { rnd := rnd.code, xq := a.isQueue, qa := a.queueNo }
      { op := 0x2C, f := t.code, d := d, a := a.field, b := b.field, lit := b.lit? })
  | .fsqrt h t rnd d a =>
    some (h.raw { rnd := rnd.code, xq := a.isQueue, qa := a.queueNo }
      { op := 0x2D, f := t.code, d := d, a := a.field })
  | .frcp h t rnd d a =>
    some (h.raw { rnd := rnd.code, xq := a.isQueue, qa := a.queueNo }
      { op := 0x2E, f := t.code, d := d, a := a.field })
  | .frsq h t rnd d a =>
    some (h.raw { rnd := rnd.code, xq := a.isQueue, qa := a.queueNo }
      { op := 0x2F, f := t.code, d := d, a := a.field })
  | .fexp2 h t rnd d a =>
    some (h.raw { rnd := rnd.code, xq := a.isQueue, qa := a.queueNo }
      { op := 0x30, f := t.code, d := d, a := a.field })
  | .flog2 h t rnd d a =>
    some (h.raw { rnd := rnd.code, xq := a.isQueue, qa := a.queueNo }
      { op := 0x31, f := t.code, d := d, a := a.field })
  | .fscale h t rnd d a b =>
    some (h.raw { rnd := rnd.code, xq := a.isQueue, qa := a.queueNo }
      { op := 0x32, f := t.code, d := d, a := a.field, b := b.field, lit := b.lit? })
  | .frnd h t rnd d a =>
    some (h.raw { rnd := rnd.code, xq := a.isQueue, qa := a.queueNo }
      { op := 0x33, f := t.code, d := d, a := a.field })
  | .fclass h t d a =>
    some (h.raw { xq := a.isQueue, qa := a.queueNo }
      { op := 0x34, f := t.code, d := d, a := a.field })
  | .cvt h t src rnd sat d a =>
    some (h.raw { xf := src.code.zeroExtend 6, rnd := rnd.code, sat := sat, xq := a.isQueue, qa := a.queueNo }
      { op := 0x35, f := t.code, d := d, a := a.field })
  | .qpack h t sat d a b =>
    some (h.raw { sat := sat, xq := a.isQueue, qa := a.queueNo }
      { op := 0x36, f := t.code, d := d, a := a.field, b := b.field, lit := b.lit? })
  | .qunpk h t rnd d a b =>
    some (h.raw { rnd := rnd.code, xq := a.isQueue, qa := a.queueNo }
      { op := 0x37, f := t.code, d := d, a := a.field, b := b.field, lit := b.lit? })
  | .amax h d a => some (h.raw { xq := a.isQueue, qa := a.queueNo } { op := 0x38, f := 9, d := d, a := a.field })
  | .cmp h cond wide pd pe a b =>
    some (h.raw { xf := if wide then 14 else 0, c := secondField pe, xq := a.isQueue, qa := a.queueNo }
      { op := 0x3A, f := cond.code, d := pd.zeroExtend 5, a := a.field, b := b.field, lit := b.lit? })
  | .fcmp h cond t pd pe a b =>
    some (h.raw { xf := fcmpCode t, c := secondField pe, xq := a.isQueue, qa := a.queueNo }
      { op := 0x3B, f := cond.code, d := pd.zeroExtend 5, a := a.field, b := b.field, lit := b.lit? })
  | .pand h pd pa pb => some (h.raw {} { op := 0x3C, d := pd.zeroExtend 5, a := pa.zeroExtend 5, b := pb.zeroExtend 5 })
  | .por h pd pa pb => some (h.raw {} { op := 0x3D, d := pd.zeroExtend 5, a := pa.zeroExtend 5, b := pb.zeroExtend 5 })
  | .pxor h pd pa pb => some (h.raw {} { op := 0x3E, d := pd.zeroExtend 5, a := pa.zeroExtend 5, b := pb.zeroExtend 5 })
  | .pnot h pd pa => some (h.raw {} { op := 0x3F, d := pd.zeroExtend 5, a := pa.zeroExtend 5 })
  | .pmask h pd a =>
    some (h.raw { xq := a.isQueue, qa := a.queueNo }
      { op := 0x40, d := pd.zeroExtend 5, a := a.field })
  | .pset h val pd => some (h.raw {} { op := 0x41, f := bit4 val, d := pd.zeroExtend 5 })
  | .sadd h d a b =>
    some (h.raw { xq := a.isQueue, qa := a.queueNo }
      { op := 0x44, d := d, a := a.field, b := b.field, lit := b.lit? })
  | .ssub h d a b =>
    some (h.raw { xq := a.isQueue, qa := a.queueNo }
      { op := 0x45, d := d, a := a.field, b := b.field, lit := b.lit? })
  | .smul h d a b =>
    some (h.raw { xq := a.isQueue, qa := a.queueNo }
      { op := 0x46, d := d, a := a.field, b := b.field, lit := b.lit? })
  | .smulh h t d a b =>
    some (h.raw { xq := a.isQueue, qa := a.queueNo }
      { op := 0x47, f := t.code, d := d, a := a.field, b := b.field, lit := b.lit? })
  | .sdiv h t d a b =>
    some (h.raw { xq := a.isQueue, qa := a.queueNo }
      { op := 0x48, f := t.code, d := d, a := a.field, b := b.field, lit := b.lit? })
  | .srem h t d a b =>
    some (h.raw { xq := a.isQueue, qa := a.queueNo }
      { op := 0x49, f := t.code, d := d, a := a.field, b := b.field, lit := b.lit? })
  | .sand h d a b =>
    some (h.raw { xq := a.isQueue, qa := a.queueNo }
      { op := 0x4A, d := d, a := a.field, b := b.field, lit := b.lit? })
  | .sor h d a b =>
    some (h.raw { xq := a.isQueue, qa := a.queueNo }
      { op := 0x4B, d := d, a := a.field, b := b.field, lit := b.lit? })
  | .sxor h d a b =>
    some (h.raw { xq := a.isQueue, qa := a.queueNo }
      { op := 0x4C, d := d, a := a.field, b := b.field, lit := b.lit? })
  | .sshl h d a b =>
    some (h.raw { xq := a.isQueue, qa := a.queueNo }
      { op := 0x4D, d := d, a := a.field, b := b.field, lit := b.lit? })
  | .sshr h d a b =>
    some (h.raw { xq := a.isQueue, qa := a.queueNo }
      { op := 0x4E, d := d, a := a.field, b := b.field, lit := b.lit? })
  | .ssar h d a b =>
    some (h.raw { xq := a.isQueue, qa := a.queueNo }
      { op := 0x4F, d := d, a := a.field, b := b.field, lit := b.lit? })
  | .smov h d b => some (h.raw {} { op := 0x50, d := d, b := b.field, lit := b.lit? })
  | .slea h scale disp d a b =>
    some (h.raw { xf := scale.zeroExtend 6, e1 := disp, xq := a.isQueue, qa := a.queueNo }
      { op := 0x51, d := d, a := a.field, b := b.field, lit := b.lit? })
  | .smin h t d a b =>
    some (h.raw { xq := a.isQueue, qa := a.queueNo }
      { op := 0x52, f := t.code, d := d, a := a.field, b := b.field, lit := b.lit? })
  | .smax h t d a b =>
    some (h.raw { xq := a.isQueue, qa := a.queueNo }
      { op := 0x53, f := t.code, d := d, a := a.field, b := b.field, lit := b.lit? })
  | .scmp h cond pd pe a b =>
    some (h.raw { c := secondField pe, xq := a.isQueue, qa := a.queueNo }
      { op := 0x54, f := cond.code, d := pd.zeroExtend 5, a := a.field, b := b.field, lit := b.lit? })
  | .sbfx h t d a b =>
    some (h.raw { xq := a.isQueue, qa := a.queueNo }
      { op := 0x55, f := t.code, d := d, a := a.field, b := b.field, lit := b.lit? })
  | .sbfi h d a b =>
    some (h.raw { xq := a.isQueue, qa := a.queueNo }
      { op := 0x56, d := d, a := a.field, b := b.field, lit := b.lit? })
  | .sclz h d a => some (h.raw { xq := a.isQueue, qa := a.queueNo } { op := 0x57, d := d, a := a.field })
  | .spopc h d a => some (h.raw { xq := a.isQueue, qa := a.queueNo } { op := 0x58, d := d, a := a.field })
  | .sfmul h rnd d a b =>
    some (h.raw { rnd := rnd.code, xq := a.isQueue, qa := a.queueNo }
      { op := 0x59, f := 9, d := d, a := a.field, b := b.field, lit := b.lit? })
  | .sfadd h rnd d a b =>
    some (h.raw { rnd := rnd.code, xq := a.isQueue, qa := a.queueNo }
      { op := 0x5A, f := 9, d := d, a := a.field, b := b.field, lit := b.lit? })
  | .sfma h rnd d a b c =>
    some (h.raw { rnd := rnd.code, xq := a.isQueue, qa := a.queueNo, c := c }
      { op := 0x5B, f := 9, d := d, a := a.field, b := b.field, lit := b.lit? })
  | .saddi h d ra imm9 =>
    some (h.raw {}
      { op := 0x5C, f := imm9.extractLsb' 5 4, b := imm9.extractLsb' 0 5, d := d, a := ra })
  | .br h off =>
    some (h.raw {}
      { op := 0x5E, f := off.extractLsb' 10 4, b := off.extractLsb' 5 5, a := off.extractLsb' 0 5 })
  | .brl h off =>
    some (h.raw {}
      { op := 0x5F, f := off.extractLsb' 10 4, b := off.extractLsb' 5 5, a := off.extractLsb' 0 5 })
  | .brx h ra => some (h.raw {} { op := 0x60, a := ra })
  | .ret h => some (h.raw {} { op := 0x61 })
  | .pushm h pa => some (h.raw {} { op := 0x62, a := pa.zeroExtend 5 })
  | .elsem h pa => some (h.raw {} { op := 0x63, a := pa.zeroExtend 5 })
  | .popm h => some (h.raw {} { op := 0x64 })
  | .brany h pa off =>
    some (h.raw {}
      { op := 0x65, f := off.extractLsb' 10 4, b := off.extractLsb' 5 5, a := off.extractLsb' 0 5, d :=
        pa.zeroExtend 5 })
  | .brall h pa off =>
    some (h.raw {}
      { op := 0x66, f := off.extractLsb' 10 4, b := off.extractLsb' 5 5, a := off.extractLsb' 0 5, d :=
        pa.zeroExtend 5 })
  | .loop h d off =>
    some (h.raw {}
      { op := 0x67, f := off.extractLsb' 10 4, b := off.extractLsb' 5 5, a := off.extractLsb' 0 5, d := d })
  | .ld h t d m =>
    some (h.raw { e1 := m.disp, xf := m.xf }
      { op := 0x68, f := t.code, d := d, a := m.base, b := m.idx.field, lit := m.idx.lit? })
  | .st h t d m =>
    some (h.raw { e1 := m.disp, xf := m.xf }
      { op := 0x69, f := t.code, d := d, a := m.base, b := m.idx.field, lit := m.idx.lit? })
  | .lds h t d m =>
    some (h.raw { e1 := m.disp, xf := m.xf }
      { op := 0x6A, f := t.code, d := d, a := m.base, b := m.idx.field, lit := m.idx.lit? })
  | .sts h t d m =>
    some (h.raw { e1 := m.disp, xf := m.xf }
      { op := 0x6B, f := t.code, d := d, a := m.base, b := m.idx.field, lit := m.idx.lit? })
  | .ldq h t sform ord qd m =>
    some (h.raw { scope := ord.scope.code, acq := ord.acq, rel := ord.rel, e1 := m.disp, xf := m.xf ||| (bit6 sform <<< 3) }
      { op := 0x6C, f := t.code, d := qd.zeroExtend 5, a := m.base, b := m.idx.field, lit := m.idx.lit? })
  | .stx h t ord d m =>
    some (h.raw { scope := ord.scope.code, acq := ord.acq, rel := ord.rel, e1 := m.disp, xf := m.xf }
      { op := 0x6D, f := t.code, d := d, a := m.base, b := m.idx.field, lit := m.idx.lit? })
  | .qpop h t toS d q => some (h.raw { xf := bit6 toS } { op := 0x6E, f := t.code, d := d, a := q.zeroExtend 5 })
  | .qpeek h t toS d q => some (h.raw { xf := bit6 toS } { op := 0x6F, f := t.code, d := d, a := q.zeroExtend 5 })
  | .qstat h d q => some (h.raw {} { op := 0x70, d := d, a := q.zeroExtend 5 })
  | .qdrop h q => some (h.raw {} { op := 0x71, a := q.zeroExtend 5 })
  | .tagl h d ra => some (h.raw {} { op := 0x72, d := d, a := ra })
  | .tagw h ra b => some (h.raw {} { op := 0x73, a := ra, b := b.field, lit := b.lit? })
  | .tagi h tsub ra b => some (h.raw { xf := tsub.code } { op := 0x74, a := ra, b := b.field, lit := b.lit? })
  | .atom h aop t d m c e =>
    some (h.raw { e1 := m.disp, xf := m.xf ||| (aop.code.zeroExtend 6 <<< 3), c := c, e := e }
      { op := 0x75, f := t.code, d := d, a := m.base, b := m.idx.field, lit := m.idx.lit? })
  | .atomx h aop t ord qd m c e =>
    some (h.raw { scope := ord.scope.code, acq := ord.acq, rel := ord.rel, e1 := m.disp, xf := m.xf ||| (aop.code.zeroExtend 6 <<< 3), c := c, e := e }
      { op := 0x76, f := t.code, d := qd.zeroExtend 5, a := m.base, b := m.idx.field, lit := m.idx.lit? })
  | .fence h scope => some (h.raw { scope := scope.code } { op := 0x77 })
  | .jfar h toS ra live => some (h.raw { xf := bit6 toS, e1 := live } { op := 0x78, f := 0, a := ra })
  | .cfar h toS ra live => some (h.raw { xf := bit6 toS, e1 := live } { op := 0x78, f := 1, a := ra })
  | .rfar h live => some (h.raw { e1 := live } { op := 0x78, f := 2 })
  | .fork h ra b c live =>
    some (h.raw { c := c, e1 := live }
      { op := 0x78, f := 3, a := ra, b := b.field, lit := b.lit? })
  | .exit h => some (h.raw {} { op := 0x78, f := 4 })
  | .yield h live => some (h.raw { e1 := live } { op := 0x78, f := 5 })
  | .send h cls ra b =>
    some (h.raw { xf := cls.zeroExtend 6 }
      { op := 0x78, f := 6, a := ra, b := b.field, lit := b.lit? })
  | .chbind h rdr qc ra => some (h.raw { xf := bit6 rdr } { op := 0x79, f := 0, d := qc.zeroExtend 5, a := ra })
  | .chw h vec qc ra => some (h.raw { xf := bit6 vec } { op := 0x79, f := 1, d := qc.zeroExtend 5, a := ra })
  | .chclose h qc => some (h.raw {} { op := 0x79, f := 2, d := qc.zeroExtend 5 })
  | .chstat h d qc => some (h.raw {} { op := 0x79, f := 3, d := d, a := qc.zeroExtend 5 })
  | .chunbind h qc => some (h.raw {} { op := 0x79, f := 4, d := qc.zeroExtend 5 })
  | .barc h bar ra => some (h.raw { xf := bar } { op := 0x7A, f := 0, a := ra })
  | .bara h bar ord =>
    some (h.raw { xf := bar, scope := ord.scope.code, acq := ord.acq, rel := ord.rel }
      { op := 0x7A, f := 1 })
  | .barw h bar ord =>
    some (h.raw { xf := bar, scope := ord.scope.code, acq := ord.acq, rel := ord.rel }
      { op := 0x7A, f := 2 })
  | .bart h bar ord pd =>
    some (h.raw { xf := bar, scope := ord.scope.code, acq := ord.acq, rel := ord.rel }
      { op := 0x7A, f := 3, d := pd.zeroExtend 5 })
  | .gang h scope => some (h.raw { scope := scope.code } { op := 0x7A, f := 4 })
  | .step h ra b c => some (h.raw { c := c } { op := 0x7B, f := 0, a := ra, b := b.field, lit := b.lit? })
  | .stepend h => some (h.raw {} { op := 0x7B, f := 1 })
  | .slack h d => some (h.raw {} { op := 0x7B, f := 2, d := d })
  | .sleept h ra => some (h.raw {} { op := 0x7B, f := 3, a := ra })
  | .tdset h w td ra => some (h.raw { xf := w.zeroExtend 6, e1 := td.zeroExtend 32 } { op := 0x7C, f := 0, a := ra })
  | .tdget h w td d => some (h.raw { xf := w.zeroExtend 6, e1 := td.zeroExtend 32 } { op := 0x7C, f := 1, d := d })
  | .mma h ta tb acc tda tdb =>
    some (h.raw { xf := tb ++ ta.code, e1 := tdb.zeroExtend 32 <<< 8 ||| tda.zeroExtend 32 }
      { op := 0x7C, f := 2, d := acc.zeroExtend 5 })
  | .accz h acc => some (h.raw {} { op := 0x7C, f := 3, d := acc.zeroExtend 5 })
  | .accld h t acc ra =>
    some (h.raw { xf := t.code.zeroExtend 6 }
      { op := 0x7C, f := 4, d := acc.zeroExtend 5, a := ra })
  | .accst h t rnd sat acc ra =>
    some (h.raw { xf := t.code.zeroExtend 6, rnd := rnd.code, sat := sat }
      { op := 0x7C, f := 5, d := acc.zeroExtend 5, a := ra })
  | .twset h fld ra => some (h.raw { xf := fld.zeroExtend 6 } { op := 0x7D, f := 0, a := ra })
  | .twgo h ord d =>
    some (h.raw { scope := ord.scope.code, acq := ord.acq, rel := ord.rel }
      { op := 0x7D, f := 1, d := d })
  | .twmap h d ra b => some (h.raw {} { op := 0x7D, f := 2, d := d, a := ra, b := b.field, lit := b.lit? })
  | .twtest h ord pd ra b =>
    some (h.raw { scope := ord.scope.code, acq := ord.acq, rel := ord.rel }
      { op := 0x7D, f := 3, d := pd.zeroExtend 5, a := ra, b := b.field, lit := b.lit? })
  | .twwait h all ord ra b =>
    some (h.raw { xf := bit6 all, scope := ord.scope.code, acq := ord.acq, rel := ord.rel }
      { op := 0x7D, f := 4, a := ra, b := b.field, lit := b.lit? })
  | .nop h => some (h.raw {} { op := 0x7E, f := 0 })
  | .trap h code => some (h.raw { e1 := code } { op := 0x7E, f := 1 })
  | .svc h code => some (h.raw { e1 := code } { op := 0x7E, f := 2 })
  | .mfs h sreg d => some (h.raw { xf := sreg } { op := 0x7E, f := 3, d := d })
  | .mts h sreg ra => some (h.raw { xf := sreg } { op := 0x7E, f := 4, a := ra })
  | .ckpt h => some (h.raw {} { op := 0x7E, f := 5 })
  | .brk h code => some (h.raw { e1 := code } { op := 0x7E, f := 6 })
  | .once cluster => some { op := 0x7F, f := bit4 cluster, idx := 7 }
  | .inboxArrival _ => none
  | .setFormation _ => none
  | .gatherWindowExpiry _ _ => none
  | .startMessage _ => none
  | .startAck _ => none
  | .bankWrite _ => none
  | .homeAccess _ => none
  | .queueResponse _ => none
  | .stxErrorResponse _ => none
  | .sendRefused _ => none
  | .resumeNotification _ => none
  | .targetSwitchedOut _ _ => none
  | .countIncrement _ => none
  | .forkAck _ => none
  | .forkChildInject _ _ => none
  | .countDecrement _ => none
  | .jobDone _ => none
  | .barrierArrival _ => none
  | .barrierStateReply _ => none
  | .phaseUpdate _ => none
  | .joinMatch _ => none
  | .mmaRetire _ => none
  | .twChunkComplete _ _ => none
  | .twHandlePush _ _ => none
  | .twFault _ _ => none
  | .twWriteRefused _ => none
  | .channelElementArrival _ => none
  | .channelRefill _ _ => none
  | .closeMarkArrival _ => none
  | .roomNotification _ => none
  | .inboxRefill _ => none
  | .poolAppend _ => none
  | .poolPopRequest _ => none
  | .poolRingRefill _ _ => none
  | .sluiceSample _ => none
  | .kick _ _ _ => none
  | .replayStart _ _ => none
  | .nodeStart _ _ _ => none
  | .copyComplete _ _ _ => none
  | .replayEnd _ _ => none
  | .slotArm _ _ => none
  | .reserveContexts _ => none
  | .dispatchRelease _ => none
  | .stationInject _ => none
  | .class0Reserve _ => none
  | .displacement _ => none
  | .displacedRestore _ => none
  | .watchdog _ _ => none
  | .preemptRequest _ => none
  | .preemptStopped _ => none
  | .cellResume _ => none
  | .sleeptWake _ _ => none
  | .fenceTimeout _ _ => none
  | .stepRegistration _ => none
  | .stepRetirement _ => none
  | .workReport _ => none
  | .governorPeriod _ => none
  | .clusterBid _ => none
  | .weirClear => none
  | .grantArrival _ => none
  | .meterWindow _ => none
  | .railStep _ => none
  | .quiesceDrained _ => none
  | .quiesceTimeout _ => none
  | .thermalSample _ _ => none
  | .promenadeCopyDone _ => none
  | .tlbFillRequest _ => none
  | .tlbFillReply _ => none
  | .invalidation _ => none
  | .invalidationComplete _ => none
  | .svcVersion _ => none
  | .svcInvalPage _ => none
  | .svcInvalAsid _ => none
  | .svcMap _ => none
  | .svcUnmap _ => none
  | .svcQuote _ => none
  | .faultRecord _ => none
  | .verdict _ => none
  | .jobDrop _ => none
  | .cellQuarantine _ _ _ _ _ => none
  | .hbmError _ _ => none
  | .partitionStop _ _ => none
  | .machineCheck => none
  | .ckptTimeout _ => none
  | .partCreate _ _ => none
  | .partDestroy _ _ => none
  | .partSetRail _ _ => none
  | .partSetFaultsrv _ _ => none
  | .partPreempt _ _ => none
  | .partResume _ _ => none
  | .asidAlloc _ _ => none
  | .asidRelease _ _ => none
  | .memMap _ _ => none
  | .attestQuote _ _ => none
  | .attestPublicKey _ _ => none
  | .graphLoad _ _ => none
  | .graphUnload _ _ => none
  | .ckptPart _ _ => none
  | .ckptDevice _ _ => none
  | .restorePart _ _ => none
  | .debugHalt _ _ => none
  | .debugResume _ _ => none
  | .traceConfig _ _ => none
  | .powerCapSet _ _ => none
  | .queryIdentity _ _ => none
  | .queryPartitionStatus _ _ => none
  | .queryViolationLog _ _ => none
  | .queryReelPorts _ _ => none
  | .reelBind _ _ => none
  | .reelUnbind _ _ => none
  | .verdictDoorbell _ _ => none
  | .devreset _ => none
  | .i3cReset _ => none
  | .hooklen _ => none
  | .hookWindowExpiry => none
  | .powerGood => none
  | .bar2Access _ _ _ _ => none
  | .registerWrite _ _ _ => none
  | .reelFlitReceive _ _ => none
  | .reelControlFlit _ _ => none
  | .reelShed _ => none
  | .reelRetrainDone _ _ => none
  | .reelRetrainTimer _ => none
  | .illegalEncoding => none
  | .unknownOpcode _ _ => none
  | .writeAcknowledgement _ => none
  | .tailraceReadLanded _ => none
  | .scratchCorrected _ => none
  | .walkerTimeLimit _ => none
  | .entdaa => none
  | .powerRemoval => none

/-- The words of an instruction; none for a step of the device. -/
def encode (i : Instr) : List W32 :=
  match toRaw i with
  | some r => r.words
  | none => []

end Sys2Proof
end

