-- ==== Sys2Proof/Config.lean ====
section
/-! DEFINITION. What the reference leaves to the implementation, as constants without a body: nothing in Lean can
evaluate one or prove a value of it, so a statement holds whatever they are. Each is applied to operands or to the
model's own counter (State.turn), so that every use is a fresh free value. -/

namespace Sys2Proof.Config

/-- Which of n enabled events happens next (R462: latencies and orders that no rule fixes are latitude). -/
opaque choice : Nat → Nat
/-- Whether a request that is under way has reached its home station (R462): counter and place in the network. -/
opaque arrives : Nat → Nat → Bool
/-- The input through which a party outside the mesh reaches a router (R22 and R23 give none): the party's number. -/
opaque meshInput : Nat → Nat
/-- Nanoseconds of the timebase that pass during a step (R20, R462). -/
opaque elapsed : Nat → Nat
/-- The skew of a TBC read, 0 to 2 ns (R20). -/
opaque tbcSkew : Nat → Nat
/-- Arithmetic cycles that a step takes beyond the issue cycle itself, for the cell numbered second (R21, R47). -/
opaque stallCycles : Nat → Nat → Nat
/-- What a read of an element of a lane-vector entry delivers for a lane that is not active, whose element R174 never lets be read:
counter and lane. -/
opaque inactiveElem : Nat → Nat → BitVec 64
/-- The arithmetic cycles that a physical cell has counted while no logical cell stood on it (R21): counter. -/
opaque movedCyc : Nat → Nat
/-- Arithmetic cycles that a domain's clock makes in a step (R357): counter and partition. -/
opaque domainCycles : Nat → Nat → Nat
/-- Old or new: whether a word read by an engine or array without ordering shows the newer value (R236, R241). -/
opaque seesNew : Nat → Nat → Bool
/-- The fused seed, the 57-byte private key of the device identity (R403); it is not in the reference. -/
opaque identitySeed : List Byte
/-- The 57-byte public key of the Mbavex firmware, held in ROM (R453); it is not in the reference. -/
opaque firmwareKey : List Byte
/-- The Thieno service image in ROM (R403), measured at boot. -/
opaque serviceImage : List Byte
/-- The hook number that stands for the routine of a service of the gate (R402, R453); the reference lists none. -/
opaque hookOf : Nat → Nat
/-- How the redirected routine of a service answers (R453): counter. It denies the request, or returns s1 and s2. -/
opaque hookAnswer : Nat → Option (W64 × W64)
/-- What a register of a millwright holds as it calls a supplied walker, but for a0 to a3 (R399): counter and register. -/
opaque walkerReg : Nat → Nat → W64
/-- How many instructions a supplied walker completes in 10 µs (R399): counter. -/
opaque walkerSteps : Nat → Nat
/-- A loader placement choice (R84): the counter, what is placed (an index), and the answer, a number. -/
opaque placement : Nat → Nat → Nat
/-- A number that Thieno chooses (a job number, a handle, an ASID, a slot): counter and index. -/
opaque thienoPick : Nat → Nat → Nat
/-- The private bytes of a context area or partition record of an image (R436): cell, offset, counter. -/
opaque imageByte : Nat → Nat → Nat → Byte
/-- The result of the array self-check of a physical cell at boot: whether it passes (R454). -/
opaque selfCheckPasses : Nat → Nat → Bool
/-- TRAPADDR of a cause for which no rule names an address or a code (R223): counter. -/
opaque noTrapAddr : Nat → W64
/-- A field of a trace record for which no rule names a value (R441): counter. -/
opaque noTraceField : Nat → W64
/-- SLACK of a step whose registration has not reached the governor (R220 gives none): counter. -/
opaque earlySlack : Nat → W64
/-- The SHAD field of QSTAT for an endpoint with more than 31 pops in its shadow, which five bits cannot hold (R185). -/
opaque shadField : Nat → Nat
/-- The rate, in GB/s, that an unpromised transfer or a home grants (R242): counter and bound. -/
opaque grantRate : Nat → Nat → Nat
/-- The local Reel port through which a Reel address is reached (the fabric's wiring is not in the reference). -/
opaque reelRoute : Nat → Nat
/-- The device's own number in the fabric (R456). -/
opaque reelDevice : Nat
/-- The lanes that a training of a Reel port brings up: counter, port (R454). -/
opaque reelTrained : Nat → Nat → Nat
/-- What a peer device answers to an access over Reel: counter, address. An error cause, or the data (R180, R269). -/
opaque peerAnswer : Nat → W64 → Option (BitVec 7) × W64
/-- What the sensors of the package show (R460): counter, and 0 for the power in W or 1 to 4 for the current of a rail in A. -/
opaque sensor : Nat → Nat → BitVec 16
/-- The payload of a request or a response flit, for which no rule names a layout (R457): counter. -/
opaque reelRequest : Nat → List Byte
/-- What the payload of a peer's request asks for, which has no layout either (R457): payload, and 0 for the operation, 1 for the physical
address, 2 for the size, 3 and 4 for the operands, 5 for the operation of an atomic, 6 on for the doublewords of a 64-byte write. -/
opaque reelAsk : List Byte → Nat → Nat
/-- Whether writes to a peer that fill a line leave as one 64-byte write (R177, R457): counter. -/
opaque reelCombines : Nat → Bool
/-- Whether Thieno service asks a cell to give up its contexts now, and which (R322; its policy is not in the reference). -/
opaque preempts : Nat → Option Nat
/-- The MSI-X vector of the interrupt that MACHINE_CHECK raises in the physical function (R433 names none). -/
opaque machineCheckVector : Nat
/-- The STATUS, from 1 to 6, with which a checkpoint that times out fails (R435 names none), less 1: counter. -/
opaque failStatus : Nat → Nat
/-- Which context an implementation picks where a rule leaves the pick open: counter. -/
opaque pick : Nat → Nat

end Sys2Proof.Config
end

