-- ==== Sys2Proof/Machine/State.lean ====
section
/-! DEFINITION. The state of the KA-3072, as plain data: everything the reference gives the device. Cells are keyed by
device logical cell (16 * device cluster + n, R7), partitions by number, and every sparse table lists only the entries
that differ from their default. The few fields that are the model's own are marked so. -/

namespace Sys2Proof.Machine

/-- Why the machine stops with a fault. -/
inductive Fault where
  /-- For a unit that would access an address naming no memory (R388: SLAB 192 to 255 or PA[63:40] nonzero). No meaning
  raises it: every unit checks its addresses first, and traps, answers or drops as its rule says. Safe: the reference says
  no memory is there. -/
  | noMemory (addr : Nat)
  deriving DecidableEq, Repr

/-- Why the machine gives no next state. -/
inductive Refusal where
  /-- The instruction has no meaning in this model yet. Safe: no claim about it can be proved. -/
  | notModelled (mnemonic : String)
  /-- The named step of the device does not happen in this state: there is no such message, its guard is false, or the
  unit is idle. Raised by the meanings of the steps that no word encodes, and never by one that step selects. Safe. -/
  | notEnabled (what : String)
  /-- For a step that would act on the world outside the package in a way the reference does not give. No meaning raises
  it: what a peer or the host answers is a free value. Safe. -/
  | outside (what : String)
  deriving DecidableEq, Repr

/-- One byte list in canonical form: addresses strictly rising, no entry equal to what an unlisted address reads as. -/
abbrev Memory := List Host.Cell

/-- The virtual networks of R23. -/
inductive VNet where
  | request | response | strand | system
  deriving DecidableEq, Repr

/-- The endpoints of the mesh and of the fabric (R22, R24). `peer` carries a Reel address, and `spare` is the spare cell of a row (R400). -/
inductive Endp where
  | cell (n : Nat)
  | home (cluster : Nat)
  | millwright (cluster : Nat)
  | station (cluster : Nat)
  | dispatch (die : Nat)
  | dmc (die : Nat)
  | poolRoot (die : Nat)
  | governor (part : Nat)
  | weir
  | root
  | loader (part : Nat)
  | peer (port : Nat)
  | host
  | spare (row : Nat)
  deriving DecidableEq, Repr

/-- A context of a device logical cell. -/
structure Who where
  cell : Nat
  ctx : Nat
  deriving DecidableEq, Repr

/-- A strand message (R31). -/
structure Strand where
  wid : W64 := 0
  live : W32 := 0
  dest : BitVec 28 := 0
  rets : List (BitVec 28) := []
  step : W32 := 0
  job : W32 := 0
  origin : BitVec 12 := 0
  part : BitVec 6 := 0
  widw : BitVec 42 := 0
  vals : List W32 := []
  deriving DecidableEq, Repr

/-- A 32-byte message of a class (R206). -/
structure Smsg where
  payload : W64 := 0
  origin : BitVec 12 := 0
  part : BitVec 6 := 0
  cls : BitVec 5 := 0
  dest : BitVec 28 := 0
  step : W32 := 0
  job : W32 := 0
  wid : W64 := 0
  deriving DecidableEq, Repr

/-- A fault record (R417). -/
structure Frec where
  tbc : W64 := 0
  cause : BitVec 7 := 0
  vreq : Bool := false
  part : BitVec 6 := 0
  first : Bool := false
  cell : BitVec 12 := 0xFFF
  phys : BitVec 12 := 0xFFF
  ctx : BitVec 3 := 0
  src : BitVec 2 := 0
  pc : PC := 0
  addr : W64 := 0
  msgid : W32 := 0
  xid : BitVec 16 := 0
  wid : W64 := 0
  step : W32 := 0
  job : W32 := 0
  count : W32 := 0
  subcause : BitVec 7 := 0
  seq : W64 := 0
  deriving DecidableEq, Repr

/-- What the inbox accepts (R32). A record carries the fault server that was in force as it was sent (R411, R418). -/
inductive Parcel where
  | strand (s : Strand)
  | msg (m : Smsg)
  | record (r : Frec) (server : W64)
  deriving DecidableEq, Repr

/-- An arrival in a bin, with the place word it named, the cell's CYC at arrival (R37), and its place `seq` among all that the cell's inbox has
accepted, which is that of its id, but does not wrap (R32, R36). -/
structure Arrival where
  id : W32 := 0
  place : W64 := 0
  parcel : Parcel
  cyc : Nat := 0
  seq : Nat := 0
  deriving DecidableEq, Repr

/-- What a home does for one access (R270). Engine words name the transfer slot and the word of its stream. -/
inductive AccOp where
  | read
  | write
  | atomic (op : AtomOp) (t : Ty)
  | engineRead (slot : Nat) (word : Nat)
  | engineWrite (slot : Nat) (word : Nat)
  deriving DecidableEq, Repr

/-- One access on its way to its home. `key` is the memory key of the byte, or of the control-window byte. `deps` names the
writes that happen before a release and may still be on their way to homes outside its scope (R279), `asid` the ASID under which the
address was translated, and `gone` the cause with which an invalidation has taken that translation away (R400). `asker` is the host or a
peer where it is no cell's (R449, R457). -/
structure Access where
  op : AccOp
  ea : W64 := 0
  key : Nat := 0
  size : Nat := 8
  data : W64 := 0
  cmp : W64 := 0
  part : Nat := 0
  who : Who := ⟨0, 0⟩
  act : Nat := 0
  q : Nat := 0
  id : Nat := 0
  lane : Nat := 0
  ty : Ty := .b64
  half : Bool := false
  priv : Bool := false
  rel : Option Scope := none
  acq : Option Scope := none
  deps : List Nat := []
  asid : BitVec 12 := 0xFFF
  gone : Option (BitVec 7) := none
  asker : Option Endp := none
  deriving DecidableEq, Repr

/-- A TLB entry (R396). -/
structure TlbEntry where
  vbase : Nat := 0
  asid : BitVec 12 := 0
  size : Nat := 0
  peerdev : BitVec 16 := 0
  pbase : Nat := 0
  peer : Bool := false
  atom : Bool := false
  write : Bool := false
  read : Bool := false
  deriving DecidableEq, Repr

/-- The access kinds of a fill request and of a permission check (R397, R399). -/
inductive AccKind where
  | read | write | atomic
  deriving DecidableEq, Repr

/-- What happens when an invalidation completes (R400). -/
inductive After where
  | nothing
  | svcReply (who : Who) (s1 s2 : W64)
  | memMapDone (fn : Nat)
  | asidFree (asid : Nat)
  deriving DecidableEq, Repr

/-- An entry record (R26, R394). -/
structure EntryRec where
  entry : PC
  live : W32 := 0
  gather : BitVec 16 := 64
  pin : Bool := false
  priv : Bool := false
  hold : Bool := false
  budget : W32 := 1000000
  deriving DecidableEq, Repr

/-- What a load writes into the tables of one cell (step 6 of R84): the entries of earlier graphs that stay, the new entry records, the handler words
of its classes, and the tensor images. -/
structure CellTables where
  kept : List PC := []
  entries : List EntryRec := []
  handlers : List (Nat × W64) := []
  images : List (Nat × List W64) := []
  deriving DecidableEq, Repr

/-- The message bodies of the mesh. -/
inductive Body where
  | parcel (p : Parcel)
  | access (a : Access)
  | readReply (a : Access) (data : W64) (bad : Option (BitVec 7)) (deps : List Nat)
  | writeAck (a : Access) (bad : Option (BitVec 7))
  | resume (target : Nat)
  | elem (chan : Nat) (x : W64) (who : Option Who) (id : Nat) (deps : List Nat)
  | closeMark (chan : Nat) (closeAt : W64) (who : Option Who) (id : Nat)
  | room (chan : Nat) (n : Nat)
  | growth (chan : Nat) (n : Nat)
  | countAdd (job : W32) (n : Nat) (who : Option Who) (fork : Bool) (slot : Option (Nat × Nat)) (line : Nat)
  | countAck (job : W32) (n : Nat) (who : Option Who) (fork : Bool) (slot : Option (Nat × Nat)) (bad : Option (BitVec 7))
  | countSub (job : W32) (n : Nat) (line : Nat) (who : Option Who) (id : Nat)
  | jobDone (job : W32) (line : Nat) (tbc : W64)
  | barArrive (bar : Nat) (cfg : W64) (who : Who) (id : Nat) (deps : List Nat)
  | barAck (bar : Nat) (who : Who) (id : Nat) (ok : Bool)
  | barQuery (bar : Nat) (who : Who)
  | barReply (bar : Nat) (who : Who) (arrivals : W32) (phase : W32)
  | phase (bar : Nat) (span : Nat) (phase : W32) (deps : List (W32 × List Nat))
  | startAck (load : W32) (fromCell : Nat)
  | tlbReq (who : Who) (va : W64) (asid : BitVec 12) (kind : AccKind) (engine : Option Nat) (stale : Bool)
  | tlbRep (who : Who) (va : W64) (asid : BitVec 12) (kind : AccKind) (engine : Option Nat) (stale : Bool) (res : TlbEntry ⊕ BitVec 7)
  | inval (id : Nat) (asid : BitVec 12) (page : Option (W64 × Nat))
  | invalAck (id : Nat) (party : Endp)
  | svc (who : Who) (n : W32) (args : List W64)
  | stepReg (id : W32) (deadline : W64) (work : W64) (handler : BitVec 28) (job : W32)
  | stepEnd (id : W32)
  | work (counts : Tbl Nat) (fromCell : Nat)
  | bid (cluster : Nat) (ask weight : Nat) (period : Nat)
  | grant (cluster : Nat) (tokens : Nat) (period : Nat)
  | drop (job : W32)
  | popReq (lane : Nat) (cell : Nat) (want : Nat)
  | reserve (slot : Nat × Nat) (entry : PC) (strands : Nat) (size : Nat) (job : W32)
  | reserveAns (slot : Nat × Nat) (cell : Nat) (granted : Nat)
  | release (slot : Nat × Nat) (job : W32)
  | tailRead (chan : Option Nat) (seqs : List (Nat × W64)) (blocks : List Nat) (arrivals : List Arrival)
  | preemptAns (cell : Nat) (ok : Bool)
  | codeWrite (key : Nat) (bytes : List Byte)
  | cellTables (t : CellTables)
  deriving DecidableEq, Repr

/-- A message in flight. Messages of one network, source and destination are delivered in list order (R24). -/
structure Msg where
  vn : VNet
  src : Endp
  dst : Endp
  body : Body
  deriving DecidableEq, Repr

/-- The tag of a queue entry (R172). -/
inductive QTag where
  | valid | null | poison
  deriving DecidableEq, Repr

/-- An entry of a data queue (R172). -/
structure QEntry where
  scalar : Bool := false
  tag : QTag := .valid
  awaited : Nat := 0
  id : Nat := 0
  lanes : Lanes := []
  value : W64 := 0
  badLanes : W32 := 0
  badAddr : W64 := 0
  badCause : BitVec 7 := 0
  thisSegment : Bool := true
  deriving DecidableEq, Repr

/-- A data queue with its pop shadow (R40, R172). -/
structure DataQ where
  entries : List QEntry := []
  shadow : List QEntry := []
  deriving DecidableEq, Repr

/-- The binding of an endpoint q8 to q15 (R208). -/
structure Bind where
  chan : Nat
  reader : Bool
  deriving DecidableEq, Repr

/-- The elements of a reader endpoint and its pop shadow, each pop with its channel (R210, R334). -/
structure Endpoint where
  taken : List W64 := []
  shadow : List (Nat × W64) := []
  deriving DecidableEq, Repr

/-- The header fields of a lane (R34), and whether it is counted (R375). -/
structure LaneHdr where
  wid : W64 := 0
  job : W32 := 0
  widw : BitVec 42 := 0
  rets : List (BitVec 28) := []
  counted : Bool := false
  msgId : W32 := 0
  deriving DecidableEq, Repr

/-- The registers that a commit takes a snapshot of and a rollback restores (R108, R200). `pastEnd` tells that an instruction
ending at word 0x3FFF has been passed: no instruction lies there (R49). -/
structure Regs where
  v : Tbl Lanes := []
  s : Tbl W64 := []
  p : Tbl W32 := []
  k : Tbl Bool := []
  cm : W32 := 0
  live : W32 := 0
  masks : List W32 := []
  loops : List W64 := []
  pc : PC := 0
  pastEnd : Bool := false
  binds : Tbl (Option Bind) := []
  arrs : Tbl (Option W32) := []
  steps : Tbl W32 := []
  deriving DecidableEq, Repr

/-- What a held send is (R40, R199). -/
inductive SendBody where
  | strand (s : Strand) (uncounted : Bool)
  | msg (m : Smsg)
  | store (home : Endp) (a : Access)
  | elem (chan : Nat) (x : W64)
  | close (chan : Nat)
  | decr (job : W32) (n : Nat)
  | incr (job : W32) (n : Nat)
  | arrive (bar : Nat) (cfg : W64)
  | stepReg (id : W32) (deadline work : W64) (handler : BitVec 28) (job : W32)
  | stepEnd (id : W32)
  | marker (scope : Scope)
  deriving DecidableEq, Repr

/-- A held or released send: its bytes in the send buffer, the scope it releases at if it is a release, what it is, its place in the
order in which the device's commits have released sends, whether it was held behind an acquire that was not yet performed (R278), the
jobs of the strands that held it (R304), and the name by which the releases after it know it (R279). -/
structure Send where
  bytes : Nat := 0
  rel : Option Scope := none
  body : SendBody
  deps : List Nat := []
  act : Nat := 0
  order : Nat := 0
  late : Bool := false
  jobs : List W32 := []
  name : Option Nat := none
  deriving DecidableEq, Repr

/-- An access that has left the cell and is not yet performed and acknowledged (R195, R277). A send keeps its `bytes` of the send buffer;
LDQ and ATOMX take none. `write` tells of the writes that FENCE waits for: STX, CHW and ATOMX; `name` is that of the send. -/
structure Pending where
  id : Nat
  home : Endp
  bytes : Nat := 0
  write : Bool := true
  act : Nat := 0
  jobs : List W32 := []
  name : Option Nat := none
  deriving DecidableEq, Repr

/-- A barrier of a cell (R213). `counted` is the set of members whose arrivals the master counted in this phase; `deps` are the writes
behind the releases of the current phase, and `pdeps` those of phases that have completed, by phase (R276). -/
structure Barrier where
  span : Nat := 0
  parties : W32 := 0
  arrivals : W32 := 0
  phase : W32 := 0
  counted : List Nat := []
  deps : List Nat := []
  pdeps : List (W32 × List Nat) := []
  deriving DecidableEq, Repr

/-- A record group of the journal (R170), with the state it restores. -/
inductive JRec where
  | word (off : Nat) (old : W64)
  | desc (n : Nat) (old : W64)
  | bar (b : Nat) (old : Barrier)
  | arrival (b : Nat) (phase : W32)
  | tag (i : Nat) (oldTag : W64) (oldValid : Bool) (other : Option Nat)
  | tags (valid : Tbl Bool) (base : W64) (lg : Nat)
  deriving DecidableEq, Repr

/-- The four trap registers (R223). -/
structure TrapRegs where
  cause : BitVec 7 := 0
  pc : PC := 0
  addr : W64 := 0
  msg : W32 := 0
  deriving DecidableEq, Repr

/-- What a blocked context waits for (R44): `leaving` is an activation that has ended and whose next send cannot enter the network (R341),
`posting` a ONCE whose instruction has executed and whose commit an acquire holds back (R217, R278). -/
inductive Wait where
  | queue (q : Nat) (need : Nat)
  | qspace (q : Nat) (n : Nat)
  | chan (q : Nat)
  | credits (chan : Nat) (n : Nat)
  | acquire
  | ownAccess
  | space (n : Nat)
  | releases (scope : Option Scope)
  | owed (home : Endp)
  | barrier (b : Nat) (p : W32)
  | barReply (b : Nat) (len : Nat)
  | fence (scope : Scope) (since : Nat)
  | sleep (until_ : W64) (len : Nat)
  | slot
  | chunk (id : BitVec 16) (chunk : Option Nat)
  | tlb (va : W64)
  | join (wire : Wire)
  | joined (wire : Wire)
  | mma
  | mmaTurn
  | accBusy (acc : Nat)
  | forkAcks
  | forkInject
  | svc (len : Nat)
  | quiesce
  | leaving
  | posting
  deriving DecidableEq, Repr

/-- A FORK whose increments have been sent (R204). -/
structure Fork where
  awaited : Nat := 0
  applied : List (W32 × Nat) := []
  refused : Option (BitVec 7) := none
  children : List Strand := []
  place : W64 := 0
  len : Nat := 0
  deriving DecidableEq, Repr

/-- A matched ONCE whose following instruction its master executes (R217): the address of the prefix, the wire, the registers
that the instruction writes, and the members with the words that each passes. -/
structure OnceRun where
  at_ : PC
  wire : Wire
  sregs : List Nat
  kregs : List Nat
  members : List (Who × Nat × Nat)
  deriving DecidableEq, Repr

/-- Whether a context holds an activation (R9, R39, R314, R414). -/
inductive CtxStatus where
  | free | reserved | running | parked | stopped
  deriving DecidableEq, Repr

/-- A context (R11). `stopNext` makes it stop at the commit after its boundary instruction (R42, R323). `spared`
tells that a YIELD has retired in the cycle in which BUDGET reached zero (R321). `deps` names the writes that it has acquired and that may
not yet be performed everywhere (R279), `lastTbc` the latest value that it has read of the timebase (R20), `lastPc` the word of the
instruction that it executed last (R441), and `ran` is the model's count of the instructions that it has executed. `sent` are its messages
to cells that a switched-out cell may refuse, each with its bytes of the send buffer, until they are taken (R425). -/
structure Ctx where
  status : CtxStatus := .free
  r : Regs := {}
  snap : Regs := {}
  snapBudget : Nat := 0
  hdrs : Tbl LaneHdr := []
  setSize : Nat := 0
  entry : W64 := 0
  cls : Option Nat := none
  slackNs : W64 := 0
  priv : Bool := false
  cores : Bool := false
  first : Bool := true
  trigger : List Arrival := []
  budget : Nat := 0
  fullBudget : Nat := 0
  fpctl : BitVec 8 := 0
  fpflags : BitVec 6 := 0
  qcfg : BitVec 16 := 0
  trap : TrapRegs := {}
  qs : Tbl DataQ := []
  eps : Tbl Endpoint := []
  held : List Send := []
  released : List Send := []
  out : List Pending := []
  sent : List (Msg × Nat) := []
  acquires : List Nat := []
  journal : List JRec := []
  tw : Tbl W64 := []
  started : List (BitVec 16) := []
  latched : Option (BitVec 7 × W64) := none
  latchCount : Nat := 0
  wait : Option Wait := none
  fork : Option Fork := none
  once : Option OnceRun := none
  incsAwaited : Nat := 0
  stopNext : Bool := false
  spared : Bool := false
  deps : List Nat := []
  lastTbc : Nat := 0
  lastPc : PC := 0
  ran : Nat := 0
  begun : Nat := 0
  act : Nat := 0
  deriving DecidableEq, Repr

/-- An accumulator's format tag (R229). -/
inductive AccTag where
  | none | f | s32
  deriving DecidableEq, Repr

/-- An accumulator; element [m][n] is entry 32 * m + n (R229). -/
structure Acc where
  tag : AccTag := .none
  elems : Tbl W32 := []
  deriving DecidableEq, Repr

/-- The operands of an MMA word (R231). -/
structure MmaOp where
  ta : Ty
  tb : BitVec 2
  acc : AReg
  tda : BitVec 6
  tdb : BitVec 6
  deriving DecidableEq, Repr

/-- The kinds of join (R215). -/
inductive JoinKind where
  | gang
  | once
  | mma (op : MmaOp)
  deriving DecidableEq, Repr

/-- A place in the order of a cell's joins on a wire: the join there, with the words its instruction takes. A withdrawn join
leaves its place to its activation, and an ended activation leaves it to the next join of the cell (R215). -/
structure Join where
  kind : JoinKind
  ctx : Nat
  act : Nat
  len : Nat
  present : Bool := true
  owned : Bool := true
  deriving DecidableEq, Repr

/-- An MMA that has matched and runs (R235): the descriptors copied at the match, the scale products of each block and row, the
accumulator as it was loaded, the memory of the operands at the match, and the cell's cycle count from which it may retire. -/
structure MmaRun where
  ctx : Nat
  len : Nat
  op : MmaOp
  tdA : List W64
  tdB : List W64
  scales : List W32
  start : Tbl W32
  old : Memory
  due : Nat
  deriving DecidableEq, Repr

/-- A local store waiting in the bank write queue since the count `stamp` (R171). One of an ATOM has read its word already, so that no other write
may come between (R192). -/
structure BankWrite where
  ctx : Nat
  off : Nat
  size : Nat
  data : W64
  stamp : Nat := 0
  atom : Bool := false
  deriving DecidableEq, Repr

/-- A bin (R36, R38). -/
structure Bin where
  entry : PC
  msgs : List Arrival := []
  held : Nat := 0
  firstSegs : Nat := 0
  due : Bool := false
  regs : Option TrapRegs := none
  deriving DecidableEq, Repr

/-- A trap whose verdict has not arrived (R414, R420). `bin` names the held bin of a first segment; `xwait` tells that a RESUME has
come and waits for its transfer (R421). -/
structure PendTrap where
  ctx : BitVec 3
  msgid : W32
  bin : Option PC := none
  msgs : List Arrival := []
  regs : TrapRegs := {}
  frec : Frec := {}
  xwait : Bool := false
  deriving DecidableEq, Repr

/-- A channel descriptor, fields as R329. -/
structure Desc where
  id : Nat := 0
  writer : Nat := 0
  reader : Nat := 0
  lgring : Nat := 0
  scope : Nat := 0
  state : Nat := 0
  quotaM1 : Nat := 0
  ringBase : Nat := 0
  wcount : Nat := 0
  rcount : Nat := 0
  headBlk : Nat := 0
  tailBlk : Nat := 0
  trLen : Nat := 0
  tailIdx : Nat := 0
  headIdx : Nat := 0
  resBlk : Nat := 0
  grown : Nat := 0
  closeAt : Nat := 0
  deriving DecidableEq, Repr

/-- The writer end's copy of a descriptor (R330, R337). -/
structure WCopy where
  desc : Desc
  credits : Nat := 0
  deriving DecidableEq, Repr

/-- The reader end's copy (R330, R376). `landing` counts the refilled elements still in flight (R333). -/
structure RCopy where
  desc : Desc
  landing : Nat := 0
  missing : List Nat := []
  deriving DecidableEq, Repr

/-- A transfer slot (R240, R244). `kept` is the word that a switched-out cell has refused, since `keptAt` (R246, R426). `deps` are the writes behind its chunk bits (R276), and `olds` the words that a transfer without REL may
still read as they were (R241). -/
structure Xfer where
  busy : Bool := false
  uses : BitVec 12 := 0
  state : Nat := 4
  src : W64 := 0
  dst : W64 := 0
  rows : Nat := 0
  rowBytes : Nat := 0
  sstride : W64 := 0
  dstride : W64 := 0
  notify : W64 := 0
  zero : Bool := false
  scope : Scope := .cell
  rel : Bool := false
  done : Tbl Bool := []
  cur : Nat := 0
  todo : List Nat := []
  awaited : Nat := 0
  kept : Option (Endp × Access) := none
  keptAt : Nat := 0
  promise : W64 := 0
  rate : Nat := 0
  faultAddr : W64 := 0
  faultCause : BitVec 7 := 0
  subcause : BitVec 7 := 0
  failing : Bool := false
  starter : Who := ⟨0, 0⟩
  act : Nat := 0
  order : Nat := 0
  deps : List Nat := []
  olds : List (Nat × W64) := []
  job : W32 := 0
  step : W32 := 0
  wid : W64 := 0
  deriving DecidableEq, Repr

/-- The blocks of an inbox's or a pool lane's tailrace, joined by links in the pool map, and how many entries of the first one have gone
(R338). -/
structure Chain where
  blocks : List Nat := []
  head : Nat := 0
  deriving DecidableEq, Repr

/-- A word of a cell's instruction store as it stood before a write, with the stamp of the write (R287). -/
structure OldWord where
  word : Nat
  stamp : Nat
  value : W32
  deriving DecidableEq, Repr

/-- A reservation of contexts for a co-resident launch (R315, R316): the contexts still reserved, the size of a group, the strands
that have yet to form a set, and the dispatched arrivals that wait. -/
structure Reserv where
  slot : Nat × Nat
  entry : PC
  groups : Nat
  size : Nat
  strands : Nat
  job : W32
  waiting : List Arrival := []
  deriving DecidableEq, Repr

/-- The trace unit of a cell (R440). -/
structure Trace where
  va : W64 := 0
  bytes : Nat := 0
  mask : BitVec 6 := 0
  wr : Nat := 0
  deriving DecidableEq, Repr

/-- A tag table (R186). -/
structure TagTable where
  tags : Tbl W64 := []
  valid : Tbl Bool := []
  base : W64 := 0
  lg : Nat := 8
  deriving DecidableEq, Repr

/-- What a switched-out or refusing router owes and what it must send again (R425, R426). -/
structure Refusals where
  listed : List Endp := []
  overflow : Bool := false
  deriving DecidableEq, Repr

/-- A logical cell (R9). `promenade` is the physical column that the cell moves to, or 5 when it has none to go to (R370, R428, R429),
`failing` the lost words of the error that moves it, `swap` the blocks of its swap image (R427), `displacing` the context that has been
chosen for displacement and waits for its queue entries (R320), `cycOff` what its physical cell had counted before it (R21), `twDeps`
what the chunk bits of retired transfers released (R276), and `oldWords` the words of the instruction store that have been written under
running activations (R287). -/
structure Cell where
  ctxs : Tbl Ctx := []
  accs : Tbl Acc := []
  td : Tbl W64 := []
  tags : TagTable := {}
  tlb : List TlbEntry := []
  bars : Tbl Barrier := []
  handlers : Tbl W64 := []
  entries : List EntryRec := []
  inboxCfg : BitVec 8 := 0xF0
  casid : BitVec 12 := 0xFFF
  msgId : W32 := 0
  accepted : Nat := 0
  owedSubs : List (W32 × Nat) := []
  bins : List Bin := []
  overflow : List (PC × Arrival) := []
  tail : List Arrival := []
  tailQuota : Nat := 0
  tailChain : Chain := {}
  xfers : Tbl Xfer := []
  xferOrder : Nat := 0
  twDeps : List (BitVec 16 × List Nat) := []
  wcopies : Tbl (Option WCopy) := []
  rcopies : Tbl (Option RCopy) := []
  bankQ : List BankWrite := []
  oldWords : List OldWord := []
  rowJoins : List Join := []
  clusterJoins : List Join := []
  mma : Option MmaRun := none
  pending : List PendTrap := []
  displaced : Option Ctx := none
  displacing : Option Nat := none
  preempting : Bool := false
  out : Bool := false
  halted : Bool := false
  refusals : Refusals := {}
  reservs : List Reserv := []
  cyc : Nat := 0
  cycOff : Nat := 0
  rrLane : Nat := 0
  rrScalar : Nat := 0
  rrZero : Nat := 0
  class0Count : Nat := 0
  units : Tbl Nat := []
  busyCycles : Nat := 0
  dropping : List W32 := []
  popOpen : Tbl Nat := []
  trace : Trace := {}
  temp : Nat := 0
  tripped : Bool := false
  retrip : Bool := false
  resumedAt : Nat := 0
  promenade : Option Nat := none
  failing : Option W32 := none
  gone : Bool := false
  swap : List Nat := []
  issueNum : Nat := 1
  issueDen : Nat := 1
  sluiceIdle : Bool := false
  issuedSince : Bool := false
  deriving DecidableEq, Repr

/-- A non-leaf entry of a millwright's walk cache (R398). -/
structure WalkEntry where
  asid : BitVec 12
  level : Nat
  index : Nat
  table : Nat
  deriving DecidableEq, Repr

/-- A cluster: its millwright, dispatch station, home station and clock (R14, R309, R363). `bids` holds the bids that the Weir has for it
by period, `granted` one more than the period of its grant, `act` the activity of the period that has ended (R363), `denyNum` over
`denyDen` the fraction of its issue cycles that are granted while issue is denied (R366), and `denyEnds` tells of a higher grant since. -/
structure Cluster where
  walkCache : List WalkEntry := []
  station : List (Endp × Strand) := []
  poisoned : List (Nat × W64) := []
  bids : Tbl (Nat × Nat) := []
  grant : Nat := 0
  granted : Nat := 0
  act : Nat := 256
  denied : Bool := false
  denyNum : Nat := 1
  denyDen : Nat := 1
  denyEnds : Bool := false
  busyAt : Nat := 0
  meterBusy : Nat := 0
  meterCycles : Nat := 0
  nextMeter : Nat := 0
  deriving DecidableEq, Repr

/-- The arbiter of a home station (R194): the input that won last, 0 to 3 for N, E, S and W, and the sources whose next request has arrived,
in order of arrival. -/
structure Arbiter where
  last : Nat := 3
  here : List Endp := []
  deriving DecidableEq, Repr

/-- A bind record: its eight doublewords (R306). -/
abbrev BindRec := List W64

/-- The life of a slot of a slot table (R307, R308). -/
inductive SlotState where
  | free | armed | reserving | counting | injecting
  deriving DecidableEq, Repr

/-- A slot of a die's slot table (R307): its record and age, the next strand to leave, the cells still to be asked for contexts,
and the groups that the cells have granted, in order. -/
structure Slot where
  state : SlotState := .free
  part : Nat := 0
  bindRec : BindRec := []
  age : W32 := 0
  next : Nat := 0
  toAsk : List Nat := []
  grants : List (Nat × Nat) := []
  deriving DecidableEq, Repr

/-- A pool lane of a die (R317, R343): its ring in HBM, with the entry of its oldest message, and its tailrace. `gateway` is a bound Reel
gateway (R207). -/
structure PoolLane where
  part : Option Nat := none
  entry : PC := 0
  cells : List Nat := []
  capacity : Nat := 0
  quota : Nat := 0
  ringPa : Nat := 0
  first : Nat := 0
  ring : List Parcel := []
  tail : List Parcel := []
  chain : Chain := {}
  parked : List (Nat × Nat) := []
  gateway : Option (BitVec 16 × W64) := none
  deriving DecidableEq, Repr

/-- A die (R15). -/
structure Die where
  slots : Tbl Slot := []
  nextAge : W32 := 0
  lanes : Tbl PoolLane := []
  deriving DecidableEq, Repr

/-- A graph node record (R298). -/
structure Node where
  kind : Nat
  npred : Nat
  succ0 : Nat
  succ1 : Nat
  na : W64
  nb : W64
  nc : W64
  deriving DecidableEq, Repr

/-- A template resolved at load: the fields of R297 with the entry's and the handler's place words. -/
structure Template where
  place : W64
  handler : W64
  widBase : W64
  count : Nat
  prio : Nat
  cores : Bool
  pinned : Bool
  group : Nat
  widw : BitVec 42
  step : W32
  reldl : W64
  work : W64
  deriving DecidableEq, Repr

/-- A loaded graph (R296) with all that its load placed (R84): `cells` are the cells of the graph (R395), `code` the word ranges with
their words, `scratch` the cells, offsets and lengths of scratch data and rings, `digests` those of its code objects and its own. -/
structure Graph where
  nodes : List Node
  templates : List Template
  doneVa : W64
  irq : Bool
  asid : BitVec 12
  cells : List Nat
  load : Nat
  chans : List Nat
  lanes : List (Nat × Nat)
  pages : List (W64 × Nat)
  code : List (Nat × Nat × List W32)
  scratch : List (Nat × Nat × Nat)
  entries : List (Nat × PC)
  handlers : List (Nat × Nat)
  digests : List (List Byte)
  deriving DecidableEq, Repr

/-- The state of a node in a replay (R302). -/
inductive NodeState where
  | idle | waiting | running | done
  deriving DecidableEq, Repr

/-- A running replay (R302). `again` are the nodes that may start once more and still run. -/
structure Replay where
  handle : Nat
  number : Nat
  nodes : List Node
  templates : List Template
  arrivals : Tbl Nat := []
  state : Tbl NodeState := []
  loopsRun : Tbl Nat := []
  jobs : Tbl W32 := []
  faulted : Bool := false
  noStart : Bool := false
  copied : Tbl Nat := []
  pins : List Nat := []
  again : List Nat := []
  deriving DecidableEq, Repr

/-- A kick register (R300). -/
structure KickReg where
  queue : List (W64 × Nat) := []
  next : Nat := 1
  replay : Option Replay := none
  deriving DecidableEq, Repr

/-- An allocated or quarantined ASID (R398, R401). -/
structure Asid where
  root : Nat := 0
  supplied : Bool := false
  walker : Nat := 0
  quarantine : Bool := false
  deriving DecidableEq, Repr

/-- Notification states of a step (R360). -/
inductive NoteState where
  | armed | warned | missed
  deriving DecidableEq, Repr

/-- An entry of a governor's step table (R353). `bounded` tells that a boundary has passed since it entered (R359), and `replacedAt` when
a registration of this period replaced it (R372). -/
structure StepEntry where
  id : W32
  deadline : W64
  work : Nat
  handler : BitVec 28
  job : W32
  done : Nat := 0
  meas : Option (Nat × Nat) := none
  note : NoteState := .armed
  throttle : Bool := false
  ended : Bool := false
  jobsLeft : List W32 := []
  entered : W64 := 0
  slack : Int := 0
  bounded : Bool := false
  replacedAt : Option Nat := none
  fresh : Nat := 0
  urgency : Nat := 1
  deriving DecidableEq, Repr

/-- A domain's governor (R353, R359, R365, R368). `raising` is the point that the rail is raised for, `quiesce` a change that drains,
with its start; `next` is the boundary that comes next, and `sent` the one for which the cells have sent their counter tables. -/
structure Governor where
  steps : List StepEntry := []
  chosen : Nat := 15
  inForce : Nat := 15
  raising : Option Nat := none
  quiesce : Option (Nat × Nat) := none
  cycles : Nat := 0
  cyclesAt : Nat := 0
  next : Nat := 0
  sent : Nat := 0
  deriving DecidableEq, Repr

/-- Why a partition's cells are brought to a stop together (R410, R435): `closing` waits for the command boundary of a pre-emption, with the
executor, the kick queues and dispatch on hold. -/
inductive Cut where
  | none
  | closing
  | preempting
  | preempted
  | checkpoint (stay : Bool) (since : Nat)
  deriving DecidableEq, Repr

/-- A partition (R387, R407). `tables` are the tables that loads have put into the load area, each with its bytes and the address of
the entry that leads to it (R84). -/
structure Part where
  open_ : Bool := false
  rail : Nat := 0
  floor : Nat := 0
  defpt : Nat := 15
  asidBase : Nat := 0
  asidCount : Nat := 0
  clusters : List Nat := []
  slabs : List Nat := []
  reserved : List Nat := []
  faultSrv : W64 := 0
  poolB : Nat := 0
  inboxQ : Nat := 0
  reelShare : Nat := 0
  sysPa : Nat := 0
  loadMb : Nat := 0
  pcb : List Byte := []
  asids : Tbl (Option Asid) := []
  graphs : Tbl (Option Graph) := []
  kicks : Tbl KickReg := []
  kickOverflow : Nat := 0
  bar2Drops : Nat := 0
  freeBlocks : List Nat := []
  reservedBlocks : Nat := 0
  loads : Nat := 0
  tables : List (Nat × Nat × Nat) := []
  seq : W64 := 0
  stopped : Bool := false
  armed : Bool := false
  cut : Cut := .none
  gov : Governor := {}
  running : List (W32 × Nat × Nat) := []
  prios : List (W32 × Nat) := []
  reported : List Nat := []
  nextSluice : Nat := 0
  chanQuota : Tbl Nat := []
  killed : List W32 := []
  gangWait : List Frec := []
  verdicts : List (Nat × W64 × Nat) := []
  retries : List (Nat × W32 × Nat) := []
  deriving DecidableEq, Repr

/-- A record of the violation log (R391). -/
structure Violation where
  tbc : W64
  addr : W64
  kind : Nat
  at_ : Nat
  part : Nat
  phys : Nat
  target : W32
  deriving DecidableEq, Repr

/-- A Reel port (R456 to R458). `out` are the flits handed to the link, `replays` the times of the
replays since the last shed, and `nextTry` the time at which a down port is retrained. `waiting` are the accesses to
peers that have gone out and wait for their responses, those together that one request carries, and `used` the flits that each partition has
sent of its share in the current round, with those sent beyond any share under 64 (R456). -/
structure Reel where
  lanes : Nat := 0
  txSeq : BitVec 12 := 0
  ack : BitVec 12 := 0
  rxLast : BitVec 12 := 0
  replayBuf : List (List Byte) := []
  out : List (List Byte) := []
  replays : List Nat := []
  retraining : Bool := false
  nextTry : Nat := 0
  partial_ : List (List Byte) := []
  waiting : List (List Access) := []
  used : Tbl Nat := []
  deriving DecidableEq, Repr

/-- The boot of R454: no power; step 7, the hook window, with its end; every command open. -/
inductive Boot where
  | off
  | hookWindow (ends : Nat)
  | ready
  deriving DecidableEq, Repr

/-- An invalidation in progress (R400). -/
structure Inval where
  id : Nat
  asid : BitVec 12
  page : Option (W64 × Nat)
  waiting : List Endp
  after : After
  deriving DecidableEq, Repr

/-- A host command that has been accepted and not yet answered (R405): what it waits for. -/
inductive CmdWait where
  | none
  | loading (part load handle : Nat) (cells : List Nat)
  | mapping (left pages : Nat)
  | preempting (part dump : Nat)
  | railing (part rail : Nat)
  | creating (part : Nat) (pcb : List Byte)
  | preemptSoon (part dump : Nat)
  | checkpoint (l : List (Nat × Nat × Nat)) (stay : Bool)
  deriving DecidableEq, Repr

/-- A command in flight, with its TAG. -/
structure InFlight where
  tag : W32 := 0
  wait : CmdWait := .none
  deriving DecidableEq, Repr

/-- What the safe tier holds of a partition after a checkpoint (R435 to R438): the partition record, the cells by their
partition-relative numbers, the slots and pool lanes by partition-relative die, the refused messages that its endpoints keep, the bytes of
the slabs, the dump area, the TBC and the counter of the cut, and the signature over the digests of its sections. -/
structure Image where
  part : Part
  cells : Tbl Cell
  slots : List (Nat × Nat × Slot)
  lanes : List (Nat × Nat × PoolLane)
  refused : List Msg
  mem : Memory
  dump : Nat
  tbc : Nat
  turn : Nat
  digests : List (List Byte)
  signature : List Byte
  deriving DecidableEq, Repr

/-- What a release left at the bytes it wrote: whose it was, its scope, and the writes behind it that were still on their
way (R279). -/
structure RelDep where
  key : Nat
  size : Nat
  cell : Nat
  scope : Scope
  deps : List Nat
  deriving DecidableEq, Repr

/-- The state of the device and, last, the fields that are the model's own. `spareCyc` is the cycle count of each physical cell that a
logical cell has left (R21), `machineCheck` tells that the device stands in MACHINE_CHECK (R433), and `bar2Data` is what the last read
through a BAR2 returned (R449, R450). -/
structure State where
  mem : Memory := []
  boot : Boot := .off
  tbc : Nat := 0
  cells : Tbl Cell := []
  clusters : Tbl Cluster := []
  dies : Tbl Die := []
  parts : Tbl Part := []
  rowMaps : Tbl (List Nat) := []
  failedPhys : List Nat := []
  hotPhys : List Nat := []
  physTemp : Tbl Nat := []
  spareCyc : Tbl Nat := []
  machineCheck : Bool := false
  rails : Tbl Nat := []
  railNext : Tbl Nat := []
  capTokens : Nat := 10400
  weirDone : Nat := 0
  violations : List Violation := []
  violationOverwrites : Nat := 0
  reels : Tbl Reel := []
  bars : Tbl (Tbl W64) := []
  cmds : Tbl InFlight := []
  images : Tbl (Option Image) := []
  hookStage : Tbl Byte := []
  hookTable : List Byte := []
  fwDigest : List Byte := []
  i3cAddr : Option (BitVec 7) := none
  i3cStatus : BitVec 4 := 0
  bar2Data : W64 := 0
  irqs : List (Nat × Nat) := []
  sentAt : Tbl Nat := []
  heldBack : Tbl Nat := []
  invals : List Inval := []
  net : List Msg := []
  refused : List (Msg × Nat) := []
  arbiters : Tbl Arbiter := []
  gates : Tbl (List (VNet × Endp)) := []
  relDeps : List RelDep := []
  inputs : List Instr := []
  cur : Who := ⟨0, 0⟩
  nextId : Nat := 1
  turn : Nat := 0
  deriving DecidableEq, Repr

/-- The machine as its power comes up (R454): it owns no partition and lists no memory, every register holds the default above, and
power-good is the first of its inputs (log entries 4 and 5). -/
def State.reset : State := { inputs := [.powerGood] }

end Sys2Proof.Machine
end

