-- ==== Sys2Proof/Machine/Tables.lean ====
section
/-! DEFINITION. The operations on sparse tables and on memory. Every reader and writer of the model goes through them. -/

namespace Sys2Proof.Machine

/-- The entry of a table, or the default where it lists none. -/
def tget (d : α) : Tbl α → Nat → α
  | [], _ => d
  | (j, x) :: t, k => if j = k then x else tget d t k

/-- The table with an entry set, kept in rising order. -/
def tset : Tbl α → Nat → α → Tbl α
  | [], k, v => [(k, v)]
  | (j, x) :: t, k, v =>
    if k < j then (k, v) :: (j, x) :: t
    else if k = j then (k, v) :: t
    else (j, x) :: tset t k v

/-- The table without an entry. -/
def tdel (t : Tbl α) (k : Nat) : Tbl α := t.filter (·.1 != k)

/-- The numbers that a table lists. -/
def tkeys (t : Tbl α) : List Nat := t.map (·.1)

/-- The table with every listed entry changed. -/
def tmap (f : Nat → α → β) (t : Tbl α) : Tbl β := t.map fun x => (x.1, f x.1 x.2)

/-- Pairs a list with numbers from n. -/
def number (n : Nat) : List α → Tbl α
  | [] => []
  | x :: xs => (n, x) :: number (n + 1) xs

/-- Two numbers as one, no two pairs alike. -/
def pairNum (a b : Nat) : Nat := (a + b) * (a + b + 1) / 2 + b

/-- A count in a field of 32 bits, which saturates (R417). -/
def count32 (n : Nat) : W32 := if n < 2 ^ 32 then BitVec.ofNat 32 n else 0xFFFFFFFF

/-- The byte at an address; an unlisted address reads as zero (log entry 1). -/
def mread (m : Memory) (a : Nat) : Byte := tget 0 m a

/-- A byte put into a memory that does not list its address. -/
def minsert : Memory → Nat → Byte → Memory
  | [], a, b => [(a, b)]
  | (j, x) :: m, a, b => if a < j then (a, b) :: (j, x) :: m else (j, x) :: minsert m a b

/-- The memory with one byte written; zero is what an unlisted address reads as, so it is never listed. -/
def mwrite (m : Memory) (a : Nat) (b : Byte) : Memory :=
  let rest := m.filter (·.1 != a)
  if b = 0 then rest else minsert rest a b

/-- Strictly rising addresses. -/
def rising : Memory → Bool
  | (a, _) :: (b, y) :: m => decide (a < b) && rising ((b, y) :: m)
  | _ => true

/-- The canonical form of a memory: addresses strictly rising, and no entry that an unlisted address would read as. -/
def Memory.wf (m : Memory) : Bool := rising m && m.all (·.2 != 0)

/-- n bytes from an address, the lowest-addressed byte lowest (R4). -/
def readLE (m : Memory) (a : Nat) : Nat → Nat
  | 0 => 0
  | n + 1 => (mread m a).toNat + 256 * readLE m (a + 1) n

/-- The n low bytes of a value written at an address, the lowest byte first (R4). -/
def writeLE (m : Memory) (a : Nat) : Nat → Nat → Memory
  | 0, _ => m
  | n + 1, v => writeLE (mwrite m a (BitVec.ofNat 8 v)) (a + 1) n (v / 256)

/-- A list of bytes written from an address on. -/
def writeBytes (m : Memory) (a : Nat) : List Byte → Memory
  | [] => m
  | b :: bs => writeBytes (mwrite m a b) (a + 1) bs

/-- n bytes written at the addresses that a function gives. -/
def writeAll (at_ : Nat → Nat) (f : Nat → Byte) (n : Nat) (m : Memory) : Memory :=
  (List.range n).foldl (fun m k => mwrite m (at_ k) (f k)) m

/-- n bytes from an address, as a list. -/
def readBytes (m : Memory) (a : Nat) : Nat → List Byte
  | 0 => []
  | n + 1 => mread m a :: readBytes m (a + 1) n

/-- The memory without the entries of a range; they then read as zero. -/
def clearRange (m : Memory) (a n : Nat) : Memory := m.filter fun x => x.1 < a || a + n ≤ x.1

/-- The entries of a range copied elsewhere, over a cleared destination. -/
def copyRange (m : Memory) (src dst n : Nat) : Memory :=
  let part := m.filter fun x => src ≤ x.1 && x.1 < src + n
  part.foldl (fun acc x => mwrite acc (dst + (x.1 - src)) x.2) (clearRange m dst n)

/-- The n bytes of a number, the lowest first. -/
def leBytes : Nat → Nat → List Byte
  | 0, _ => []
  | n + 1, v => BitVec.ofNat 8 v :: leBytes n (v / 256)

/-- The number that bytes stand for, the lowest first. -/
def ofLE : List Byte → Nat
  | [] => 0
  | b :: bs => b.toNat + 256 * ofLE bs

/-- The memory key of byte `off` of a cell's aperture: scratchpad and instruction store (R30). -/
def cellKey (cell off : Nat) : Nat := 2 ^ 40 + cell * 2 ^ 20 + off
/-- The memory key of a byte of HBM: its physical address (R388). -/
def hbmKey (pa : Nat) : Nat := pa
/-- The memory key of a byte of the host's memory, by host bus address. -/
def hostKey (a : Nat) : Nat := 2 ^ 64 + a
/-- The memory key of a byte of the safe tier. -/
def safeKey (a : Nat) : Nat := 2 ^ 65 + a
/-- The key of a byte of a peer device, which is no memory of this one: its Reel address and its physical address there (R397). -/
def peerKey (dev pa : Nat) : Nat := 2 ^ 66 + dev * 2 ^ 40 + pa

/-- The first of a list that a test picks, with its place. -/
def findIdx (p : α → Bool) (l : List α) : Option (Nat × α) :=
  go 0 l
where
  go : Nat → List α → Option (Nat × α)
    | _, [] => none
    | n, x :: xs => if p x then some (n, x) else go (n + 1) xs

/-- The number of members of a list of Booleans' mask below n that are set. -/
def popCount (w : BitVec n) : Nat := ((List.range n).filter fun i => w.getLsbD i).length

/-- The lanes of a mask, rising. -/
def lanesOf (m : W32) : List Nat := (List.range 32).filter fun i => m.getLsbD i

/-- The mask with the lanes that a test picks. -/
def maskOf (p : Nat → Bool) : W32 := BitVec.ofNat 32 ((List.range 32).foldl (fun a i => if p i then a + 2 ^ i else a) 0)

/-- A list with entry k changed; shorter lists stay as they are. -/
def setAt : List α → Nat → α → List α
  | [], _, _ => []
  | _ :: t, 0, v => v :: t
  | x :: t, k + 1, v => x :: setAt t k v

/-- A list without entry k. -/
def delAt : List α → Nat → List α
  | [], _ => []
  | _ :: t, 0 => t
  | x :: t, k + 1 => x :: delAt t k

end Sys2Proof.Machine
end

