-- ==== Sys2Proof/Machine/Crypto.lean ====
section
/-! DEFINITION. The functions that the reference names by their standards: SHAKE256 and pure Ed448 (R403, R404, R453), and CRC-64
(R457). Their definitions are taken from FIPS 202, RFC 8032 and ECMA-182 (PRESUMED, log entry 7). -/

namespace Sys2Proof.Machine

/-- The first n bytes of a block, with zeros after a shorter one. -/
def fit (n : Nat) (l : List Byte) : List Byte := (l ++ List.replicate n 0).take n

/-! ### SHAKE256 (FIPS 202) -/

/-- The 25 lanes of the permutation's state; lane x, y is entry x + 5y. -/
abbrev Keccak := List W64

/-- A lane of the state. -/
def Keccak.lane (a : Keccak) (x y : Nat) : W64 := a.getD (x % 5 + 5 * (y % 5)) 0

/-- Lanes by x and y. -/
def Keccak.of (f : Nat → Nat → W64) : Keccak := (List.range 25).map fun i => f (i % 5) (i / 5)

/-- The eight-bit register of step ι, one bit on: x⁸ = x⁶ + x⁵ + x⁴ + 1. -/
def iotaNext (r : Nat) : Nat := if r < 128 then 2 * r else (2 * r) ^^^ 0x171

/-- The next j bits of that register put into a lane, bit i of the round at place 2^i - 1, and the register after. -/
def iotaBits : Nat → Nat → W64 → W64 × Nat
  | 0, r, w => (w, r)
  | j + 1, r, w => iotaBits j (iotaNext r) (if r % 2 = 1 then w ^^^ ((1 : W64) <<< (2 ^ (6 - j) - 1)) else w)

/-- Step θ: each lane with the parity of the column before its own and of the one after, turned by one. -/
def Keccak.mixed (a : Keccak) : Keccak :=
  let sums := (List.range 5).map fun x => (List.range 5).foldl (fun w y => w ^^^ a.lane x y) 0
  Keccak.of fun x y => a.lane x y ^^^ sums.getD ((x + 4) % 5) 0 ^^^ (sums.getD ((x + 1) % 5) 0).rotateLeft 1

/-- Steps ρ and π: the walk from lane (1, 0) over the other lanes; the n lanes left, the place, and the turn of its
lane, which grows by 2, 3, 4 and so on. -/
def Keccak.strewn (a : Keccak) : Nat → Nat → Nat → Nat → Keccak → Keccak
  | 0, _, _, _, b => b
  | n + 1, x, y, turn, b =>
    let v := (2 * x + 3 * y) % 5
    Keccak.strewn a n y v ((turn + 25 - n) % 64) (b.set (y + 5 * v) ((a.lane x y).rotateLeft turn))

/-- Step χ. -/
def Keccak.folded (a : Keccak) : Keccak :=
  Keccak.of fun x y => a.lane x y ^^^ (~~~(a.lane (x + 1) y) &&& a.lane (x + 2) y)

/-- So many rounds, from a content of the register of step ι. -/
def Keccak.rounds : Nat → Nat → Keccak → Keccak
  | 0, _, a => a
  | n + 1, r, a =>
    let m := a.mixed
    let e := (Keccak.strewn m 24 1 0 1 m).folded
    let k := iotaBits 7 r 0
    Keccak.rounds n k.2 (e.set 0 (e.lane 0 0 ^^^ k.1))

/-- The permutation of 24 rounds. -/
def Keccak.permute (a : Keccak) : Keccak := Keccak.rounds 24 1 a

/-- The bytes that one block absorbs or gives. -/
def shakeRate : Nat := 136

/-- The state after n blocks of a padded message. -/
def Keccak.absorb (a : Keccak) : Nat → List Byte → Keccak
  | 0, _ => a
  | n + 1, b =>
    let w := fun i => BitVec.ofNat 64 (ofLE ((b.drop (8 * i)).take 8))
    Keccak.absorb (Keccak.permute (Keccak.of fun x y => a.lane x y ^^^ (if x + 5 * y < 17 then w (x + 5 * y) else 0))) n (b.drop shakeRate)

/-- The bytes that n blocks give. -/
def Keccak.squeeze (a : Keccak) : Nat → List Byte
  | 0 => []
  | n + 1 => ((a.take 17).flatMap fun w => leBytes 8 w.toNat) ++ Keccak.squeeze a.permute n

/-- A message with the padding of SHAKE: bits 1111, then 1, zeros and 1 to the end of a block. -/
def shakePad (b : List Byte) : List Byte :=
  let n := shakeRate - b.length % shakeRate
  b ++ (if n == 1 then [0x9F] else 0x1F :: List.replicate (n - 2) 0 ++ [0x80])

/-- SHAKE256 with n bytes of output. -/
def shake (n : Nat) (b : List Byte) : List Byte :=
  let m := shakePad b
  ((Keccak.absorb (List.replicate 25 0) (m.length / shakeRate) m).squeeze (n / shakeRate + 1)).take n

/-- Every digest: SHAKE256 with 64 bytes of output (R403). -/
def shake256 (b : List Byte) : List Byte := shake 64 b

/-! ### Ed448 (RFC 8032) -/

/-- The prime of the field. -/
def edP : Nat := 2 ^ 448 - 2 ^ 224 - 1
/-- The order of the base point. -/
def edL : Nat := 2 ^ 446 - 13818066809895115352007386748515426880336692474882178609894547503885
/-- The curve x² + y² = 1 + d x² y², with d = -39081. -/
def edD : Nat := edP - 39081

/-- A power modulo the prime, by the bits of the exponent, the highest first. -/
def edPow (x n : Nat) : Nat :=
  (List.range 448).foldl (fun r k => let r := r * r % edP; if n.testBit (447 - k) then r * x % edP else r) 1

/-- A point of the curve in projective coordinates. -/
structure EdPoint where
  x : Nat
  y : Nat
  z : Nat
  deriving DecidableEq, Repr

/-- The neutral point. -/
def edZero : EdPoint := { x := 0, y := 1, z := 1 }

/-- The base point. -/
def edBase : EdPoint :=
  { x := 224580040295924300187604334099896036246789641632564134246125461686950415467406032909029192869357953282578032075146446173674602635247710
    y := 298819210078481492676017930443930673437544040154080242095928241372331506189835876003536878655418784733982303233503462500531545062832660
    z := 1 }

/-- The sum of two points. -/
def EdPoint.add (p q : EdPoint) : EdPoint :=
  let a := p.z * q.z % edP
  let b := a * a % edP
  let c := p.x * q.x % edP
  let d := p.y * q.y % edP
  let e := edD * (c * d % edP) % edP
  let f := (b + edP - e) % edP
  let g := (b + e) % edP
  let h := (p.x + p.y) * (q.x + q.y) % edP
  { x := a * f % edP * ((h + 2 * edP - c - d) % edP) % edP, y := a * g % edP * ((d + edP - c) % edP) % edP, z := f * g % edP }

/-- A multiple of a point. -/
def EdPoint.mul (p : EdPoint) (n : Nat) : EdPoint :=
  (List.range 456).foldl (fun r k => let r := r.add r; if n.testBit (455 - k) then r.add p else r) edZero

/-- Whether two points are equal. -/
def EdPoint.same (p q : EdPoint) : Bool :=
  p.x * q.z % edP == q.x * p.z % edP && p.y * q.z % edP == q.y * p.z % edP

/-- The 57 bytes of a point: y, and the low bit of x in the highest bit of the last byte. -/
def EdPoint.encode (p : EdPoint) : List Byte :=
  let i := edPow p.z (edP - 2)
  leBytes 57 (p.y * i % edP + p.x * i % edP % 2 * 2 ^ 455)

/-- The point that 57 bytes stand for, if they stand for one. -/
def EdPoint.decode (b : List Byte) : Option EdPoint :=
  let n := ofLE b
  let sign := n / 2 ^ 455 % 2
  let y := n % 2 ^ 455
  let u := (y * y + edP - 1) % edP
  let v := (edD * (y * y % edP) + edP - 1) % edP
  let r := u * u % edP * u % edP * v % edP * edPow (u * u % edP * (u * u % edP) % edP * u % edP * (v * v % edP * v % edP) % edP) ((edP - 3) / 4) % edP
  if b.length != 57 || edP ≤ y || v * (r * r % edP) % edP != u || (r == 0 && sign == 1) then none
  else some { x := if r % 2 == sign then r else edP - r, y, z := 1 }

/-- The prefix of every hash of pure Ed448 with an empty context. -/
def edDom : List Byte := [0x53, 0x69, 0x67, 0x45, 0x64, 0x34, 0x34, 0x38, 0, 0]

/-- A hash of pure Ed448 as a number below the order. -/
def edHash (b : List Byte) : Nat := ofLE (shake 114 (edDom ++ b)) % edL

/-- The secret scalar of a 57-byte private key, pruned. -/
def edScalar (seed : List Byte) : Nat :=
  let n := ofLE ((shake 114 seed).take 56)
  n % 2 ^ 447 / 4 * 4 + 2 ^ 447

/-- The 57-byte public key of a private key. -/
def edPublic (seed : List Byte) : List Byte := (edBase.mul (edScalar seed)).encode

/-- The 114-byte signature of a message. -/
def edSign (seed b : List Byte) : List Byte :=
  let r := edHash ((shake 114 seed).drop 57 ++ b)
  let rb := (edBase.mul r).encode
  let k := edHash (rb ++ edPublic seed ++ b)
  rb ++ leBytes 57 ((r + k * edScalar seed) % edL)

/-- Whether a signature of a message verifies under a public key; both sides of the equation are taken four times. -/
def edVerify (key sig b : List Byte) : Bool :=
  let s := ofLE (sig.drop 57)
  match EdPoint.decode (sig.take 57), EdPoint.decode key with
  | some r, some a =>
    sig.length == 114 && decide (s < edL) &&
    ((edBase.mul s).mul 4).same ((r.add (a.mul (edHash (sig.take 57 ++ key ++ b)))).mul 4)
  | _, _ => false

/-! ### The keys of the device (R403, R453) -/

/-- The fused seed, which is the private key of the device identity (R403). -/
def deviceSeed : List Byte := fit 57 Config.identitySeed
/-- The signature of a message by the device identity key (R404, R438). -/
def deviceSign (b : List Byte) : List Byte := edSign deviceSeed b
/-- The public key of the device identity (R406). -/
def deviceKey : List Byte := edPublic deviceSeed

/-! ### CRC-64 (ECMA-182) -/

/-- The CRC after one more bit, the highest bit of a byte first. -/
def crcBit (r : W64) (b : Bool) : W64 := if r.msb == b then r <<< 1 else (r <<< 1) ^^^ 0x42F0E1EBA9EA3693

/-- The CRC of bytes, from zero. -/
def crc64 (b : List Byte) : W64 :=
  b.foldl (fun r y => (List.range 8).foldl (fun r k => crcBit r (y.getLsbD (7 - k))) r) 0

end Sys2Proof.Machine
end

