-- ==== Sys2Proof/Machine/Access.lean ====
section
/-! DEFINITION. Reaching the parts of the device: cells, contexts, partitions and their numbering (R7, R8, R13), cause
codes (R416), messages on the mesh (R23, R24), fault records (R417, R418) and the violation log (R391). -/

namespace Sys2Proof.Machine

/-! ### Cells, contexts, clusters, dies, partitions -/

/-- A device logical cell. -/
def State.cell (s : State) (n : Nat) : Cell := tget {} s.cells n
/-- The state with a cell replaced. -/
def State.setCell (s : State) (n : Nat) (c : Cell) : State := { s with cells := tset s.cells n c }
/-- A context of a cell. -/
def Cell.ctx (c : Cell) (k : Nat) : Ctx := tget {} c.ctxs k
/-- The cell with a context replaced. -/
def Cell.setCtx (c : Cell) (k : Nat) (x : Ctx) : Cell := { c with ctxs := tset c.ctxs k x }
/-- A context of the device. -/
def State.ctx (s : State) (w : Who) : Ctx := (s.cell w.cell).ctx w.ctx
/-- The state with a context replaced. -/
def State.setCtx (s : State) (w : Who) (x : Ctx) : State := s.setCell w.cell ((s.cell w.cell).setCtx w.ctx x)
/-- The context that issues. -/
def State.me (s : State) : Ctx := s.ctx s.cur
/-- The state with the issuing context replaced. -/
def State.setMe (s : State) (x : Ctx) : State := s.setCtx s.cur x
/-- The cell of the context that issues. -/
def State.myCell (s : State) : Cell := s.cell s.cur.cell
/-- The state with the issuing context's cell replaced. -/
def State.setMyCell (s : State) (c : Cell) : State := s.setCell s.cur.cell c
/-- A cluster's own parts. -/
def State.cluster (s : State) (k : Nat) : Cluster := tget {} s.clusters k
/-- The state with a cluster's parts replaced. -/
def State.setCluster (s : State) (k : Nat) (c : Cluster) : State := { s with clusters := tset s.clusters k c }
/-- A die's own parts. -/
def State.die (s : State) (d : Nat) : Die := tget {} s.dies d
/-- The state with a die's parts replaced. -/
def State.setDie (s : State) (d : Nat) (x : Die) : State := { s with dies := tset s.dies d x }
/-- A partition. -/
def State.part (s : State) (p : Nat) : Part := tget {} s.parts p
/-- The state with a partition replaced. -/
def State.setPart (s : State) (p : Nat) (x : Part) : State := { s with parts := tset s.parts p x }
/-- A Reel port. -/
def State.reel (s : State) (k : Nat) : Reel := tget {} s.reels k
/-- The state with a Reel port replaced. -/
def State.setReel (s : State) (k : Nat) (x : Reel) : State := { s with reels := tset s.reels k x }

/-- The contexts of a cell are numbered 0 to 7 (R9). -/
def ctxNums : List Nat := List.range 8

/-- The die of a device logical cell (R7). -/
def dieOf (cell : Nat) : Nat := cell / 16 / 48

/-- The partition that owns a device cluster (R387). -/
def State.clusterPart (s : State) (cluster : Nat) : Option Nat :=
  (s.parts.find? fun x => x.2.clusters.contains cluster).map (·.1)
/-- The partition that owns a cell (R387). -/
def State.partOf (s : State) (cell : Nat) : Option Nat := s.clusterPart (cell / 16)
/-- The partition that owns a slab (R388). -/
def State.slabPart (s : State) (slab : Nat) : Option Nat :=
  (s.parts.find? fun x => x.2.slabs.contains slab).map (·.1)
/-- The number of a cell's partition; 0x3F when it has none. -/
def State.partNo (s : State) (cell : Nat) : Nat := (s.partOf cell).getD 0x3F
/-- The partition of a cell. -/
def State.partAt (s : State) (cell : Nat) : Part := s.part (s.partNo cell)

/-- The number of a partition's logical cells (R8). -/
def Part.cellCount (p : Part) : Nat := 16 * p.clusters.length
/-- The partition-relative number of a device cell (R8). -/
def Part.rel (p : Part) (cell : Nat) : Nat := 16 * p.clusters.idxOf (cell / 16) + cell % 16
/-- The device cell of a partition-relative number (R8). -/
def Part.dev (p : Part) (n : Nat) : Nat := 16 * p.clusters.getD (n / 16) 0 + n % 16
/-- The device cells of a partition, in logical cell order. -/
def Part.cells (p : Part) : List Nat := (List.range p.cellCount).map p.dev
/-- The dies of a partition, ascending; their places are the partition-relative numbers (R8). -/
def Part.dies (p : Part) : List Nat := (List.range 4).filter fun d => p.clusters.any fun k => k / 48 == d
/-- The die whose DMC runs the partition's graphs: the partition's die 0 (R302). -/
def Part.die0 (p : Part) : Nat := p.dies.headD 0

/-- The partition-relative number of a cell in its own partition. -/
def State.relOf (s : State) (cell : Nat) : Nat := (s.partAt cell).rel cell

/-- The device row of a cell: its quadrille (R7). -/
def rowOf (cell : Nat) : Nat := 4 * (cell / 16) + cell % 16 / 4
/-- The four cells of a quadrille, by logical column (R12). -/
def rowCells (row : Nat) : List Nat := (List.range 4).map fun c => 16 * (row / 4) + 4 * (row % 4) + c
/-- The cells of a cluster. -/
def clusterCells (k : Nat) : List Nat := (List.range 16).map fun c => 16 * k + c

/-- The row map of a device row: the physical column of each logical column; the identity at reset (R13). -/
def State.rowMap (s : State) (row : Nat) : List Nat := tget [0, 1, 2, 3] s.rowMaps row
/-- The physical column of a row that serves no logical column: the spare (R13). -/
def State.spareCol (s : State) (row : Nat) : Nat :=
  ((List.range 5).find? fun c => !(s.rowMap row).contains c).getD 4
/-- A physical cell number (R7). -/
def physAt (row col : Nat) : Nat := 20 * (row / 4) + 5 * (row % 4) + col
/-- The physical cell that serves a logical cell (R7, R13); 0xFFF for one that a quarantine has left without (R429). -/
def State.phys (s : State) (cell : Nat) : Nat :=
  let col := (s.rowMap (rowOf cell)).getD (cell % 4) (cell % 4)
  if col < 5 then physAt (rowOf cell) col else 0xFFF
/-- Whether the spare of a row is free: unused since reset and not failed (R13, R370). -/
def State.spareFree (s : State) (row : Nat) : Bool :=
  !s.failedPhys.contains (physAt row (s.spareCol row)) && !s.hotPhys.contains (physAt row (s.spareCol row))

/-! ### Cause codes (R416) -/

def causeIllegalEncoding : BitVec 7 := 0x01
def causeReservedField : BitVec 7 := 0x02
def causeRegisterRange : BitVec 7 := 0x03
def causeLiteralMisuse : BitVec 7 := 0x04
def causePrefixMisuse : BitVec 7 := 0x05
def causePrivileged : BitVec 7 := 0x06
def causeSoftwareTrap : BitVec 7 := 0x07
def causeIstoreBounds : BitVec 7 := 0x08
def causeLiveSet : BitVec 7 := 0x09
def causeMaskOverflow : BitVec 7 := 0x0A
def causeMaskUnderflow : BitVec 7 := 0x0B
def causeLoopNest : BitVec 7 := 0x0C
def causeReturnEmpty : BitVec 7 := 0x0D
def causeWatchdog : BitVec 7 := 0x0E
def causeDebugBreak : BitVec 7 := 0x0F
def causeDivideZero : BitVec 7 := 0x10
def causeScaleNegative : BitVec 7 := 0x11
def causeScaleZero : BitVec 7 := 0x12
def causeScaleNonfinite : BitVec 7 := 0x13
def causeAccFormat : BitVec 7 := 0x14
def causeTensorFormat : BitVec 7 := 0x15
def causeTensorGeometry : BitVec 7 := 0x16
def causeFpInvalid : BitVec 7 := 0x17
def causeFpDivzero : BitVec 7 := 0x18
def causeFpOverflow : BitVec 7 := 0x19
def causeFpUnderflow : BitVec 7 := 0x1A
def causeFpInexact : BitVec 7 := 0x1B
def causeConvertRange : BitVec 7 := 0x1C
def causeGangAbort : BitVec 7 := 0x1D
def causeGangMismatch : BitVec 7 := 0x1E
def causeDescriptorInvalid : BitVec 7 := 0x1F
def causeScratchBounds : BitVec 7 := 0x20
def causeMisaligned : BitVec 7 := 0x21
def causeTagIndex : BitVec 7 := 0x22
def causeQueueIndex : BitVec 7 := 0x23
def causeQueuePoison : BitVec 7 := 0x24
def causePageNotPresent : BitVec 7 := 0x25
def causePageProtRead : BitVec 7 := 0x26
def causePageProtWrite : BitVec 7 := 0x27
def causePageProtAtomic : BitVec 7 := 0x28
def causeNoncanonical : BitVec 7 := 0x29
def causeAsidInvalid : BitVec 7 := 0x2A
def causePartitionViolation : BitVec 7 := 0x2B
def causeHomeUnreachable : BitVec 7 := 0x2C
def causeRemoteError : BitVec 7 := 0x2D
def causeAtomicUnsupported : BitVec 7 := 0x2E
def causeAtomicMisaligned : BitVec 7 := 0x2F
def causeChannelNotBound : BitVec 7 := 0x30
def causeChannelWrongEnd : BitVec 7 := 0x31
def causeChannelClosed : BitVec 7 := 0x32
def causeChannelQuota : BitVec 7 := 0x33
def causeInboxQuota : BitVec 7 := 0x34
def causeChannelTable : BitVec 7 := 0x35
def causeTwTranslation : BitVec 7 := 0x36
def causeTwPromise : BitVec 7 := 0x37
def causeTwDescriptor : BitVec 7 := 0x38
def causeTwBounds : BitVec 7 := 0x39
def causeTwDestRefused : BitVec 7 := 0x3A
def causeFenceTimeout : BitVec 7 := 0x3B
def causeIstoreWrite : BitVec 7 := 0x3C
def causePlaceInvalid : BitVec 7 := 0x3D
def causePoolLane : BitVec 7 := 0x3E
def causeForkCount : BitVec 7 := 0x3F
def causeDeadlineRisk : BitVec 7 := 0x40
def causeDeadlineMissed : BitVec 7 := 0x41
def causeStepNesting : BitVec 7 := 0x42
def causePreemptRequest : BitVec 7 := 0x43
def causeBarrierConfig : BitVec 7 := 0x44
def causeBarrierScope : BitVec 7 := 0x45
def causeBarrierOverrun : BitVec 7 := 0x46
def causeJobUnderflow : BitVec 7 := 0x47
def causeHandlerUnbound : BitVec 7 := 0x48
def causeSlotReject : BitVec 7 := 0x49
def causePowerCap : BitVec 7 := 0x4A
def causeThermalMigrated : BitVec 7 := 0x4B
def causeQuiesceTimeout : BitVec 7 := 0x4C
def causeTargetSwitchedOut : BitVec 7 := 0x4D
def causeServiceDenied : BitVec 7 := 0x4E
def causeGraphNodeFault : BitVec 7 := 0x4F
def causeScratchCorrected : BitVec 7 := 0x50
def causeScratchUncorrectable : BitVec 7 := 0x51
def causeRegfileUncorrectable : BitVec 7 := 0x52
def causeIstoreUncorrectable : BitVec 7 := 0x53
def causeAccUncorrectable : BitVec 7 := 0x54
def causeArraySelfcheck : BitVec 7 := 0x55
def causeHbmCorrected : BitVec 7 := 0x56
def causeHbmUncorrectable : BitVec 7 := 0x57
def causeLinkDegraded : BitVec 7 := 0x58
def causeLinkDown : BitVec 7 := 0x59
def causeRouterUncorrectable : BitVec 7 := 0x5A
def causeDieBridge : BitVec 7 := 0x5B
def causeCellQuarantined : BitVec 7 := 0x5C
def causeClockVoltage : BitVec 7 := 0x5D
def causeThermalTrip : BitVec 7 := 0x5E
def causeMachineCheck : BitVec 7 := 0x5F

/-- What a trap carries: its cause, the KIND of a violation record (R391), the value for TRAPADDR where a rule names one, a transfer
id, the home's cause, and a count (R417). `logged` tells of a violation that its home has logged (R183, R391). -/
structure Trap where
  cause : BitVec 7
  kind : Nat := 0
  addr : Option W64 := none
  xid : BitVec 16 := 0
  sub : BitVec 7 := 0
  count : W32 := 0
  logged : Bool := false
  deriving DecidableEq, Repr

/-- What the effect of an instruction comes to: it is done, it traps before its effect, or its context blocks. -/
inductive Res where
  | done (s : State)
  | trap (t : Trap) (s : State)
  | wait (w : Wait) (s : State)
  deriving DecidableEq, Repr

/-! ### Place words (R27) -/

def plPool (w : W64) : Bool := w.getLsbD 14
def plEntry (w : W64) : PC := w.extractLsb' 0 14
def plCell (w : W64) : Nat := (w.extractLsb' 16 12).toNat
def plDie (w : W64) : Nat := (w.extractLsb' 24 2).toNat
def plLane (w : W64) : Nat := (w.extractLsb' 16 8).toNat

/-- The place word of an entry of one cell. -/
def placeOf (rel : Nat) (entry : PC) : W64 := BitVec.ofNat 64 (rel * 2 ^ 16 + entry.toNat)

/-- The pool lane of a partition-relative die and a lane number. -/
def State.laneAt (s : State) (p : Part) (die lane : Nat) : PoolLane :=
  tget {} (s.die (p.dies.getD die 4)).lanes lane

/-- The checks of a place word (R28): the cause of the first that fails. A lane bound as a Reel gateway needs no ring for a
message (R207), which `message` tells. -/
def checkPlace (s : State) (pn : Nat) (w : W64) (message : Bool) : Option (BitVec 7) :=
  let p := s.part pn
  if w.extractLsb' 28 36 != 0 || w.getLsbD 15 then some causePlaceInvalid
  else if !plPool w then
    if plCell w < p.cellCount then none else some causePlaceInvalid
  else if w.extractLsb' 26 2 != 0 || p.dies.length ≤ plDie w then some causePlaceInvalid
  else
    let l := s.laneAt p (plDie w) (plLane w)
    if l.part != some pn then some causePlaceInvalid
    else if l.capacity == 0 && !(message && l.gateway.isSome) then some causePoolLane
    else none

/-! ### Messages and records -/

/-- A message entered into the mesh, behind the earlier ones of its pair (R24). -/
def State.post (s : State) (m : Msg) : State := { s with net := s.net ++ [m] }

/-- Whether an endpoint is a switched-out cell. -/
def State.isOut (s : State) : Endp → Bool
  | .cell n => (s.cell n).out
  | _ => false

/-- Whether two messages travel on one network between one pair of endpoints. -/
def Msg.pair (x m : Msg) : Bool := x.vn == m.vn && x.src == m.src && x.dst == m.dst

/-- The number of an endpoint, among others for the limit of R416. -/
def Endp.code : Endp → Nat
  | .cell n => n
  | .home n => 10000 + n
  | .millwright n => 20000 + n
  | .station n => 30000 + n
  | .dispatch n => 40000 + n
  | .dmc n => 50000 + n
  | .poolRoot n => 60000 + n
  | .governor n => 70000 + n
  | .loader n => 80000 + n
  | .peer n => 200000 + n
  | .weir => 100000
  | .root => 100001
  | .host => 100002
  | .spare n => 110000 + n

/-! ### The place of an endpoint in the mesh, and the input through which a message comes (R22, R23, R36, R194) -/

/-- The cluster at whose routers an endpoint stands (R22). -/
def Endp.cluster? : Endp → Option Nat
  | .cell n => some (n / 16)
  | .home k => some k
  | .millwright k => some k
  | .station k => some k
  | .dispatch d => some (48 * d + 19)
  | .dmc d => some (48 * d + 19)
  | .poolRoot d => some (48 * d + 28)
  | .weir => some 20
  | .root => some 27
  | _ => none

/-- The row of the service router in its block at which an endpoint stands (R22). -/
def Endp.serviceRow : Endp → Nat
  | .home _ => 0
  | .millwright _ => 1
  | .poolRoot _ => 3
  | .root => 3
  | _ => 2

/-- The column and row of a router, by its cluster and its place in the cluster's block (R22). -/
def routerAt (cluster col row : Nat) : Nat × Nat :=
  let die := cluster / 48
  (48 * (die % 2) + 6 * (cluster % 48 % 8) + col, 24 * (die / 2) + 4 * (cluster % 48 / 8) + row)

/-- The router of an endpoint of the mesh: a cell's physical one, or a service router (R22). -/
def State.router? (s : State) (e : Endp) : Option (Nat × Nat) :=
  match e with
  | .cell n =>
    let p := s.phys n
    some (routerAt (p / 20) (p % 5) (p % 20 / 5))
  | _ => (Endp.cluster? e).map fun k => routerAt k 5 e.serviceRow

/-- The input of a target's router through which a message comes, first in X and then in Y (R23): 0 is the local port, 1 to 4 are N, E, S and W.
Where a party outside the mesh enters it the reference does not say. DESIGN CHOICE, log entry 10: a free input. -/
def State.inputOf (s : State) (src dst : Endp) : Nat :=
  match s.router? src, s.router? dst with
  | some a, some b =>
    if a.2 < b.2 then 1 else if b.2 < a.2 then 3 else if b.1 < a.1 then 2 else if a.1 < b.1 then 4 else 0
  | _, _ => 1 + Config.meshInput src.code % 4

/-- An arbiter without the sources that have no request under way. -/
def State.arbiter (s : State) (home : Nat) : Arbiter :=
  let a := tget {} s.arbiters home
  { a with here := a.here.filter fun e => s.net.any fun m => m.vn == .request && m.src == e && m.dst == .home home }

/-- The input among some after the last winner, in the order N, E, S, W (R194); a request of the station's own router counts as one from N. -/
def Arbiter.winner (a : Arbiter) (inputs : List Nat) : Option Nat :=
  ([a.last + 1, a.last + 2, a.last + 3, a.last + 4].map (· % 4)).find? fun k => inputs.contains k

/-- The input of a home station through which the requests of a source come, 0 to 3. -/
def State.stationInput (s : State) (home : Nat) (e : Endp) : Nat := s.inputOf e (.home home) - 1

/-- Whether the arbiter of a home station serves a request of a source next: of those that have arrived, the oldest of the input that wins; where
none has, a request is served as it arrives (R194). -/
def State.serves (s : State) (home : Nat) (e : Endp) : Bool :=
  let a := s.arbiter home
  match a.winner (a.here.map (s.stationInput home)) with
  | none => true
  | some k => (a.here.find? fun y => s.stationInput home y == k) == some e

/-- Whether the arbitration of its home station lets a message through. -/
def State.arbitrated (s : State) (m : Msg) : Bool :=
  match m.dst with
  | .home k => m.vn != .request || s.serves k m.src
  | _ => true

/-- The arbiters after a message has been taken: its input has won, and its source's next request is still to arrive. -/
def State.served (s : State) (m : Msg) : Tbl Arbiter :=
  match m.dst with
  | .home k =>
    if m.vn == .request then
      let a := s.arbiter k
      tset s.arbiters k { last := s.stationInput k m.src, here := a.here.filter (· != m.src) }
    else s.arbiters
  | _ => s.arbiters

/-- The arrivals at the cells' ports after a message has been taken: its own has passed. -/
def State.passed (s : State) (m : Msg) : Tbl (List (VNet × Endp)) :=
  match m.dst with
  | .cell n =>
    let g := tget [] s.gates n
    if g.contains (m.vn, m.src) then tset s.gates n (g.filter (· != (m.vn, m.src))) else s.gates
  | _ => s.gates

/-- The state with message i taken from the mesh. -/
def State.take (s : State) (i : Nat) : State :=
  { s with
    net := delAt s.net i
    arbiters := (s.net[i]?.map s.served).getD s.arbiters
    gates := (s.net[i]?.map s.passed).getD s.gates }

/-- Requests under way come to their home stations: when each arrives is latitude (R462), and so it is left free. -/
def State.reachStations (s : State) : State :=
  (number 0 s.net).foldl (fun s y =>
    match y.2.dst with
    | .home k =>
      let a := s.arbiter k
      if y.2.vn == .request && !a.here.contains y.2.src && Config.arrives s.turn y.1 then
        { s with arbiters := tset s.arbiters k { a with here := a.here ++ [y.2.src] } }
      else s
    | _ => s) s

/-- Which fault server FAULTSRV names (R223, R418). -/
def serverKind (w : W64) : Nat := (w.extractLsb' 62 2).toNat

/-- Where a partition's records go (R418): a place that fails R28 sends them to Thieno service. -/
def State.serverOf (s : State) (pn : Nat) : Endp :=
  let p := s.part pn
  let w := p.faultSrv
  if serverKind w == 2 then
    let place := w &&& 0x3FFFFFFFFFFFFFFF
    match checkPlace s pn place false with
    | some _ => .dmc p.die0
    | none => if plPool place then .poolRoot (p.dies.getD (plDie place) 0) else .cell (p.dev (plCell place))
  else if serverKind w == 3 then .peer (w.extractLsb' 0 16).toNat
  else .dmc p.die0

/-- A fault record sent to the partition's server on the system network (R414, R418). Records for a peer take the
partition's next record number at once; those for the host take it when the DMC writes them. -/
def State.report (s : State) (pn : Nat) (src : Endp) (r : Frec) : State :=
  let p := s.part pn
  let peer := serverKind p.faultSrv == 3
  let r := if peer then { r with seq := p.seq + 1 } else r
  let s := if peer then s.setPart pn { p with seq := p.seq + 1 } else s
  s.post { vn := .system, src, dst := s.serverOf pn, body := .parcel (.record r p.faultSrv) }

/-- A record of kind R for one partition, at most once per source and cause in 1,000 µs; the withheld ones are counted (R416). -/
def State.reportLimited (s : State) (pn : Nat) (src : Endp) (r : Frec) : State :=
  let k := 64 * (128 * src.code + r.cause.toNat) + pn
  let last := tget 0 s.sentAt k
  if last != 0 && s.tbc + 1 < last + 1000000 then { s with heldBack := tset s.heldBack k (tget 0 s.heldBack k + 1) }
  else
    let s' := { s with sentAt := tset s.sentAt k (s.tbc + 1), heldBack := tset s.heldBack k 0 }
    s'.report pn src { r with count := count32 (r.count.toNat + tget 0 s.heldBack k) }

/-- The message ids of a cell that a trap may yet name: those of its lanes, of what its inbox holds, and of its pending traps. -/
def Cell.liveIds (c : Cell) : List W32 :=
  ((c.ctxs.map (·.2) ++ c.displaced.toList).flatMap fun x => x.hdrs.map (fun h => h.2.msgId) ++ x.trigger.map (·.id)) ++
  (c.bins.flatMap fun b => b.msgs.map (·.id)) ++ c.overflow.map (fun y => y.2.id) ++ c.tail.map (·.id) ++
  (c.reservs.flatMap fun r => r.waiting.map (·.id)) ++ c.pending.flatMap fun t => t.msgid :: t.msgs.map (·.id)

/-- The first of n and the message ids before it that is not in a list. -/
def idBefore (used : List W32) : Nat → W32 → W32
  | 0, n => n
  | k + 1, n => if used.contains n then idBefore used k (n - 1) else n

/-- A message id that no trap of the cell has, nor any that is still to come: one that the cell has given out before and that names nothing any
more. Which one is free (R347, R420, R445; log entry 21). -/
def Cell.idleId (c : Cell) (turn : Nat) : W32 :=
  idBefore c.liveIds c.liveIds.length (c.msgId - 1 - ((Config.noTraceField turn).extractLsb' 0 31).setWidth 32)

/-- A record with the fields that say where and when (R417). ADDR and MSGID are what no rule names, until the rule that produces
the record names them (log entry 21); an answer to it matches no pending trap (R420). -/
def State.recAt (s : State) (pn : Nat) (cell : Option Nat) (cause : BitVec 7) (src : BitVec 2) : Frec :=
  { tbc := BitVec.ofNat 64 s.tbc, cause, part := BitVec.ofNat 6 pn, src
    addr := Config.noTrapAddr s.turn
    msgid := match cell with
      | some c => (s.cell c).idleId s.turn
      | none => (Config.noTraceField s.turn).extractLsb' 0 32
    cell := match cell with
      | some c => BitVec.ofNat 12 ((s.part pn).rel c)
      | none => 0xFFF
    phys := match cell with
      | some c => BitVec.ofNat 12 (s.phys c)
      | none => 0xFFF }

/-- The doublewords of a fault record (R417). -/
def Frec.words (r : Frec) : List W64 :=
  [ r.tbc,
    r.cause ++ BitVec.ofBool r.vreq ++ r.part ++ BitVec.ofBool r.first ++ (0 : BitVec 1) ++ r.cell ++ r.phys ++
      (0 : BitVec 5) ++ r.ctx ++ r.src ++ r.pc,
    r.addr,
    r.msgid ++ r.xid ++ (0 : BitVec 16),
    r.wid,
    r.step ++ r.job,
    r.count ++ (0 : BitVec 25) ++ r.subcause,
    r.seq ]

/-- A record of the violation log; the ring of 1,024 overwrites its oldest and counts that (R391). -/
def State.logViolation (s : State) (v : Violation) : State :=
  if s.violations.length < 1024 then { s with violations := s.violations ++ [v] }
  else { s with violations := s.violations.drop 1 ++ [v], violationOverwrites := s.violationOverwrites + 1 }

/-- Whether a physical address lies in one of a partition's slabs (R388). -/
def Part.ownsPa (p : Part) (pa : Nat) : Bool := pa < 2 ^ 40 && p.slabs.contains (pa / 2 ^ 32)

end Sys2Proof.Machine
end

