-- ==== Sys2Proof/Machine/Translate.lean ====
section
/-! DEFINITION. Addresses: the two classes of R30, the TLB (R396), the ROM walk (R398), the walk cache, and the checks that
LDQ, STX, ATOMX and the engines make before an effect (R167, R397). -/

namespace Sys2Proof.Machine

/-- The bytes of a TLB page: 64 KiB, 2 MiB or 1 GiB (R396). -/
def pageBytes (size : Nat) : Nat := if size = 0 then 2 ^ 16 else if size = 1 then 2 ^ 21 else 2 ^ 30

/-- The TLB entry that translates a virtual address under the cell's CASID; other ASIDs are never used (R396). -/
def Cell.tlbHit (c : Cell) (va : Nat) : Option TlbEntry :=
  c.tlb.find? fun e => e.asid == c.casid && e.vbase == va - va % pageBytes e.size

/-- An entry written into the TLB: an old one for its page goes; a full TLB replaces the entry filled earliest (R396). -/
def Cell.tlbFill (c : Cell) (e : TlbEntry) : Cell :=
  let rest := c.tlb.filter fun x => !(x.asid == e.asid && x.vbase == e.vbase && x.size == e.size)
  { c with tlb := (if rest.length < 64 then rest else rest.drop 1) ++ [e] }

/-- What an access is, for its checks (R167). -/
inductive AccessKind where
  | load
  | store (b32 : Bool)
  | atomic
  deriving DecidableEq, Repr

/-- The KIND of the violation record of an access to `ea` (R391). -/
def AccessKind.violation (k : AccessKind) (ea : W64) : Nat :=
  match k with
  | .load => 0
  | .store _ => if 0x80000 ≤ ea.toNat % 2 ^ 20 && ea.toNat % 2 ^ 20 < 0x90000 then 3 else 1
  | .atomic => 2

/-- The access kind that a fill request carries (R397). -/
def AccessKind.fill : AccessKind → AccKind
  | .load => .read
  | .store _ => .write
  | .atomic => .atomic

/-- The outcome of the checks of one address: its home and memory key, the cause of the first failing check, or a miss. -/
inductive Chk where
  | ok (home : Endp) (key : Nat)
  | bad (cause : BitVec 7)
  | miss
  deriving DecidableEq, Repr

/-- Whether an ASID is allocated to a partition and not in quarantine (R395, R401). -/
def Part.asidOk (p : Part) (asid : BitVec 12) : Bool :=
  asid != 0xFFF &&
  match tget none p.asids asid.toNat with
  | some a => !a.quarantine
  | none => false

/-- The permission cause of a page for an access (R397): ATOM first, then READ, then WRITE. -/
def TlbEntry.denies (e : TlbEntry) (k : AccKind) : Option (BitVec 7) :=
  match k with
  | .read => if e.read then none else some causePageProtRead
  | .write => if e.write then none else some causePageProtWrite
  | .atomic =>
    if !e.atom then some causePageProtAtomic
    else if !e.read then some causePageProtRead
    else if !e.write then some causePageProtWrite
    else none

/-- Whether an access of n bytes at an offset of an aperture stays in one region, and the region is one (R30). -/
def inRegion (off n : Nat) : Bool :=
  if off < 0x80000 then off + n ≤ 0x80000
  else if off < 0x90000 then off + n ≤ 0x90000
  else if off < 0x91000 then off + n ≤ 0x91000
  else false

/-- The checks of R167 for one address, in the order of its table, made by a cell of partition `pn`. -/
def checkAddress (s : State) (cell : Nat) (priv : Bool) (k : AccessKind) (ea : W64) (n : Nat) : Chk :=
  let p := s.partAt cell
  let isAtom := k == .atomic
  let mis := if isAtom then causeAtomicMisaligned else causeMisaligned
  let a := ea.toNat
  if ea.getLsbD 63 then
    let rel := a / 2 ^ 20 % 4096
    let off := a % 2 ^ 20
    if ea.extractLsb' 32 31 != 0 then .bad causeNoncanonical
    else if p.cellCount ≤ rel then .bad causePartitionViolation
    else if !inRegion off n then .bad causeScratchBounds
    else if 0x90000 ≤ off && !priv then .bad causePrivileged
    else if a % n ≠ 0 then .bad mis
    else if 0x80000 ≤ off && off < 0x90000 && (isAtom || k == .store false) then .bad causeIstoreWrite
    else if 0x80000 ≤ off && isAtom then .bad causeAtomicUnsupported
    else .ok (.cell (p.dev rel)) (cellKey (p.dev rel) off)
  else if ea.extractLsb' 56 7 != 0 then .bad causeNoncanonical
  else if a % n ≠ 0 then .bad mis
  else
    let c := s.cell cell
    if !p.asidOk c.casid then .bad causeAsidInvalid
    else match c.tlbHit a with
      | none => .miss
      | some e =>
        if e.peer && isAtom then .bad causeAtomicUnsupported
        else match e.denies k.fill with
          | some cause => .bad cause
          | none =>
            let pa := e.pbase + (a - e.vbase)
            if e.peer then .ok (.peer e.peerdev.toNat) (peerKey e.peerdev.toNat pa)
            else .ok (.home (pa / 2 ^ 32)) (hbmKey pa)

/-- The same for an engine, which reaches the scratchpads of the partition's cells and virtual addresses (R239, R397):
only translation can fail. -/
def translateVa (s : State) (cell : Nat) (k : AccKind) (a : Nat) : Chk :=
  let c := s.cell cell
  if !(s.partAt cell).asidOk c.casid then .bad causeAsidInvalid
  else match c.tlbHit a with
    | none => .miss
    | some e =>
      match e.denies k with
      | some cause => .bad cause
      | none =>
        let pa := e.pbase + (a - e.vbase)
        if e.peer then .ok (.peer e.peerdev.toNat) (peerKey e.peerdev.toNat pa) else .ok (.home (pa / 2 ^ 32)) (hbmKey pa)

/-! ### Poisoned lines (R431) -/

/-- The mask of the bytes of a 64-byte line that n bytes at a key take. -/
def lineMask (key n : Nat) : W64 := BitVec.ofNat 64 ((2 ^ n - 1) * 2 ^ (key % 64))

/-- The bytes of a poisoned line that have been written since the error; none when the line is sound (R431). -/
def State.poison (s : State) (dst : Endp) (key : Nat) : Option W64 :=
  match dst with
  | .home k => ((s.cluster k).poisoned.find? fun y => y.1 == key / 64).map (·.2)
  | _ => none

/-- A write noted at a poisoned line, which is sound again when all its bytes have been written (R431). -/
def State.unpoison (s : State) (dst : Endp) (key n : Nat) : State :=
  match dst, s.poison dst key with
  | .home k, some m =>
    let c := s.cluster k
    let rest := c.poisoned.filter fun y => y.1 != key / 64
    let m := m ||| lineMask key n
    s.setCluster k { c with poisoned := if m == 0xFFFFFFFFFFFFFFFF then rest else rest ++ [(key / 64, m)] }
  | _, _ => s

/-- The bytes of a line that a range of n bytes takes. -/
def coverMask (line pa n : Nat) : W64 :=
  let lo := Nat.max (64 * line) pa
  let hi := Nat.min (64 * line + 64) (pa + n)
  if hi ≤ lo then 0 else BitVec.ofNat 64 ((2 ^ (hi - lo) - 1) * 2 ^ (lo - 64 * line))

/-- n bytes of HBM written by a unit of the device, noted at the poisoned lines that they touch (R431). -/
def State.written (s : State) (pa n : Nat) : State :=
  if s.clusters.all fun c => c.2.poisoned.isEmpty then s
  else { s with clusters := tmap (fun _ (c : Cluster) => { c with
      poisoned := (c.poisoned.map fun y => (y.1, y.2 ||| coverMask y.1 pa n)).filter fun y => y.2 != 0xFFFFFFFFFFFFFFFF }) s.clusters }

/-- n bytes of HBM written as a number by a unit of the device. -/
def State.hbmWrite (s : State) (pa n v : Nat) : State := ({ s with mem := writeLE s.mem (hbmKey pa) n v } : State).written pa n
/-- Bytes written to HBM by a unit of the device. -/
def State.hbmBytes (s : State) (pa : Nat) (b : List Byte) : State :=
  ({ s with mem := writeBytes s.mem (hbmKey pa) b } : State).written pa b.length

/-- Whether a byte of HBM lies in a poisoned line. -/
def State.poisonedAt (s : State) (pa : Nat) : Bool := s.clusters.any fun c => c.2.poisoned.any fun y => y.1 == pa / 64

/-- Memory as a walk of the tables reads it: an entry in a poisoned line is not present (R398, R431). -/
def State.soundMem (s : State) : Memory :=
  s.clusters.foldl (fun m c => c.2.poisoned.foldl (fun m y => clearRange m (64 * y.1) 64) m) s.mem

/-! ### The ROM walk (R398) -/

/-- The levels of the table: number, lowest VA bit of its index, bits of its index. -/
def walkLevels : List (Nat × Nat × Nat) := [(0, 43, 13), (1, 30, 13), (2, 21, 9), (3, 16, 5)]

/-- Why a walk ends without a leaf; `outside` when it left the partition's slabs, with the address it met. -/
inductive WalkEnd where
  | leaf (e : W64) (level : Nat)
  | notPresent
  | outside (pa : Nat)
  deriving DecidableEq, Repr

/-- The physical address in a table entry: PA[39:8] (R398). -/
def entryAddr (e : W64) : Nat := (e.extractLsb' 8 32).toNat * 256

/-- The bytes of the page that a leaf at a level maps. -/
def levelBytes (level : Nat) : Nat := if level = 1 then 2 ^ 30 else if level = 2 then 2 ^ 21 else 2 ^ 16

/-- Whether an entry breaks a rule of R398 for its level. -/
def entryBad (e : W64) (level : Nat) : Bool :=
  let leaf := e.getLsbD 4
  let peer := e.getLsbD 7
  !e.getLsbD 0 ||
  e.extractLsb' 40 8 != 0 || e.extractLsb' 5 2 != 0 ||
  (e.extractLsb' 48 16 != 0 && !peer) ||
  (!leaf && (peer || e.extractLsb' 1 3 != 0)) ||
  (leaf && level == 0) || (!leaf && level == 3) ||
  (leaf && entryAddr e % levelBytes level != 0)

/-- The checks on a leaf, from the ROM walk or from a supplied walker (R398, R399). -/
def leafEnd (p : Part) (e : W64) (level : Nat) : WalkEnd :=
  if entryBad e level || !e.getLsbD 4 then .notPresent
  else if !e.getLsbD 7 && !p.ownsPa (entryAddr e) then .outside (entryAddr e)
  else .leaf e level

/-- The index of a level of a VA, and the number that names the table entry in a walk cache: the VA above the level's
low bit. -/
def levelIndex (va low bits : Nat) : Nat := va / 2 ^ low % 2 ^ bits

/-- The walk from a table, down the remaining levels. Non-leaf entries come from the walk cache where it holds them; the
result carries the cache as it then stands, the oldest entry giving way to the thirty-third (R398). -/
def romWalk (m : Memory) (p : Part) (asid : BitVec 12) (va : Nat) :
    List (Nat × Nat × Nat) → Nat → List WalkEntry → WalkEnd × List WalkEntry
  | [], _, cache => (.notPresent, cache)
  | (level, low, bits) :: rest, table, cache =>
    match cache.find? fun x => x.asid == asid && x.level == level && x.index == va / 2 ^ low with
    | some x => romWalk m p asid va rest x.table cache
    | none =>
      let pa := table + 8 * levelIndex va low bits
      if !p.ownsPa pa then (.outside pa, cache)
      else
        let e := BitVec.ofNat 64 (readLE m (hbmKey pa) 8)
        if entryBad e level then (.notPresent, cache)
        else if e.getLsbD 4 then (leafEnd p e level, cache)
        else
          let x : WalkEntry := { asid, level, index := va / 2 ^ low, table := entryAddr e }
          romWalk m p asid va rest x.table ((if cache.length < 32 then cache else cache.drop 1) ++ [x])

/-- The TLB entry of a leaf (R396, R398). -/
def tlbOf (asid : BitVec 12) (va : Nat) (e : W64) (level : Nat) : TlbEntry :=
  { vbase := va - va % levelBytes level, asid, size := if level = 1 then 2 else if level = 2 then 1 else 0
    peerdev := e.extractLsb' 48 16, pbase := entryAddr e, peer := e.getLsbD 7
    atom := e.getLsbD 3, write := e.getLsbD 2, read := e.getLsbD 1 }

/-- The address in memory of the table entry that maps a page of a size, when the chain of tables above it exists (SVC MAP,
UNMAP and MEM_MAP, R402, R406). -/
def leafSlot (m : Memory) (p : Part) (va size : Nat) : List (Nat × Nat × Nat) → Nat → Option Nat
  | [], _ => none
  | (level, low, bits) :: rest, table =>
    let pa := table + 8 * levelIndex va low bits
    if !p.ownsPa pa then none
    else if 3 - size = level then some pa
    else
      let e := BitVec.ofNat 64 (readLE m (hbmKey pa) 8)
      if entryBad e level || e.getLsbD 4 then none else leafSlot m p va size rest (entryAddr e)

/-- The partition's system area in physical memory: virtual 0x00FF_0000_0000_0000 maps to SYSPA (R407). -/
def Part.jobLine (p : Part) (job : Nat) : Nat := p.sysPa + 64 * job
/-- The channel table line of a channel (R328, R407). -/
def Part.chanLine (p : Part) (id : Nat) : Nat := p.sysPa + 0x40000 + 64 * id
/-- The displacement area of a logical cell: 32 KiB each (R407). -/
def Part.displaceAt (p : Part) (rel : Nat) : Nat := p.sysPa + 0x440000 + 0x8000 * rel
/-- A size rounded up to 64 KiB. -/
def round64k (n : Nat) : Nat := (n + 0xFFFF) / 0x10000 * 0x10000
/-- The pool map (R338, R407). -/
def Part.poolMap (p : Part) : Nat := p.displaceAt p.cellCount
/-- The first block of the tailrace pool (R338, R407). -/
def Part.poolBase (p : Part) : Nat := p.poolMap + round64k (4 * p.poolB)
/-- The table area of the system ASID (R407). -/
def Part.tableArea (p : Part) : Nat := round64k (p.poolBase + 4096 * p.poolB)
/-- The load area (R407). -/
def Part.loadArea (p : Part) : Nat := p.tableArea + 0x100000
/-- The end of the system area. -/
def Part.sysEnd (p : Part) : Nat := p.loadArea + p.loadMb * 0x100000

end Sys2Proof.Machine
end

