-- ==== Sys2Proof/Machine/Walker.lean ====
section
/-! DEFINITION. A partition-supplied walker (R399): RV64IMAC code that the millwright calls at its lowest privilege level. The meaning of the
RV64IMAC words is the RISC-V unprivileged specification's, which R399 names and does not repeat (PRESUMED, log entry 8). A walker stores
nothing, so every store, store-conditional and atomic memory operation faults, as a system instruction does. -/

namespace Sys2Proof.Machine

/-! ### Instructions -/

/-- The arithmetic of OP and OP-32, the M extension's included. -/
inductive RvOp where
  | add | sub | sll | slt | sltu | xor | srl | sra | or | and
  | mul | mulh | mulhsu | mulhu | div | divu | rem | remu
  deriving DecidableEq, Repr

/-- The conditions of branches. -/
inductive RvCond where
  | eq | ne | lt | ge | ltu | geu
  deriving DecidableEq, Repr

/-- The instructions that a walker can complete; register numbers are 0 to 31, and offsets are sign-extended. -/
inductive Rv where
  | alu (op : RvOp) (word : Bool) (rd rs1 : Nat) (src2 : Nat ⊕ W64)
  | lui (rd : Nat) (imm : W64)
  | auipc (rd : Nat) (imm : W64)
  | jal (rd : Nat) (off : W64)
  | jalr (rd rs1 : Nat) (off : W64)
  | branch (c : RvCond) (rs1 rs2 : Nat) (off : W64)
  | load (rd rs1 : Nat) (off : W64) (lg : Nat) (signed : Bool)
  | fence
  deriving DecidableEq, Repr

/-! ### Arithmetic -/

/-- Division and remainder of 64-bit values, rounding toward zero; a zero divisor gives all ones and the dividend. -/
def rvDiv (a b : W64) : W64 := if b == 0 then 0xFFFFFFFFFFFFFFFF else a.sdiv b
def rvRem (a b : W64) : W64 := if b == 0 then a else a.srem b

/-- OP and OP-IMM on 64 bits. -/
def RvOp.run (op : RvOp) (a b : W64) : W64 :=
  match op with
  | .add => a + b
  | .sub => a - b
  | .sll => a <<< (b.toNat % 64)
  | .slt => (BitVec.ofBool (a.slt b)).setWidth 64
  | .sltu => (BitVec.ofBool (a.ult b)).setWidth 64
  | .xor => a ^^^ b
  | .srl => a >>> (b.toNat % 64)
  | .sra => a.sshiftRight (b.toNat % 64)
  | .or => a ||| b
  | .and => a &&& b
  | .mul => a * b
  | .mulh => BitVec.ofInt 64 (a.toInt * b.toInt / 2 ^ 64)
  | .mulhsu => BitVec.ofInt 64 (a.toInt * b.toNat / 2 ^ 64)
  | .mulhu => BitVec.ofNat 64 (a.toNat * b.toNat / 2 ^ 64)
  | .div => rvDiv a b
  | .divu => if b == 0 then 0xFFFFFFFFFFFFFFFF else a.udiv b
  | .rem => rvRem a b
  | .remu => if b == 0 then a else a.umod b

/-- A 32-bit result sign-extended. -/
def sext32 (a : W32) : W64 := a.signExtend 64

/-- OP-32 and OP-IMM-32: the operation on the low 32 bits, its result sign-extended. -/
def RvOp.runWord (op : RvOp) (a b : W64) : W64 :=
  let x : W32 := a.setWidth 32
  let y : W32 := b.setWidth 32
  match op with
  | .sll => sext32 (x <<< (y.toNat % 32))
  | .srl => sext32 (x >>> (y.toNat % 32))
  | .sra => sext32 (x.sshiftRight (y.toNat % 32))
  | .div => sext32 ((rvDiv (sext32 x) (sext32 y)).setWidth 32)
  | .rem => sext32 ((rvRem (sext32 x) (sext32 y)).setWidth 32)
  | .divu => sext32 (if y == 0 then 0xFFFFFFFF else x.udiv y)
  | .remu => sext32 (if y == 0 then x else x.umod y)
  | op => sext32 ((op.run a b).setWidth 32)

/-- Whether a branch is taken. -/
def RvCond.holds (c : RvCond) (a b : W64) : Bool :=
  match c with
  | .eq => a == b
  | .ne => a != b
  | .lt => a.slt b
  | .ge => !a.slt b
  | .ltu => a.ult b
  | .geu => !a.ult b

/-! ### Decoding -/

/-- A field of a word as a number. -/
def rvField (w : W32) (lo n : Nat) : Nat := (w.extractLsb' lo n).toNat

/-- The I, B, U and J immediates of a 32-bit word. -/
def rvImmI (w : W32) : W64 := (w.extractLsb' 20 12).signExtend 64
def rvImmB (w : W32) : W64 :=
  (w.extractLsb' 31 1 ++ w.extractLsb' 7 1 ++ w.extractLsb' 25 6 ++ w.extractLsb' 8 4 ++ (0 : BitVec 1)).signExtend 64
def rvImmU (w : W32) : W64 := (w.extractLsb' 12 20 ++ (0 : BitVec 12)).signExtend 64
def rvImmJ (w : W32) : W64 :=
  (w.extractLsb' 31 1 ++ w.extractLsb' 12 8 ++ w.extractLsb' 20 1 ++ w.extractLsb' 21 10 ++ (0 : BitVec 1)).signExtend 64

/-- The operation of OP and OP-32 words by funct7 and funct3. -/
def rvOpOf (f7 f3 : Nat) : Option RvOp :=
  if f7 = 0 then [RvOp.add, .sll, .slt, .sltu, .xor, .srl, .or, .and][f3]?
  else if f7 = 32 then (if f3 = 0 then some .sub else if f3 = 5 then some .sra else none)
  else if f7 = 1 then [RvOp.mul, .mulh, .mulhsu, .mulhu, .div, .divu, .rem, .remu][f3]?
  else none

/-- Whether OP-32 has an operation. -/
def RvOp.hasWord (op : RvOp) : Bool :=
  [RvOp.add, .sub, .sll, .srl, .sra, .mul, .div, .divu, .rem, .remu].contains op

/-- The operation of OP-IMM words and its operand; a shift's upper bits must be its own. -/
def rvImmOp (w : W32) (word : Bool) : Option (RvOp × W64) :=
  let f3 := rvField w 12 3
  let amount := if word then rvField w 20 5 else rvField w 20 6
  let upper := if word then rvField w 25 7 * 64 else rvField w 26 6 * 128
  match f3 with
  | 1 => if upper = 0 then some (.sll, BitVec.ofNat 64 amount) else none
  | 5 =>
    if upper = 0 then some (.srl, BitVec.ofNat 64 amount)
    else if upper = 2048 then some (.sra, BitVec.ofNat 64 amount) else none
  | _ => if word && f3 ≠ 0 then none else ([RvOp.add, .sll, .slt, .sltu, .xor, .srl, .or, .and][f3]?).map fun op => (op, rvImmI w)

/-- A 32-bit word decoded; none for a word that faults. -/
def rvDecode32 (w : W32) : Option Rv :=
  let rd := rvField w 7 5
  let f3 := rvField w 12 3
  let rs1 := rvField w 15 5
  let rs2 := rvField w 20 5
  match rvField w 0 7 with
  | 0x37 => some (.lui rd (rvImmU w))
  | 0x17 => some (.auipc rd (rvImmU w))
  | 0x6F => some (.jal rd (rvImmJ w))
  | 0x67 => if f3 = 0 then some (.jalr rd rs1 (rvImmI w)) else none
  | 0x63 => ([some RvCond.eq, some .ne, none, none, some .lt, some .ge, some .ltu, some .geu].getD f3 none).map fun c =>
      .branch c rs1 rs2 (rvImmB w)
  | 0x03 => if f3 = 7 then none else some (.load rd rs1 (rvImmI w) (f3 % 4) (decide (f3 < 4)))
  | 0x13 => (rvImmOp w false).map fun o => .alu o.1 false rd rs1 (.inr o.2)
  | 0x1B => (rvImmOp w true).map fun o => .alu o.1 true rd rs1 (.inr o.2)
  | 0x33 => (rvOpOf (rvField w 25 7) f3).map fun op => .alu op false rd rs1 (.inl rs2)
  | 0x3B => (rvOpOf (rvField w 25 7) f3).bind fun op => if op.hasWord then some (.alu op true rd rs1 (.inl rs2)) else none
  | 0x0F => if f3 = 0 then some .fence else none
  | 0x2F => if rvField w 27 5 = 2 && rs2 = 0 && (f3 = 2 || f3 = 3) then some (.load rd rs1 0 f3 true) else none
  | _ => none

/-- The jump and branch offsets, and the signed 6-bit immediate, of a 16-bit word. -/
def rvcJ (w : BitVec 16) : W64 :=
  (w.extractLsb' 12 1 ++ w.extractLsb' 8 1 ++ w.extractLsb' 9 2 ++ w.extractLsb' 6 1 ++ w.extractLsb' 7 1 ++ w.extractLsb' 2 1 ++
    w.extractLsb' 11 1 ++ w.extractLsb' 3 3 ++ (0 : BitVec 1)).signExtend 64
def rvcB (w : BitVec 16) : W64 :=
  (w.extractLsb' 12 1 ++ w.extractLsb' 5 2 ++ w.extractLsb' 2 1 ++ w.extractLsb' 10 2 ++ w.extractLsb' 3 2 ++ (0 : BitVec 1)).signExtend 64
def rvcImm (w : BitVec 16) : W64 := (w.extractLsb' 12 1 ++ w.extractLsb' 2 5).signExtend 64

/-- A 16-bit word of quadrant 0: loads and the stack-pointer sum; its stores fault. -/
def rvcQ0 (w : BitVec 16) (f3 : Nat) : Option Rv :=
  let rd := 8 + (w.extractLsb' 2 3).toNat
  let rs := 8 + (w.extractLsb' 7 3).toNat
  let lw := (w.extractLsb' 5 1 ++ w.extractLsb' 10 3 ++ w.extractLsb' 6 1 ++ (0 : BitVec 2)).setWidth 64
  let ld := (w.extractLsb' 5 2 ++ w.extractLsb' 10 3 ++ (0 : BitVec 3)).setWidth 64
  let sp := (w.extractLsb' 7 4 ++ w.extractLsb' 11 2 ++ w.extractLsb' 5 1 ++ w.extractLsb' 6 1 ++ (0 : BitVec 2)).setWidth 64
  match f3 with
  | 0 => if sp == 0 then none else some (.alu .add false rd 2 (.inr sp))
  | 2 => some (.load rd rs lw 2 true)
  | 3 => some (.load rd rs ld 3 true)
  | _ => none

/-- A 16-bit word of quadrant 1. -/
def rvcQ1 (w : BitVec 16) (f3 : Nat) : Option Rv :=
  let rd := (w.extractLsb' 7 5).toNat
  let rdc := 8 + (w.extractLsb' 7 3).toNat
  let rs2c := 8 + (w.extractLsb' 2 3).toNat
  let imm := rvcImm w
  let sp := (w.extractLsb' 12 1 ++ w.extractLsb' 3 2 ++ w.extractLsb' 5 1 ++ w.extractLsb' 2 1 ++ w.extractLsb' 6 1 ++
    (0 : BitVec 4)).signExtend 64
  match f3 with
  | 0 => some (.alu .add false rd rd (.inr imm))
  | 1 => if rd = 0 then none else some (.alu .add true rd rd (.inr imm))
  | 2 => some (.alu .add false rd 0 (.inr imm))
  | 3 =>
    if rd = 2 then (if sp == 0 then none else some (.alu .add false 2 2 (.inr sp)))
    else if imm == 0 then none else some (.lui rd (imm <<< 12))
  | 4 =>
    let amount := BitVec.setWidth 64 (w.extractLsb' 12 1 ++ w.extractLsb' 2 5)
    match (w.extractLsb' 10 2).toNat, w.getLsbD 12, (w.extractLsb' 5 2).toNat with
    | 0, _, _ => some (.alu .srl false rdc rdc (.inr amount))
    | 1, _, _ => some (.alu .sra false rdc rdc (.inr amount))
    | 2, _, _ => some (.alu .and false rdc rdc (.inr imm))
    | _, false, 0 => some (.alu .sub false rdc rdc (.inl rs2c))
    | _, false, 1 => some (.alu .xor false rdc rdc (.inl rs2c))
    | _, false, 2 => some (.alu .or false rdc rdc (.inl rs2c))
    | _, false, _ => some (.alu .and false rdc rdc (.inl rs2c))
    | _, true, 0 => some (.alu .sub true rdc rdc (.inl rs2c))
    | _, true, 1 => some (.alu .add true rdc rdc (.inl rs2c))
    | _, true, _ => none
  | 5 => some (.jal 0 (rvcJ w))
  | 6 => some (.branch .eq rdc 0 (rvcB w))
  | _ => some (.branch .ne rdc 0 (rvcB w))

/-- A 16-bit word of quadrant 2; its stores and its breakpoint fault. -/
def rvcQ2 (w : BitVec 16) (f3 : Nat) : Option Rv :=
  let rd := (w.extractLsb' 7 5).toNat
  let rs2 := (w.extractLsb' 2 5).toNat
  let lw := (w.extractLsb' 2 2 ++ w.extractLsb' 12 1 ++ w.extractLsb' 4 3 ++ (0 : BitVec 2)).setWidth 64
  let ld := (w.extractLsb' 2 3 ++ w.extractLsb' 12 1 ++ w.extractLsb' 5 2 ++ (0 : BitVec 3)).setWidth 64
  match f3 with
  | 0 => some (.alu .sll false rd rd (.inr (BitVec.setWidth 64 (w.extractLsb' 12 1 ++ w.extractLsb' 2 5))))
  | 2 => if rd = 0 then none else some (.load rd 2 lw 2 true)
  | 3 => if rd = 0 then none else some (.load rd 2 ld 3 true)
  | 4 =>
    if rs2 = 0 then (if rd = 0 then none else some (.jalr (if w.getLsbD 12 then 1 else 0) rd 0))
    else some (.alu .add false rd (if w.getLsbD 12 then rd else 0) (.inl rs2))
  | _ => none

/-- The instruction that two halfwords begin, with its length in bytes; none where it faults. -/
def rvDecode (lo hi : BitVec 16) : Option (Rv × Nat) :=
  let f3 := (lo.extractLsb' 13 3).toNat
  match (lo.extractLsb' 0 2).toNat with
  | 0 => (rvcQ0 lo f3).map fun i => (i, 2)
  | 1 => (rvcQ1 lo f3).map fun i => (i, 2)
  | 2 => (rvcQ2 lo f3).map fun i => (i, 2)
  | _ => (rvDecode32 (hi ++ lo)).map fun i => (i, 4)

/-! ### Running -/

/-- Where a walker stands: its registers and its program counter. -/
structure RvState where
  regs : Tbl W64 := []
  pc : W64 := 0
  deriving DecidableEq, Repr

/-- A register; x0 reads zero. -/
def RvState.x (r : RvState) (n : Nat) : W64 := if n = 0 then 0 else tget 0 r.regs n
/-- A register written, and the walker on to an address; a write of x0 is discarded. -/
def RvState.go (r : RvState) (rd : Nat) (v pc : W64) : RvState := { regs := if rd = 0 then r.regs else tset r.regs rd v, pc }

/-- A loaded value extended to 64 bits. -/
def rvExtend (lg : Nat) (signed : Bool) (v : Nat) : W64 :=
  match lg, signed with
  | 0, true => (BitVec.ofNat 8 v).signExtend 64
  | 1, true => (BitVec.ofNat 16 v).signExtend 64
  | 2, true => (BitVec.ofNat 32 v).signExtend 64
  | _, _ => BitVec.ofNat 64 v

/-- The state after one instruction of a length; none where a load cannot be made. -/
def RvState.exec (r : RvState) (read : Nat → Nat → Option Nat) (len : Nat) (i : Rv) : Option RvState :=
  let next := r.pc + BitVec.ofNat 64 len
  match i with
  | .alu op word rd rs1 b =>
    let y := match b with
      | .inl n => r.x n
      | .inr v => v
    some (r.go rd (if word then op.runWord (r.x rs1) y else op.run (r.x rs1) y) next)
  | .lui rd imm => some (r.go rd imm next)
  | .auipc rd imm => some (r.go rd (r.pc + imm) next)
  | .jal rd off => some (r.go rd next (r.pc + off))
  | .jalr rd rs1 off => some (r.go rd next ((r.x rs1 + off) &&& ~~~1))
  | .branch c rs1 rs2 off => some (r.go 0 0 (if c.holds (r.x rs1) (r.x rs2) then r.pc + off else next))
  | .load rd rs1 off lg signed => (read (r.x rs1 + off).toNat (2 ^ lg)).map fun v => r.go rd (rvExtend lg signed v) next
  | .fence => some (r.go 0 0 next)

/-- The address of a load that lies outside the slabs, when an instruction makes one. -/
def RvState.strays (r : RvState) (owns : Nat → Bool) (i : Rv) : Option Nat :=
  match i with
  | .load _ rs1 off lg _ => let a := (r.x rs1 + off).toNat; if owns a && owns (a + 2 ^ lg - 1) then none else some a
  | _ => none

/-- How a call of a walker ends: with a0 and a1 at its return, by a fault or the time limit, or at a load outside the slabs. -/
inductive RvEnd where
  | returned (a0 a1 : W64)
  | fault
  | strayed (pa : Nat)
  deriving DecidableEq, Repr

/-- A walker run until it returns to its caller, for at most so many instructions. -/
def rvRun (read : Nat → Nat → Option Nat) (owns : Nat → Bool) (ra : W64) : Nat → RvState → RvEnd
  | 0, _ => .fault
  | n + 1, r =>
    if r.pc == ra then .returned (r.x 10) (r.x 11)
    else match read r.pc.toNat 2 with
    | none => .fault
    | some lo =>
      match rvDecode (BitVec.ofNat 16 lo) (BitVec.ofNat 16 ((read (r.pc + 2).toNat 2).getD 0)) with
      | none => .fault
      | some (i, len) =>
        if len == 4 && (read (r.pc + 2).toNat 2).isNone then .fault
        else match r.strays owns i with
        | some pa => .strayed pa
        | none => match r.exec read len i with
          | none => .fault
          | some r => rvRun read owns ra n r

/-- n bytes of HBM as a walker's load or fetch reads them: inside the partition's slabs, and no poisoned line (R399, R431). -/
def State.walkerRead (s : State) (p : Part) (pa n : Nat) : Option Nat :=
  if p.ownsPa pa && p.ownsPa (pa + n - 1) && !s.poisonedAt pa && !s.poisonedAt (pa + n - 1) then some (readLE s.mem (hbmKey pa) n) else none

/-- The number of an access kind that a walker is called with (R399). -/
def AccKind.num : AccKind → Nat
  | .read => 0
  | .write => 1
  | .atomic => 2

/-- A call of a walker: a0 to a3 hold its arguments, ra the millwright's return address, and every other register a free value (R399). The
instructions that 10 µs allow are a free number; one that would run longer ends with a fault. -/
def State.callWalker (s : State) (p : Part) (code va asid kind root : Nat) : RvEnd :=
  let regs := ((List.range 32).map fun k => (k, Config.walkerReg s.turn k)).drop 1
  let regs := tset (tset (tset (tset regs 10 (BitVec.ofNat 64 va)) 11 (BitVec.ofNat 64 asid)) 12 (BitVec.ofNat 64 kind)) 13
    (BitVec.ofNat 64 root)
  rvRun (s.walkerRead p) p.ownsPa (Config.walkerReg s.turn 1) (Config.walkerSteps s.turn) { regs, pc := BitVec.ofNat 64 code }

/-- How the walk of a supplied walker ends: the checks of R398 on the leaf that it returns; a load outside the slabs leaves them (R399). -/
def State.suppliedWalk (s : State) (p : Part) (code va asid kind root : Nat) : WalkEnd :=
  match s.callWalker p code va asid kind root with
  | .returned e l => if l == 0 || 3 < l.toNat then .notPresent else leafEnd p e l.toNat
  | .fault => .notPresent
  | .strayed pa => .outside pa

/-- A walk for a virtual address under an ASID, with a walk cache: the ROM walk, or the code that the partition supplied (R398,
R399). -/
def State.walk (s : State) (pn : Nat) (asid : BitVec 12) (va : Nat) (kind : AccKind) (cache : List WalkEntry) :
    WalkEnd × List WalkEntry :=
  let p := s.part pn
  match tget none p.asids asid.toNat with
  | none => (.notPresent, cache)
  | some a =>
    if a.supplied then (s.suppliedWalk p a.walker va asid.toNat kind.num a.root, cache)
    else romWalk s.soundMem p asid va walkLevels a.root cache

end Sys2Proof.Machine
end

