-- ==== Sys2Proof/Machine/Inbox.lean ====
section
/-! DEFINITION. The inbox of a cell: message ids (R32), bins and the overflow list (R36), the choice of a set (R37), the
spill to the inbox tailrace (R340), and how arrivals land in lanes (R34, R206, R419). -/

namespace Sys2Proof.Machine

/-- The bytes of a message (R31, R206, R417). -/
def Parcel.bytes : Parcel → Nat
  | .strand s => 48 + 4 * s.vals.length
  | .msg _ => 32
  | .record _ _ => 64

/-- Doublewords as bytes (R4). -/
def wordBytes (l : List W64) : List Byte := l.flatMap fun w => leBytes 8 w.toNat

/-- The header of a strand message (R31). -/
def Strand.words (m : Strand) : List W64 :=
  let ret := fun k => m.rets.getD k 0
  [ m.wid, m.live ++ (0 : BitVec 1) ++ BitVec.ofNat 3 m.rets.length ++ m.dest, (0 : BitVec 8) ++ ret 1 ++ ret 0,
    (0 : BitVec 8) ++ ret 3 ++ ret 2, m.step ++ m.job, (0 : BitVec 4) ++ m.origin ++ m.part ++ m.widw ]

/-- The doublewords of a message (R206). -/
def Smsg.words (m : Smsg) : List W64 :=
  [ m.payload, (0 : BitVec 4) ++ m.origin ++ m.part ++ (0 : BitVec 5) ++ m.cls ++ (0 : BitVec 4) ++ m.dest, m.step ++ m.job, m.wid ]

/-- A message as it stands in an entry of a ring or a tailrace (R31, R206, R317, R339). -/
def Parcel.image : Parcel → List Byte
  | .strand m => wordBytes m.words ++ m.vals.flatMap fun v => leBytes 4 v.toNat
  | .msg m => wordBytes m.words
  | .record r _ => wordBytes r.words

/-- The job of a strand; messages are not counted in any job (R375). -/
def Parcel.job? : Parcel → Option W32
  | .strand s => some s.job
  | _ => none

/-- The class of a message. -/
def Parcel.cls? : Parcel → Option Nat
  | .msg m => some m.cls.toNat
  | _ => none

/-- Whether a parcel travels on the strand network: strands, and SEND classes 8 to 31 (R23). -/
def Parcel.onStrandNet : Parcel → Bool
  | .strand _ => true
  | .msg m => 8 ≤ m.cls.toNat
  | .record _ _ => false

/-- The network of a parcel (R23). -/
def Parcel.vnet : Parcel → VNet
  | .strand _ => .strand
  | .msg m => if m.cls == 6 then .request else if 8 ≤ m.cls.toNat then .strand else .system
  | .record _ _ => .system

/-- The word of the handler table for a class: [63] bound, [27:0] place (R394). -/
def Cell.handler (c : Cell) (cls : Nat) : W64 := tget 0 c.handlers cls
/-- Whether a class has a handler on the cell. -/
def Cell.hasHandler (c : Cell) (cls : Nat) : Bool := (c.handler cls).getLsbD 63

/-- The place word that an arrival names: its DEST, or the handler's place for a message (R36, R206). -/
def Cell.placeFor (c : Cell) : Parcel → W64
  | .strand s => s.dest.setWidth 64
  | .msg m => (c.handler m.cls.toNat) &&& 0xFFFFFFF
  | .record _ w => w &&& 0xFFFFFFF

/-- The entry record of a word, or the defaults for a word with none (R26). Of two for one word the first holds. DESIGN CHOICE, log entry 70. -/
def Cell.entryRec (c : Cell) (e : PC) : EntryRec :=
  (c.entries.find? fun r => r.entry == e).getD { entry := e }

/-- The threshold of the inbox buffer in bytes (R340). -/
def Cell.threshold (c : Cell) : Nat :=
  let n := c.inboxCfg.toNat
  64 * (if n < 0x10 then 0x10 else if 0xF0 < n then 0xF0 else n)

/-- The bytes of a list of arrivals. -/
def arrBytes (l : List Arrival) : Nat := (l.map fun a => a.parcel.bytes).sum

/-- The messages of activations in their first segment, which a trap returns to their bin (R38). -/
def Cell.triggers (c : Cell) : List Arrival :=
  ctxNums.flatMap fun k => if (c.ctx k).status != .free && (c.ctx k).first then (c.ctx k).trigger else []

/-- The bin of an entry. -/
def Cell.bin? (c : Cell) (e : PC) : Option Bin := c.bins.find? fun b => b.entry == e

/-- Whether the router has accepted an arrival before another (R36, R340). -/
def Arrival.before (a b : Arrival) : Bool := a.seq < b.seq

/-- An arrival put among others in the order in which they reached the router: one that comes from the tailrace goes before those that have
passed it by (R340). -/
def insertArrival (a : Arrival) : List Arrival → List Arrival
  | [] => [a]
  | b :: l => if a.before b then a :: b :: l else b :: insertArrival a l

/-- The pending traps of first segments for an entry that found all 16 bin entries in use: those of groups of a reservation, whose messages come
through no bin (R36, R316). They keep their messages. -/
def Cell.unbinned (c : Cell) (e : PC) : List PendTrap :=
  if (c.bin? e).isSome then [] else c.pending.filter fun t => t.bin == some e

/-- The occupancy of the inbox buffer. Messages that a trap would return to their bin keep their place (log entry 15). -/
def Cell.occupancy (c : Cell) : Nat :=
  (c.bins.map fun b => arrBytes b.msgs).sum + arrBytes (c.overflow.map (·.2)) + arrBytes c.triggers +
  (c.reservs.map fun r => arrBytes r.waiting).sum +
  (c.pending.map fun t => if t.bin.any fun e => (c.bin? e).isNone then arrBytes t.msgs else 0).sum

/-- The bin of an entry that has none, with some arrivals: it is held where traps of the entry wait for a verdict, with their messages in their
places, and counts the activations of the entry in their first segment (R36, R38). -/
def Cell.newBin (c : Cell) (e : PC) (l : List Arrival) : Bin :=
  let ts := c.unbinned e
  { entry := e, msgs := (ts.flatMap (·.msgs)).foldl (fun l a => insertArrival a l) l, held := ts.length
    firstSegs := (c.ctxs.filter fun x => x.2.status != .free && x.2.first && plEntry x.2.entry == e && !x.2.trigger.isEmpty).length }
/-- The cell with a bin replaced. -/
def Cell.setBin (c : Cell) (b : Bin) : Cell :=
  { c with bins := c.bins.map fun x => if x.entry == b.entry then b else x }

/-- The same on the overflow list. -/
def insertOverflow (e : PC) (a : Arrival) : List (PC × Arrival) → List (PC × Arrival)
  | [] => [(e, a)]
  | b :: l => if a.before b.2 then (e, a) :: b :: l else b :: insertOverflow e a l

/-- An arrival put into its bin, or on the overflow list when all 16 bin entries are in use (R36). -/
def Cell.binPut (c : Cell) (a : Arrival) : Cell :=
  let e := plEntry a.place
  match c.bin? e with
  | some b => c.setBin { b with msgs := insertArrival a b.msgs }
  | none =>
    if c.bins.length < 16 then { c with bins := c.bins ++ [c.newBin e [a]] }
    else { c with overflow := insertOverflow e a c.overflow }

/-- Whether a reservation claims an arrival: a dispatched strand of its job for its entry (R309, R316). -/
def Reserv.claims (r : Reserv) (a : Arrival) : Bool :=
  r.entry == plEntry a.place && r.waiting.length < r.strands && match a.parcel with
  | .strand m => m.origin == 0xFFF && m.job == r.job
  | _ => false

/-- An arrival enters the buffer: a reservation claims it, or it goes into its bin (R36, R316). -/
def Cell.enter (c : Cell) (a : Arrival) : Cell :=
  match findIdx (fun r => r.claims a) c.reservs with
  | some (k, r) => { c with reservs := setAt c.reservs k { r with waiting := r.waiting ++ [a] } }
  | none => c.binPut a

/-- A bin that is empty, not held, and has no first-segment activation frees its entry; the oldest overflow entry's
arrivals move into the freed one (R36). -/
def Cell.binFree (c : Cell) (e : PC) : Cell :=
  match c.bin? e with
  | none => c
  | some b =>
    if !b.msgs.isEmpty || b.held != 0 || b.firstSegs != 0 then c
    else
      let bins := c.bins.filter fun x => x.entry != e
      match c.overflow with
      | [] => { c with bins }
      | (e', _) :: _ =>
        let moved := (c.overflow.filter fun x => x.1 == e').map (·.2)
        { c with bins := bins ++ [c.newBin e' moved], overflow := c.overflow.filter fun x => x.1 != e' }

/-- The next message id taken (R32). -/
def Cell.takeId (c : Cell) (p : Parcel) : Cell × Arrival :=
  ({ c with msgId := c.msgId + 1, accepted := c.accepted + 1 }, { id := c.msgId, place := c.placeFor p, parcel := p, cyc := c.cyc, seq := c.accepted })

/-- Whether an arrival of the strand network must go to the tailrace (R340, R342). -/
def Cell.mustSpill (c : Cell) (p : Parcel) : Bool :=
  c.out || !c.tail.isEmpty || c.threshold < c.occupancy + p.bytes

/-- Whether the router can take an arrival now: room in the tailrace within the quota, or in the buffer (R340, R341). -/
def Cell.canAccept (c : Cell) (p : Parcel) : Bool :=
  if p.onStrandNet then !c.mustSpill p || c.tail.length < c.tailQuota
  else !c.out && c.occupancy + p.bytes ≤ 16384

/-! ### Network cycles (R36)

Which messages one network cycle brings to a cell is latitude, since the reference gives no latency of the mesh (R462): `gates` holds, for a cell,
the pairs whose next message has arrived in the present cycle, at most one a port, and is still to be accepted. They are accepted in the order of
their ports, and no other arrival comes between them. DESIGN CHOICE, log entry 10. -/

/-- Whether the inbox of a cell can accept a message: a parcel, not one that the channel engines consume (R32), for which there is room, and
behind none that the cell has refused and that is to be sent again first (R291). -/
def State.portTakes (s : State) (n : Nat) (m : Msg) : Bool :=
  (match m.body with
    | .parcel p => p.cls? != some 4 && (s.cell n).canAccept p
    | _ => false) && ((s.cell n).out || s.refused.all fun x => !x.1.pair m)

/-- The arrivals of the present network cycle at a cell that its inbox can accept. -/
def State.gate (s : State) (n : Nat) : List (VNet × Endp) :=
  (tget [] s.gates n).filter fun g => (s.net.find? fun m => m.vn == g.1 && m.src == g.2 && m.dst == .cell n).any (s.portTakes n)

/-- Whether it is the turn of an arrival at a cell: of those of its network cycle it came through the first port (R36). -/
def State.portTurn (s : State) (n : Nat) (m : Msg) : Bool :=
  let g := s.gate n
  g.isEmpty || (g.contains (m.vn, m.src) && g.all fun e => s.inputOf m.src (.cell n) ≤ s.inputOf e.2 (.cell n))

/-- What the next network cycle brings to a cell: of the pairs whose next message arrives, the first at each port. -/
def State.portArrivals (s : State) (n : Nat) : List (VNet × Endp) :=
  (number 0 s.net).foldl (fun g y =>
    if y.2.dst == .cell n && s.portTakes n y.2 && (s.net.take y.1).all (fun x => !x.pair y.2) && Config.arrives s.turn y.1 &&
        g.all fun e => s.inputOf e.2 (.cell n) != s.inputOf y.2.src (.cell n) then g ++ [(y.2.vn, y.2.src)]
    else g) []

/-- A network cycle begins at each cell that has accepted what the last one brought. -/
def State.reachPorts (s : State) : State :=
  (tkeys s.cells).foldl (fun s n =>
    if !(s.gate n).isEmpty then s
    else
      let g := s.portArrivals n
      if g.isEmpty then s else { s with gates := tset s.gates n g }) s

/-- The inbox accepts an arrival: an id, and its bin or the tailrace (R32, R36, R340). -/
def Cell.accept (c : Cell) (p : Parcel) : Cell :=
  let spill := p.onStrandNet && c.mustSpill p
  let (c', a) := c.takeId p
  if spill then { c' with tail := c'.tail ++ [a] } else c'.enter a

/-- How many messages of the tailrace enter the buffer at a refill: while the next does not pass the threshold (R340). -/
def refillCount (room : Nat) : List Arrival → Nat
  | [] => 0
  | a :: rest => if a.parcel.bytes ≤ room then 1 + refillCount (room - a.parcel.bytes) rest else 0

/-! ### Choosing a set (R37) -/

/-- Whether an arrival is a class-0 message. -/
def Arrival.isClass0 (a : Arrival) : Bool := a.parcel.cls? == some 0

/-- Whether a bin may qualify at all: not held, not empty, its entry not on HOLD (R37, R86). -/
def Cell.binOpen (c : Cell) (b : Bin) : Bool :=
  b.held == 0 && !b.msgs.isEmpty && !(c.entryRec b.entry).hold

/-- Rules 1 to 3 of R37. -/
def Cell.binRule123 (c : Cell) (b : Bin) : Bool :=
  c.binOpen b &&
  (32 ≤ b.msgs.length || b.due ||
   (match b.msgs.head? with
    | some a => (c.entryRec b.entry).gather.toNat ≤ c.cyc - a.cyc
    | none => false) ||
   b.msgs.any (·.isClass0))

/-- The bins that qualify under R37; `ready` says whether a context of the cell is ready (rule 4). -/
def Cell.qualifying (c : Cell) (ready : Bool) : List Bin :=
  let l := c.bins.filter c.binRule123
  if l.isEmpty && !ready then c.bins.filter c.binOpen else l

/-- The bin whose oldest arrival is the oldest. -/
def oldestBin : List Bin → Option Bin
  | [] => none
  | b :: rest =>
    match oldestBin rest with
    | none => some b
    | some b' =>
      match b.msgs.head?, b'.msgs.head? with
      | some a, some a' => if a'.before a then some b' else some b
      | _, _ => some b

/-- The bin that is taken: one with a class-0 message first, otherwise the oldest (R37). -/
def chooseBin (l : List Bin) : Option Bin :=
  match oldestBin (l.filter fun b => b.msgs.any (·.isClass0)) with
  | some b => some b
  | none => oldestBin l

/-- Whether a bin holds a message of a class at most 2, which forms sets during a pre-emption request (R323). -/
def Bin.urgent (b : Bin) : Bool :=
  b.msgs.any fun a => match a.parcel.cls? with
    | some n => n ≤ 2
    | none => false

/-! ### Landing in lanes -/

/-- The live registers of a mask, ascending. -/
def liveRegs (m : W32) : List Nat := lanesOf m

/-- What an arrival puts into its lane: the header, the step, and register values (R34, R206, R419). WIDW of a lane that a message starts R206 does
not give. DESIGN CHOICE, log entry 70: all its widths are zero. -/
def Arrival.lane (a : Arrival) : LaneHdr × W32 × List (Nat × W32) :=
  match a.parcel with
  | .strand s =>
    ({ wid := s.wid, job := s.job, widw := s.widw, rets := s.rets, counted := true, msgId := a.id }, s.step,
     (liveRegs s.live).zip s.vals)
  | .msg m =>
    ({ wid := m.wid, job := m.job, msgId := a.id }, m.step,
     [(0, m.payload.extractLsb' 0 32), (1, m.payload.extractLsb' 32 32), (2, m.origin.setWidth 32),
      (3, m.cls.setWidth 32)])
  | .record r _ =>
    let w := r.words
    ({ wid := r.wid, job := r.job, msgId := a.id }, r.step,
     (List.range 8).flatMap fun k =>
       [(2 * k, (w.getD k 0).extractLsb' 0 32), (2 * k + 1, (w.getD k 0).extractLsb' 32 32)])

/-- The 32 lanes of a register from one value per lane. -/
def mkLanes (f : Nat → W32) : Lanes := (List.range 32).map f
/-- The element of a lane. -/
def lane (v : Lanes) (l : Nat) : W32 := v.getD l 0

/-- The registers of a set as its activation begins: carried values and zeros (R11, R34). -/
def setRegs (l : List Arrival) : Tbl Lanes :=
  let parts := l.map fun a => (a.lane).2.2
  let used := ((List.range 32).filter fun r => parts.any fun p => p.any fun x => x.1 == r)
  used.map fun r => (r, mkLanes fun L => match (parts.getD L []).find? fun x => x.1 == r with
    | some x => x.2
    | none => 0)

/-- The mask of the lowest n lanes. -/
def lowMask (n : Nat) : W32 := if 32 ≤ n then 0xFFFFFFFF else BitVec.ofNat 32 (2 ^ n - 1)

/-- The context of an activation as it begins (R11), with its budget and privilege from the entry record. SLACKNS shows the SLACK of the set's
class-0 notification (R223); of several in one set the reference does not say which. DESIGN CHOICE, log entry 62: the first in arrival order. -/
def beginCtx (r : EntryRec) (place : W64) (l : List Arrival) (cores : Bool) (stamp act : Nat)
    (regs : Option TrapRegs) : Ctx :=
  let n := l.length
  let cls := if l.any (·.isClass0) then some 0 else (l.head?).bind fun a => a.parcel.cls?
  let slack := match (l.find? (·.isClass0)).map (·.parcel) with
    | some (.msg m) => (m.payload.extractLsb' 0 60).signExtend 64
    | _ => 0
  let x : Regs :=
    { v := setRegs l, cm := lowMask n, live := lowMask n, pc := r.entry
      steps := number 0 (l.map fun a => (a.lane).2.1) }
  { status := .running, r := x, snap := x, snapBudget := r.budget.toNat
    hdrs := number 0 (l.map fun a => (a.lane).1)
    setSize := n, entry := place, cls, slackNs := slack, priv := r.priv, cores, first := true, trigger := l
    budget := r.budget.toNat, fullBudget := r.budget.toNat, begun := stamp, act, trap := regs.getD {} }

end Sys2Proof.Machine
end

