-- ==== Sys2Proof/Machine/Chan.lean ====
section
/-! DEFINITION. The scratchpad with its bank write queue (R169, R171), channel descriptors in the channel table (R328, R329),
the copies at the two ends (R330, R337, R376), the tailrace blocks (R338), and the placing, taking and retiring of elements
(R331 to R334). -/

namespace Sys2Proof.Machine

/-! ### Releases and what they carry (R276, R279) -/

/-- Whether a party of a cluster, of a die, or of the package as a whole lies within a scope of a cell (R275). -/
def inCluster (cell : Nat) (sc : Scope) (k : Nat) : Bool :=
  match sc with
  | .cell => false
  | .cluster => k == cell / 16
  | .die => k / 48 == dieOf cell
  | _ => true
/-- The same for a party of a die. -/
def inDie (cell : Nat) (sc : Scope) (d : Nat) : Bool :=
  match sc with
  | .cell => false
  | .cluster => false
  | .die => d == dieOf cell
  | _ => true

/-- Whether an endpoint lies within a scope of a cell (R195, R275). -/
def inScope (cell : Nat) (sc : Scope) : Endp → Bool
  | .cell n => match sc with
    | .cell => n == cell
    | .cluster => n / 16 == cell / 16
    | .die => dieOf n == dieOf cell
    | _ => true
  | .home k => inCluster cell sc k
  | .millwright k => inCluster cell sc k
  | .station k => inDie cell sc (k / 48)
  | .dispatch d => inDie cell sc d
  | .dmc d => inDie cell sc d
  | .poolRoot d => inDie cell sc d
  | .peer _ => sc == .system
  | .host => false
  | _ => sc == .device || sc == .system

/-- Whether two parties' scopes include each other (R275, R279). -/
def State.pairs (s : State) (c1 : Nat) (s1 : Scope) (c2 : Nat) (s2 : Scope) : Bool :=
  s.partNo c1 == s.partNo c2 && inScope c1 s1 (.cell c2) && inScope c2 s2 (.cell c1)

/-- What an acquire of the bytes at a key takes up (R276). -/
def State.depsAt (s : State) (key n cell : Nat) (sc : Scope) : List Nat :=
  s.relDeps.flatMap fun r => if r.key < key + n && key < r.key + r.size && s.pairs r.cell r.scope cell sc then r.deps else []

/-- A write of bytes ends what earlier releases left there; a release leaves its own (R276). Whether an acquire that reads part of a released word
still pairs with the release once other bytes of the word are overwritten the reference does not say. DESIGN CHOICE, log entry 70: it does not. -/
def State.noteRel (s : State) (key n : Nat) (r : Option RelDep) : State :=
  if s.relDeps.isEmpty && r.isNone then s
  else { s with relDeps := (s.relDeps.filter fun y => !(y.key < key + n && key < y.key + y.size)) ++
                           (r.toList.filter fun y => !y.deps.isEmpty) }

/-- What a release left at one place moved with its bytes to another. -/
def State.moveRel (s : State) (src dst n : Nat) : State :=
  let l := s.relDeps.filter fun y => y.key == src
  (s.noteRel src n none).noteRel dst n (l.head?.map fun y => { y with key := dst })

/-! ### Scratchpad and bank write queue -/

/-- A queued local store performed (R171). -/
def State.perform (s : State) (cell : Nat) (b : BankWrite) : State :=
  { s with mem := writeLE s.mem (cellKey cell b.off) b.size b.data.toNat }

/-- Queued stores performed in order. -/
def performAll (cell : Nat) : List BankWrite → State → State
  | [], s => s
  | b :: bs, s => performAll cell bs (s.perform cell b)

/-- Every queued store of a cell performed, oldest first. -/
def State.settle (s : State) (cell : Nat) : State :=
  let c := s.cell cell
  if c.bankQ.isEmpty then s else (performAll cell c.bankQ s).setCell cell { c with bankQ := [] }

/-- Whether a queued store may touch n bytes at an offset. -/
def BankWrite.touches (b : BankWrite) (off n : Nat) : Bool := b.off < off + n && off < b.off + b.size

/-- A queue parted into the stores that are needed, with those ahead of them that their contexts have queued or that touch their bytes, and the
rest (R171, R273). -/
def partQueue (need : BankWrite → Bool) : List BankWrite → List BankWrite × List BankWrite
  | [] => ([], [])
  | b :: bs =>
    let (now, later) := partQueue need bs
    if need b || now.any fun y => y.ctx == b.ctx || y.touches b.off b.size then (b :: now, later) else (now, b :: later)

/-- The queued stores that are needed performed, no others than they need (R171). -/
def State.settleWhere (s : State) (cell : Nat) (need : BankWrite → Bool) : State :=
  let c := s.cell cell
  let (now, later) := partQueue need c.bankQ
  if now.isEmpty then s else (performAll cell now s).setCell cell { c with bankQ := later }

/-- The queued stores performed that may touch n bytes (R171). -/
def State.settleFor (s : State) (cell off n : Nat) : State := s.settleWhere cell fun b => b.touches off n

/-- The queued stores of a context performed, which come before its own next local access, and those that may touch some bytes (R171, R273). -/
def State.settleNear (s : State) (w : Who) (l : List (Nat × Nat)) : State :=
  s.settleWhere w.cell fun b => b.ctx == w.ctx || l.any fun y => b.touches y.1 y.2

/-- n bytes of a cell's scratchpad, as they are once the queued stores are performed. -/
def State.scratch (s : State) (cell off n : Nat) : Nat :=
  readLE (s.settleFor cell off n).mem (cellKey cell off) n

/-! ### Descriptors -/

/-- The eight doublewords of a descriptor (R329). -/
def Desc.words (d : Desc) : List Nat :=
  [ d.id * 2 ^ 48 + d.writer * 2 ^ 36 + d.reader * 2 ^ 24 + d.lgring * 2 ^ 16 + d.scope * 2 ^ 10 + d.state,
    d.quotaM1 * 2 ^ 32 + d.ringBase, d.wcount, d.rcount, d.headBlk * 2 ^ 32 + d.tailBlk,
    d.trLen * 2 ^ 32 + d.tailIdx * 2 ^ 16 + d.headIdx, d.resBlk * 2 ^ 32 + d.grown * 2 ^ 16, d.closeAt ]

/-- Bits hi down to lo of a number. -/
def bits (v hi lo : Nat) : Nat := v / 2 ^ lo % 2 ^ (hi + 1 - lo)

/-- The descriptor that eight doublewords hold (R329). -/
def Desc.ofWords (w : Nat → Nat) : Desc :=
  { id := bits (w 0) 63 48, writer := bits (w 0) 47 36, reader := bits (w 0) 35 24, lgring := bits (w 0) 19 16
    scope := bits (w 0) 12 10, state := bits (w 0) 3 0, quotaM1 := bits (w 1) 63 32, ringBase := bits (w 1) 18 0
    wcount := w 2, rcount := w 3, headBlk := bits (w 4) 63 32, tailBlk := bits (w 4) 31 0, trLen := bits (w 5) 63 32
    tailIdx := bits (w 5) 24 16, headIdx := bits (w 5) 8 0, resBlk := bits (w 6) 63 32, grown := bits (w 6) 31 16
    closeAt := w 7 }

/-- A doubleword of HBM read by a unit of the device; that of a poisoned line fails and gives zero (R431; log entry 68). -/
def State.unitWord (s : State) (pa : Nat) : Nat := if s.poisonedAt pa then 0 else readLE s.mem (hbmKey pa) 8

/-- The channel's line in the channel table (R328). -/
def State.chanDesc (s : State) (p : Part) (id : Nat) : Desc := Desc.ofWords fun k => s.unitWord (p.chanLine id + 8 * k)

/-- Doubleword k of a channel's line written. -/
def State.chanWord (s : State) (p : Part) (id k v : Nat) : State :=
  s.hbmWrite (p.chanLine id + 8 * k) 8 v

/-- The doublewords of a list written from k on. -/
def chanWords (p : Part) (id : Nat) : Nat → List Nat → State → State
  | _, [], s => s
  | k, v :: vs, s => chanWords p id (k + 1) vs (s.chanWord p id k v)

/-- The whole line written. -/
def State.setChanDesc (s : State) (p : Part) (d : Desc) : State := chanWords p d.id 0 d.words s

/-- The ring capacity. -/
def Desc.cap (d : Desc) : Nat := 2 ^ d.lgring
/-- The quota. -/
def Desc.quota (d : Desc) : Nat := d.quotaM1 + 1
/-- The elements in the ring (R331). -/
def Desc.ringLen (d : Desc) : Nat := d.wcount - d.trLen - d.rcount

/-- The sum of a count over the messages of a channel on their way to a cell. -/
def State.underWay (s : State) (cell : Nat) (f : Body → Nat) : Nat :=
  ((s.net.filter fun m => m.dst == .cell cell).map fun m => f m.body).sum

/-- The elements of a channel on their way to the reader's cell. -/
def elemOf (id : Nat) (b : Body) : Nat :=
  match b with
  | .elem k _ _ _ _ => if k == id then 1 else 0
  | _ => 0

/-- The credits of a channel that room notifications carry. -/
def roomOf (id : Nat) (b : Body) : Nat :=
  match b with
  | .room k n => if k == id then n else 0
  | _ => 0

/-- The growth of a channel that the writer has not learned. -/
def growthOf (id : Nat) (b : Body) : Nat :=
  match b with
  | .growth k n => if k == id then n else 0
  | _ => 0

/-- The elements of a channel whose pops have committed: the count of the reader end's copy, or of the table line (R330). -/
def State.readElems (s : State) (p : Part) (d : Desc) : Nat :=
  match tget none (s.cell (p.dev d.reader)).rcopies d.id with
  | some r => r.desc.rcount
  | none => d.rcount

/-- The copy at the writer end: the one held, or the table line taken up (R330, R337). Its credits are the quota less the elements
released and not yet reported read, so reports and growths that are under way are not in it. -/
def State.wcopy (s : State) (cell : Nat) (id : Nat) : WCopy :=
  match tget none (s.cell cell).wcopies id with
  | some w => w
  | none =>
    let p := s.partAt cell
    let d := s.chanDesc p id
    let d := { d with quotaM1 := d.quotaM1 - s.underWay cell (growthOf id) }
    { desc := d, credits := d.quota - (d.wcount - s.readElems p d) - s.underWay cell (roomOf id) }

/-! ### Writes on their way (R277 to R280) -/

/-- The home of a send that writes at one. -/
def State.sendHome (s : State) (cell : Nat) (sd : Send) : Option Endp :=
  match sd.body with
  | .store home _ => some home
  | .elem id _ => some (.cell ((s.partAt cell).dev (s.wcopy cell id).desc.reader))
  | _ => none

/-- The name by which a release knows a write that has left: that of its send, or one for an ATOMX. -/
def Pending.known (o : Pending) : Nat := o.name.getD (2 * o.id)

/-- The writes of a list of sends, each with its name and its home. -/
def State.sendWrites (s : State) (cell : Nat) (l : List Send) : List (Nat × Endp) :=
  l.filterMap fun sd => sd.name.bind fun n => (s.sendHome cell sd).map fun h => (n, h)

/-- The writes of a context that are not yet performed: those that have left, those that commits have released, and those that it holds. -/
def State.writesOf (s : State) (cell : Nat) (x : Ctx) : List (Nat × Endp) :=
  (x.out.filter (·.write)).map (fun o => (o.known, o.home)) ++ s.sendWrites cell x.released ++ s.sendWrites cell x.held

/-- Whether a named write of the device, which its context may still hold, is not yet performed at a home within a scope of a cell. -/
def State.flying (s : State) (cell : Nat) (sc : Scope) (n : Nat) : Bool :=
  s.cells.any fun c => (c.2.ctxs.map (·.2) ++ c.2.displaced.toList).any fun x =>
    (s.writesOf c.1 x).any fun y => y.1 == n && inScope cell sc y.2

/-- The writes among a list that are still on their way. -/
def State.stillFlying (s : State) (cell : Nat) (l : List Nat) : List Nat :=
  (l.filter fun n => s.flying cell .system n).eraseDups

/-- A context takes up the writes behind a release that it has acquired (R279), and so do the sends that it holds behind the acquire. -/
def State.acquired (s : State) (w : Who) (l : List Nat) : State :=
  if l.isEmpty then s
  else
    let x := s.ctx w
    s.setCtx w { x with
      deps := s.stillFlying w.cell (x.deps ++ l)
      held := x.held.map fun sd => if sd.late then { sd with deps := sd.deps ++ l } else sd }

/-- The writer copy set. -/
def State.setWcopy (s : State) (cell id : Nat) (w : Option WCopy) : State :=
  let c := s.cell cell
  s.setCell cell { c with wcopies := tset c.wcopies id w }

/-- The elements of a channel that its writer end has released: the count of its copy, or of the table line (R330). -/
def State.releasedElems (s : State) (p : Part) (d : Desc) : Nat :=
  match tget none (s.cell (p.dev d.writer)).wcopies d.id with
  | some w => w.desc.wcount
  | none => d.wcount

/-- The elements of a channel that a commit has released and that wait in their cell to leave. -/
def Cell.queuedElems (c : Cell) (id : Nat) : Nat :=
  ((c.ctxs.map (·.2) ++ c.displaced.toList).map fun x => (x.released.filter fun sd => match sd.body with
    | .elem k _ => k == id
    | _ => false).length).sum

/-- The table line as the reader end takes it up, its WCOUNT the elements that have arrived: those released and no longer under way,
but for n that arrive now (R330, R376). -/
def State.takeReader (s : State) (cell id n : Nat) : RCopy :=
  let p := s.partAt cell
  let d := s.chanDesc p id
  { desc := { d with wcount := s.releasedElems p d - (s.cell (p.dev d.writer)).queuedElems id - s.underWay cell (elemOf id) - n } }

/-- The copy at the reader end: the one held, or the table line taken up (R330, R376). -/
def State.rcopy (s : State) (cell : Nat) (id : Nat) : RCopy :=
  (tget none (s.cell cell).rcopies id).getD (s.takeReader cell id 0)

/-- The reader copy set. -/
def State.setRcopy (s : State) (cell id : Nat) (r : Option RCopy) : State :=
  let c := s.cell cell
  s.setCell cell { c with rcopies := tset c.rcopies id r }

/-- The writer end's fields written back to the table line: C2, and C0 and C7 once the channel is closed (R330, R335). -/
def State.writeBackW (s : State) (cell id : Nat) (w : WCopy) : State :=
  let p := s.partAt cell
  let s := s.chanWord p id 2 w.desc.wcount
  if w.desc.state == 2 then
    let d := s.chanDesc p id
    (s.chanWord p id 0 (({ d with state := 2 } : Desc).words.headD 0)).chanWord p id 7 w.desc.closeAt
  else s

/-- The reader end's fields written back: C3 to C7, and the state (R330). -/
def State.writeBackR (s : State) (cell id : Nat) (r : RCopy) : State :=
  let p := s.partAt cell
  let s := chanWords p id 3 (r.desc.words.drop 3) s
  if r.desc.state == 2 then
    let d := s.chanDesc p id
    s.chanWord p id 0 (({ d with state := 2 } : Desc).words.headD 0)
  else s

/-! ### The tailrace pool (R338) -/

/-- R(Q) of R339: blocks per entries beyond the fast part. -/
def blocksFor (q fast per : Nat) : Nat := if q ≤ fast then 0 else (q - fast + per - 1) / per + 1

/-- The blocks that a tailrace occupies. -/
def Desc.blockCount (d : Desc) : Nat := if d.trLen == 0 then 0 else (d.headIdx + d.trLen + 511) / 512

/-- Whether a buffer that has taken some blocks of its reservation may take one more (R338). A channel whose quota its ring covers has no
reservation (R339), and still spills while its reader is switched out (R342): the model gives it what the free list has. DEDUCED, log entry
66. -/
def State.hasBlock (s : State) (pn used res : Nat) : Bool := (used < res || res == 0) && !(s.part pn).freeBlocks.isEmpty

/-- A block from the free list, the first of it, for a buffer within its reservation. -/
def State.takeBlock (s : State) (pn used res : Nat) : Option Nat × State :=
  let p := s.part pn
  if s.hasBlock pn used res then (p.freeBlocks.head?, s.setPart pn { p with freeBlocks := p.freeBlocks.drop 1 }) else (none, s)

/-- Blocks returned to the free list. -/
def State.freeBlocks (s : State) (pn : Nat) (l : List Nat) : State :=
  let p := s.part pn
  s.setPart pn { p with freeBlocks := p.freeBlocks ++ l }

/-- The link of a block in the pool map. -/
def State.poolLink (s : State) (p : Part) (b : Nat) : Nat :=
  let pa := p.poolMap + 4 * b
  if s.poisonedAt pa then 0 else readLE s.mem (hbmKey pa) 4

/-- The physical address of an element slot of a block. -/
def Part.blockAt (p : Part) (b i : Nat) : Nat := p.poolBase + 4096 * b + 8 * i

/-- A block joined behind another in the pool map. -/
def State.linkBlock (s : State) (p : Part) (b next : Nat) : State := s.hbmWrite (p.poolMap + 4 * b) 4 next

/-- An entry of 128 bytes put behind the n that a chain holds; a block of its reservation is taken when the last one is full (R338, R339). -/
def State.chainPut (s : State) (pn : Nat) (ch : Chain) (n res : Nat) (b : List Byte) : Chain × State :=
  let p := s.part pn
  let k := (ch.head + n) / 32
  let (ch, s) : Chain × State :=
    if k < ch.blocks.length then (ch, s)
    else match s.takeBlock pn ch.blocks.length res with
    | (some blk, s) =>
      ({ ch with blocks := ch.blocks ++ [blk] }, match ch.blocks.getLast? with
        | some last => s.linkBlock p last blk
        | none => s)
    | (none, s) => (ch, s)
  (ch, match ch.blocks[k]? with
    | some blk => s.hbmBytes (p.blockAt blk (16 * ((ch.head + n) % 32))) b
    | none => s)

/-- The first n of the entries of a chain gone, with the blocks that they leave empty. -/
def State.chainTake (s : State) (pn : Nat) (ch : Chain) (n : Nat) : Chain × State :=
  let k := (ch.head + n) / 32
  ({ blocks := ch.blocks.drop k, head := (ch.head + n) % 32 }, if k == 0 then s else s.freeBlocks pn (ch.blocks.take k))

/-- A chain of which n entries are left after some have been removed, without the blocks that it no longer needs. -/
def State.chainTrim (s : State) (pn : Nat) (ch : Chain) (n : Nat) : Chain × State :=
  let k := (ch.head + n + 31) / 32
  ({ ch with blocks := ch.blocks.take k }, if ch.blocks.length ≤ k then s else s.freeBlocks pn (ch.blocks.drop k))

/-- The entry of an arrival that the inbox has spilled put into the tailrace of a cell that already held n (R340). -/
def State.spilled (s : State) (cell n : Nat) (p : Parcel) : State :=
  let (ch, s) := s.chainPut (s.partNo cell) (s.cell cell).tailChain n (blocksFor (s.cell cell).tailQuota 0 32) p.image
  s.setCell cell { s.cell cell with tailChain := ch }

/-- The inbox of a cell accepts an arrival: its bin, or the tailrace with its block (R36, R338, R340). -/
def State.accept (s : State) (cell : Nat) (p : Parcel) : State :=
  let c := s.cell cell
  let s := s.setCell cell (c.accept p)
  if p.onStrandNet && c.mustSpill p then s.spilled cell c.tail.length p else s

/-- An element appended to a channel's tailrace. TAILIDX 0 asks for a block: the first, or the next of the chain. -/
def State.tailAppend (s : State) (pn : Nat) (d : Desc) (x : W64) (r : Option RelDep) : State × Desc :=
  let p := s.part pn
  let (blk, s) : Nat × State := if d.tailIdx == 0 then
      let (b, s) := s.takeBlock pn d.blockCount d.resBlk
      (b.getD d.tailBlk, s)
    else (d.tailBlk, s)
  let s := if d.tailIdx == 0 && d.trLen != 0 then s.linkBlock p d.tailBlk blk else s
  let key := hbmKey (p.blockAt blk d.tailIdx)
  let s := s.hbmWrite (p.blockAt blk d.tailIdx) 8 x.toNat
  (s.noteRel key 8 (r.map fun y => { y with key }),
   { d with tailBlk := blk
            headBlk := if d.trLen == 0 && d.tailIdx == 0 then blk else d.headBlk
            headIdx := if d.trLen == 0 && d.tailIdx == 0 then 0 else d.headIdx
            tailIdx := (d.tailIdx + 1) % 512, trLen := d.trLen + 1 })

/-- One element read from the head of a tailrace: the descriptor after, the element's address, and the block it empties (R333,
R338). A block that holds no further element goes back to the free list. -/
def tailHead (s : State) (p : Part) (d : Desc) : Desc × Nat × List Nat :=
  let last := d.headIdx == 511 || d.trLen == 1
  ({ d with headIdx := if last then 0 else d.headIdx + 1
            tailIdx := if d.trLen == 1 then 0 else d.tailIdx
            trLen := d.trLen - 1
            headBlk := if last && d.trLen != 1 then s.poolLink p d.headBlk else d.headBlk },
   p.blockAt d.headBlk d.headIdx, if last then [d.headBlk] else [])

/-! ### Elements at the reader (R331 to R334) -/

/-- The scratch offset of the slot of a sequence number. -/
def Desc.slot (d : Desc) (seq : Nat) : Nat := d.ringBase + 8 * (seq % d.cap)

/-- Whether an element that arrives goes straight to the ring (R332, R342). -/
def State.toRing (s : State) (cell : Nat) (d : Desc) : Bool := !(s.cell cell).out && d.trLen == 0 && d.wcount - d.rcount < d.cap

/-- Whether an element that arrives at its reader's engine has a place: the ring, the last block of the tailrace, or a new one. -/
def State.elemFits (s : State) (cell id : Nat) : Bool :=
  let d := (s.rcopy cell id).desc
  s.toRing cell d || d.tailIdx != 0 || s.hasBlock (s.partNo cell) d.blockCount d.resBlk

/-- An element arrives at the reader's engine: the ring, or the tailrace (R332). -/
def State.elemArrive (s : State) (cell id : Nat) (x : W64) (rel : Option RelDep) : State :=
  let r := s.rcopy cell id
  let d := r.desc
  let sq := d.wcount
  let d' := { d with wcount := sq + 1 }
  if s.toRing cell d then
    let s := s.settleFor cell (d.slot sq) 8
    let key := cellKey cell (d.slot sq)
    let s := { s with mem := writeLE s.mem key 8 x.toNat }
    let s := s.noteRel key 8 (rel.map fun y => { y with key })
    s.setRcopy cell id (some { r with desc := d' })
  else
    let (s, d'') := s.tailAppend (s.partNo cell) d' x rel
    s.setRcopy cell id (some { r with desc := d'' })

/-- How many elements the endpoint can take at once: up to 16, only from the ring, in strict order, up to the first slot
whose element has not landed (R210, R334). -/
def takeable (d : Desc) (missing : List Nat) : Nat → Nat → Nat
  | 0, _ => 0
  | n + 1, seq =>
    if seq < d.wcount - d.trLen && !missing.contains seq then 1 + takeable d missing n (seq + 1) else 0

/-- n elements read from the ring from a sequence number on. -/
def ringReads (s : State) (cell : Nat) (d : Desc) : Nat → Nat → List W64
  | 0, _ => []
  | n + 1, seq => BitVec.ofNat 64 (s.scratch cell (d.slot seq) 8) :: ringReads s cell d n (seq + 1)

/-- The scope that a descriptor names (R329). -/
def Desc.scopeOf (d : Desc) : Scope :=
  match d.scope with
  | 0 => .cell
  | 1 => .cluster
  | 2 => .die
  | _ => .device

/-- What the acquire of n elements from a sequence number on takes up. -/
def ringDeps (s : State) (cell : Nat) (d : Desc) : Nat → Nat → List Nat
  | 0, _ => []
  | n + 1, seq => s.depsAt (cellKey cell (d.slot seq)) 8 cell d.scopeOf ++ ringDeps s cell d n (seq + 1)

/-! ### Who holds an end (R208) -/

/-- Whether a context has an endpoint bound to an end of a channel. -/
def Ctx.hasEnd (x : Ctx) (id : Nat) (rdr : Bool) : Bool := x.r.binds.any fun b => b.2 == some ⟨id, rdr⟩

/-- Whether an activation of the cell other than that of context k holds an end; a displaced activation keeps its ends. -/
def Cell.heldByOther (c : Cell) (k id : Nat) (rdr : Bool) : Bool :=
  (c.ctxs.any fun x => x.1 != k && x.2.hasEnd id rdr) || c.displaced.any fun x => x.hasEnd id rdr

/-- Whether an end of a channel is bound on the cell. -/
def Cell.hasEnd (c : Cell) (id : Nat) (rdr : Bool) : Bool :=
  (c.ctxs.any fun x => x.2.hasEnd id rdr) || c.displaced.any fun x => x.hasEnd id rdr

/-- Whether either end of a channel is bound. -/
def State.chanBound (s : State) (p : Part) (d : Desc) : Bool :=
  (s.cell (p.dev d.writer)).hasEnd d.id false || (s.cell (p.dev d.reader)).hasEnd d.id true

/-- The elements of a channel that an activation has popped in its segment. -/
def Ctx.poppedOf (x : Ctx) (id : Nat) : Nat := (x.eps.map fun e => (e.2.shadow.filter fun y => y.1 == id).length).sum

/-- The elements of a channel that the activations of the cell have popped and not committed. -/
def Cell.poppedOf (c : Cell) (id : Nat) : Nat := ((c.ctxs.map (·.2) ++ c.displaced.toList).map fun x => x.poppedOf id).sum

/-- The elements of a channel that the endpoints of a context have taken and not delivered. -/
def Ctx.takenOf (x : Ctx) (id : Nat) : Nat :=
  (x.eps.map fun e => if tget none x.r.binds e.1 == some ⟨id, true⟩ then e.2.taken.length else 0).sum

/-- The sequence number of the element that a read delivers next. -/
def State.nextSeq (s : State) (cell id : Nat) : Nat := (s.rcopy cell id).desc.rcount + (s.cell cell).poppedOf id

/-- The endpoint takes what it can (R334). -/
def State.takeElems (s : State) (w : Who) (q : Nat) : State :=
  let x := s.ctx w
  match tget none x.r.binds q with
  | some ⟨id, true⟩ =>
    let e := tget {} x.eps q
    let r := s.rcopy w.cell id
    let from_ := s.nextSeq w.cell id + x.takenOf id
    let n := takeable r.desc r.missing (16 - e.taken.length) from_
    if n == 0 then s
    else
      let got := ringReads s w.cell r.desc n from_
      let l := ringDeps s w.cell r.desc n from_
      (s.setCtx w { x with eps := tset x.eps q { e with taken := e.taken ++ got } }).acquired w l
  | _ => s

/-- Whether the channel of a reader copy is closed and the element of a sequence number is the first not delivered. -/
def RCopy.consumed (r : RCopy) (seq : Nat) : Bool := r.desc.state == 2 && r.desc.closeAt == seq


/-- Whether a send is an element or the close mark of a channel. -/
def Send.ofChan (sd : Send) (id : Nat) : Bool :=
  match sd.body with
  | .elem k _ => k == id
  | .close k => k == id
  | _ => false

/-- Whether a cell still has a reason to keep a writer copy without a binding: a handle push not completed, or elements that
wait to leave (R211, R337). -/
def Cell.pushPending (c : Cell) (id : Nat) : Bool :=
  (c.xfers.any fun x => x.2.busy && x.2.notify.getLsbD 16 && x.2.notify.toNat % 65536 == id) ||
  ((c.ctxs.map (·.2) ++ c.displaced.toList).any fun x => (x.held ++ x.released).any fun sd => sd.ofChan id)

/-- Whether elements or a close mark of a channel, released by commits, wait in the cell to leave. -/
def Cell.queuedChan (c : Cell) (id : Nat) : Bool :=
  (c.ctxs.map (·.2) ++ c.displaced.toList).any fun x => x.released.any fun sd => sd.ofChan id

/-- The writer end's fields written back where no activation of its cell holds it, so that the line holds its state (R330). -/
def State.syncW (s : State) (cell id : Nat) : State :=
  if (s.cell cell).hasEnd id false then s else s.writeBackW cell id (s.wcopy cell id)

/-- The same for the reader end. -/
def State.syncR (s : State) (cell id : Nat) : State :=
  if (s.cell cell).hasEnd id true then s else s.writeBackR cell id (s.rcopy cell id)

/-- The copies at both ends dropped once neither end is bound, but for a writer copy that a push or a waiting element needs and a
reader copy whose refill is in flight (R330, R336, R337). -/
def State.dropCopies (s : State) (p : Part) (d : Desc) : State :=
  if s.chanBound p d then s
  else
    let w := p.dev d.writer
    let r := p.dev d.reader
    let s := if (s.cell w).pushPending d.id then s else s.setWcopy w d.id none
    if (tget none (s.cell r).rcopies d.id).any fun y => y.landing != 0 then s else s.setRcopy r d.id none

/-- An end let go: its fields written back, and the copies dropped when nothing needs them (R211, R330, R337). -/
def State.releaseEnd (s : State) (cell id : Nat) (rdr : Bool) : State :=
  let d := if rdr then (s.rcopy cell id).desc else (s.wcopy cell id).desc
  let s := if rdr then s.syncR cell id else s.syncW cell id
  s.dropCopies (s.partAt cell) d

/-- A writer copy that has changed without a binding: written back, and dropped when nothing needs it (R337). -/
def State.tidyW (s : State) (cell id : Nat) : State :=
  if (s.cell cell).hasEnd id false then s
  else if (s.cell cell).pushPending id then s.syncW cell id
  else s.releaseEnd cell id false

/-- n pops of a channel retired at a commit: RCOUNT advances, and one room notification goes to the writer (R334, R336). -/
def State.retirePops (s : State) (cell id n : Nat) : State :=
  if n == 0 then s
  else
    let r := s.rcopy cell id
    let r := { r with desc := { r.desc with rcount := r.desc.rcount + n } }
    let p := s.partAt cell
    let kept := s.chanBound p r.desc || (tget none (s.cell cell).rcopies id).isSome
    let s := if kept then (s.setRcopy cell id (some r)).syncR cell id else s.writeBackR cell id r
    s.post { vn := .system, src := .cell cell, dst := .cell (p.dev r.desc.writer), body := .room id n }

/-- The elements of a channel that the endpoints of a context have taken go back to the head of the ring. -/
def Ctx.untake (x : Ctx) (id : Nat) : Ctx :=
  { x with eps := tmap (fun q e => if tget none x.r.binds q == some ⟨id, true⟩ then { e with taken := [] } else e) x.eps }

/-- CHUNBIND of one endpoint of a context: elements taken and not popped stay at the head of the ring (R211). -/
def State.unbind (s : State) (w : Who) (q : Nat) : State :=
  let x := s.ctx w
  match tget none x.r.binds q with
  | none => s
  | some ⟨id, rd⟩ =>
    let x := if rd then x.untake id else x
    (s.setCtx w { x with r := { x.r with binds := tset x.r.binds q none } }).releaseEnd w.cell id rd

/-- Every endpoint of a context unbound. -/
def unbindAll (w : Who) : List Nat → State → State
  | [], s => s
  | q :: qs, s => unbindAll w qs (s.unbind w q)

/-- An end taken up by its engine as an endpoint is bound to it: the copy that it holds, or the table line (R330, R376). -/
def State.takeEnd (s : State) (cell id : Nat) (rdr : Bool) : State :=
  if rdr then s.setRcopy cell id (some (s.rcopy cell id)) else s.setWcopy cell id (some (s.wcopy cell id))

end Sys2Proof.Machine
end

