-- ==== Sys2Proof/Machine/Ops.lean ====
section
/-! DEFINITION. The shared operations on a context: registers and guards (R11, R51, R53), the mask of active lanes (R6, R137),
the send buffer and its release at a commit (R40, R196, R277), commit, rollback (R413), taking a trap (R414), the verdict that
returns from it (R421), the end of an activation (R39), and the outcomes of an instruction. -/

namespace Sys2Proof.Machine

/-- The state and the reasons of the outcomes of a step. -/
abbrev Out := Host.Outcome State Fault Refusal

/-! ### Registers -/

/-- A lane register; one that is not listed holds zeros. -/
def Ctx.v (x : Ctx) (r : Nat) : Lanes := tget [] x.r.v r
/-- The element of a lane. -/
def Ctx.vl (x : Ctx) (r L : Nat) : W32 := lane (x.v r) L
/-- The pair that an even register names, as one 64-bit element (R105). -/
def Ctx.vp (x : Ctx) (r L : Nat) : W64 := x.vl (r + 1) L ++ x.vl r L
/-- A scalar register; s0 reads zero (R53). -/
def Ctx.s (x : Ctx) (r : Nat) : W64 := if r = 0 then 0 else tget 0 x.r.s r
/-- A lane predicate; p7 reads true (R53). -/
def Ctx.p (x : Ctx) (r : Nat) : W32 := if r = 7 then 0xFFFFFFFF else tget 0 x.r.p r
/-- A scalar predicate; k7 reads true (R53). -/
def Ctx.k (x : Ctx) (r : Nat) : Bool := if r = 7 then true else tget false x.r.k r

/-- A lane register written in the lanes of a mask; the others keep their element (R106). -/
def Ctx.setV (x : Ctx) (r : Nat) (act : W32) (f : Nat → W32) : Ctx :=
  { x with r := { x.r with v := tset x.r.v r (mkLanes fun L => if act.getLsbD L then f L else x.vl r L) } }
/-- A pair written in the lanes of a mask. -/
def Ctx.setVp (x : Ctx) (r : Nat) (act : W32) (f : Nat → W64) : Ctx :=
  (x.setV r act fun L => (f L).extractLsb' 0 32).setV (r + 1) act fun L => (f L).extractLsb' 32 32
/-- A scalar register written; a write of s0 is discarded (R53). -/
def Ctx.setS (x : Ctx) (r : Nat) (y : W64) : Ctx :=
  if r = 0 then x else { x with r := { x.r with s := tset x.r.s r y } }
/-- A lane predicate written in the lanes of a mask; a write of p7 is discarded (R53). -/
def Ctx.setP (x : Ctx) (r : Nat) (act y : W32) : Ctx :=
  if r = 7 then x else { x with r := { x.r with p := tset x.r.p r ((x.p r &&& ~~~act) ||| (y &&& act)) } }
/-- A scalar predicate written; a write of k7 is discarded (R53). -/
def Ctx.setK (x : Ctx) (r : Nat) (y : Bool) : Ctx :=
  if r = 7 then x else { x with r := { x.r with k := tset x.r.k r y } }

/-- The header of a lane. -/
def Ctx.hdr (x : Ctx) (L : Nat) : LaneHdr := tget {} x.hdrs L
/-- The step of a lane. -/
def Ctx.step (x : Ctx) (L : Nat) : W32 := tget 0 x.r.steps L
/-- The live lanes, ascending. -/
def Ctx.lives (x : Ctx) : List Nat := lanesOf x.r.live
/-- The lowest live lane, lane 0 when there is none. -/
def Ctx.low (x : Ctx) : Nat := x.lives.headD 0

/-! ### Guards, Active and the program counter -/

/-- The mask of the lanes where a lane-class guard holds (R51). -/
def Ctx.guardMask (x : Ctx) (h : Head) : W32 := if h.neg then ~~~(x.p h.idx.toNat) else x.p h.idx.toNat
/-- Active: the current mask, the guard, and the live lanes (R6, R137). -/
def Ctx.active (x : Ctx) (h : Head) : W32 := x.r.cm &&& x.guardMask h &&& x.r.live
/-- Whether a scalar-class guard holds (R51). -/
def Ctx.guard (x : Ctx) (h : Head) : Bool := x.k h.idx.toNat != h.neg

/-- The words of an instruction with a literal or without (R48). -/
def lenOf (h : Head) (lit : Bool) : Nat := (if h.ext then 3 else 1) + (if lit then 2 else 0)
/-- Whether a source B is a literal. -/
def litB : SrcB → Bool
  | .lit _ => true
  | .reg _ => false

/-- The context past an instruction of n words, no longer waiting (R49). -/
def Ctx.past (x : Ctx) (n : Nat) : Ctx :=
  { x with r := { x.r with pc := x.r.pc + BitVec.ofNat 14 n, pastEnd := decide (0x4000 ≤ x.r.pc.toNat + n) }
           lastPc := x.r.pc, ran := x.ran + 1, wait := none }
/-- The context at a branch target, no longer waiting (R136). -/
def Ctx.at_ (x : Ctx) (pc : PC) : Ctx := { x with r := { x.r with pc, pastEnd := false }, lastPc := x.r.pc, ran := x.ran + 1, wait := none }

/-- Lanes ended: out of the live set, the current mask and every saved mask (R137). -/
def Ctx.endLanes (x : Ctx) (m : W32) : Ctx :=
  { x with r := { x.r with live := x.r.live &&& ~~~m, cm := x.r.cm &&& ~~~m
                           masks := x.r.masks.map fun y => y &&& ~~~m } }

/-! ### The trace unit (R440, R441) -/

/-- The physical address of a virtual one under a cell's CASID for a write, by the TLB or by a walk; `inr` is the address where a
walk leaves the partition's slabs (R398). -/
def State.tracePa (s : State) (cell va : Nat) : Option (Nat ⊕ Nat) :=
  match translateVa s cell .write va with
  | .ok (.home _) pa => some (.inl pa)
  | .miss =>
    match (s.walk (s.partNo cell) (s.cell cell).casid va .write []).1 with
    | .leaf e l => if e.getLsbD 2 && !e.getLsbD 7 then some (.inl (entryAddr e + va % levelBytes l)) else none
    | .outside pa => some (.inr pa)
    | .notPresent => none
  | _ => none

/-- The log record of an access of a cell's trace unit or engine that a walk or a home turns away (R391). -/
def State.logAway (s : State) (cell kind at_ : Nat) (va pa : Nat) : State :=
  s.logViolation { tbc := BitVec.ofNat 64 s.tbc, addr := BitVec.ofNat 64 va, kind, at_, part := s.partNo cell, phys := s.phys cell
                   target := BitVec.ofNat 32 (pa / 2 ^ 32) }

/-- Where a doubleword of the trace unit of a cell goes, if it may be written there (R390, R440). -/
def State.traceOk (s : State) (cell va : Nat) : Option Nat :=
  match s.tracePa cell va with
  | some (.inl pa) => if s.slabPart (pa / 2 ^ 32) == some (s.partNo cell) then some pa else none
  | _ => none

/-- What becomes of a doubleword that may not be written: a violation is logged, and the one at a home is recorded (R390, R391; log entry 19). -/
def State.traceLost (s : State) (cell va : Nat) : State :=
  let pn := s.partNo cell
  match s.tracePa cell va with
  | some (.inl pa) => (s.logAway cell 4 1 va pa).report pn (.home (pa / 2 ^ 32)) (s.recAt pn (some cell) causePartitionViolation 3)
  | some (.inr pa) => s.logAway cell 4 3 va pa
  | none => s

/-- Doublewords written by the trace unit of a cell, each translated and checked as an engine write: all of them, or none where one may not be
written, so that no record is torn (R390, R440). -/
def State.traceAll (s : State) (cell : Nat) (l : List (Nat × W64)) : State :=
  match l.find? fun y => (s.traceOk cell y.1).isNone with
  | some y => s.traceLost cell y.1
  | none => l.foldl (fun s y => match s.traceOk cell y.1 with
    | some pa => (s.hbmWrite pa 8 y.2.toNat).noteRel (hbmKey pa) 8 none
    | none => s) s

/-- A trace record of a type, written into the ring after the 64 bytes of WRPTR, over the oldest records. WRPTR is written after the record that
completes 64 bytes, and so never points into one (R440): every record before it is performed by then, so that this write is the release at DEVICE
scope that the rule asks for. -/
def State.trace (s : State) (w : Who) (type : Nat) (pc : PC) (rest : List W64) : State :=
  let c := s.cell w.cell
  let t := c.trace
  if t.bytes == 0 || !t.mask.getLsbD (type - 1) then s
  else
    let d0 := BitVec.ofNat 4 type ++ BitVec.ofNat 3 w.ctx ++ BitVec.ofBool (!rest.isEmpty) ++ pc ++ BitVec.ofNat 42 (c.cyc + c.cycOff)
    let t' : Trace := { t with wr := t.wr + 8 * (d0 :: rest).length }
    let s := s.traceAll w.cell ((number 0 (d0 :: rest)).map fun y => (t.va.toNat + 64 + (t.wr + 8 * y.1) % (t.bytes - 64), y.2))
    let s := if t'.wr / 64 != t.wr / 64 then s.traceAll w.cell [(t'.va.toNat, BitVec.ofNat 64 t'.wr)] else s
    s.setCell w.cell { s.cell w.cell with trace := t' }

/-! ### The send buffer -/

/-- The bytes of held sends. -/
def Ctx.heldBytes (x : Ctx) : Nat := (x.held.map (·.bytes)).sum
/-- The bytes that released sends still hold: those not yet gone, and those gone and not yet performed or taken, among them 16 for each increment
that its home has not acknowledged (R41, R182, R375, R425). -/
def Ctx.relBytes (x : Ctx) : Nat :=
  (x.released.map (·.bytes)).sum + (x.out.map (·.bytes)).sum + (x.sent.map (·.2)).sum + 16 * x.incsAwaited
/-- The journal records held (R170). -/
def JRec.count : JRec → Nat
  | .word _ _ => 1
  | .desc _ _ => 1
  | .bar _ _ => 2
  | .arrival _ _ => 2
  | .tag _ _ _ _ => 2
  | .tags _ _ _ => 17
/-- The journal records of the segment. -/
def Ctx.journalLen (x : Ctx) : Nat := (x.journal.map JRec.count).sum

/-- Whether sends and journal records of an instruction fit (R41). -/
def Ctx.fits (x : Ctx) (bytes recs : Nat) : Bool :=
  x.heldBytes + x.relBytes + bytes ≤ 4096 && x.journalLen + recs ≤ 1024

/-- Whether an acquire of the context is not yet performed: an entry of its LDQ or ATOMX is not ready (R179, R278). -/
def Ctx.acquiring (x : Ctx) : Bool :=
  x.qs.any fun q => q.2.entries.any fun e => e.awaited != 0 && x.acquires.contains e.id

/-- The name of the send that an instruction of an activation holds at a place of its list, if it writes at a home: no other has it, nor has an
ATOMX (R279). -/
def Ctx.nameOf (x : Ctx) (k : Nat) (sd : Send) : Option Nat :=
  match sd.body with
  | .store _ _ => some (2 * pairNum x.act (pairNum x.ran k) + 1)
  | .elem _ _ => some (2 * pairNum x.act (pairNum x.ran k) + 1)
  | _ => none

/-- Sends held. -/
def Ctx.hold (x : Ctx) (l : List Send) : Ctx :=
  let jobs := ((x.lives.filter fun L => (x.hdr L).counted).map fun L => (x.hdr L).job).eraseDups
  { x with held := x.held ++ (number 0 l).map fun y =>
      { y.2 with deps := x.deps, act := x.act, late := x.acquiring, jobs, name := x.nameOf y.1 y.2 } }

/-- Whether a commit must wait: it would release a send held after an acquire that is not yet performed (R278). -/
def Ctx.commitWaits (x : Ctx) : Bool := x.acquiring && x.held.any (·.late)

/-- Whether nothing that has left is still to be performed at a home within a scope; `reads` counts the reads and the counts too. -/
def Ctx.quiet (x : Ctx) (cell : Nat) (sc : Scope) (reads : Bool) : Bool :=
  x.out.all fun o => !((o.write || reads) && inScope cell sc o.home)

/-- Whether every send that has left is performed at its home within a scope (R196). -/
def Ctx.sendsDone (x : Ctx) (cell : Nat) (sc : Scope) : Bool :=
  x.incsAwaited == 0 && x.out.all fun o => !(o.bytes != 0 && inScope cell sc o.home)

/-- Whether a release at a scope may be performed now: every earlier access of the context, and every write that happens
before it, is performed at its home within the scope (R277). -/
def State.relReady (s : State) (w : Who) (sc : Scope) (deps : List Nat) : Bool :=
  (s.ctx w).quiet w.cell sc true && deps.all fun n => !s.flying w.cell sc n

/-- What a release that leaves the send buffer carries on: the writes behind it that are still on their way, all of which have left it too
(R279). -/
def State.relDepsOut (s : State) (w : Who) (deps : List Nat) : List Nat :=
  s.stillFlying w.cell (deps ++ ((s.ctx w).out.filter (·.write)).map Pending.known)

/-- What a release that acts at issue carries on: also what its context has committed and what it holds (R277, R279). -/
def State.relDepsOf (s : State) (w : Who) (deps : List Nat) : List Nat :=
  s.stillFlying w.cell (deps ++ (s.writesOf w.cell (s.ctx w)).map (·.1))

/-- The home of a job's count line (R310). -/
def Part.jobHome (p : Part) (job : W32) : Endp := .home (p.jobLine (job.toNat % 4096) / 2 ^ 32)

/-- Whether the router of a place takes a parcel now: the inbox or the pool lane has room (R341, R343). -/
def State.roomFor (s : State) (pn : Nat) (place : W64) (p : Parcel) : Bool :=
  let q := s.part pn
  if plPool place then
    let l := s.laneAt q (plDie place) (plLane place)
    l.gateway.isSome || l.ring.length + l.tail.length < l.quota
  else !p.onStrandNet || (s.cell (q.dev (plCell place))).canAccept p

/-- The endpoint of a place (R27, R317). -/
def Part.endpOf (p : Part) (place : W64) : Endp :=
  if plPool place then .poolRoot (p.dies.getD (plDie place) 0) else .cell (p.dev (plCell place))

/-- The next number of the model's own counter. -/
def State.fresh (s : State) : Nat × State := (s.nextId, { s with nextId := s.nextId + 1 })

/-- The domain of a cell is its partition (R353). -/
def State.govOf (s : State) (cell : Nat) : Endp := .governor (s.partNo cell)

/-- Whether an endpoint lies outside a partition's domain: outside its clusters, or, for a unit that no cluster holds, anything but its
own governor and loader (R353, R368). -/
def Part.outside (p : Part) (pn : Nat) (e : Endp) : Bool :=
  match Endp.cluster? e with
  | some k => !p.clusters.contains k
  | none => e != .governor pn && e != .loader pn

/-- Whether a change of point holds back requests from a cell to an endpoint outside its domain (R368). -/
def State.barred (s : State) (cell : Nat) (dst : Endp) : Bool :=
  let p := s.partAt cell
  p.gov.quiesce.isSome && p.outside (s.partNo cell) dst

/-- The groups of a list of jobs, with their sizes. -/
def countJobs : List W32 → List (W32 × Nat)
  | [] => []
  | j :: js =>
    let rest := countJobs js
    match rest.find? fun x => x.1 == j with
    | some _ => rest.map fun x => if x.1 == j then (x.1, x.2 + 1) else x
    | none => (j, 1) :: rest

/-- One subtraction sent to the home of its job's count line (R311), or kept by the cell while a change of point holds it back (R368). -/
def State.subtractOne (s : State) (cell : Nat) (j : W32 × Nat) : State :=
  let p := s.partAt cell
  if s.barred cell (p.jobHome j.1) then s.setCell cell { s.cell cell with owedSubs := (s.cell cell).owedSubs ++ [j] }
  else s.post { vn := .request, src := .cell cell, dst := p.jobHome j.1
                body := .countSub j.1 j.2 (p.jobLine (j.1.toNat % 4096)) Option.none 0 }

/-- Strands subtracted from their jobs' counts (R311). -/
def State.subtract (s : State) (cell : Nat) (jobs : List W32) : State := (countJobs jobs).foldl (fun s j => s.subtractOne cell j) s

/-- The subtractions that a cell has kept sent, as far as they can be (R368). -/
def State.paySubs (s : State) (cell : Nat) : State :=
  let l := (s.cell cell).owedSubs
  if l.isEmpty then s else l.foldl (fun s j => s.subtractOne cell j) (s.setCell cell { s.cell cell with owedSubs := [] })

/-- The inbox of a cell takes an arrival (R32, R36): a strand of a job that is being dropped is removed and subtracted (R422),
and a message whose class has no handler is discarded with a record (R206). -/
def State.inboxTakes (s : State) (cell : Nat) (p : Parcel) : State :=
  let c := s.cell cell
  match p with
  | .strand m =>
    if c.dropping.contains m.job then (s.setCell cell (c.takeId p).1).subtract cell [m.job] else s.accept cell p
  | .msg m =>
    if c.hasHandler m.cls.toNat then s.accept cell p
    else
      let r := { s.recAt (s.partNo cell) (some cell) causeHandlerUnbound 1 with step := m.step, job := m.job, wid := m.wid }
      (s.setCell cell (c.takeId p).1).reportLimited (s.partNo cell) (.cell cell) r
  | .record _ _ => s.accept cell p

/-- Whether refused items for a target wait to be sent again, ahead of any later send to it (R182). -/
def State.owes (s : State) (cell : Nat) (t : Endp) : Bool := s.refused.any fun m => m.1.src == .cell cell && m.1.dst == t

/-- A parcel sent to a place: a strand into the own inbox without the network (R29), else on its network (R23). -/
def State.sendParcel (s : State) (cell : Nat) (place : W64) (p : Parcel) : State :=
  let q := s.partAt cell
  let dst := q.endpOf place
  if dst == .cell cell && p.job?.isSome then s.inboxTakes cell p
  else s.post { vn := p.vnet, src := .cell cell, dst, body := .parcel p }

/-- The master of a barrier or a cluster or row join (R213, R217). -/
def spanMaster (cell span : Nat) : Nat := if span = 1 then cell / 4 * 4 else if span = 2 then cell / 16 * 16 else cell

/-- The other members of a span. -/
def spanMembers (cell span : Nat) : List Nat :=
  if span = 1 then rowCells (rowOf cell) else if span = 2 then clusterCells (cell / 16) else [cell]

/-- Where a send goes. -/
def State.destOf (s : State) (w : Who) (sd : Send) : Endp :=
  let p := s.partAt w.cell
  match sd.body with
  | .strand m _ => p.endpOf (m.dest.setWidth 64)
  | .msg m => p.endpOf (m.dest.setWidth 64)
  | .store home _ => home
  | .elem id _ => .cell (p.dev (s.wcopy w.cell id).desc.reader)
  | .close id => .cell (p.dev (s.wcopy w.cell id).desc.reader)
  | .decr job _ => p.jobHome job
  | .incr job _ => p.jobHome job
  | .arrive _ cfg => .cell (spanMaster w.cell (cfg.extractLsb' 32 2).toNat)
  | .stepReg _ _ _ _ _ => s.govOf w.cell
  | .stepEnd _ => s.govOf w.cell
  | .marker _ => .cell w.cell

/-- Whether no other activation of the cell has released a send of a channel before, which has yet to leave: elements leave in the order
in which the commits released them (R290). -/
def State.chanTurn (s : State) (w : Who) (id order : Nat) : Bool :=
  let c := s.cell w.cell
  !(((c.ctxs.filter fun x => x.1 != w.ctx).map (·.2) ++ c.displaced.toList).any fun x =>
    x.released.any fun sd => sd.ofChan id && sd.order < order)

/-- Whether a release, if it is one, may be performed now (R277). -/
def State.relDue (s : State) (w : Who) (sd : Send) : Bool :=
  match sd.rel with
  | some sc => s.relReady w sc sd.deps
  | none => true

/-- A send that its home acknowledges noted as on its way, under a number of its own. -/
def State.noteOut (s : State) (w : Who) (sd : Send) (home : Endp) (write : Bool) : Nat × State :=
  let (id, s) := s.fresh
  (id, s.setCtx w { s.ctx w with
    out := (s.ctx w).out ++ [{ id, home, bytes := sd.bytes, write, act := sd.act, jobs := sd.jobs, name := sd.name }] })

/-- Whether local stores of a context that were queued before a send was released still wait at their banks (R273). -/
def Cell.storesWait (c : Cell) (k order : Nat) : Bool :=
  c.bankQ.any fun b => b.ctx == k && b.stamp < order

/-- A message sent by a context that a switched-out cell may refuse: it keeps its bytes of the send buffer until it is taken (R425). -/
def State.postSent (s : State) (w : Who) (bytes : Nat) (m : Msg) : State :=
  let x := s.ctx w
  (s.setCtx w { x with sent := x.sent ++ [(m, bytes)] }).post m

/-- The messages of a context that are still on their way or refused. -/
def Ctx.keepSent (x : Ctx) (s : State) : Ctx :=
  { x with sent := x.sent.filter fun y => s.net.contains y.1 || s.refused.any fun r => r.1 == y.1 }

/-- Whether a send is a strand to the own cell (R29). -/
def State.ownStrand (s : State) (w : Who) (sd : Send) : Bool :=
  match sd.body with
  | .strand _ _ => s.destOf w sd == .cell w.cell
  | _ => false

/-- One released send leaves the cell, if it can leave now: no refused item for its destination waits, no change of point holds it back,
the local stores before it are performed, and what its kind waits for has come (R40, R182, R196, R273, R277, R290, R341, R368, R375). A strand to
the own cell waits for no local store, since it arrives in the cycle of its commit; but it does not come between the arrivals of one network
cycle (R29, R36). -/
def State.leave (s : State) (w : Who) (sd : Send) : Option State :=
  let x := s.ctx w
  let pn := s.partNo w.cell
  let p := s.part pn
  let dst := s.destOf w sd
  if s.owes w.cell dst || s.barred w.cell dst || (!s.ownStrand w sd && (s.cell w.cell).storesWait w.ctx sd.order) then none
  else match sd.body with
  | .marker sc => if x.sendsDone w.cell sc then some s else none
  | .strand m _ =>
    let place := m.dest.setWidth 64
    if x.incsAwaited != 0 || !s.roomFor pn place (.strand m) || (s.ownStrand w sd && !(s.gate w.cell).isEmpty) then none
    else some (s.sendParcel w.cell place (.strand m))
  | .msg m =>
    let place := m.dest.setWidth 64
    if !s.roomFor pn place (.msg m) then none
    else if (Parcel.msg m).onStrandNet || plPool place then some (s.sendParcel w.cell place (.msg m))
    else some (s.postSent w sd.bytes { vn := (Parcel.msg m).vnet, src := .cell w.cell, dst, body := .parcel (.msg m) })
  | .store home a =>
    if !s.relDue w sd then none
    else
      let deps := if a.rel.isSome then s.relDepsOut w sd.deps else []
      let (id, s) := s.noteOut w sd home true
      some (s.post { vn := .request, src := .cell w.cell, dst := home, body := .access { a with id, deps } })
  | .elem id v =>
    if !s.chanTurn w id sd.order || !s.relReady w (s.wcopy w.cell id).desc.scopeOf sd.deps then none
    else
      let deps := s.relDepsOut w sd.deps
      let (n, s) := s.noteOut w sd dst true
      some (s.post { vn := .request, src := .cell w.cell, dst, body := .elem id v (some w) n deps })
  | .close id =>
    if !s.chanTurn w id sd.order then none
    else
      let (n, s) := s.noteOut w sd dst false
      some (s.post { vn := .request, src := .cell w.cell, dst
                     body := .closeMark id (BitVec.ofNat 64 (s.wcopy w.cell id).desc.closeAt) (some w) n })
  | .decr job n =>
    if !s.relReady w .device sd.deps then none
    else
      let (id, s) := s.noteOut w sd dst false
      some (s.post { vn := .request, src := .cell w.cell, dst, body := .countSub job n (p.jobLine (job.toNat % 4096)) (some w) id })
  | .incr job n =>
    some ((s.setCtx w { x with incsAwaited := x.incsAwaited + 1 }).post
      { vn := .request, src := .cell w.cell, dst, body := .countAdd job n (some w) false none (p.jobLine (job.toNat % 4096)) })
  | .arrive bar cfg =>
    if !s.relDue w sd then none
    else
      let deps := if sd.rel.isSome then s.relDepsOut w sd.deps else []
      some (s.postSent w sd.bytes { vn := .system, src := .cell w.cell, dst, body := .barArrive bar cfg w sd.act deps })
  | .stepReg id d wk h j => some (s.post { vn := .system, src := .cell w.cell, dst, body := .stepReg id d wk h j })
  | .stepEnd id => some (s.post { vn := .system, src := .cell w.cell, dst, body := .stepEnd id })

/-- The strands to the own cell behind a send that cannot leave: they enter the inbox in the cycle of their commit, without the network (R29), but
not ahead of one another, of the marker of a FENCE (R196), or of an increment (R375). -/
def leaveOwn (w : Who) : List Send → State → List Send × State
  | [], s => ([], s)
  | sd :: rest, s =>
    let pass := fun (s : State) => let (l, s) := leaveOwn w rest s; (sd :: l, s)
    match sd.body with
    | .marker _ => (sd :: rest, s)
    | .incr _ _ => (sd :: rest, s)
    | _ =>
      if !s.ownStrand w sd then pass s
      else match s.leave w sd with
      | some s' => leaveOwn w rest s'
      | none => (sd :: rest, s)

/-- Released sends leave in program order, up to the first that cannot (R40), but for the strands to the own cell (R29). -/
def leaveAll (w : Who) : List Send → State → List Send × State
  | [], s => ([], s)
  | sd :: rest, s =>
    match s.leave w sd with
    | some s' => leaveAll w rest s'
    | none => match sd.body with
      | .marker _ => (sd :: rest, s)
      | .incr _ _ => (sd :: rest, s)
      | _ => if s.ownStrand w sd then (sd :: rest, s) else let (l, s) := leaveOwn w rest s; (sd :: l, s)

/-- The released sends of a context pumped into the network. -/
def State.pump (s : State) (w : Who) : State :=
  let l := (s.ctx w).released
  if l.isEmpty then s
  else
    let (rest, s) := leaveAll w l s
    let s := s.setCtx w { s.ctx w with released := rest }
    let ids := ((l.take (l.length - rest.length)).filterMap fun sd => match sd.body with
      | .elem id _ => some id
      | .close id => some id
      | _ => none).eraseDups
    ids.foldl (fun s id => s.tidyW w.cell id) s

/-- Whether the context's next release cannot enter the network for want of room there (R341). -/
def State.backPressed (s : State) (w : Who) : Option W64 :=
  match (s.ctx w).released with
  | { body := .strand m _, .. } :: _ =>
    if s.roomFor (s.partNo w.cell) (m.dest.setWidth 64) (.strand m) then none else some (m.dest.setWidth 64)
  | { body := .msg m, .. } :: _ =>
    if s.roomFor (s.partNo w.cell) (m.dest.setWidth 64) (.msg m) then none else some (m.dest.setWidth 64)
  | _ => none

/-- Whether a change of point holds back the context's next release (R368). -/
def State.heldBack? (s : State) (w : Who) : Bool := (s.ctx w).released.head?.any fun sd => s.barred w.cell (s.destOf w sd)

/-! ### Commit -/

/-- Pops of the channels of a list retired, with one room notification for each channel (R334). -/
def retireChans (w : Who) : List Nat → State → State
  | [], s => s
  | id :: ids, s => retireChans w ids (s.retirePops w.cell id ((s.ctx w).poppedOf id))

/-- The channels of which the activation has popped elements in its segment. -/
def Ctx.popChans (x : Ctx) : List Nat := (x.eps.flatMap fun e => e.2.shadow.map (·.1)).eraseDups

/-- The writer ends of released elements and close marks: WCOUNT counts the elements, and a close mark sets STATE and CLOSEAT (R330,
R335). -/
def noteReleases (cell : Nat) : List Send → State → State
  | [], s => s
  | sd :: rest, s =>
    let s := match sd.body with
      | .elem id _ =>
        let w := s.wcopy cell id
        s.setWcopy cell id (some { w with desc := { w.desc with wcount := w.desc.wcount + 1 } })
      | .close id =>
        let w := s.wcopy cell id
        s.setWcopy cell id (some { w with desc := { w.desc with state := 2, closeAt := w.desc.wcount } })
      | _ => s
    noteReleases cell rest s

/-- The bin of a first-segment activation let go at its first commit (R36). -/
def Cell.firstDone (c : Cell) (e : PC) : Cell :=
  match c.bin? e with
  | some b => (c.setBin { b with firstSegs := b.firstSegs - 1 }).binFree e
  | none => c

/-- The live lanes of a context that are counted strands of a dropped job (R422). -/
def Ctx.dropMask (x : Ctx) (jobs : List W32) : W32 :=
  maskOf fun L => x.r.live.getLsbD L && (x.hdr L).counted && jobs.contains (x.hdr L).job

/-- The lanes of dropped jobs end at a segment boundary; each is subtracted from its job (R422). -/
def Ctx.dropLanes (x : Ctx) (jobs : List W32) : Ctx :=
  let m := x.dropMask jobs
  if m == 0 then x
  else
    let l := countJobs ((lanesOf m).map fun L => (x.hdr L).job)
    (x.endLanes m).hold (l.map fun j => { bytes := 16, body := .decr j.1 j.2 })

/-- A commit (R40): pops retire, held sends are released in program order, the journal empties, the snapshot is taken. The
first one of an activation consumes its triggering messages (R36, R45). `why` is the field of the CKPT trace record. -/
def State.commit (s : State) (w : Who) (why : Nat) : State :=
  let s := retireChans w (s.ctx w).popChans s
  let x := (s.ctx w).dropLanes (s.cell w.cell).dropping
  let s := if x.held.isEmpty then s else noteReleases w.cell x.held s.fresh.2
  let order := s.nextId
  let units := x.heldBytes / 16
  let x' : Ctx := { x with
    qs := tmap (fun _ q => { q with shadow := [], entries := q.entries.map fun e => { e with thisSegment := false } }) x.qs
    eps := tmap (fun _ e => { e with shadow := [] }) x.eps
    held := [], released := x.released ++ x.held.map fun sd => { sd with order }, journal := [], first := false, trigger := []
    snap := x.r, snapBudget := x.budget, begun := s.turn }
  let s := s.setCtx w x'
  let s := if x.first then s.setCell w.cell ((s.cell w.cell).firstDone (plEntry x.entry)) else s
  let s := s.trace w 4 x.r.pc [BitVec.ofNat 64 (why * 2 ^ 62 + units % 2 ^ 16 * 2 ^ 32)]
  s.pump w

/-! ### Rollback (R413) -/

/-- One journal record undone. Whether a master whose BARC is rolled back sends its members the old PHASE again the reference does not say (R213).
DESIGN CHOICE, log entry 69: it sends nothing. -/
def State.undo (s : State) (cell : Nat) : JRec → State
  | .word off old => { s with mem := writeLE s.mem (cellKey cell off) 8 old.toNat }
  | .desc n old => let c := s.cell cell; s.setCell cell { c with td := tset c.td n old }
  | .bar b old => let c := s.cell cell; s.setCell cell { c with bars := tset c.bars b old }
  | .arrival b phase =>
    let c := s.cell cell
    let x := tget {} c.bars b
    if x.phase == phase && x.arrivals != 0 then
      s.setCell cell { c with bars := tset c.bars b { x with
        arrivals := x.arrivals - 1, counted := if x.arrivals == 1 then [] else x.counted } }
    else s
  | .tag i t v other =>
    let c := s.cell cell
    let valid := tset c.tags.valid i v
    let valid := match other with
      | some j => tset valid j true
      | none => valid
    s.setCell cell { c with tags := { c.tags with tags := tset c.tags.tags i t, valid } }
  | .tags valid base lg => let c := s.cell cell; s.setCell cell { c with tags := { c.tags with valid, base, lg } }

/-- Journal records undone, the latest first. -/
def undoAll (cell : Nat) : List JRec → State → State
  | [], s => s
  | j :: js, s => (undoAll cell js s).undo cell j

/-- The credits of discarded CHW elements returned to their writer ends (R209). -/
def returnCredits (cell : Nat) : List Send → State → State
  | [], s => s
  | { body := .elem id _, .. } :: rest, s =>
    let wc := s.wcopy cell id
    returnCredits cell rest (s.setWcopy cell id (some { wc with credits := wc.credits + 1 }))
  | _ :: rest, s => returnCredits cell rest s

/-- The endpoints q8 to q15. -/
def endpoints : List Nat := [8, 9, 10, 11, 12, 13, 14, 15]

/-- An activation without its bindings to an end. -/
def Ctx.unhold (x : Ctx) (id : Nat) (rdr : Bool) : Ctx :=
  let x := if rdr then x.untake id else x
  { x with r := { x.r with binds := tmap (fun _ b => if b == some ⟨id, rdr⟩ then none else b) x.r.binds } }

/-- An end taken back from whatever other activation of the cell has bound it since. The reference does not say who keeps an end that one
activation let go in its segment and another has bound: the model restores the snapshot (R200) and lets one activation hold the end
(R208). DESIGN CHOICE, log entry 21. -/
def State.oust (s : State) (w : Who) (e : Bind) : State :=
  let c := s.cell w.cell
  if !c.heldByOther w.ctx e.chan e.reader then s
  else s.setCell w.cell { c with
    ctxs := tmap (fun k (x : Ctx) => if k == w.ctx then x else x.unhold e.chan e.reader) c.ctxs
    displaced := c.displaced.map fun x => x.unhold e.chan e.reader }

/-- The bindings of the snapshot restored: the old ends are taken again, and those bound since are let go (R200). -/
def State.rebind (s : State) (w : Who) : State :=
  let x := s.ctx w
  if x.r.binds == x.snap.binds then s
  else
    let ends := fun (l : Tbl (Option Bind)) => l.filterMap (·.2)
    let s := s.setCtx w { x with r := { x.r with binds := x.snap.binds } }
    let s := (ends x.snap.binds).foldl (fun s e => (s.oust w e).takeEnd w.cell e.chan e.reader) s
    (ends x.r.binds).foldl (fun s e => s.releaseEnd w.cell e.chan e.reader) s

/-- The joins of an activation on one wire withdrawn: their places stay its own, or go to the next join when it ends (R215). -/
def withdrawJoins (act : Nat) (ends : Bool) (l : List Join) : List Join :=
  l.map fun j => if j.owned && j.act == act then { j with present := false, owned := !ends } else j
/-- The same on both wires of a cell. -/
def Cell.withdraw (c : Cell) (act : Nat) (ends : Bool) : Cell :=
  { c with rowJoins := withdrawJoins act ends c.rowJoins, clusterJoins := withdrawJoins act ends c.clusterJoins }

/-- A matched ONCE whose master rolls back: its members wait for a match again. -/
def State.unmatch (s : State) (w : Who) : State :=
  match (s.ctx w).once with
  | none => s
  | some o =>
    (o.members.filter fun m => m.1 != w).foldl (fun s m =>
      if (s.ctx m.1).wait == some (.joined o.wire) then s.setCtx m.1 { s.ctx m.1 with wait := some (.join o.wire) } else s)
      (s.setCtx w { s.ctx w with once := none })

/-- A rollback of one context to the start of its segment. Every store queued at the banks is performed first, so that the journal has the
last word (R171). -/
def State.rollbackOne (s : State) (w : Who) : State :=
  let s := s.unmatch w
  let s := s.settle w.cell
  let s := undoAll w.cell (s.ctx w).journal s
  let s := returnCredits w.cell (s.ctx w).held s
  let s := s.rebind w
  let x := s.ctx w
  let x' : Ctx := { x with
    r := x.snap, budget := x.snapBudget, spared := x.spared && x.snapBudget == 0, held := [], journal := [], wait := none, fork := none
    qs := tmap (fun _ q => { entries := (q.shadow ++ q.entries).filter fun e => !e.thisSegment, shadow := [] }) x.qs
    eps := tmap (fun _ _ => {}) x.eps }
  (s.setCtx w x').setCell w.cell (((s.setCtx w x').cell w.cell).withdraw x.act false)

/-- The master of the matched ONCE in which a member's context waits (R217). -/
def State.onceMaster (s : State) (w : Who) : Option Who :=
  match (s.ctx w).wait with
  | some (.joined wire) =>
    let m := match wire with
      | .row r => 4 * r
      | .cluster k => 16 * k
    (ctxNums.map fun k => (⟨m, k⟩ : Who)).find? fun v => (s.ctx v).once.any fun o =>
      o.wire == wire && o.members.any fun y => y.1 == w && y.2.1 == (s.ctx w).act
  | _ => none

/-- A rollback of a context to the start of its segment (R43, R413). When it is a member of a matched ONCE that still runs, the match is given
up: the master rolls back to its ONCE word too, and the other members wait for a match again (DEDUCED, log entry 28). -/
def State.rollback (s : State) (w : Who) : State :=
  match s.onceMaster w with
  | some m => (s.rollbackOne m).rollbackOne w
  | none => s.rollbackOne w

/-- What a rollback without a trap leaves of a first segment: its messages stay consumed (R320, R434). -/
def State.consumeFirst (s : State) (w : Who) : State :=
  let x := s.ctx w
  if !x.first then s
  else
    let s := s.setCtx w { x with first := false, trigger := [] }
    s.setCell w.cell ((s.cell w.cell).firstDone (plEntry x.entry))

/-! ### Ending an activation, trapping -/

/-- A context freed. Sends released earlier stay, with what is still to be performed (R41). -/
def Ctx.freed (x : Ctx) : Ctx :=
  { released := x.released, out := x.out, sent := x.sent, incsAwaited := x.incsAwaited, lastTbc := x.lastTbc }

/-- A context whose activation has ended: free, or blocked while the commit cannot release its next send into the network (R39, R44, R341). -/
def Ctx.ended (x : Ctx) (stuck : Bool) : Ctx :=
  if stuck then { x.freed with status := .running, budget := 1, first := false, wait := some .leaving } else x.freed

/-- The record fields of a context: the lowest live lane's trigger, WID, STEP and JOB (R417). -/
def State.ctxRec (s : State) (w : Who) (r : Frec) : Frec :=
  let x := s.ctx w
  let h := x.hdr x.low
  { r with ctx := BitVec.ofNat 3 w.ctx, msgid := h.msgId, wid := h.wid, step := x.step x.low, job := h.job }

/-- A record of a latched error whose activation has ended (R183). A violation has its record from the home already (R391), and the causes
of kind R keep their limit (R416). -/
def State.reportLatched (s : State) (cell : Nat) (r : Frec) : State :=
  let pn := s.partNo cell
  if r.cause == causePartitionViolation then s
  else if r.cause == causeBarrierConfig then s.report pn (.cell cell) r
  else s.reportLimited pn (.cell cell) r

/-- The activation of a context ends (R39): a latched error is reported (R183), endpoints unbind, the context is free. -/
def State.endActivation (s : State) (w : Who) : State :=
  let s := unbindAll w endpoints s
  let x := s.ctx w
  let s := match x.latched with
    | some (cause, addr) =>
      let r := s.recAt (s.partNo w.cell) (some w.cell) cause 0
      s.reportLatched w.cell { s.ctxRec w r with addr, count := count32 x.latchCount }
    | none => s
  let s := s.trace w 6 x.lastPc []
  let s := s.setCtx w (x.ended (s.backPressed w).isSome)
  s.setCell w.cell ((s.cell w.cell).withdraw x.act true)

/-- A context whose lanes have all ended commits and ends its activation (R39), once the commit need not wait for an acquire (R278). -/
def State.endIfDone (s : State) (w : Who) : State :=
  let x := s.ctx w
  if x.r.live != 0 then s
  else if x.commitWaits then s.setCtx w { x with wait := some .acquire }
  else (s.commit w 1).endActivation w

/-- The violation record of a trap found at the requester (R391). -/
def State.logTrap (s : State) (w : Who) (t : Trap) : State :=
  if t.cause == causePartitionViolation && !t.logged then
    s.logViolation { tbc := BitVec.ofNat 64 s.tbc, addr := t.addr.getD 0, kind := t.kind, at_ := 0, part := s.partNo w.cell
                     phys := s.phys w.cell, target := 0xFFFFFFFF }
  else s

/-- The first steps of a trap (R414): the segment rolls back, the trap registers and the TRAP trace record are written. -/
def State.trapRegs (s : State) (w : Who) (t : Trap) (pc : PC) : State :=
  let s := s.rollback w
  let x := s.ctx w
  let msg := (x.hdr x.low).msgId
  let s := s.setCtx w { x with trap := { cause := t.cause, pc, addr := t.addr.getD (Config.noTrapAddr s.turn), msg } }
  s.trace w 5 pc [t.cause ++ (0 : BitVec 25) ++ msg]

/-- The record of a trap (R417). -/
def State.trapRecord (s : State) (w : Who) (t : Trap) (pc : PC) (first : Bool) : Frec :=
  { s.ctxRec w (s.recAt (s.partNo w.cell) (some w.cell) t.cause 0) with
    vreq := true, first, pc, addr := (s.ctx w).trap.addr, xid := t.xid, subcause := t.sub, count := t.count }

/-- Whether an arrival is a strand of a job that the cell drops (R422). -/
def Cell.drops (c : Cell) (a : Arrival) : Bool := a.parcel.job?.any fun j => c.dropping.contains j

/-- One context's trap (R414): rollback, trap registers, then the context is freed with its bin held (a first segment) or parked
(a later one), and the record goes to the fault server. -/
def State.trapOne (s : State) (w : Who) (t : Trap) (pc : PC) : State :=
  let s := s.trapRegs w t pc
  let x := s.ctx w
  let r := s.trapRecord w t pc x.first
  let s :=
    if x.first then
      let e := plEntry x.entry
      let s := unbindAll w endpoints s
      let s := s.setCtx w (s.ctx w).freed
      let c := s.cell w.cell
      let msgs := x.trigger.filter fun a => !c.drops a
      let s := s.subtract w.cell ((x.trigger.filter c.drops).filterMap fun a => a.parcel.job?)
      let c : Cell := match c.bin? e with
        | some b => c.setBin { b with msgs := msgs.foldl (fun l a => insertArrival a l) b.msgs, held := b.held + 1, firstSegs := b.firstSegs - 1 }
        | none =>
          if c.bins.length < 16 then
            let b := c.newBin e []
            { c with bins := c.bins ++ [{ b with msgs := msgs.foldl (fun l a => insertArrival a l) b.msgs, held := b.held + 1 }] }
          else c
      let t : PendTrap := { ctx := BitVec.ofNat 3 w.ctx, msgid := x.trap.msg, bin := some e, msgs, regs := x.trap, frec := r }
      s.setCell w.cell { c with pending := c.pending ++ [t] }
    else
      let s := s.setCtx w { x with status := .parked, stopNext := false }
      let c := s.cell w.cell
      let t : PendTrap := { ctx := BitVec.ofNat 3 w.ctx, msgid := x.trap.msg, regs := x.trap, frec := r }
      s.setCell w.cell { c with pending := c.pending ++ [t] }
  s.report (s.partNo w.cell) (.cell w.cell) r

/-- The MMA of a row abandoned: the other members take GANG_ABORT with the logical column of the one that trapped (R234). -/
def State.abortMma (s : State) (cell : Nat) : State :=
  ((rowCells (rowOf cell)).filter (· != cell)).foldl (fun s k =>
    match (s.cell k).mma with
    | none => s
    | some r =>
      let s := s.setCell k { s.cell k with mma := none }
      let w : Who := ⟨k, r.ctx⟩
      s.trapOne w { cause := causeGangAbort, addr := some (BitVec.ofNat 64 (cell % 4)) } (s.ctx w).r.pc)
    (s.setCell cell { s.cell cell with mma := none })

/-- The members of a ONCE whose master has trapped take GANG_ABORT with the master's logical cell (R217). -/
def State.abortOnce (s : State) (w : Who) (o : OnceRun) : State :=
  (o.members.filter fun m => m.1 != w).foldl (fun s m =>
    let x := s.ctx m.1
    if x.wait == some (.joined o.wire) && x.act == m.2.1 then
      s.trapOne m.1 { cause := causeGangAbort, addr := some (BitVec.ofNat 64 (s.relOf w.cell)) } x.r.pc
    else s) s

/-- TAKING A TRAP, the one shared operation (R414). A trap in the master of a ONCE reports the prefix's address (R67), and it and a
trap in a member of a running MMA abort the other members. -/
def State.takeTrap (s : State) (w : Who) (t : Trap) : State :=
  let x := s.ctx w
  match x.once with
  | some o => ((s.setCtx w { x with once := none }).trapOne w t o.at_).abortOnce w o
  | none =>
    let s' := s.trapOne w t x.r.pc
    if x.wait == some .mma then s'.abortMma w.cell else s'

/-! ### The verdict (R420, R421): the return from a trap -/

/-- The jobs of the strands among arrivals. -/
def strandJobs (l : List Arrival) : List W32 := l.filterMap fun a => a.parcel.job?

/-- The state after a pending trap is resumed. -/
def State.verdictResume (s : State) (cell : Nat) (t : PendTrap) : State :=
  let c := s.cell cell
  let c := { c with pending := c.pending.filter fun y => y != t }
  match t.bin with
  | some e =>
    let c := match c.bin? e with
      | some b => c.setBin { b with held := b.held - 1, regs := some t.regs }
      | none => t.msgs.foldl Cell.binPut c
    s.setCell cell c
  | none =>
    let k := t.ctx.toNat
    let x := c.ctx k
    let x := { x with status := .running, wait := none
                      budget := if t.regs.cause == causeWatchdog then x.fullBudget else x.budget
                      spared := x.spared && t.regs.cause != causeWatchdog }
    s.setCell cell (c.setCtx k x)

/-- The state after a pending trap's work is discarded; the answer names the jobs of the strands that went. -/
def State.verdictDiscard (s : State) (cell : Nat) (t : PendTrap) : State × List W32 :=
  let c := s.cell cell
  let c := { c with pending := c.pending.filter fun y => y != t }
  match t.bin with
  | some e =>
    let c := match c.bin? e with
      | some b =>
        (c.setBin { b with held := b.held - 1, msgs := b.msgs.filter fun a => !t.msgs.any fun m => m.seq == a.seq }).binFree e
      | none => c
    let jobs := strandJobs t.msgs
    ((s.setCell cell c).subtract cell jobs, jobs)
  | none =>
    let w : Who := ⟨cell, t.ctx.toNat⟩
    let x := c.ctx t.ctx.toNat
    let jobs := (x.lives.filter fun L => (x.hdr L).counted).map fun L => (x.hdr L).job
    let s := (s.setCell cell c).subtract cell jobs
    (s.endActivation w, jobs)

/-! ### Outcomes of instructions -/

/-- The outcome of an instruction: its next state, the trap it takes, or the wait of its context (R44, R414). -/
def finish (r : Res) (k : State → State) : Out :=
  match r with
  | .done s => .next (k s)
  | .trap t s => .next ((s.logTrap s.cur t).takeTrap s.cur t)
  | .wait w s => .next (s.setMe { s.me with wait := some w })

/-- An instruction of n words that does not branch. -/
def finishLen (n : Nat) (r : Res) : Out := finish r fun s => s.setMe (s.me.past n)

/-- The commit before a boundary instruction (R42). One that blocked has committed already. -/
def State.commitBefore (s : State) : State := if s.me.wait.isSome && s.me.held.isEmpty then s else s.commit s.cur 2

/-- A boundary instruction of n words (R42): commits before it and after it. The first commit may have to wait for an acquire (R278);
when it drops the last lane, the activation ends with it (R39, R422). -/
def boundary (n : Nat) (s : State) (body : State → Res) : Out :=
  if s.me.commitWaits then finish (.wait .acquire s) id
  else if s.commitBefore.me.r.live == 0 then .next (s.commitBefore.endActivation s.cur)
  else finish (body s.commitBefore) fun s => (s.setMe (s.me.past n)).commit s.cur 3

/-- A later access of a context waits for an acquire that is not yet performed (R179, R278). -/
def afterAcquire (s : State) (k : Res) : Res := if s.me.acquiring then .wait .acquire s else k

/-- The rest of an instruction once its sends and records fit. Where they do not, the implicit checkpoint of R41 is taken, and the instruction
issues again in the segment that it began, as soon as the released sends leave it room. -/
def withRoomOf (s : State) (need : State → Nat × Nat) (k : State → Res) : Res :=
  if s.me.fits (need s).1 (need s).2 then k s
  else match s.me.wait with
  | some (.space _) => .wait (.space (need s).1) s
  | _ => if s.me.commitWaits then .wait .acquire s else .wait (.space 0) (s.commit s.cur 1)

/-- The same for a need that no checkpoint changes. -/
def withRoom (s : State) (bytes recs : Nat) (k : State → Res) : Res := withRoomOf s (fun _ => (bytes, recs)) k

end Sys2Proof.Machine
end

