-- ==== Sys2Proof/Machine/Engine.lean ====
section
/-! DEFINITION. The tile-walk engine (R238 to R246): the geometry of a transfer, its reads and writes of aligned 8-byte words one
at a time, chunk by chunk, and the promise of R242. The words of one chunk are moved in an order that is left free. -/

namespace Sys2Proof.Machine

/-- The bytes of a transfer. -/
def Xfer.total (x : Xfer) : Nat := x.rows * x.rowBytes
/-- CHUNKS (R238). -/
def Xfer.chunks (x : Xfer) : Nat := (x.total + 511) / 512
/-- The 8-byte words of a transfer. -/
def Xfer.words (x : Xfer) : Nat := x.total / 8
/-- The transfer id of a slot: its uses, then its number (R240). -/
def Xfer.idOf (x : Xfer) (slot : Nat) : BitVec 16 := x.uses ++ BitVec.ofNat 4 slot
/-- The address of word k of the stream, from a base and a stride (R238). -/
def Xfer.wordAt (x : Xfer) (base stride : W64) (k : Nat) : W64 :=
  base + BitVec.ofNat 64 (8 * k / x.rowBytes) * stride + BitVec.ofNat 64 (8 * k % x.rowBytes)
/-- Whether a chunk's bit is set. -/
def Xfer.bit (x : Xfer) (j : Nat) : Bool := tget false x.done j
/-- The chunks complete. -/
def Xfer.complete (x : Xfer) : Nat := ((List.range x.chunks).filter x.bit).length
/-- The first incomplete chunk; the chunk count when there is none. -/
def Xfer.firstOpen (x : Xfer) : Nat := ((List.range x.chunks).find? fun j => !x.bit j).getD x.chunks
/-- The words of a chunk. -/
def Xfer.chunkWords (x : Xfer) (j : Nat) : List Nat := ((List.range 64).map fun i => 64 * j + i).filter fun k => k < x.words
/-- The starting addresses of the rows. -/
def rowAddrs (base stride : W64) (rows : Nat) : List W64 := (List.range rows).map fun i => base + BitVec.ofNat 64 i * stride

/-- A transfer slot of a cell. -/
def Cell.xfer (c : Cell) (slot : Nat) : Xfer := tget {} c.xfers slot
/-- The state with a slot replaced. -/
def State.setXfer (s : State) (cell slot : Nat) (x : Xfer) : State :=
  let c := s.cell cell
  s.setCell cell { c with xfers := tset c.xfers slot x }

/-- The live transfer of an id: the slot is busy and holds it (R240). -/
def Cell.live? (c : Cell) (id : BitVec 16) : Option Xfer :=
  let x := c.xfer (id.toNat % 16)
  if x.busy && x.idOf (id.toNat % 16) == id then some x else none

/-- Whether a write to a virtual address has its home within a scope: the home that the TLB names, or a walk by the ROM or by the partition's
own walker (R398, R399). -/
def State.vaIn (s : State) (cell : Nat) (sc : Scope) (va : Nat) : Bool :=
  match translateVa s cell .write va with
  | .ok home _ => inScope cell sc home
  | .bad _ => false
  | .miss => match (s.walk (s.partNo cell) (s.cell cell).casid va .write []).1 with
    | .leaf e _ => inScope cell sc (if e.getLsbD 7 then .peer (e.extractLsb' 48 16).toNat else .home (entryAddr e / 2 ^ 32))
    | _ => false

/-- The pieces of the destination that a transfer has yet to write, each a first address and a number of bytes: of the chunk in which it is, the
words that are not yet performed, and of each later one that is not complete, its bytes of each row. -/
def Xfer.openPieces (x : Xfer) : List (W64 × Nat) :=
  (List.range x.chunks).flatMap fun j =>
    if x.bit j then []
    else if j == x.cur then x.todo.map fun k => (x.wordAt x.dst x.dstride k, 8)
    else
      let stop := Nat.min (512 * (j + 1)) x.total
      (List.range (512 / x.rowBytes + 2)).filterMap fun k =>
        let i := 512 * j / x.rowBytes + k
        let lo := Nat.max (512 * j) (i * x.rowBytes)
        let hi := Nat.min stop ((i + 1) * x.rowBytes)
        if lo < hi then some (x.dst + BitVec.ofNat 64 i * x.dstride + BitVec.ofNat 64 (lo - i * x.rowBytes), hi - lo) else none

/-- Whether a transfer may still write at a home within a scope (R195). -/
def State.xferIn (s : State) (cell : Nat) (x : Xfer) (sc : Scope) : Bool :=
  x.openPieces.any fun y =>
    let a := y.1
    if a.getLsbD 63 then inScope cell sc (.cell ((s.partAt cell).dev (a.toNat / 2 ^ 20 % 4096)))
    else s.vaIn cell sc a.toNat || ((a.toNat + y.2 - 1) / 0x10000 != a.toNat / 0x10000 && s.vaIn cell sc (a.toNat + y.2 - 1))

/-- Whether a running transfer that an activation started has writes to come within a scope (R195). -/
def State.engineWrites (s : State) (w : Who) (sc : Scope) : Bool :=
  (s.cell w.cell).xfers.any fun y =>
    y.2.busy && (y.2.state == 0 || y.2.state == 1) && y.2.starter == w && y.2.act == (s.ctx w).act && s.xferIn w.cell y.2 sc

/-- Whether every STX and CHW that has been committed has left the cell, for homes within a scope. -/
def State.storesLeft (s : State) (w : Who) (sc : Scope) : Bool :=
  (s.ctx w).released.all fun sd => match sd.body with
    | .store home _ => !inScope w.cell sc home
    | .elem id _ => !inScope w.cell sc (.cell ((s.partAt w.cell).dev (s.wcopy w.cell id).desc.reader))
    | _ => true

/-- Whether a release of the context's own, made by an instruction, may act now (R241, R277). -/
def State.relClear (s : State) (w : Who) (sc : Scope) : Bool := s.storesLeft w sc && s.relReady w sc (s.ctx w).deps

/-- The homes that a side of a transfer reserves at: the cells of its cell-space rows, and none for the pool (R242). -/
def reservers (base stride : W64) (rows : Nat) : List (Option Nat) :=
  ((rowAddrs base stride rows).map fun a => if a.getLsbD 63 then some (a.toNat / 2 ^ 20 % 4096) else none).eraseDups

/-- Every home at which a transfer reserves. One that is the home of both sides the reference charges in no stated way. DESIGN CHOICE, log entry
63: once. -/
def Xfer.reserves (x : Xfer) : List (Option Nat) :=
  (reservers x.dst x.dstride x.rows ++ if x.zero then [] else reservers x.src x.sstride x.rows).eraseDups

/-- The sum of the rates that the partition's transfers hold at a home. When a transfer gives its rate back the reference does not say. DESIGN
CHOICE, log entry 63: as it leaves the states 0 and 1, by a fault or with its last chunk. -/
def State.reserved (s : State) (p : Part) (h : Option Nat) : Nat :=
  (p.cells.map fun c => ((s.cell c).xfers.map fun y =>
    if y.2.busy && (y.2.state == 0 || y.2.state == 1) && y.2.reserves.contains h then y.2.rate else 0).sum).sum

/-- The set-aside bandwidth of a home in tenths of a GB/s: half of a local port's 140.8 GB/s, or 204.8 GB/s for each slab
(R17, R25, R242). -/
def setAside (p : Part) : Option Nat → Nat
  | some _ => 704
  | none => 2048 * p.slabs.length

/-- The rate g of R242 that the homes of a transfer can still grant. -/
def State.grantable (s : State) (p : Part) (x : Xfer) : Nat :=
  (x.reserves.map fun h => (setAside p h - 10 * s.reserved p h) / 10).foldl (fun a b => if b < a then b else a) 32

/-- The engine's next accesses are those of a chunk. -/
def Xfer.openChunk (x : Xfer) (j : Nat) : Xfer := { x with cur := j, todo := x.chunkWords j, awaited := 0, kept := none }

/-- A failure at engine time, which the step TW_FAULT turns into state 2 (R246). -/
def Xfer.fail (x : Xfer) (cause sub : BitVec 7) (addr : W64) : Xfer :=
  { x with failing := true, faultCause := cause, subcause := sub, faultAddr := addr, awaited := 0 }

/-- Where a word lies for the engine: a scratchpad or instruction store of the partition, or through the TLB (R239). -/
def State.engineWhere (s : State) (cell : Nat) (k : AccKind) (a : W64) : Chk :=
  if a.getLsbD 63 then
    let d := (s.partAt cell).dev (a.toNat / 2 ^ 20 % 4096)
    .ok (.cell d) (cellKey d (a.toNat % 2 ^ 20))
  else translateVa s cell k a.toNat

/-- A fill request of an engine to the cluster's millwright (R397). -/
def State.engineMiss (s : State) (cell slot : Nat) (a : W64) (k : AccKind) : State :=
  s.post { vn := .system, src := .cell cell, dst := .millwright (cell / 16)
           body := .tlbReq ⟨cell, 8⟩ a (s.cell cell).casid k (some slot) false }

/-- Whether a change of point holds back the engine's accesses to a word (R368). -/
def State.engineBarred (s : State) (cell : Nat) (k : AccKind) (a : W64) : Bool :=
  match s.engineWhere cell k a with
  | .ok home _ => s.barred cell home
  | _ => false

/-- An engine access sent to its home, or the failure or the miss of its translation. A word that was read before a change of point holds its write
back is read again later (R368). -/
def State.engineSend (s : State) (cell slot : Nat) (op : AccOp) (k : AccKind) (a : W64) (data : W64) : State :=
  let x := (s.cell cell).xfer slot
  match s.engineWhere cell k a with
  | .bad c => s.setXfer cell slot (x.fail causeTwTranslation c a)
  | .miss => (s.setXfer cell slot { x with awaited := 1 }).engineMiss cell slot a k
  | .ok home key =>
    if s.barred cell home then s.setXfer cell slot { x with awaited := 0 }
    else (s.setXfer cell slot { x with awaited := 1 }).post
      { vn := .request, src := .cell cell, dst := home
        body := .access { op, ea := a, key, data, part := s.partNo cell, who := ⟨cell, 8⟩, id := slot, asid := (s.cell cell).casid } }

/-- The engine moves its next word, if it waits for nothing and no change of point holds its write back (R240, R368). -/
def State.engineNext (s : State) (cell slot : Nat) : State :=
  let x := (s.cell cell).xfer slot
  if !x.busy || x.state != 0 || x.failing || x.awaited != 0 then s
  else match x.todo[Config.pick s.turn % x.todo.length]? with
    | none => s
    | some k =>
      if s.engineBarred cell .write (x.wordAt x.dst x.dstride k) then s
      else if x.zero then s.engineSend cell slot (.engineWrite slot k) .write (x.wordAt x.dst x.dstride k) 0
      else s.engineSend cell slot (.engineRead slot k) .read (x.wordAt x.src x.sstride k) 0

/-- A word that the engine has read goes to its destination. -/
def State.engineGot (s : State) (cell slot k : Nat) (data : W64) : State :=
  let x := (s.cell cell).xfer slot
  s.engineSend cell slot (.engineWrite slot k) .write (x.wordAt x.dst x.dstride k) data

/-- A word is performed at its destination. -/
def State.engineDone (s : State) (cell slot k : Nat) : State :=
  let x := (s.cell cell).xfer slot
  (s.setXfer cell slot { x with todo := x.todo.filter (· != k), awaited := 0, kept := none }).engineNext cell slot

end Sys2Proof.Machine
end

