-- ==== Sys2Proof/Machine/Flags.lean ====
section
/-! DEFINITION. Floating-point arithmetic and its flags: formats (R249), rounding (R251 to R253), exceptions (R145, R147, R254),
the exact results of each operation (R148, R149, R155 to R158, R257), as natural-number arithmetic on exact values. -/

namespace Sys2Proof.Machine

/-! ### Formats and values -/

/-- A format (R249): exponent bits, fraction bits, bias, whether it has infinities. -/
structure Fmt where
  ebits : Nat
  fbits : Nat
  bias : Nat
  inf : Bool
  deriving DecidableEq, Repr

def fmtF : Fmt := ⟨8, 23, 127, true⟩
def fmtH : Fmt := ⟨5, 10, 15, true⟩
def fmtBF : Fmt := ⟨8, 7, 127, true⟩
def fmtE4 : Fmt := ⟨4, 3, 7, false⟩
def fmtE5 : Fmt := ⟨5, 2, 15, true⟩

/-- The format of a floating-point type. -/
def fmtOf : Ty → Fmt
  | .h => fmtH
  | .bf => fmtBF
  | .e4 => fmtE4
  | .e5 => fmtE5
  | _ => fmtF

/-- Significant bits. -/
def Fmt.p (f : Fmt) : Nat := f.fbits + 1
/-- The exponent of the smallest normal number. -/
def Fmt.emin (f : Fmt) : Int := 1 - (f.bias : Int)
/-- The exponent field of the largest finite number, and its significand as an integer of p bits. -/
def Fmt.topField (f : Fmt) : Nat := if f.inf then 2 ^ f.ebits - 2 else 2 ^ f.ebits - 1
def Fmt.topSig (f : Fmt) : Nat := if f.inf then 2 ^ f.p - 1 else 2 ^ f.p - 2
/-- The weight of the last significand bit of the largest finite number. -/
def Fmt.topWeight (f : Fmt) : Int := (f.topField : Int) - f.bias - f.fbits
/-- The largest finite number without its sign. -/
def Fmt.maxBits (f : Fmt) : Nat := f.topField * 2 ^ f.fbits + (f.topSig - 2 ^ f.fbits)
/-- +∞. -/
def Fmt.infBits (f : Fmt) : Nat := (2 ^ f.ebits - 1) * 2 ^ f.fbits
/-- The canonical NaN (R144). -/
def Fmt.nanBits (f : Fmt) : Nat :=
  if f.inf then f.infBits + 2 ^ (f.fbits - 1) else 2 ^ (f.ebits + f.fbits) - 1
/-- The sign bit. -/
def Fmt.signBit (f : Fmt) : Nat := 2 ^ (f.ebits + f.fbits)
/-- A magnitude with a sign. -/
def Fmt.sgn (f : Fmt) (neg : Bool) (m : Nat) : Nat := if neg then f.signBit + m else m

/-- A value: a NaN, an infinity, or a sign, an integer and a power of two. -/
inductive FVal where
  | nan (signalling : Bool)
  | inf (neg : Bool)
  | fin (neg : Bool) (m : Nat) (e : Int)
  deriving DecidableEq, Repr

/-- The value that an encoding has (R249). -/
def Fmt.unpack (f : Fmt) (v : Nat) : FVal :=
  let neg := v / f.signBit % 2 == 1
  let e := v / 2 ^ f.fbits % 2 ^ f.ebits
  let m := v % 2 ^ f.fbits
  if f.inf && e == 2 ^ f.ebits - 1 then
    if m == 0 then .inf neg else .nan (m < 2 ^ (f.fbits - 1))
  else if !f.inf && v % f.signBit == f.signBit - 1 then .nan false
  else if e == 0 then .fin neg m (f.emin - f.fbits)
  else .fin neg (2 ^ f.fbits + m) ((e : Int) - f.bias - f.fbits)

/-- Whether a value is a signalling NaN. -/
def FVal.snan : FVal → Bool
  | .nan s => s
  | _ => false
/-- Whether a value is a NaN. -/
def FVal.isNan : FVal → Bool
  | .nan _ => true
  | _ => false
/-- The sign. -/
def FVal.neg : FVal → Bool
  | .nan _ => false
  | .inf n => n
  | .fin n _ _ => n
/-- Whether a value is a zero. -/
def FVal.isZero : FVal → Bool
  | .fin _ 0 _ => true
  | _ => false

/-! ### Flags (R145) -/

abbrev Fl := BitVec 6
def flNV : Fl := 1
def flDZ : Fl := 2
def flOF : Fl := 4
def flUF : Fl := 8
def flNX : Fl := 16
def flRG : Fl := 32

/-- A result: its encoding, and the exceptions it raised. -/
structure FRes where
  bits : Nat
  fl : Fl := 0
  deriving DecidableEq, Repr

/-- The NV flag of signalling NaNs among operands. -/
def snanFl (l : List FVal) : Fl := if l.any (·.snan) then flNV else 0

/-- The cause of the highest-priority exception of a set (R147). -/
def highest (h : Fl) : BitVec 7 :=
  if h.getLsbD 0 then causeFpInvalid
  else if h.getLsbD 1 then causeFpDivzero
  else if h.getLsbD 5 then causeConvertRange
  else if h.getLsbD 2 then causeFpOverflow
  else if h.getLsbD 3 then causeFpUnderflow
  else causeFpInexact

/-- Commit(raised) of R147: an enabled exception traps and leaves everything as it was; otherwise the destination is
written and the flags are ORed in. -/
def commitF (s : State) (raised : Fl) (write : Ctx → Ctx) : Res :=
  let hit := raised &&& s.me.fpctl.extractLsb' 2 6
  if hit != 0 then .trap { cause := highest hit } s
  else .done (s.setMe (write { s.me with fpflags := s.me.fpflags ||| raised }))

/-! ### Rounding (R251) -/

/-- A rounding mode (R145). -/
inductive Mode where
  | rne | rtz | rup | rdn
  deriving DecidableEq, Repr

/-- The mode of an instruction: E0.RND, or FPCTL.RM (R143). -/
def modeOf (x : Ctx) : Rnd → Mode
  | .rtz => .rtz
  | .rup => .rup
  | .rdn => .rdn
  | .fpctl => match (x.fpctl.extractLsb' 0 2).toNat with
    | 0 => .rne
    | 1 => .rtz
    | 2 => .rup
    | _ => .rdn

/-- Whether a neighbour of larger magnitude is chosen: `above` and `tie` tell how the rest compares with a half. -/
def roundsUp (neg : Bool) (mode : Mode) (k : Nat) (inexact above tie : Bool) : Bool :=
  match mode with
  | .rne => above || (tie && k % 2 == 1)
  | .rtz => false
  | .rup => inexact && !neg
  | .rdn => inexact && neg

/-- RoundMultiple: m * 2^e, or a little more when `sticky`, rounded to a multiple of 2^q; the multiple, and whether it is
not exact. With `sticky`, e lies at least two below q. -/
def roundAt (neg : Bool) (mode : Mode) (m : Nat) (e : Int) (sticky : Bool) (q : Int) : Nat × Bool :=
  let sh := q - e
  if sh ≤ 0 then (m * 2 ^ sh.natAbs, sticky)
  else
    let d := 2 ^ sh.toNat
    let k := m / d
    let r := m % d
    let inexact := r != 0 || sticky
    let above := d < 2 * r || (d == 2 * r && sticky)
    let tie := d == 2 * r && !sticky
    (if roundsUp neg mode k inexact above tie then k + 1 else k, inexact)

/-- The result of an overflow (R252); SAT, where it applies, takes the largest finite number. -/
def overflow (f : Fmt) (neg : Bool) (mode : Mode) (sat : Bool) : FRes :=
  let toInf := match mode with
    | .rne => true
    | .rtz => false
    | .rup => !neg
    | .rdn => neg
  { bits := if !toInf || sat then f.sgn neg f.maxBits else if f.inf then f.sgn neg f.infBits else f.nanBits
    fl := flOF ||| flNX }

/-- Round(x, t, M) for x = ±m * 2^e, or a little more in magnitude when `sticky` (R251). A zero takes the given sign. -/
def round (f : Fmt) (mode : Mode) (neg : Bool) (m : Nat) (e : Int) (sticky : Bool := false) (sat : Bool := false) :
    FRes :=
  if m == 0 then { bits := f.sgn neg 0 }
  else
    let ex : Int := (m.log2 : Int) + e
    let qu := ex - f.p + 1
    let (ku, _) := roundAt neg mode m e sticky qu
    if f.topWeight < qu || (qu == f.topWeight && f.topSig < ku) then overflow f neg mode sat
    else
      let q := (if f.emin < ex then ex else f.emin) - f.p + 1
      let (k, inexact) := roundAt neg mode m e sticky q
      let uexp := qu + (if ku == 2 ^ f.p then (f.p : Int) else (f.p : Int) - 1)
      { bits := f.sgn neg ((q - (f.emin - f.p + 1)).toNat * 2 ^ f.fbits + k)
        fl := if !inexact then 0 else if uexp < f.emin then flUF ||| flNX else flNX }

/-! ### Exact arithmetic -/

/-- A signed multiple of 2^q that a finite value is, for q at most its exponent. -/
def scaled (neg : Bool) (m : Nat) (e q : Int) : Int :=
  let x : Int := (m : Int) * 2 ^ (e - q).toNat
  if neg then -x else x

/-- The rounded sum of two exact values; an exact zero takes its sign from R255. -/
def addRound (f : Fmt) (mode : Mode) (n1 : Bool) (m1 : Nat) (e1 : Int) (n2 : Bool) (m2 : Nat) (e2 : Int) : FRes :=
  let q := if e1 < e2 then e1 else e2
  let t := scaled n1 m1 e1 q + scaled n2 m2 e2 q
  if t == 0 then
    if m1 == 0 && m2 == 0 && n1 == n2 then { bits := f.sgn n1 0 } else { bits := f.sgn (mode == .rdn) 0 }
  else round f mode (t < 0) t.natAbs q

/-- The canonical NaN with flags. -/
def nanRes (f : Fmt) (fl : Fl) : FRes := { bits := f.nanBits, fl }
/-- A signed infinity. -/
def infRes (f : Fmt) (neg : Bool) (fl : Fl := 0) : FRes := { bits := f.sgn neg f.infBits, fl }
/-- A signed zero. -/
def zeroRes (f : Fmt) (neg : Bool) : FRes := { bits := f.sgn neg 0 }

/-- The negated value. -/
def FVal.flip : FVal → FVal
  | .nan s => .nan s
  | .inf n => .inf !n
  | .fin n m e => .fin (!n) m e

/-- FADD (R148, R149). -/
def faddV (f : Fmt) (mode : Mode) (a b : FVal) : FRes :=
  match a, b with
  | .nan _, _ => nanRes f (snanFl [a, b])
  | _, .nan _ => nanRes f (snanFl [a, b])
  | .inf x, .inf y => if x == y then infRes f x else nanRes f flNV
  | .inf x, _ => infRes f x
  | _, .inf y => infRes f y
  | .fin n1 m1 e1, .fin n2 m2 e2 => addRound f mode n1 m1 e1 n2 m2 e2

/-- FMUL (R148, R149). -/
def fmulV (f : Fmt) (mode : Mode) (a b : FVal) : FRes :=
  match a, b with
  | .nan _, _ => nanRes f (snanFl [a, b])
  | _, .nan _ => nanRes f (snanFl [a, b])
  | .inf x, y => if y.isZero then nanRes f flNV else infRes f (x != y.neg)
  | x, .inf y => if x.isZero then nanRes f flNV else infRes f (x.neg != y)
  | .fin n1 m1 e1, .fin n2 m2 e2 => round f mode (n1 != n2) (m1 * m2) (e1 + e2)

/-- FMA: the exact product and sum, rounded once (R148, R149). -/
def fmaV (f : Fmt) (mode : Mode) (a b c : FVal) : FRes :=
  let sn := snanFl [a, b, c]
  let invalid := match a, b with
    | .inf _, y => y.isZero
    | x, .inf _ => x.isZero
    | _, _ => false
  if invalid then nanRes f flNV
  else match a, b, c with
  | .nan _, _, _ => nanRes f sn
  | _, .nan _, _ => nanRes f sn
  | _, _, .nan _ => nanRes f sn
  | .inf x, y, .inf z => if (x != y.neg) == z then infRes f z else nanRes f flNV
  | x, .inf y, .inf z => if (x.neg != y) == z then infRes f z else nanRes f flNV
  | .inf x, y, _ => infRes f (x != y.neg)
  | x, .inf y, _ => infRes f (x.neg != y)
  | _, _, .inf z => infRes f z
  | .fin n1 m1 e1, .fin n2 m2 e2, .fin n3 m3 e3 => addRound f mode (n1 != n2) (m1 * m2) (e1 + e2) n3 m3 e3

/-- A quotient rounded: m1 / m2 to well over p bits, with the rest as sticky. -/
def divRound (f : Fmt) (mode : Mode) (neg : Bool) (m1 : Nat) (e1 : Int) (m2 : Nat) (e2 : Int) : FRes :=
  let k := f.p + 4 + m2.log2
  let n := m1 * 2 ^ k
  round f mode neg (n / m2) (e1 - e2 - k) (n % m2 != 0)

/-- FDIV (R148, R149). -/
def fdivV (f : Fmt) (mode : Mode) (a b : FVal) : FRes :=
  match a, b with
  | .nan _, _ => nanRes f (snanFl [a, b])
  | _, .nan _ => nanRes f (snanFl [a, b])
  | .inf _, .inf _ => nanRes f flNV
  | .inf x, y => infRes f (x != y.neg)
  | x, .inf y => zeroRes f (x.neg != y)
  | .fin n1 m1 e1, .fin n2 m2 e2 =>
    if m2 == 0 then (if m1 == 0 then nanRes f flNV else infRes f (n1 != n2) flDZ)
    else if m1 == 0 then zeroRes f (n1 != n2)
    else divRound f mode (n1 != n2) m1 e1 m2 e2

/-- The integer square root, one bit at a time from bit `k` down. -/
def isqrtFrom (n : Nat) : Nat → Nat → Nat
  | 0, r => r
  | k + 1, r => if (r + 2 ^ k) * (r + 2 ^ k) ≤ n then isqrtFrom n k (r + 2 ^ k) else isqrtFrom n k r
/-- The integer square root. -/
def isqrt (n : Nat) : Nat := isqrtFrom n (n.log2 / 2 + 1) 0

/-- FSQRT (R148, R149). -/
def fsqrtV (f : Fmt) (mode : Mode) (a : FVal) : FRes :=
  match a with
  | .nan s => nanRes f (if s then flNV else 0)
  | .inf n => if n then nanRes f flNV else infRes f false
  | .fin n m e =>
    if m == 0 then zeroRes f n
    else if n then nanRes f flNV
    else
      let k := 2 * f.p + 8 + (e + 2 * f.p).natAbs % 2
      let x := m * 2 ^ k
      let r := isqrt x
      round f mode false r ((e - k) / 2) (r * r != x)

/-- FRSQ: the integer part of the square root of 2^K / m, with the rest as sticky (R148, R149). -/
def frsqV (f : Fmt) (mode : Mode) (a : FVal) : FRes :=
  match a with
  | .nan s => nanRes f (if s then flNV else 0)
  | .inf n => if n then nanRes f flNV else zeroRes f false
  | .fin n m e =>
    if m == 0 then infRes f false flDZ
    else if n then nanRes f flNV
    else
      let k := 2 * f.p + 10 + m.log2
      let k := k + (e + k).natAbs % 2
      let r := isqrt (2 ^ k / m)
      round f mode false r (-(e + k) / 2) (r * r * m != 2 ^ k)

/-- FRCP (R148, R149). -/
def frcpV (f : Fmt) (mode : Mode) (a : FVal) : FRes :=
  match a with
  | .nan s => nanRes f (if s then flNV else 0)
  | .inf n => zeroRes f n
  | .fin n m e => if m == 0 then infRes f n flDZ else divRound f mode n 1 0 m e

/-! ### Powers and logarithms of two (R257)

A result that is not exact is irrational. It is computed as a fixed-point number of 200 fraction bits that is at most 2^-180 off, and
rounded with a rest: no value of FP32 or FP16 has an exact result that close to a boundary of rounding, but for the
results next to 1, which are kept on their own side of it. -/

/-- Fraction bits of the fixed-point numbers. -/
def fixBits : Nat := 200
def fixOne : Nat := 2 ^ fixBits

/-- Σ z^(2k+1) / (2k+1), for z a fixed-point number: the inverse hyperbolic tangent. -/
def atanhSum (z2 : Nat) : Nat → Nat → Nat → Nat
  | 0, _, _ => 0
  | n + 1, t, k => t / k + atanhSum z2 n (t * z2 / fixOne) (k + 2)
/-- The natural logarithm of a / b, for 1 ≤ a / b ≤ 2. -/
def lnRatio (a b : Nat) : Nat :=
  let z := (a - b) * fixOne / (a + b)
  2 * atanhSum (z * z / fixOne) 70 z 1
/-- ln 2. -/
def ln2 : Nat := lnRatio 2 1

/-- Σ x^k / k!. -/
def expSum (x : Nat) : Nat → Nat → Nat → Nat
  | 0, _, _ => 0
  | n + 1, t, k => t + expSum x n (t * x / fixOne / k) (k + 1)

/-- FEXP2 (R148, R149, R257). -/
def fexp2V (f : Fmt) (mode : Mode) (a : FVal) : FRes :=
  match a with
  | .nan s => nanRes f (if s then flNV else 0)
  | .inf n => if n then zeroRes f false else infRes f false
  | .fin n m e =>
    -- a is clamped where every result overflows or vanishes alike
    if (m != 0) && 12 ≤ (m.log2 : Int) + e then
      (if n then round f mode false 1 (-5000) else round f mode false 1 5000)
    else
      let x := scaled n m e (if e < 0 then e else 0)
      let den : Nat := 2 ^ (if e < 0 then e.natAbs else 0)
      let i := x / (den : Int)
      let fr := (x % (den : Int)).toNat
      if fr == 0 then round f mode false 1 i
      else
        let y := expSum (fr * fixOne / den * ln2 / fixOne) 60 fixOne 1
        let y := if y < fixOne then fixOne else if 2 * fixOne ≤ y then 2 * fixOne - 1 else y
        round f mode false y (i - fixBits) true

/-- FLOG2 (R148, R149, R257). -/
def flog2V (f : Fmt) (mode : Mode) (a : FVal) : FRes :=
  match a with
  | .nan s => nanRes f (if s then flNV else 0)
  | .inf n => if n then nanRes f flNV else infRes f false
  | .fin n m e =>
    if m == 0 then infRes f true flDZ
    else if n then nanRes f flNV
    else
      let ex : Int := (m.log2 : Int) + e
      if m == 2 ^ m.log2 then round f mode (ex < 0) ex.natAbs 0
      else
        let g := lnRatio m (2 ^ m.log2) * fixOne / ln2
        let t : Int := ex * fixOne + g
        round f mode (t < 0) t.natAbs (-(fixBits : Int)) true

/-- FSCALE: beyond ±700 every finite nonzero operand overflows or vanishes alike (R148, R149). -/
def fscaleV (f : Fmt) (mode : Mode) (bits : Nat) (a : FVal) (n : Int) : FRes :=
  match a with
  | .nan s => nanRes f (if s then flNV else 0)
  | .inf _ => { bits }
  | .fin ng m e =>
    if m == 0 then { bits }
    else
      let n := if n < -700 then -700 else if 700 < n then 700 else n
      round f mode ng m (e + n)

/-- FRND (R152). -/
def frndV (f : Fmt) (mode : Mode) (bits : Nat) (a : FVal) : FRes :=
  match a with
  | .nan s => nanRes f (if s then flNV else 0)
  | .inf _ => { bits }
  | .fin n m e =>
    let (k, _) := roundAt n mode m e false 0
    if 0 ≤ e then { bits } else { bits := (round f .rtz n k 0).bits }

/-- Whether a finite or infinite value is below another; −0 below +0 when `zeros`. -/
def FVal.below (zeros : Bool) : FVal → FVal → Bool
  | .nan _, _ => false
  | _, .nan _ => false
  | .inf x, .inf y => x && !y
  | .inf x, _ => x
  | _, .inf y => !y
  | .fin n1 m1 e1, .fin n2 m2 e2 =>
    let q := if e1 < e2 then e1 else e2
    let a := scaled n1 m1 e1 q
    let b := scaled n2 m2 e2 q
    a < b || (zeros && a == 0 && b == 0 && n1 && !n2)

/-- FMIN and FMAX (R150). -/
def fminmaxV (f : Fmt) (big : Bool) (abits bbits : Nat) (a b : FVal) : FRes :=
  let fl := snanFl [a, b]
  if a.isNan && b.isNan then nanRes f fl
  else if a.isNan then { bits := bbits, fl }
  else if b.isNan then { bits := abits, fl }
  else if b.below true a != big then { bits := bbits } else { bits := abits }

/-- FCLASS (R153). -/
def fclassV (f : Fmt) : FVal → Nat
  | .nan s => if s then 2 ^ 8 else 2 ^ 9
  | .inf n => if n then 2 ^ 0 else 2 ^ 7
  | .fin n m _ =>
    if m == 0 then (if n then 2 ^ 3 else 2 ^ 4)
    else if m < 2 ^ f.fbits then (if n then 2 ^ 2 else 2 ^ 5)
    else (if n then 2 ^ 1 else 2 ^ 6)

/-- The outcome of an FCMP condition, and whether it raises NV (R55, R126). -/
def fcmpV (c : Cond) (a b : FVal) : Bool × Fl :=
  let un := a.isNan || b.isNan
  let ordered := match c with
    | .eq | .ne => false
    | _ => true
  let fl := if (un && ordered) || a.snan || b.snan then flNV else 0
  let lt := a.below false b
  let gt := b.below false a
  let eq := !un && !lt && !gt
  (match c with
    | .eq => eq
    | .ne => !eq
    | .lt | .ltn => lt
    | .le | .len => lt || eq
    | .gt | .gtn => gt
    | .ge | .gen => gt || eq, fl)

/-! ### Conversions (R154 to R158) -/

/-- The range of an integer type. -/
def intMin : Ty → Int
  | .s8 => -2 ^ 7
  | .s16 => -2 ^ 15
  | .s32 => -2 ^ 31
  | .s64 => -2 ^ 63
  | _ => 0
def intMax : Ty → Int
  | .s8 => 2 ^ 7 - 1
  | .n8 => 2 ^ 8 - 1
  | .s16 => 2 ^ 15 - 1
  | .n16 => 2 ^ 16 - 1
  | .s32 => 2 ^ 31 - 1
  | .s64 => 2 ^ 63 - 1
  | .n64 | .b64 => 2 ^ 64 - 1
  | _ => 2 ^ 32 - 1
/-- The width of an integer type in bits. -/
def intBits : Ty → Nat
  | .s8 | .n8 => 8
  | .s16 | .n16 => 16
  | .s64 | .n64 | .b64 => 64
  | _ => 32
/-- Whether a type is signed. -/
def isSigned : Ty → Bool
  | .s8 | .s16 | .s32 | .s64 => true
  | _ => false
/-- Whether a type is a floating-point type. -/
def isFloatTy : Ty → Bool
  | .f | .h | .bf | .e4 | .e5 => true
  | _ => false

/-- Clamp (R105). -/
def clampI (t : Ty) (x : Int) : Int := if x < intMin t then intMin t else if intMax t < x then intMax t else x
/-- Whether an integer lies in the range of a type. -/
def inRange (t : Ty) (x : Int) : Bool := intMin t ≤ x && x ≤ intMax t
/-- The bits of an integer in a type: Wrap, then extended to 64 bits as the type is signed or not (R154). -/
def intBits64 (t : Ty) (x : Int) : Nat :=
  let w := x % 2 ^ intBits t
  let w := if isSigned t && 2 ^ (intBits t - 1) ≤ w then w - 2 ^ intBits t else w
  (w % 2 ^ 64).toNat

/-- An integer narrowed to a type, RG raised outside its range (R157, R158). -/
def toIntRes (t : Ty) (sat : Bool) (k : Int) : FRes :=
  { bits := intBits64 t (if sat then clampI t k else k), fl := if inRange t k then 0 else flRG }

/-- CVT from floating point to floating point (R155). -/
def cvtFF (d : Fmt) (mode : Mode) (sat : Bool) (a : FVal) : FRes :=
  match a with
  | .nan s => nanRes d (if s then flNV else 0)
  | .inf n =>
    -- SAT takes E4 and E5 to their largest finite number; F, H and BF keep the infinity
    if d.inf && !(sat && d == fmtE5) then infRes d n
    else if sat then { bits := d.sgn n d.maxBits }
    else nanRes d flNV
  | .fin n m e => round d mode n m e false sat

/-- CVT from floating point to an integer (R157). -/
def cvtFI (t : Ty) (mode : Mode) (sat : Bool) (a : FVal) : FRes :=
  match a with
  | .nan s => { bits := 0, fl := if s then flRG ||| flNV else flRG }
  | .inf n => { bits := if sat then intBits64 t (if n then intMin t else intMax t) else 0, fl := flRG }
  | .fin n m e =>
    let (k, inexact) := roundAt n mode m e false 0
    let k : Int := if n then -(k : Int) else k
    let r := toIntRes t sat k
    if r.fl != 0 then r else { r with fl := if inexact then flNX else 0 }

/-- CVT from an integer to floating point (R156). -/
def cvtIF (d : Fmt) (mode : Mode) (sat : Bool) (x : Int) : FRes := round d mode (x < 0) x.natAbs 0 false sat

/-- CVT of one element between any two of the types 1 to 13: `v` is the source bits as they are read (R154, R258). -/
def cvtV (dst src : Ty) (mode : Mode) (sat : Bool) (v : Nat) : FRes :=
  let mode : Mode := match dst with
    | .e4 | .e5 => .rne
    | _ => mode
  if isFloatTy src then
    let a := (fmtOf src).unpack (v % 2 ^ ((fmtOf src).ebits + (fmtOf src).fbits + 1))
    if isFloatTy dst then cvtFF (fmtOf dst) mode sat a else cvtFI dst mode sat a
  else
    let w := v % 2 ^ intBits src
    let x : Int := if isSigned src && 2 ^ (intBits src - 1) ≤ w then (w : Int) - 2 ^ intBits src else w
    if isFloatTy dst then cvtIF (fmtOf dst) mode sat x else toIntRes dst sat x

/-- A product of two values rounded to a format, as QPACK and QUNPK form it (R161, R162). -/
def mulTo (d : Fmt) (mode : Mode) (sat : Bool) (a b : FVal) : FRes :=
  match a, b with
  | .nan _, _ => nanRes d (snanFl [a, b])
  | _, .nan _ => nanRes d (snanFl [a, b])
  | .inf x, y => if y.isZero then nanRes d flNV else cvtFF d mode sat (.inf (x != y.neg))
  | x, .inf y => if x.isZero then nanRes d flNV else cvtFF d mode sat (.inf (x.neg != y))
  | .fin n1 m1 e1, .fin n2 m2 e2 => round d mode (n1 != n2) (m1 * m2) (e1 + e2) false sat

end Sys2Proof.Machine
end

