-- ==== Sys2Proof/Machine/Operands.lean ====
section
/-! DEFINITION. Operand forms: source A as a register or a popped queue entry (R62, R63, R172 to R174, R210), source B as a
register or a literal (R65), integer values by type (R105), destinations, and effective addresses (R165, R166). -/

namespace Sys2Proof.Machine

/-- What reading an operand comes to: a value, a trap, or a wait. -/
inductive Got (α : Type) where
  | ok (v : α) (s : State)
  | trap (t : Trap) (s : State)
  | wait (w : Wait) (s : State)

/-- The rest of an instruction after an operand is read. -/
def Got.then {α : Type} (g : Got α) (k : α → State → Res) : Res :=
  match g with
  | .ok v s => k v s
  | .trap t s => .trap t s
  | .wait w s => .wait w s

/-! ### Queues -/

/-- The data queue of a number. -/
def Ctx.queue (x : Ctx) (q : Nat) : DataQ := tget {} x.qs q

/-- The head entry of a queue: a data queue q0 to q7 (R172), or a reader endpoint q8 to q15, whose elements are scalar
VALID entries (R210). A read of a channel waits for an acquire that is not yet performed (R179, R278), and comes behind the queued stores of
its cell (R273). -/
def State.headQ (s : State) (q : Nat) : Got QEntry :=
  if q < 8 then
    match (s.me.queue q).entries with
    | [] => .wait (.queue q 1) s
    | e :: _ => if e.awaited != 0 then .wait (.queue q 1) s else .ok e s
  else if s.me.acquiring then .wait .acquire s
  else
    match tget none s.me.r.binds q with
    | none => .trap { cause := causeChannelNotBound } s
    | some ⟨_, false⟩ => .trap { cause := causeChannelWrongEnd } s
    | some ⟨id, true⟩ =>
      let s := (s.settleNear s.cur []).takeElems s.cur q
      let e := tget {} s.me.eps q
      match e.taken with
      | v :: _ => .ok { scalar := true, value := v } s
      | [] =>
        if (s.rcopy s.cur.cell id).consumed (s.nextSeq s.cur.cell id + s.me.takenOf id) then
          .trap { cause := causeChannelClosed } s
        else .wait (.chan q) s

/-- The head popped into the pop shadow (R40, R63, R210). -/
def State.popQ (s : State) (q : Nat) : State :=
  let x := s.me
  if q < 8 then
    let d := x.queue q
    match d.entries with
    | [] => s
    | e :: es => s.setMe { x with qs := tset x.qs q { entries := es, shadow := d.shadow ++ [e] } }
  else
    let e := tget {} x.eps q
    let id := match tget none x.r.binds q with
      | some b => b.chan
      | none => 0
    match e.taken with
    | [] => s
    | v :: vs => s.setMe { x with eps := tset x.eps q { taken := vs, shadow := e.shadow ++ [(id, v)] } }

/-- A POISON entry that is delivered: its cause, unless QCFG makes it zero and notes that (R174, R176). -/
def State.deliver (s : State) (q : Nat) (e : QEntry) (k : State → Got α) : Got α :=
  if e.tag == .poison then
    if s.me.qcfg.getLsbD q then
      k (s.setMe { s.me with qcfg := s.me.qcfg ||| BitVec.ofNat 16 (2 ^ (8 + q)) })
    else .trap { cause := causeQueuePoison, addr := e.badAddr, sub := e.badCause } s
  else k s

/-- What an entry delivers to a lane (R174). -/
def QEntry.laneVal (e : QEntry) (wide : Bool) (L : Nat) : W64 :=
  if e.scalar then
    match e.tag with
    | .valid => if wide then e.value else (e.value.extractLsb' 0 32).setWidth 64
    | _ => 0
  else if e.tag == .null || e.badLanes.getLsbD L then 0
  else (lane e.lanes L).setWidth 64

/-- What an entry delivers to a lane of a reader with some lane active. The element of a lane that is not active is never read; for an
instruction that names one (MOVS, R118) the reference states no value. DESIGN CHOICE, log entry 62: it reads as a free value. -/
def QEntry.elem (e : QEntry) (wide : Bool) (act : W32) (turn L : Nat) : W64 :=
  if act.getLsbD L || e.scalar || e.tag == .null then e.laneVal wide L else Config.inactiveElem turn L

/-- Whether a scalar reader of an entry raises QUEUE_INDEX: a lane vector, VALID or NULL (R174). -/
def QEntry.noScalar (e : QEntry) : Bool := !e.scalar && e.tag != .poison

/-- What an entry delivers to a scalar reader (R174). -/
def QEntry.scalarVal (e : QEntry) : W64 := if e.tag == .valid then e.value else 0

/-- Source A of a lane-class instruction: one value per lane. A queue is popped whatever Active is; with no lane active
nothing is delivered and none of the causes of R174 is raised. -/
def State.laneA (s : State) (a : SrcA) (wide : Bool) (act : W32) : Got (Nat → W64) :=
  match a with
  | .reg r => .ok (fun L => if wide then s.me.vp r.toNat L else (s.me.vl r.toNat L).setWidth 64) s
  | .queue q =>
    match s.headQ q.toNat with
    | .trap t s => .trap t s
    | .wait w s => .wait w s
    | .ok e s =>
      if act == 0 then .ok (fun _ => 0) (s.popQ q.toNat)
      else s.deliver q.toNat e fun s => .ok (e.elem wide act s.turn) (s.popQ q.toNat)

/-- Source A of a scalar reader (R174, third column); `use` says whether anything takes the value. -/
def State.scalarA (s : State) (a : SrcA) (use : Bool) : Got W64 :=
  match a with
  | .reg r => .ok (s.me.s r.toNat) s
  | .queue q =>
    match s.headQ q.toNat with
    | .trap t s => .trap t s
    | .wait w s => .wait w s
    | .ok e s =>
      if !use then .ok 0 (s.popQ q.toNat)
      else if e.noScalar then .trap { cause := causeQueueIndex } s
      else s.deliver q.toNat e fun s => .ok e.scalarVal (s.popQ q.toNat)

/-! ### Source B, values and destinations -/

/-- Source B of a lane operand (R65). -/
def Ctx.laneB (x : Ctx) (b : SrcB) (wide : Bool) (L : Nat) : W64 :=
  match b with
  | .reg r => if wide then x.vp r.toNat L else (x.vl r.toNat L).setWidth 64
  | .lit v => if wide then v else (v.extractLsb' 0 32).setWidth 64
/-- Source B of a scalar operand (R65). -/
def Ctx.scalarB (x : Ctx) (b : SrcB) : W64 :=
  match b with
  | .reg r => x.s r.toNat
  | .lit v => v
/-- Source B as the scalar operand of a lane type: 32 bits of it for a 32-bit type (R105). -/
def Ctx.bcastB (x : Ctx) (b : SrcB) (wide : Bool) : W64 :=
  if wide then x.scalarB b else ((x.scalarB b).extractLsb' 0 32).setWidth 64

/-- A lane operand that is a register, whatever its width. -/
def Ctx.laneR (x : Ctx) (r : Reg) (wide : Bool) (L : Nat) : W64 :=
  if wide then x.vp r.toNat L else (x.vl r.toNat L).setWidth 64

/-- A destination register or pair written in the lanes of a mask (R106). -/
def Ctx.put (x : Ctx) (d : Reg) (wide : Bool) (act : W32) (f : Nat → W64) : Ctx :=
  if wide then x.setVp d.toNat act f else x.setV d.toNat act fun L => (f L).extractLsb' 0 32

/-- The integer that the low bits of a value are in a 32-bit or 64-bit type (R105). -/
def intOf (t : Ty) (v : W64) : Int :=
  if t.wide then (if isSigned t then v.toInt else v.toNat)
  else if isSigned t then (v.extractLsb' 0 32).toInt else (v.extractLsb' 0 32).toNat

/-- An exact result narrowed: Clamp with SAT, Wrap without (R107). -/
def narrow (t : Ty) (sat : Bool) (x : Int) : W64 := BitVec.ofInt 64 (if sat then clampI t x else x)

/-- The width in bits of a lane type. -/
def width (t : Ty) : Nat := if t.wide then 64 else 32

/-! ### Effective addresses (R165, R166) -/

/-- The displacement and base: sA + idx * scale + disp, modulo 2^64. -/
def effAddr (base idx : W64) (scale : BitVec 2) (disp : W32) : W64 :=
  base + (idx <<< scale.toNat) + disp.signExtend 64

/-- The effective address of a lane: its index is a signed 32-bit value (R165). -/
def Ctx.laneAddr (x : Ctx) (m : Addr) (L : Nat) : W64 :=
  effAddr (x.s m.base.toNat)
    (if m.noIdx then 0 else ((x.laneB m.idx false L).extractLsb' 0 32).signExtend 64) m.scale m.disp
/-- The effective address of LDS and STS, and of the scalar form of LDQ: its index has 64 bits (R165). -/
def Ctx.scalarAddr (x : Ctx) (m : Addr) : W64 :=
  effAddr (x.s m.base.toNat) (if m.noIdx then 0 else x.scalarB m.idx) m.scale m.disp

/-- The bytes of an access of a type (R165). -/
def sizeOf (t : Ty) : Nat :=
  match t with
  | .s8 | .n8 => 1
  | .s16 | .n16 => 2
  | .b64 | .s64 | .n64 => 8
  | _ => 4

/-- The scratch offset that an address of a local access names, if it names one in the issuing cell (R166). -/
def State.localOffset (s : State) (ea : W64) (n : Nat) : Option Nat :=
  let off :=
    if ea.getLsbD 63 then
      if ea.extractLsb' 32 31 == 0 && (ea.extractLsb' 20 12).toNat == s.relOf s.cur.cell then
        some (ea.extractLsb' 0 20).toNat
      else none
    else some ea.toNat
  match off with
  | some o => if o + n ≤ 0x80000 then some o else none
  | none => none

/-- The trap of a local access, if its address fails a check: bounds first, then alignment (R166). -/
def State.localTrap (s : State) (ea : W64) (n : Nat) (mis : BitVec 7) : Option Trap :=
  match s.localOffset ea n with
  | none => some { cause := causeScratchBounds, addr := ea }
  | some _ => if ea.toNat % n = 0 then none else some { cause := mis, addr := ea }

/-- The first trap among the addresses of lanes, in ascending order. -/
def State.localTraps (s : State) (f : Nat → W64) (n : Nat) (mis : BitVec 7) : List Nat → Option Trap
  | [] => none
  | L :: ls => match s.localTrap (f L) n mis with
    | some t => some t
    | none => s.localTraps f n mis ls

/-- Bytes read, extended to 64 bits: sign-extended for S types, zero-extended for the others (R168). -/
def extendTo (t : Ty) (v : Nat) : W64 :=
  match t with
  | .s8 => (BitVec.ofNat 8 v).signExtend 64
  | .s16 => (BitVec.ofNat 16 v).signExtend 64
  | _ => BitVec.ofNat 64 v

/-! ### The common shapes -/

/-- A lane instruction with source A that writes one register or pair in the active lanes. -/
def laneOp (s : State) (h : Head) (wide : Bool) (d : Reg) (dwide : Bool) (a : SrcA) (f : Ctx → Nat → W64 → W64) : Res :=
  (s.laneA a wide (s.me.active h)).then fun va s =>
    .done (s.setMe (s.me.put d dwide (s.me.active h) fun L => f s.me L (va L)))

/-- A scalar instruction with source A that writes one scalar register when its guard holds. -/
def scalarOp (s : State) (h : Head) (d : Reg) (a : SrcA) (f : Ctx → W64 → W64) : Res :=
  (s.scalarA a (s.me.guard h)).then fun va s =>
    .done (if s.me.guard h then s.setMe (s.me.setS d.toNat (f s.me va)) else s)

end Sys2Proof.Machine
end

