-- ==== Sys2Proof/Machine/Barrier.lean ====
section
/-! DEFINITION. Named barriers and joins (R213 to R217), one meaning per instruction; ONCE is in Once.lean. -/

namespace Sys2Proof.Machine

/-- A barrier of a cell. -/
def Cell.bar (c : Cell) (b : Nat) : Barrier := tget {} c.bars b
/-- The cell with a barrier replaced. -/
def Cell.setBar (c : Cell) (b : Nat) (x : Barrier) : Cell := { c with bars := tset c.bars b x }

/-- A record group added to the journal. -/
def State.journal (s : State) (j : JRec) : State := s.setMe { s.me with journal := s.me.journal ++ [j] }

/-- The master's PHASE sent to every other member of the span (R213). -/
def State.sendPhase (s : State) (master b : Nat) : State :=
  let x := (s.cell master).bar b
  ((spanMembers master x.span).filter (· != master)).foldl (fun s m =>
    s.post { vn := .system, src := .cell master, dst := .cell m, body := .phase b x.span x.phase x.pdeps }) s

/-- BARC (R213). A member that is no master asks the one of its new span. Where it moves a row or cluster barrier to another span, the reference
does not say whether the old master's ARRIVALS count too. DESIGN CHOICE, log entry 69: its own cell's and the new master's are tested. -/
def execBarc (h : Head) (bar : BitVec 6) (ra : Reg) (s : State) : Out :=
  finishLen (lenOf h false) (
    let w := s.me.s ra.toNat
    let b := bar.toNat
    let span := (w.extractLsb' 32 2).toNat
    let parties := w.extractLsb' 0 32
    let own := spanMaster s.cur.cell span == s.cur.cell
    if !s.me.guard h then .done s
    else if w.extractLsb' 34 30 != 0 || span == 3 || parties == 0 then .trap { cause := causeBarrierConfig } s
    else if (s.myCell.bar b).arrivals != 0 then .trap { cause := causeBarrierConfig } s
    else withRoom s 0 2 fun s =>
      let s := s.journal (.bar b (s.myCell.bar b))
      if own then .done ((s.setMyCell (s.myCell.setBar b { span, parties })).sendPhase s.cur.cell b)
      else
        let s := s.setMyCell (s.myCell.setBar b { span, parties, phase := (s.myCell.bar b).phase })
        .wait (.barReply b (lenOf h false))
          (s.post { vn := .system, src := .cell s.cur.cell, dst := .cell (spanMaster s.cur.cell span)
                    body := .barQuery b s.cur }))

/-- The arrival record of the context for a barrier. -/
def Ctx.arrival (x : Ctx) (b : Nat) : Option W32 := tget none x.r.arrs b

/-- The checks of the barrier instructions, in the order of R214's table; `overrun` is BARA's own. -/
def barTrap (s : State) (b : Nat) (sc : Scope) (arrives : Bool) : Option Trap :=
  let x := s.myCell.bar b
  if x.parties == 0 then some { cause := causeBarrierConfig }
  else if x.span != 0 && sc == .cell then some { cause := causeBarrierScope }
  else if arrives && s.me.arrival b == some x.phase then some { cause := causeBarrierOverrun }
  else none

/-- The arrival record of the context set to the present phase (R214). -/
def State.recordArrival (s : State) (b : Nat) : State :=
  s.setMe { s.me with r := { s.me.r with arrs := tset s.me.r.arrs b (some (s.myCell.bar b).phase) } }

/-- One arrival counted at the cell that counts it; true when it completes the phase (R214). -/
def Barrier.arrive (x : Barrier) (member : Nat) (deps : List Nat) : Barrier × Bool :=
  if x.arrivals + 1 == x.parties then
    let l := x.deps ++ deps
    ({ x with arrivals := 0, phase := x.phase + 1, counted := [], deps := []
              pdeps := if l.isEmpty then x.pdeps else x.pdeps ++ [(x.phase, l)] }, true)
  else
    ({ x with arrivals := x.arrivals + 1, deps := x.deps ++ deps
              counted := if x.counted.contains member then x.counted else x.counted ++ [member] }, false)

/-- Whether a context holds a write to a home in its own cell. -/
def State.holdsOwn (s : State) (w : Who) : Bool := (s.sendWrites w.cell (s.ctx w).held).any fun y => y.2 == .cell w.cell

/-- BARA at CELL scope acts at issue, behind the queued stores of its context (R273), and a completed phase commits (R214). With REL it is not performed
before the writes to the own cell that its context holds (R277), which only a commit lets go. No rule names one here. DEDUCED, log entry 67: it
commits first. -/
def baraHere (n : Nat) (h : Head) (b : Nat) (ord : Order) (s : State) : Out :=
  if !s.me.guard h then finishLen n (.done s)
  else if s.me.acquiring then finishLen n (.wait .acquire s)
  else match barTrap s b .cell true with
  | some t => finishLen n (.trap t s)
  | none =>
    if ord.rel && s.holdsOwn s.cur then finishLen n (.wait (.releases (some .cell)) (s.commit s.cur 1))
    else if ord.rel && !s.relClear s.cur .cell then finishLen n (.wait (.releases (some .cell)) s)
    else
      let s := s.settleNear s.cur []
      let deps := if ord.rel then s.relDepsOf s.cur s.me.deps else []
      let (_, completes) := (s.myCell.bar b).arrive s.cur.cell deps
      if completes then
        let s := s.recordArrival b
        finish (.done (s.setMyCell (s.myCell.setBar b ((s.myCell.bar b).arrive s.cur.cell deps).1)))
          fun s => (s.setMe (s.me.past n)).commit s.cur 1
      else finishLen n (withRoom s 0 2 fun s =>
        let s := (s.journal (.arrival b (s.myCell.bar b).phase)).recordArrival b
        .done (s.setMyCell (s.myCell.setBar b ((s.myCell.bar b).arrive s.cur.cell deps).1)))

/-- The configuration word of a barrier. -/
def Barrier.config (x : Barrier) : W64 := BitVec.ofNat 64 (x.span * 2 ^ 32 + x.parties.toNat)

def execBara (h : Head) (bar : BitVec 6) (ord : Order) (s : State) : Out :=
  let n := lenOf h false
  let b := bar.toNat
  if ord.scope == .cell then baraHere n h b ord s
  else boundary n s fun s =>
    if !s.me.guard h then .done s
    else afterAcquire s <| match barTrap s b ord.scope true with
    | some t => .trap t s
    | none => withRoom s 16 0 fun s =>
      let s := s.recordArrival b
      .done (s.setMe (s.me.hold [{ bytes := 16, rel := if ord.rel then some ord.scope else none
                                   body := .arrive b (s.myCell.bar b).config }]))

/-- A latched configuration error of an arrival, raised by BARW, BART and FENCE (R214). -/
def raiseBarrier (s : State) (k : Res) : Res :=
  match s.me.latched with
  | some (cause, addr) =>
    if cause == causeBarrierConfig then
      .trap { cause, addr, count := count32 s.me.latchCount } (s.setMe { s.me with latched := none, latchCount := 0 })
    else k
  | none => k

/-- What a wait on a barrier that sees phase p completed takes up: what the arrivals of that phase released (R276). -/
def State.barAcquire (s : State) (b : Nat) (p : W32) (ord : Order) : State :=
  if ord.acq then s.acquired s.cur (((s.myCell.bar b).pdeps.filter fun y => y.1 == p).flatMap (·.2)) else s

/-- The phase that BARW waits on: the one of its own first issue where the context has no arrival record (R214). -/
def State.barPhase (s : State) (b : Nat) : W32 :=
  match s.me.wait with
  | some (.barrier c p) => if c == b then p else (s.me.arrival b).getD (s.myCell.bar b).phase
  | _ => (s.me.arrival b).getD (s.myCell.bar b).phase

def execBarw (h : Head) (bar : BitVec 6) (ord : Order) (s : State) : Out :=
  finishLen (lenOf h false) (
    let b := bar.toNat
    let p := s.barPhase b
    if !s.me.guard h then .done s
    else afterAcquire s <| raiseBarrier s (match barTrap s b ord.scope false with
      | some t => .trap t s
      | none =>
        if (s.myCell.bar b).phase != p then .done ((s.settleNear s.cur []).barAcquire b p ord) else .wait (.barrier b p) s))

def execBart (h : Head) (bar : BitVec 6) (ord : Order) (pd : PReg) (s : State) : Out :=
  finishLen (lenOf h false) (
    let b := bar.toNat
    let x := s.myCell.bar b
    let p := (s.me.arrival b).getD x.phase
    let got := x.phase != p
    if !s.me.guard h then .done s
    else afterAcquire s <| raiseBarrier s (match barTrap s b ord.scope false with
      | some t => .trap t s
      | none =>
        let s := s.settleNear s.cur []
        let s := if got then s.barAcquire b p ord else s
        .done (s.setMe (s.me.setK pd.toNat got))))

/-! ### Joins -/

/-- A join put into its place: the one its activation kept, else the first that nobody keeps, else behind the others (R215). -/
def presentJoin (j : Join) (l : List Join) : List Join :=
  if l.any fun y => !y.present && y.owned && y.act == j.act then go (fun y => !y.present && y.owned && y.act == j.act) l
  else if l.any fun y => !y.owned then go (fun y => !y.owned) l
  else l ++ [j]
where
  /-- The first place that a test picks taken. -/
  go (p : Join → Bool) : List Join → List Join
    | [] => []
    | y :: ys => if p y then j :: ys else y :: go p ys

/-- The wire of a scope: the quadrille's or the cluster's (R215). -/
def wireOf (cell : Nat) (cluster : Bool) : Wire := if cluster then .cluster (cell / 16) else .row (rowOf cell)

/-- The joins of a cell on a wire. -/
def Cell.joins (c : Cell) : Wire → List Join
  | .row _ => c.rowJoins
  | .cluster _ => c.clusterJoins
/-- The cell with its joins on a wire replaced. -/
def Cell.setJoins (c : Cell) (w : Wire) (l : List Join) : Cell :=
  match w with
  | .row _ => { c with rowJoins := l }
  | .cluster _ => { c with clusterJoins := l }

/-- The issuing context presents a join and waits for its match (R215). -/
def present (s : State) (kind : JoinKind) (cluster : Bool) (len : Nat) : Res :=
  let w := wireOf s.cur.cell cluster
  let c := s.myCell
  let j : Join := { kind, ctx := s.cur.ctx, act := s.me.act, len }
  .wait (.join w) (s.setMyCell (c.setJoins w (presentJoin j (c.joins w))))

def execGang (h : Head) (scope : Scope) (s : State) : Out :=
  boundary (lenOf h false) s fun s =>
    if !s.me.guard h then .done s else present s .gang (scope == .cluster) (lenOf h false)

end Sys2Proof.Machine
end

