-- ==== Sys2Proof/Machine/Once.lean ====
section
/-! DEFINITION. Fetching an instruction (R49, R70), and the ONCE prefix (R67, R217). -/

namespace Sys2Proof.Machine

/-- Word a of a cell's instruction store. -/
def State.iword (s : State) (cell a : Nat) : W32 := BitVec.ofNat 32 (readLE s.mem (cellKey cell (0x80000 + 4 * a)) 4)

/-- What a word that has been written under an activation shows it, given what stood there before each of the writes, the earliest first:
the value before a write that it does not see, or the current one. -/
def seenWord (sees : OldWord → Bool) (now : W32) : List OldWord → W32
  | [] => now
  | o :: rest => if sees o then seenWord sees now rest else o.value

/-- Word a as an activation fetches it: as the store stood when its set was formed, or as a write since has left it, independently for
each word and fetch (R287). -/
def State.wordFor (s : State) (w : Who) (a : Nat) : W32 :=
  let x := s.ctx w
  if x.status == .free then s.iword w.cell a
  else seenWord (fun o => Config.seesNew ((x.begun * 4096 + w.cell) * 16384 + a) (o.stamp * 2 ^ 64 + x.ran)) (s.iword w.cell a)
    ((s.cell w.cell).oldWords.filter fun o => o.word == a && x.act < o.stamp)

/-- The words from an address on as a context fetches them, five at most, up to the end of the store (R49, R287). -/
def State.fetchWords (s : State) (w : Who) (a : Nat) : List W32 :=
  ((List.range 5).filter fun k => a + k < 0x4000).map fun k => s.wordFor w (a + k)

/-- The instruction at a context's program counter. -/
def State.fetch (s : State) (w : Who) : Decoded :=
  let r := (s.ctx w).r
  if r.pastEnd then .bad .istoreBounds else decode (s.fetchWords w r.pc.toNat)

/-- The cause of a failed decoding check (R70). -/
def decodeCause : DecodeError → BitVec 7
  | .istoreBounds => causeIstoreBounds
  | .illegalEncoding => causeIllegalEncoding
  | .reservedField => causeReservedField
  | .registerRange => causeRegisterRange
  | .literalMisuse => causeLiteralMisuse
  | .prefixMisuse => causePrefixMisuse

/-- The scalar registers and scalar predicates that an instruction writes, for one that may follow ONCE; none for any other (R67):
lane-class and boundary instructions, far branches, local control, and ONCE itself. -/
def onceWrites : Instr → Option (Head × List Nat × List Nat)
  | .sadd h d _ _ => some (h, [d.toNat], [])
  | .ssub h d _ _ => some (h, [d.toNat], [])
  | .smul h d _ _ => some (h, [d.toNat], [])
  | .smulh h _ d _ _ => some (h, [d.toNat], [])
  | .sdiv h _ d _ _ => some (h, [d.toNat], [])
  | .srem h _ d _ _ => some (h, [d.toNat], [])
  | .sand h d _ _ => some (h, [d.toNat], [])
  | .sor h d _ _ => some (h, [d.toNat], [])
  | .sxor h d _ _ => some (h, [d.toNat], [])
  | .sshl h d _ _ => some (h, [d.toNat], [])
  | .sshr h d _ _ => some (h, [d.toNat], [])
  | .ssar h d _ _ => some (h, [d.toNat], [])
  | .smov h d _ => some (h, [d.toNat], [])
  | .slea h _ _ d _ _ => some (h, [d.toNat], [])
  | .smin h _ d _ _ => some (h, [d.toNat], [])
  | .smax h _ d _ _ => some (h, [d.toNat], [])
  | .scmp h _ pd pe _ _ => some (h, [], pd.toNat :: (pe.toList.map (·.toNat)))
  | .sbfx h _ d _ _ => some (h, [d.toNat], [])
  | .sbfi h d _ _ => some (h, [d.toNat], [])
  | .sclz h d _ => some (h, [d.toNat], [])
  | .spopc h d _ => some (h, [d.toNat], [])
  | .sfmul h _ d _ _ => some (h, [d.toNat], [])
  | .sfadd h _ d _ _ => some (h, [d.toNat], [])
  | .sfma h _ d _ _ _ => some (h, [d.toNat], [])
  | .saddi h d _ _ => some (h, [d.toNat], [])
  | .lds h _ d _ => some (h, [d.toNat], [])
  | .sts h _ _ _ => some (h, [], [])
  | .qstat h d _ => some (h, [d.toNat], [])
  | .qdrop h _ => some (h, [], [])
  | .tagw h _ _ => some (h, [], [])
  | .tagi h _ _ _ => some (h, [], [])
  | .fence h _ => some (h, [], [])
  | .send h _ _ _ => some (h, [], [])
  | .chbind h _ _ _ => some (h, [], [])
  | .chclose h _ => some (h, [], [])
  | .chstat h d _ => some (h, [d.toNat], [])
  | .chunbind h _ => some (h, [], [])
  | .barc h _ _ => some (h, [], [])
  | .bara h _ ord => if ord.scope == .cell then some (h, [], []) else none
  | .barw h _ _ => some (h, [], [])
  | .bart h _ _ pd => some (h, [], [pd.toNat])
  | .step h _ _ _ => some (h, [], [])
  | .stepend h => some (h, [], [])
  | .slack h d => some (h, [d.toNat], [])
  | .sleept h _ => some (h, [], [])
  | .tdset h _ _ _ => some (h, [], [])
  | .tdget h _ _ d => some (h, [d.toNat], [])
  | .accz h _ => some (h, [], [])
  | .accld h _ _ _ => some (h, [], [])
  | .accst h _ _ _ _ _ => some (h, [], [])
  | .twset h _ _ => some (h, [], [])
  | .twmap h d _ _ => some (h, [d.toNat], [])
  | .twtest h _ pd _ _ => some (h, [], [pd.toNat])
  | .twwait h _ _ _ _ => some (h, [], [])
  | .nop h => some (h, [], [])
  | .trap h _ => some (h, [], [])
  | .mts h _ _ => some (h, [], [])
  | .ckpt h => some (h, [], [])
  | .brk h _ => some (h, [], [])
  | _ => none

/-- Check 7 of R70 for an instruction that may follow ONCE: SEND of a system class, and MTS of INBOXCFG. -/
def oncePrivileged : Instr → Bool
  | .send _ cls _ _ => decide (cls.toNat < 7)
  | .mts _ sreg _ => sreg == 0x16 || sreg == 0x04
  | _ => false

/-- The instruction after a prefix, with its words, or the cause of the first check that fails (R67, R70). -/
def State.follower (s : State) (w : Who) : (Instr × Nat) ⊕ BitVec 7 :=
  match decode (s.fetchWords w ((s.ctx w).r.pc.toNat + 1)) with
  | .bad e => .inr (decodeCause e)
  | .ok i n =>
    if (onceWrites i).isNone then .inr causePrefixMisuse
    else if oncePrivileged i && !(s.ctx w).priv then .inr causePrivileged
    else .inl (i, n)

/-- ONCE is a boundary instruction that presents its join; JOIN_MATCH lets the master issue the following instruction alone (R42,
R217). Whether the commit before ONCE is made when the following word fails its checks (R42, R67, R70) the reference does not say. DESIGN
CHOICE, log entry 70: it is not, and the trap aborts the segment that was running. -/
def execOnce (cluster : Bool) (s : State) : Out :=
  match s.follower s.cur with
  | .inr cause => finish (.trap { cause } s) id
  | .inl (_, n) => boundary (1 + n) s fun s => present s .once cluster (1 + n)

/-- The master's context as its ONCE has matched: it stands at the following instruction. The registers that will be posted are
those which that instruction writes under its guard. -/
def State.onceStart (s : State) (master : Who) (wire : Wire) (members : List (Who × Nat × Nat)) : State :=
  let x := s.ctx master
  let (sr, kr) := match s.follower master with
    | .inl (i, _) => match onceWrites i with
      | some (h, sr, kr) => if x.guard h then (sr, kr) else ([], [])
      | none => ([], [])
    | .inr _ => ([], [])
  let s := members.foldl (fun s m => s.setCtx m.1 { s.ctx m.1 with wait := some (.joined wire) }) s
  s.setCtx master { x with
    wait := none, r := { x.r with pc := x.r.pc + 1 }
    once := some { at_ := x.r.pc, wire, sregs := sr, kregs := kr, members } }

/-- The first place of a cell's order on a wire taken out, when its join has been matched and done. -/
def State.dropJoin (s : State) (cell : Nat) (wire : Wire) : State :=
  let c := s.cell cell
  s.setCell cell (c.setJoins wire ((c.joins wire).drop 1))

/-- A member of a ONCE whose master is done: it takes the posted values and passes both words (R217). -/
def State.oncePost (s : State) (x : Ctx) (o : OnceRun) (m : Who × Nat × Nat) : State :=
  let y := s.ctx m.1
  if y.wait == some (.joined o.wire) && y.act == m.2.1 then
    let y := o.sregs.foldl (fun y r => y.setS r (x.s r)) y
    let y := o.kregs.foldl (fun y r => y.setK r (x.k r)) y
    (s.setCtx m.1 (y.past m.2.2)).commit m.1 3
  else s

/-- The end of a ONCE, when the master has executed the following instruction: the values are posted, and every member commits, once the
master's commit need not wait for an acquire (R217, R278). -/
def State.onceAfter (s : State) (w : Who) : State :=
  let x := s.ctx w
  match x.once with
  | none => s
  | some o =>
    if x.wait.isSome then s
    else if x.commitWaits then s.setCtx w { x with wait := some .posting }
    else
      let s := s.setCtx w { x with once := none }
      let s := o.members.foldl (fun s m => s.dropJoin m.1.cell o.wire) s
      let s := (o.members.filter fun m => m.1 != w).foldl (fun s m => s.oncePost x o m) s
      s.commit w 3

/-- ILLEGAL_ENCODING: the word at the program counter stands for no instruction, and the context traps with the cause of the first
check that fails (R70, R88). -/
def execIllegalEncoding (s : State) : Out :=
  match s.fetch s.cur with
  | .bad e => .next (s.takeTrap s.cur { cause := decodeCause e })
  | .ok _ _ => .refused (.notEnabled "ILLEGAL_ENCODING")

end Sys2Proof.Machine
end

