-- ==== Sys2Proof/Machine/Lane.lean ====
section
/-! DEFINITION. Lane integer and data movement (R105 to R124), one meaning per instruction. -/

namespace Sys2Proof.Machine

/-! ### What one lane computes -/

def addOp (t : Ty) (sat : Bool) (a b : W64) : W64 := narrow t sat (intOf t a + intOf t b)
def subOp (t : Ty) (sat : Bool) (a b : W64) : W64 := narrow t sat (intOf t a - intOf t b)
def mulOp (t : Ty) (sat : Bool) (a b : W64) : W64 := narrow t sat (intOf t a * intOf t b)
def madOp (t : Ty) (sat : Bool) (a b c : W64) : W64 := narrow t sat (intOf t a * intOf t b + intOf t c)
/-- The upper half of the exact product (R110). -/
def mulhOp (t : Ty) (a b : W64) : W64 := BitVec.ofInt 64 (intOf t a * intOf t b / 2 ^ width t)
def minOp (t : Ty) (a b : W64) : W64 := if intOf t b < intOf t a then b else a
def maxOp (t : Ty) (a b : W64) : W64 := if intOf t a < intOf t b then b else a
def absOp (t : Ty) (sat : Bool) (a : W64) : W64 := narrow t sat (if intOf t a < 0 then -intOf t a else intOf t a)
def negOp (t : Ty) (sat : Bool) (a : W64) : W64 := narrow t sat (-intOf t a)

/-- The low bits of a value that a type reads. -/
def lowBits (t : Ty) (a : W64) : W64 := if t.wide then a else (a.extractLsb' 0 32).setWidth 64
/-- Shifts by an unreduced count (R113). -/
def shlOp (t : Ty) (a : W64) (n : Nat) : W64 := if n < width t then a <<< n else 0
def shrOp (t : Ty) (a : W64) (n : Nat) : W64 := if n < width t then lowBits t a >>> n else 0
def sarOp (t : Ty) (a : W64) (n : Nat) : W64 :=
  let n := if n < width t then n else width t
  if t.wide then a.sshiftRight n else ((a.extractLsb' 0 32).sshiftRight n).setWidth 64
def rolOp (t : Ty) (a : W64) (n : Nat) : W64 :=
  if t.wide then a.rotateLeft n else ((a.extractLsb' 0 32).rotateLeft n).setWidth 64

/-- BFX on w bits: pos in [7:0] and len in [15:8] of the descriptor (R114). -/
def bfxOp (w : Nat) (signed : Bool) (a : Nat) (desc : Nat) : Nat :=
  let pos := desc % 256
  let len := desc / 256 % 256
  if w ≤ pos || len == 0 then 0
  else
    let f := a / 2 ^ pos % 2 ^ len
    let top := (if len < w then len else w) - 1
    if signed && f / 2 ^ top % 2 == 1 then f + (2 ^ 64 - 2 ^ (top + 1)) else f
/-- BFI on w bits: the bits of the field inside [w−1:0] replaced by low bits of a (R114). -/
def bfiOp (w : Nat) (d a : Nat) (desc : Nat) : Nat :=
  let pos := desc % 256
  let len := desc / 256 % 256
  if w ≤ pos || len == 0 then d
  else
    let len := if pos + len < w then len else w - pos
    d - d / 2 ^ pos % 2 ^ len * 2 ^ pos + a % 2 ^ len * 2 ^ pos

/-- The count of leading zeros of a w-bit number. -/
def clzOp (w a : Nat) : Nat := if a = 0 then w else w - 1 - a.log2
/-- The bits of a 32-bit number in reverse order. -/
def rev32 (a : W32) : W32 := maskOf fun i => a.getLsbD (31 - i)
/-- BREV (R115). -/
def brevOp (t : Ty) (a : W64) : W64 :=
  if t.wide then rev32 (a.extractLsb' 0 32) ++ rev32 (a.extractLsb' 32 32)
  else (rev32 (a.extractLsb' 0 32)).setWidth 64

/-! ### Arithmetic (R109 to R111) -/

def execAdd (h : Head) (t : Ty) (sat : Bool) (d : Reg) (a : SrcA) (b : SrcB) (s : State) : Out :=
  finishLen (lenOf h (litB b)) (laneOp s h t.wide d t.wide a fun x L v => addOp t sat v (x.laneB b t.wide L))
def execSub (h : Head) (t : Ty) (sat : Bool) (d : Reg) (a : SrcA) (b : SrcB) (s : State) : Out :=
  finishLen (lenOf h (litB b)) (laneOp s h t.wide d t.wide a fun x L v => subOp t sat v (x.laneB b t.wide L))
def execAdds (h : Head) (t : Ty) (sat : Bool) (d : Reg) (a : SrcA) (b : SrcB) (s : State) : Out :=
  finishLen (lenOf h (litB b)) (laneOp s h t.wide d t.wide a fun x _ v => addOp t sat v (x.bcastB b t.wide))
def execSubs (h : Head) (t : Ty) (sat : Bool) (d : Reg) (a : SrcA) (b : SrcB) (s : State) : Out :=
  finishLen (lenOf h (litB b)) (laneOp s h t.wide d t.wide a fun x _ v => subOp t sat v (x.bcastB b t.wide))
def execMul (h : Head) (t : Ty) (sat : Bool) (d : Reg) (a : SrcA) (b : SrcB) (s : State) : Out :=
  finishLen (lenOf h (litB b)) (laneOp s h t.wide d t.wide a fun x L v => mulOp t sat v (x.laneB b t.wide L))
def execMulh (h : Head) (t : Ty) (d : Reg) (a : SrcA) (b : SrcB) (s : State) : Out :=
  finishLen (lenOf h (litB b)) (laneOp s h t.wide d t.wide a fun x L v => mulhOp t v (x.laneB b t.wide L))
def execMad (h : Head) (t : Ty) (sat : Bool) (d : Reg) (a : SrcA) (b : SrcB) (c : Reg) (s : State) : Out :=
  finishLen (lenOf h (litB b))
    (laneOp s h t.wide d t.wide a fun x L v => madOp t sat v (x.laneB b t.wide L) (x.laneR c t.wide L))
def execMin (h : Head) (t : Ty) (d : Reg) (a : SrcA) (b : SrcB) (s : State) : Out :=
  finishLen (lenOf h (litB b)) (laneOp s h t.wide d t.wide a fun x L v => minOp t v (x.laneB b t.wide L))
def execMax (h : Head) (t : Ty) (d : Reg) (a : SrcA) (b : SrcB) (s : State) : Out :=
  finishLen (lenOf h (litB b)) (laneOp s h t.wide d t.wide a fun x L v => maxOp t v (x.laneB b t.wide L))
def execAbs (h : Head) (t : Ty) (sat : Bool) (d : Reg) (a : SrcA) (s : State) : Out :=
  finishLen (lenOf h false) (laneOp s h t.wide d t.wide a fun _ _ v => absOp t sat v)
def execNeg (h : Head) (t : Ty) (sat : Bool) (d : Reg) (a : SrcA) (s : State) : Out :=
  finishLen (lenOf h false) (laneOp s h t.wide d t.wide a fun _ _ v => negOp t sat v)

/-! ### Logic, shifts and bit fields (R112 to R115) -/

def execAnd (h : Head) (t : Ty) (d : Reg) (a : SrcA) (b : SrcB) (s : State) : Out :=
  finishLen (lenOf h (litB b)) (laneOp s h t.wide d t.wide a fun x L v => v &&& x.laneB b t.wide L)
def execOr (h : Head) (t : Ty) (d : Reg) (a : SrcA) (b : SrcB) (s : State) : Out :=
  finishLen (lenOf h (litB b)) (laneOp s h t.wide d t.wide a fun x L v => v ||| x.laneB b t.wide L)
def execXor (h : Head) (t : Ty) (d : Reg) (a : SrcA) (b : SrcB) (s : State) : Out :=
  finishLen (lenOf h (litB b)) (laneOp s h t.wide d t.wide a fun x L v => v ^^^ x.laneB b t.wide L)
def execAndn (h : Head) (t : Ty) (d : Reg) (a : SrcA) (b : SrcB) (s : State) : Out :=
  finishLen (lenOf h (litB b)) (laneOp s h t.wide d t.wide a fun x L v => v &&& ~~~(x.laneB b t.wide L))
def execNot (h : Head) (t : Ty) (d : Reg) (a : SrcA) (s : State) : Out :=
  finishLen (lenOf h false) (laneOp s h t.wide d t.wide a fun _ _ v => ~~~v)
def execShl (h : Head) (t : Ty) (d : Reg) (a : SrcA) (b : SrcB) (s : State) : Out :=
  finishLen (lenOf h (litB b)) (laneOp s h t.wide d t.wide a fun x L v => shlOp t v (x.laneB b false L).toNat)
def execShr (h : Head) (t : Ty) (d : Reg) (a : SrcA) (b : SrcB) (s : State) : Out :=
  finishLen (lenOf h (litB b)) (laneOp s h t.wide d t.wide a fun x L v => shrOp t v (x.laneB b false L).toNat)
def execSar (h : Head) (t : Ty) (d : Reg) (a : SrcA) (b : SrcB) (s : State) : Out :=
  finishLen (lenOf h (litB b)) (laneOp s h t.wide d t.wide a fun x L v => sarOp t v (x.laneB b false L).toNat)
def execRol (h : Head) (t : Ty) (d : Reg) (a : SrcA) (b : SrcB) (s : State) : Out :=
  finishLen (lenOf h (litB b)) (laneOp s h t.wide d t.wide a fun x L v => rolOp t v (x.laneB b false L).toNat)
def execBfx (h : Head) (t : Ty) (d : Reg) (a : SrcA) (b : SrcB) (s : State) : Out :=
  finishLen (lenOf h (litB b)) (laneOp s h t.wide d t.wide a fun x L v =>
    BitVec.ofNat 64 (bfxOp (width t) (isSigned t) (lowBits t v).toNat (x.laneB b false L).toNat))
def execBfi (h : Head) (t : Ty) (d : Reg) (a : SrcA) (b : SrcB) (s : State) : Out :=
  finishLen (lenOf h (litB b)) (laneOp s h t.wide d t.wide a fun x L v =>
    BitVec.ofNat 64 (bfiOp (width t) (x.laneR d t.wide L).toNat (lowBits t v).toNat (x.laneB b false L).toNat))
def execPopc (h : Head) (t : Ty) (d : Reg) (a : SrcA) (s : State) : Out :=
  finishLen (lenOf h false) (laneOp s h t.wide d false a fun _ _ v => BitVec.ofNat 64 (popCount (lowBits t v)))
def execClz (h : Head) (t : Ty) (d : Reg) (a : SrcA) (s : State) : Out :=
  finishLen (lenOf h false) (laneOp s h t.wide d false a fun _ _ v => BitVec.ofNat 64 (clzOp (width t) (lowBits t v).toNat))
def execBrev (h : Head) (t : Ty) (d : Reg) (a : SrcA) (s : State) : Out :=
  finishLen (lenOf h false) (laneOp s h t.wide d t.wide a fun _ _ v => brevOp t v)

/-! ### Moving values (R116 to R124) -/

def execSel (h : Head) (t : Ty) (d : Reg) (a : SrcA) (b : SrcB) (pc : PReg) (s : State) : Out :=
  finishLen (lenOf h (litB b)) (laneOp s h t.wide d t.wide a fun x L v =>
    if (x.p pc.toNat).getLsbD L then v else x.laneB b t.wide L)
def execMov (h : Head) (t : Ty) (d : Reg) (b : SrcB) (s : State) : Out :=
  finishLen (lenOf h (litB b))
    (.done (s.setMe (s.me.put d t.wide (s.me.active h) fun L => s.me.laneB b t.wide L)))

/-- A lane instruction whose result is one scalar register, written only when a lane is active (R106). -/
def toScalar (s : State) (h : Head) (wide : Bool) (d : Reg) (a : SrcA) (f : Ctx → W32 → (Nat → W64) → W64) : Res :=
  (s.laneA a wide (s.me.active h)).then fun va s =>
    .done (if s.me.active h == 0 then s else s.setMe (s.me.setS d.toNat (f s.me (s.me.active h) va)))

/-- A 32-bit or 64-bit lane value as a scalar register holds it: sign-extended for S types (R118, R123). -/
def toS (t : Ty) (v : W64) : W64 :=
  if t.wide then v
  else if isSigned t then (v.extractLsb' 0 32).signExtend 64 else (v.extractLsb' 0 32).setWidth 64

def execMovs (h : Head) (t : Ty) (d : Reg) (a : SrcA) (b : SrcB) (s : State) : Out :=
  finishLen (lenOf h (litB b)) (toScalar s h t.wide d a fun x _ va => toS t (va ((x.scalarB b).toNat % 32)))

/-- The source lane of SHFL (R121); none outside 0 to 31. -/
def shflFrom (m : ShflMode) (L i : Nat) : Option Nat :=
  match m with
  | .indexed => some (i % 32)
  | .up => if i ≤ L then some (L - i) else none
  | .down => if L + i < 32 then some (L + i) else none
  | .xor => some (L ^^^ (i % 32))
def execShfl (h : Head) (mode : ShflMode) (t : Ty) (d : Reg) (a : SrcA) (b : SrcB) (s : State) : Out :=
  finishLen (lenOf h (litB b)) ((s.laneA a t.wide (s.me.active h)).then fun va s =>
    let act := s.me.active h
    .done (s.setMe (s.me.put d t.wide act fun L =>
      match shflFrom mode L (s.me.laneB b false L).toNat with
      | some j => if act.getLsbD j then va j else va L
      | none => va L)))

def execVote (h : Head) (d : Reg) (pa : PReg) (s : State) : Out :=
  finishLen (lenOf h false)
    (.done (if s.me.active h == 0 then s
      else s.setMe (s.me.setS d.toNat ((s.me.active h &&& s.me.p pa.toNat).setWidth 64))))

/-- One combination of REDS and SCAN; B types wrap and compare unsigned (R92, R123). -/
def combine (o : RedOp) (t : Ty) (x y : W64) : W64 :=
  match o with
  | .add => x + y
  | .min => minOp t x y
  | .max => maxOp t x y
  | .and => x &&& y
  | .or => x ||| y
  | .xor => x ^^^ y
/-- The identity of a combination (R124). -/
def identity (o : RedOp) (t : Ty) : W64 :=
  match o with
  | .add | .or | .xor => 0
  | .and => if t.wide then 0xFFFFFFFFFFFFFFFF else 0xFFFFFFFF
  | .min => BitVec.ofInt 64 (intMax t)
  | .max => BitVec.ofInt 64 (intMin t)
/-- The combination over lanes in ascending order, from a start. -/
def reduce (o : RedOp) (t : Ty) (va : Nat → W64) (ls : List Nat) (start : W64) : W64 :=
  ls.foldl (fun acc L => combine o t acc (va L)) start
def execReds (h : Head) (rop : RedOp) (t : Ty) (d : Reg) (a : SrcA) (s : State) : Out :=
  finishLen (lenOf h false) (toScalar s h t.wide d a fun _ act va =>
    toS t (reduce rop t va (lanesOf act) (identity rop t)))
def execScan (h : Head) (rop : RedOp) (excl : Bool) (t : Ty) (d : Reg) (a : SrcA) (s : State) : Out :=
  finishLen (lenOf h false) ((s.laneA a t.wide (s.me.active h)).then fun va s =>
    let act := s.me.active h
    .done (s.setMe (s.me.put d t.wide act fun L =>
      reduce rop t va ((lanesOf act).filter fun j => if excl then j < L else j ≤ L) (identity rop t))))

def execAddi (h : Head) (d : Reg) (ra : Reg) (imm9 : BitVec 9) (s : State) : Out :=
  finishLen (lenOf h false)
    (.done (s.setMe (s.me.setV d.toNat (s.me.active h) fun L => s.me.vl ra.toNat L + imm9.signExtend 32)))

/-- Width w_k of WIDW (R35). -/
def widwAt (w : BitVec 42) (k : Nat) : Nat := w.toNat / 2 ^ (7 * k) % 128
/-- Level k of a WID under WIDW (R35). -/
def widLevel (wid : W64) (w : BitVec 42) (k : Nat) : W64 :=
  let above := ((List.range k).map (widwAt w)).sum
  let n := widwAt w k
  if n == 0 || 64 < above + n then 0 else BitVec.ofNat 64 (wid.toNat / 2 ^ (64 - above - n) % 2 ^ n)
def execWidf (h : Head) (lvl : BitVec 4) (d : Reg) (s : State) : Out :=
  finishLen (lenOf h false)
    (.done (s.setMe (s.me.setVp d.toNat (s.me.active h) fun L =>
      widLevel (s.me.hdr L).wid (s.me.hdr L).widw lvl.toNat)))

end Sys2Proof.Machine
end

