-- ==== Sys2Proof/Machine/Memory.lean ====
section
/-! DEFINITION. The memory family (R165 to R197): local scratch, data queues, remote accesses, tags, atomics and FENCE, one meaning
per instruction. -/

namespace Sys2Proof.Machine

/-! ### Local scratch (R168 to R171) -/

/-- The scratch offset of an address that has passed its checks. -/
def State.offOf (s : State) (ea : W64) (n : Nat) : Nat := (s.localOffset ea n).getD 0

/-- Whether a segment has journalled an aligned word (R170). -/
def Ctx.journalled (x : Ctx) (word : Nat) : Bool :=
  x.journal.any fun j => match j with
    | .word o _ => o == word
    | _ => false

/-- The records that a store of lanes adds to a journal (R170). -/
def State.newWords (s : State) (f : Nat → W64) (n : Nat) (l : List Nat) : Nat :=
  ((l.map fun L => s.offOf (f L) n / 8 * 8).eraseDups.filter fun w => !s.me.journalled w).length

/-- The old value of an aligned word journalled once in the segment (R170). -/
def State.journalOnce (s : State) (word : Nat) : State :=
  if s.me.journalled word then s
  else
    let s := s.settleFor s.cur.cell word 8
    let old := BitVec.ofNat 64 (readLE s.mem (cellKey s.cur.cell word) 8)
    s.setMe { s.me with journal := s.me.journal ++ [.word word old] }

/-- One local store, or the write of an ATOM: journalled, then in the bank write queue (R168, R171). -/
def State.storeLocal (s : State) (off n : Nat) (data : W64) (atom : Bool := false) : State :=
  let s := s.journalOnce (off / 8 * 8)
  let c := s.myCell
  s.setMyCell { c with bankQ := c.bankQ ++ [{ ctx := s.cur.ctx, off, size := n, data, stamp := s.nextId, atom }] }

/-- Whether an LDQ or ATOMX of the context to its own cell is not yet performed. -/
def Ctx.ownPending (x : Ctx) (cell : Nat) : Bool := x.out.any fun o => o.bytes == 0 && o.home == .cell cell

/-- A local access waits for an acquire, and for the LDQs and ATOMXs of its context to the own cell: accesses to the own scratchpad are
performed in program order (R171, R179). -/
def localAccess (s : State) (k : Res) : Res :=
  afterAcquire s (if s.me.ownPending s.cur.cell then .wait .ownAccess s else k)

def execLd (h : Head) (t : Ty) (d : Reg) (m : Addr) (s : State) : Out :=
  finishLen (lenOf h (litB m.idx)) (localAccess s (
    let x := s.me
    let n := sizeOf t
    let act := x.active h
    match s.localTraps (x.laneAddr m) n causeMisaligned (lanesOf act) with
    | some t => .trap t s
    | none =>
      let s := s.settleNear s.cur ((lanesOf act).map fun L => (s.offOf (x.laneAddr m L) n, n))
      .done (s.setMe (s.me.put d t.wide act fun L =>
        extendTo t (readLE s.mem (cellKey s.cur.cell (s.offOf (x.laneAddr m L) n)) n)))))

def execSt (h : Head) (t : Ty) (d : Reg) (m : Addr) (s : State) : Out :=
  finishLen (lenOf h (litB m.idx)) (localAccess s (
    let x := s.me
    let n := sizeOf t
    let l := lanesOf (x.active h)
    match s.localTraps (x.laneAddr m) n causeMisaligned l with
    | some t => .trap t s
    | none => withRoomOf s (fun s => (0, s.newWords (x.laneAddr m) n l)) fun s =>
      .done (l.foldl (fun s L => s.storeLocal (s.offOf (x.laneAddr m L) n) n (x.laneR d t.wide L)) s)))

def execLds (h : Head) (t : Ty) (d : Reg) (m : Addr) (s : State) : Out :=
  finishLen (lenOf h (litB m.idx)) (
    let x := s.me
    let n := sizeOf t
    let ea := x.scalarAddr m
    if !x.guard h then .done s
    else localAccess s (match s.localTrap ea n causeMisaligned with
      | some t => .trap t s
      | none =>
        let s := s.settleNear s.cur [(s.offOf ea n, n)]
        .done (s.setMe (s.me.setS d.toNat (extendTo t (readLE s.mem (cellKey s.cur.cell (s.offOf ea n)) n))))))

def execSts (h : Head) (t : Ty) (d : Reg) (m : Addr) (s : State) : Out :=
  finishLen (lenOf h (litB m.idx)) (
    let x := s.me
    let n := sizeOf t
    let ea := x.scalarAddr m
    if !x.guard h then .done s
    else localAccess s (match s.localTrap ea n causeMisaligned with
      | some t => .trap t s
      | none => withRoomOf s (fun s => (0, s.newWords (fun _ => ea) n [0])) fun s => .done (s.storeLocal (s.offOf ea n) n (x.s d.toNat))))

/-! ### The new value of an atomic (R191) -/

/-- The value that an atomic writes over m, in a type of 32 or 64 bits. -/
def atomNew (op : AtomOp) (t : Ty) (m c e : W64) : W64 :=
  match op with
  | .add => m + c
  | .and => m &&& c
  | .or => m ||| c
  | .xor => m ^^^ c
  | .min => minOp t m c
  | .max => maxOp t m c
  | .swap => c
  | .cas => if lowBits t m == lowBits t e then c else m

/-- ATOM lane by lane: each reads what the queued writes to its word and the lane before it leave, and its own write goes into the bank write
queue, which no other write to the word passes (R171, R192, R271). -/
def atomLanes (x : Ctx) (op : AtomOp) (t : Ty) (f : Nat → W64) (c e : Reg) : List Nat → State → List (Nat × W64) × State
  | [], s => ([], s)
  | L :: ls, s =>
    let n := sizeOf t
    let off := s.offOf (f L) n
    let s := s.settleFor s.cur.cell off n
    let m := BitVec.ofNat 64 (readLE s.mem (cellKey s.cur.cell off) n)
    let s := s.storeLocal off n (atomNew op t m (x.laneR c t.wide L) (x.laneR e t.wide L)) true
    let (l, s) := atomLanes x op t f c e ls s
    ((L, m) :: l, s)

def execAtom (h : Head) (aop : AtomOp) (t : Ty) (d : Reg) (m : Addr) (c e : Reg) (s : State) : Out :=
  finishLen (lenOf h (litB m.idx)) (localAccess s (
    let x := s.me
    let n := sizeOf t
    let l := lanesOf (x.active h)
    match s.localTraps (x.laneAddr m) n causeAtomicMisaligned l with
    | some t => .trap t s
    | none => withRoomOf s (fun s => (0, s.newWords (x.laneAddr m) n l)) fun s =>
      let (got, s) := atomLanes x aop t (x.laneAddr m) c e l s
      .done (s.setMe (s.me.put d t.wide (x.active h) fun L => ((got.find? (·.1 == L)).map (·.2)).getD 0))))

/-! ### Remote accesses (R167, R177 to R183, R193) -/

/-- The checks of a list of lanes, ascending: the lowest that fails or misses decides (R167). A miss sends a fill request and
the context waits for it (R397). -/
def checkLanes (s : State) (k : AccessKind) (f : Nat → W64) (n : Nat) : List Nat → Got (List (Nat × Endp × Nat))
  | [] => .ok [] s
  | L :: ls =>
    match checkAddress s s.cur.cell s.me.priv k (f L) n with
    | .bad cause => .trap { cause, kind := k.violation (f L), addr := f L } s
    | .miss =>
      .wait (.tlb (f L)) (s.post { vn := .system, src := .cell s.cur.cell, dst := .millwright (s.cur.cell / 16)
                                   body := .tlbReq s.cur (f L) s.myCell.casid k.fill none false })
    | .ok home key =>
      match checkLanes s k f n ls with
      | .ok l s => .ok ((L, home, key) :: l) s
      | other => other

/-- The free slots of a data queue (R173). -/
def DataQ.free (d : DataQ) : Nat := 8 - d.entries.length - d.shadow.length

/-- n slots of a queue found. Where only the pop shadow holds them, the implicit checkpoint of R173 is taken and the instruction
issues again. -/
def withSlots (s : State) (q n : Nat) (k : State → Res) : Res :=
  if n ≤ (s.me.queue q).free then k s
  else if s.me.commitWaits then .wait .acquire s
  else if (s.me.queue q).entries.length + n ≤ 8 then .wait (.qspace q n) (s.commit s.cur 1)
  else .wait (.qspace q n) s

/-- The rest of an instruction whose requests a change of point does not hold back (R368). -/
def unbarred (s : State) (l : List (Nat × Endp × Nat)) (k : Res) : Res :=
  if l.any fun y => s.barred s.cur.cell y.2.1 then .wait .quiesce s else k

/-- Entries pushed at the tail of a queue. -/
def Ctx.pushQ (x : Ctx) (q : Nat) (l : List QEntry) : Ctx :=
  { x with qs := tset x.qs q { x.queue q with entries := (x.queue q).entries ++ l } }

/-- The reserved entries of an access: two for the two halves of a lane vector of 64 bits (R177). -/
def reserveEntries (id awaited : Nat) (scalar two : Bool) : List QEntry :=
  let e : QEntry := { scalar, id, awaited, tag := if awaited = 0 then .null else .valid }
  if two then [e, { e with id := id + 1 }] else [e]

/-- The acquires still remembered: those of entries that a queue still holds. -/
def Ctx.liveAcquires (x : Ctx) : List Nat := x.acquires.filter fun id => x.qs.any fun q => q.2.entries.any fun e => e.id == id

/-- Requests sent to the homes of lanes, each noted until it is performed. -/
def sendLanes (mk : Nat → Nat → Access) (write : Bool) : List (Nat × Endp × Nat) → State → State
  | [], s => s
  | (L, home, key) :: ls, s =>
    let a := mk L key
    let s := s.setMe { s.me with out := s.me.out ++ [{ id := a.id, home, write }] }
    sendLanes mk write ls (s.post { vn := .request, src := .cell s.cur.cell, dst := home, body := .access a })

def execLdq (h : Head) (t : Ty) (sform : Bool) (ord : Order) (qd : PReg) (m : Addr) (s : State) : Out :=
  finishLen (lenOf h (litB m.idx)) (afterAcquire s (
    let x := s.me
    let n := sizeOf t
    let act := x.active h
    let two := t.wide && !sform
    let l := if act == 0 then [] else if sform then [0] else lanesOf act
    let f := if sform then fun _ => x.scalarAddr m else x.laneAddr m
    (checkLanes s .load f n l).then fun l s => unbarred s l <|
      withSlots s qd.toNat (if two then 2 else 1) fun s =>
        let (id, s) := s.fresh
        let (_, s) := s.fresh
        let x := s.me
        let x := x.pushQ qd.toNat (reserveEntries id l.length sform two)
        let x := if ord.acq then { x with acquires := x.liveAcquires ++ [id] ++ if two then [id + 1] else [] } else x
        let mk := fun L key => ({ op := .read, ea := f L, key, size := n, part := s.partNo s.cur.cell, who := s.cur
                                  act := x.act, q := qd.toNat, id, lane := L, ty := t, half := two, priv := x.priv, asid := s.myCell.casid
                                  acq := if ord.acq then some ord.scope else none } : Access)
        .done (sendLanes mk false l (s.setMe x))))

def execStx (h : Head) (t : Ty) (ord : Order) (d : Reg) (m : Addr) (s : State) : Out :=
  finishLen (lenOf h (litB m.idx)) (afterAcquire s (
    let x := s.me
    let n := sizeOf t
    let l := lanesOf (x.active h)
    (checkLanes s (.store (t == .b32)) (x.laneAddr m) n l).then fun l s =>
      withRoom s (16 * l.length) 0 fun s =>
        let rel := if ord.rel then some ord.scope else none
        let sends := l.map fun y =>
          ({ bytes := 16, rel := if y.1 == (l.headD y).1 then rel else none
             body := .store y.2.1 { op := .write, ea := x.laneAddr m y.1, key := y.2.2, size := n
                                    data := x.laneR d t.wide y.1, part := s.partNo s.cur.cell, who := s.cur
                                    act := x.act, lane := y.1, priv := x.priv, asid := s.myCell.casid, rel } } : Send)
        .done (s.setMe (s.me.hold sends))))

/-- ATOMX is a boundary instruction; its requests leave behind every earlier store (R193, R194). -/
def execAtomx (h : Head) (aop : AtomOp) (t : Ty) (ord : Order) (qd : PReg) (m : Addr) (c e : Reg) (s : State) : Out :=
  boundary (lenOf h (litB m.idx)) s fun s => afterAcquire s (
    let x := s.me
    let n := sizeOf t
    let act := x.active h
    (checkLanes s .atomic (x.laneAddr m) n (lanesOf act)).then fun l s => unbarred s l <|
      withSlots s qd.toNat (if t.wide then 2 else 1) fun s =>
        let rel := if ord.rel then some ord.scope else none
        if !l.isEmpty && !s.storesLeft s.cur .system then .wait (.releases none) s
        else if !l.isEmpty && ord.rel && !s.relClear s.cur ord.scope then .wait (.releases rel) s
        else match l.find? fun y => s.owes s.cur.cell y.2.1 with
        | some y => .wait (.owed y.2.1) s
        | none =>
        let deps := if ord.rel then s.relDepsOf s.cur s.me.deps else []
        let (id, s) := s.fresh
        let (_, s) := s.fresh
        let x := s.me
        let x := x.pushQ qd.toNat (reserveEntries id l.length false t.wide)
        let x := if ord.acq then { x with acquires := x.liveAcquires ++ [id] ++ if t.wide then [id + 1] else [] } else x
        let mk := fun L key => ({ op := .atomic aop t, ea := x.laneAddr m L, key, size := n, data := x.laneR c t.wide L
                                  cmp := x.laneR e t.wide L, part := s.partNo s.cur.cell, who := s.cur, act := x.act
                                  q := qd.toNat, id, lane := L, ty := t, half := t.wide, priv := x.priv, asid := s.myCell.casid, rel, deps
                                  acq := if ord.acq then some ord.scope else none } : Access)
        .done (sendLanes mk true l (s.setMe x)))

/-! ### Popping, peeking, status (R184, R185) -/

/-- The rest of a read of the head, popped or not. -/
def popIf (pop : Bool) (s : State) (q : Nat) : State := if pop then s.popQ q else s

/-- The two-entry read of a lane-vector head by `.B64` with a lane destination (R184). With no lane active it raises nothing; whether a
scalar entry behind the head is then popped with it the reference does not say. DESIGN CHOICE, log entry 62: the head alone is. Nor does it say which cause is raised for a POISON head with
a scalar entry behind it (R174). DESIGN CHOICE, log entry 70: QUEUE_INDEX. -/
def readTwo (s : State) (pop : Bool) (q : Nat) (d : Reg) (act : W32) (e e2 : QEntry) : Res :=
  if e.awaited != 0 || e2.awaited != 0 then .wait (.queue q 2) s
  else if act == 0 then .done (if e2.scalar then popIf pop s q else popIf pop (popIf pop s q) q)
  else if e2.scalar then .trap { cause := causeQueueIndex } s
  else
    (s.deliver q e fun s => s.deliver q e2 fun s =>
      .ok (fun L => (e2.laneVal false L).extractLsb' 0 32 ++ (e.laneVal false L).extractLsb' 0 32)
        (popIf pop (popIf pop s q) q)).then fun f s => .done (s.setMe (s.me.put d true act f))

/-- QPOP and QPEEK (R174, R184). -/
def readHead (s : State) (pop : Bool) (h : Head) (t : Ty) (toS : Bool) (d : Reg) (q : Nat) : Res :=
  let act := s.me.active h
  let two := decide (q < 8) && t.wide && !toS
  match two, (s.me.queue q).entries with
  | true, e :: e2 :: _ => if e.scalar then one act else readTwo s pop q d act e e2
  | true, [e] => if e.scalar then one act else .wait (.queue q 2) s
  | _, _ => one act
where
  /-- The read of one entry. -/
  one (act : W32) : Res :=
    (s.headQ q).then fun e s =>
      if act == 0 then .done (popIf pop s q)
      else if toS then
        if e.noScalar then .trap { cause := causeQueueIndex } s
        else (s.deliver q e fun s => .ok e.scalarVal (popIf pop s q)).then fun v s =>
          .done (s.setMe (s.me.setS d.toNat (if t.wide then v else (v.extractLsb' 0 32).setWidth 64)))
      else (s.deliver q e fun s => .ok (fun L => e.laneVal t.wide L) (popIf pop s q)).then fun f s =>
        .done (s.setMe (s.me.put d t.wide act f))

/-- A read of a channel endpoint is a channel operation, which an acquire holds back (R179). -/
def chanRead (s : State) (q : Nat) (k : Res) : Res := if 8 ≤ q then afterAcquire s k else k

def execQpop (h : Head) (t : Ty) (toS : Bool) (d : Reg) (q : QReg) (s : State) : Out :=
  finishLen (lenOf h false) (chanRead s q.toNat (readHead s true h t toS d q.toNat))
def execQpeek (h : Head) (t : Ty) (toS : Bool) (d : Reg) (q : QReg) (s : State) : Out :=
  finishLen (lenOf h false) (chanRead s q.toNat (readHead s false h t toS d q.toNat))

/-- The entries ready in unbroken order from the head. -/
def readyRun : List QEntry → Nat
  | [] => 0
  | e :: es => if e.awaited != 0 then 0 else 1 + readyRun es

/-- The word of QSTAT for a data queue, each count in its five bits (R185). -/
def DataQ.stat (d : DataQ) : W64 :=
  let head := d.entries.head?.filter fun e => e.awaited == 0
  let b := fun (f : QEntry → Bool) k => match head with
    | some e => if f e then 2 ^ k else 0
    | none => 0
  BitVec.ofNat 64 (readyRun d.entries % 32 + 256 * (d.entries.length % 32) + 65536 * (d.shadow.length % 32)
    + b (·.scalar) 24 + b (·.tag == .null) 25 + b (·.tag == .poison) 26)

def execQstat (h : Head) (d : Reg) (q : QReg) (s : State) : Out :=
  finishLen (lenOf h false) (.done (
    if !s.me.guard h then s
    else if q.toNat < 8 then s.setMe (s.me.setS d.toNat (s.me.queue q.toNat).stat)
    else match tget none s.me.r.binds q.toNat with
      | some ⟨_, true⟩ =>
        let s := (s.settleNear s.cur []).takeElems s.cur q.toNat
        let e := tget {} s.me.eps q.toNat
        let n := e.taken.length % 32
        let shad := if e.shadow.length < 32 then e.shadow.length else Config.shadField s.turn % 32
        s.setMe (s.me.setS d.toNat (BitVec.ofNat 64 (n + 256 * n + 65536 * shad + if e.taken.isEmpty then 0 else 2 ^ 24)))
      | _ => s.setMe (s.me.setS d.toNat 0)))

def execQdrop (h : Head) (q : QReg) (s : State) : Out :=
  finishLen (lenOf h false) (
    if !s.me.guard h then .done s
    else chanRead s q.toNat ((s.headQ q.toNat).then fun _ s => .done (s.popQ q.toNat)))

/-! ### The tag table (R186 to R190) -/

/-- Whether a slot number is usable (R186). -/
def TagTable.usable (t : TagTable) (i : W64) : Bool :=
  i.toNat < 1024 && t.base.toNat + (i.toNat + 1) * 2 ^ t.lg ≤ 0x80000
/-- The slot that holds a valid tag. -/
def TagTable.find (t : TagTable) (tag : W64) : Option Nat :=
  (t.valid.find? fun x => x.2 && tget 0 t.tags x.1 == tag).map (·.1)

def execTagl (h : Head) (d : Reg) (ra : Reg) (s : State) : Out :=
  finishLen (lenOf h false) (.done (s.setMe (s.me.put d false (s.me.active h) fun L =>
    match s.myCell.tags.find (s.me.vp ra.toNat L) with
    | some i => BitVec.ofNat 64 i
    | none => 0xFFFFFFFF)))

def execTagw (h : Head) (ra : Reg) (b : SrcB) (s : State) : Out :=
  finishLen (lenOf h (litB b)) (
    let i := s.me.s ra.toNat
    let tag := s.me.scalarB b
    if !s.me.guard h then .done s
    else if !s.myCell.tags.usable i then .trap { cause := causeTagIndex } s
    else withRoom s 0 2 fun s =>
      let c := s.myCell
      let k := i.toNat
      let other := (c.tags.find tag).filter (· != k)
      let j : JRec := .tag k (tget 0 c.tags.tags k) (tget false c.tags.valid k) other
      let valid := match other with
        | some o => tset c.tags.valid o false
        | none => c.tags.valid
      let s := s.setMe { s.me with journal := s.me.journal ++ [j] }
      .done (s.setMyCell { s.myCell with tags := { c.tags with tags := tset c.tags.tags k tag, valid := tset valid k true } }))

def execTagi (h : Head) (tsub : TagSub) (ra : Reg) (b : SrcB) (s : State) : Out :=
  finishLen (lenOf h (litB b)) (
    let i := s.me.s ra.toNat
    let lg := s.me.scalarB b
    let whole := fun (base : TagTable → W64) (lg : TagTable → Nat) => withRoom s 0 17 fun s =>
      let t := s.myCell.tags
      let s := s.setMe { s.me with journal := s.me.journal ++ [.tags t.valid t.base t.lg] }
      .done (s.setMyCell { s.myCell with tags := { t with valid := [], base := base t, lg := lg t } })
    if !s.me.guard h then .done s
    else match tsub with
    | .one =>
      if !s.myCell.tags.usable i then .trap { cause := causeTagIndex } s
      else withRoom s 0 2 fun s =>
        let t := s.myCell.tags
        let j : JRec := .tag i.toNat (tget 0 t.tags i.toNat) (tget false t.valid i.toNat) none
        let s := s.setMe { s.me with journal := s.me.journal ++ [j] }
        .done (s.setMyCell { s.myCell with tags := { t with valid := tset t.valid i.toNat false } })
    | .all => whole (·.base) (·.lg)
    | .region =>
      if lg.toNat < 8 || 12 < lg.toNat || i.toNat % 2 ^ lg.toNat != 0 || 0x80000 ≤ i.toNat then
        .trap { cause := causeTagIndex } s
      else whole (fun _ => i) (fun _ => lg.toNat))

/-! ### FENCE (R195 to R197) -/

/-- Whether a FENCE of a scope is complete (R195). -/
def State.fenceDone (s : State) (w : Who) (sc : Scope) : Bool :=
  s.storesLeft w sc && (s.ctx w).quiet w.cell sc false && !s.engineWrites w sc

/-- A latched error raised, or the rest (R183, R197). -/
def raiseLatched (s : State) (k : Res) : Res :=
  match s.me.latched with
  | some (cause, addr) =>
    .trap { cause, addr, count := count32 s.me.latchCount, logged := true } (s.setMe { s.me with latched := none, latchCount := 0 })
  | none => k

/-- FENCE: the context waits until its earlier writes are performed in the scope, and a latched error is raised (R183, R195 to R197). The
marker keeps later sends behind it (R196). -/
def execFence (h : Head) (scope : Scope) (s : State) : Out :=
  finishLen (lenOf h false) (
    if !s.me.guard h then .done s
    else match s.me.wait with
    | some (.fence sc since) =>
      if s.fenceDone s.cur scope then raiseLatched s (.done s) else .wait (.fence sc since) s
    | _ => afterAcquire s <| raiseLatched s (
      let s := s.settleNear s.cur []
      let s := s.setMe (s.me.hold [{ body := .marker scope }])
      if s.fenceDone s.cur scope then .done s else .wait (.fence scope s.tbc) s))

end Sys2Proof.Machine
end

