-- ==== Sys2Proof/Machine/Channel.lean ====
section
/-! DEFINITION. The channel instructions at an endpoint (R208 to R212), one meaning per instruction. -/

namespace Sys2Proof.Machine

/-- The end of a channel that a descriptor names, as a device cell. -/
def State.endCell (s : State) (d : Desc) (rdr : Bool) : Nat :=
  (s.partAt s.cur.cell).dev (if rdr then d.reader else d.writer)

/-- An end taken by the issuing context through an endpoint, which is first unbound (R208, R330). -/
def State.bindEnd (s : State) (q id : Nat) (rdr : Bool) : State :=
  let s := (s.unbind s.cur q).takeEnd s.cur.cell id rdr
  s.setMe { s.me with r := { s.me.r with binds := tset s.me.r.binds q (some ⟨id, rdr⟩) } }

def execChbind (h : Head) (rdr : Bool) (qc : QReg) (ra : Reg) (s : State) : Out :=
  finishLen (lenOf h false) (
    let w := s.me.s ra.toNat
    let id := w.toNat % 65536
    let d := s.chanDesc (s.partAt s.cur.cell) id
    if !s.me.guard h then .done s
    else afterAcquire s (
      if w.extractLsb' 16 48 != 0 || d.state == 0 || d.id != id then .trap { cause := causeChannelTable } s
      else if s.endCell d rdr != s.cur.cell then .trap { cause := causeChannelWrongEnd } s
      else if s.myCell.heldByOther s.cur.ctx id rdr then .trap { cause := causeChannelWrongEnd } s
      else .done (s.bindEnd qc.toNat id rdr)))

/-- Whether a channel's writer end is closed for a context: its close is released, or held in this segment (R335). -/
def State.chanClosed (s : State) (id : Nat) : Bool :=
  (s.wcopy s.cur.cell id).desc.state == 2 || s.me.held.any fun sd => match sd.body with
    | .close k => k == id
    | _ => false

/-- The rest of CHW or CHCLOSE once its endpoint has passed its checks. -/
def asWriter (s : State) (q : Nat) (k : Nat → Res) : Res :=
  match tget none s.me.r.binds q with
  | none => .trap { cause := causeChannelNotBound } s
  | some ⟨_, true⟩ => .trap { cause := causeChannelWrongEnd } s
  | some ⟨id, false⟩ => if s.chanClosed id then .trap { cause := causeChannelClosed } s else k id

def execChw (h : Head) (vec : Bool) (qc : QReg) (ra : Reg) (s : State) : Out :=
  finishLen (lenOf h false) (
    let act := s.me.active h
    let xs := if vec then (lanesOf act).map (s.me.vp ra.toNat) else [s.me.s ra.toNat]
    let e := xs.length
    if act == 0 then .done s
    else afterAcquire s (asWriter s qc.toNat fun id =>
      let wc := s.wcopy s.cur.cell id
      if wc.desc.quota < e then .trap { cause := causeChannelQuota } s
      else if wc.credits < e then .wait (.credits id e) s
      else withRoom s (16 * e) 0 fun s =>
        let wc := s.wcopy s.cur.cell id
        let s := s.setWcopy s.cur.cell id (some { wc with credits := wc.credits - e })
        .done (s.setMe (s.me.hold (xs.map fun x => { bytes := 16, body := .elem id x })))))

def execChclose (h : Head) (qc : QReg) (s : State) : Out :=
  finishLen (lenOf h false) (
    if !s.me.guard h then .done s
    else afterAcquire s (asWriter s qc.toNat fun id => withRoom s 16 0 fun s =>
      .done (s.setMe (s.me.hold [{ bytes := 16, body := .close id }]))))

/-- The word of CHSTAT (R212). -/
def State.chstat (s : State) (q : Nat) : W64 :=
  let word := fun (count id rdr : Nat) (d : Desc) =>
    BitVec.ofNat 64 ((if count < 2 ^ 32 then count else 2 ^ 32 - 1) * 2 ^ 32 + id * 65536 + (if d.trLen = 0 then 0 else 16)
      + (if d.state = 2 then 8 else 0) + rdr * 4 + 1)
  match tget none s.me.r.binds q with
  | none => 0
  | some ⟨id, true⟩ => let d := (s.rcopy s.cur.cell id).desc; word (d.wcount - d.rcount) id 1 d
  | some ⟨id, false⟩ => let w := s.wcopy s.cur.cell id; word w.credits id 0 w.desc

/-- CHSTAT (R212). Whether it is one of the channel operations that an outstanding acquire holds back (R179) the reference does not say, since CHSTAT
does not wait for its channel. DESIGN CHOICE, log entry 70: it is. -/
def execChstat (h : Head) (d : Reg) (qc : QReg) (s : State) : Out :=
  finishLen (lenOf h false) (
    if !s.me.guard h then .done s
    else afterAcquire s (.done (s.setMe (s.me.setS d.toNat (s.chstat qc.toNat)))))

def execChunbind (h : Head) (qc : QReg) (s : State) : Out :=
  finishLen (lenOf h false) (
    if !s.me.guard h then .done s else afterAcquire s (.done (s.unbind s.cur qc.toNat)))

end Sys2Proof.Machine
end

