-- ==== Sys2Proof/Machine/Float.lean ====
section
/-! DEFINITION. Floating point and conversion (R142 to R163), one meaning per instruction. -/

namespace Sys2Proof.Machine

/-- The bits of a format. -/
def fmtBits (f : Fmt) : Nat := f.ebits + f.fbits + 1
/-- The value that a register element has in a type (R142). -/
def val (t : Ty) (v : Nat) : FVal := (fmtOf t).unpack (v % 2 ^ fmtBits (fmtOf t))

/-- The exceptions of the active lanes together (R146, R147). -/
def raisedBy (act : W32) (r : Nat → FRes) : Fl := (lanesOf act).foldl (fun fl L => fl ||| (r L).fl) 0

/-- A lane instruction that rounds, with the commit of R147; `wide` tells whether source and destination are pairs. -/
def floatOp (s : State) (h : Head) (wide : Bool) (d : Reg) (dwide : Bool) (a : SrcA) (f : Ctx → Nat → Nat → FRes) : Res :=
  (s.laneA a wide (s.me.active h)).then fun va s =>
    let act := s.me.active h
    commitF s (raisedBy act fun L => f s.me L (va L).toNat) fun x =>
      x.put d dwide act fun L => BitVec.ofNat 64 (f s.me L (va L).toNat).bits

/-- The element of source B as a number. -/
def Ctx.fb (x : Ctx) (b : SrcB) (L : Nat) : Nat := (x.laneB b false L).toNat

/-! ### Arithmetic (R148 to R153) -/

def execFadd (h : Head) (t : Ty) (rnd : Rnd) (d : Reg) (a : SrcA) (b : SrcB) (s : State) : Out :=
  finishLen (lenOf h (litB b)) (floatOp s h false d false a fun x L v =>
    faddV (fmtOf t) (modeOf x rnd) (val t v) (val t (x.fb b L)))
def execFsub (h : Head) (t : Ty) (rnd : Rnd) (d : Reg) (a : SrcA) (b : SrcB) (s : State) : Out :=
  finishLen (lenOf h (litB b)) (floatOp s h false d false a fun x L v =>
    faddV (fmtOf t) (modeOf x rnd) (val t v) (val t (x.fb b L)).flip)
def execFmul (h : Head) (t : Ty) (rnd : Rnd) (d : Reg) (a : SrcA) (b : SrcB) (s : State) : Out :=
  finishLen (lenOf h (litB b)) (floatOp s h false d false a fun x L v =>
    fmulV (fmtOf t) (modeOf x rnd) (val t v) (val t (x.fb b L)))
def execFma (h : Head) (t : Ty) (rnd : Rnd) (d : Reg) (a : SrcA) (b : SrcB) (c : Reg) (s : State) : Out :=
  finishLen (lenOf h (litB b)) (floatOp s h false d false a fun x L v =>
    fmaV (fmtOf t) (modeOf x rnd) (val t v) (val t (x.fb b L)) (val t (x.vl c.toNat L).toNat))
def execFmin (h : Head) (t : Ty) (d : Reg) (a : SrcA) (b : SrcB) (s : State) : Out :=
  finishLen (lenOf h (litB b)) (floatOp s h false d false a fun x L v =>
    let n := 2 ^ fmtBits (fmtOf t)
    fminmaxV (fmtOf t) false (v % n) (x.fb b L % n) (val t v) (val t (x.fb b L)))
def execFmax (h : Head) (t : Ty) (d : Reg) (a : SrcA) (b : SrcB) (s : State) : Out :=
  finishLen (lenOf h (litB b)) (floatOp s h false d false a fun x L v =>
    let n := 2 ^ fmtBits (fmtOf t)
    fminmaxV (fmtOf t) true (v % n) (x.fb b L % n) (val t v) (val t (x.fb b L)))

/-- FABS and FNEG: the sign bit changed, a NaN made canonical (R151). -/
def signOp (t : Ty) (v : Nat) (f : Bool → Bool) : Nat :=
  let m := fmtOf t
  let v := v % 2 ^ fmtBits m
  if (m.unpack v).isNan then m.nanBits else m.sgn (f (v / m.signBit == 1)) (v % m.signBit)
def execFabs (h : Head) (t : Ty) (d : Reg) (a : SrcA) (s : State) : Out :=
  finishLen (lenOf h false) (laneOp s h false d false a fun _ _ v => BitVec.ofNat 64 (signOp t v.toNat fun _ => false))
def execFneg (h : Head) (t : Ty) (d : Reg) (a : SrcA) (s : State) : Out :=
  finishLen (lenOf h false) (laneOp s h false d false a fun _ _ v => BitVec.ofNat 64 (signOp t v.toNat fun n => !n))

def execFdiv (h : Head) (t : Ty) (rnd : Rnd) (d : Reg) (a : SrcA) (b : SrcB) (s : State) : Out :=
  finishLen (lenOf h (litB b)) (floatOp s h false d false a fun x L v =>
    fdivV (fmtOf t) (modeOf x rnd) (val t v) (val t (x.fb b L)))
def execFsqrt (h : Head) (t : Ty) (rnd : Rnd) (d : Reg) (a : SrcA) (s : State) : Out :=
  finishLen (lenOf h false) (floatOp s h false d false a fun x _ v => fsqrtV (fmtOf t) (modeOf x rnd) (val t v))
def execFrcp (h : Head) (t : Ty) (rnd : Rnd) (d : Reg) (a : SrcA) (s : State) : Out :=
  finishLen (lenOf h false) (floatOp s h false d false a fun x _ v => frcpV (fmtOf t) (modeOf x rnd) (val t v))
def execFrsq (h : Head) (t : Ty) (rnd : Rnd) (d : Reg) (a : SrcA) (s : State) : Out :=
  finishLen (lenOf h false) (floatOp s h false d false a fun x _ v => frsqV (fmtOf t) (modeOf x rnd) (val t v))
def execFexp2 (h : Head) (t : Ty) (rnd : Rnd) (d : Reg) (a : SrcA) (s : State) : Out :=
  finishLen (lenOf h false) (floatOp s h false d false a fun x _ v => fexp2V (fmtOf t) (modeOf x rnd) (val t v))
def execFlog2 (h : Head) (t : Ty) (rnd : Rnd) (d : Reg) (a : SrcA) (s : State) : Out :=
  finishLen (lenOf h false) (floatOp s h false d false a fun x _ v => flog2V (fmtOf t) (modeOf x rnd) (val t v))
def execFscale (h : Head) (t : Ty) (rnd : Rnd) (d : Reg) (a : SrcA) (b : SrcB) (s : State) : Out :=
  finishLen (lenOf h (litB b)) (floatOp s h false d false a fun x L v =>
    fscaleV (fmtOf t) (modeOf x rnd) (v % 2 ^ fmtBits (fmtOf t)) (val t v)
      ((x.laneB b false L).extractLsb' 0 32).toInt)
def execFrnd (h : Head) (t : Ty) (rnd : Rnd) (d : Reg) (a : SrcA) (s : State) : Out :=
  finishLen (lenOf h false) (floatOp s h false d false a fun x _ v =>
    frndV (fmtOf t) (modeOf x rnd) (v % 2 ^ fmtBits (fmtOf t)) (val t v))
def execFclass (h : Head) (t : Ty) (d : Reg) (a : SrcA) (s : State) : Out :=
  finishLen (lenOf h false) (laneOp s h false d false a fun _ _ v => BitVec.ofNat 64 (fclassV (fmtOf t) (val t v.toNat)))

/-! ### Conversion (R154 to R158) -/

def execCvt (h : Head) (t : Ty) (src : Ty) (rnd : Rnd) (sat : Bool) (d : Reg) (a : SrcA) (s : State) : Out :=
  finishLen (lenOf h false) (floatOp s h src.wide d t.wide a fun x _ v => cvtV t src (modeOf x rnd) sat v)

/-! ### Scaled vectors (R159 to R162) -/

/-- Element 4L + j of a vector: register A + j, the queue entry in place of the first (R93, R159). -/
def vecElem (x : Ctx) (a : SrcA) (va : Nat → W64) (j L : Nat) : Nat :=
  let base := match a with
    | .reg r => r.toNat
    | .queue _ => 0
  if j = 0 then (va L).toNat else (x.vl (base + j) L).toNat

/-- The low 32 bits of a scalar source B, as FP32 bits. -/
def Ctx.scale32 (x : Ctx) (b : SrcB) : Nat := (x.scalarB b).toNat % 2 ^ 32

/-- The results of the four bytes or elements of a lane, as one list. -/
def fourth (f : Nat → FRes) : List FRes := (List.range 4).map f
/-- The exceptions of a list of results. -/
def flagsOf (l : List FRes) : Fl := l.foldl (fun fl r => fl ||| r.fl) 0

def execQpack (h : Head) (t : Ty) (sat : Bool) (d : Reg) (a : SrcA) (b : SrcB) (s : State) : Out :=
  finishLen (lenOf h (litB b)) ((s.laneA a false (s.me.active h)).then fun va s =>
    let act := s.me.active h
    let res := fun L => fourth fun j =>
      mulTo (fmtOf t) .rne sat (val .f (vecElem s.me a va j L)) (val .f (s.me.scale32 b))
    commitF s ((lanesOf act).foldl (fun fl L => fl ||| flagsOf (res L)) 0) fun x =>
      x.setV d.toNat act fun L =>
        BitVec.ofNat 32 ((res L).foldr (fun r acc => r.bits % 256 + 256 * acc) 0))

/-- The byte of a packed lane. -/
def byteAt (v : W64) (j : Nat) : Nat := v.toNat / 2 ^ (8 * j) % 256

/-- The four registers of a vector written, from register d + j on. -/
def putVec (d : Nat) (act : W32) (f : Nat → Nat → W32) : List Nat → Ctx → Ctx
  | [], x => x
  | j :: js, x => putVec d act f js (x.setV (d + j) act (f j))

def execQunpk (h : Head) (t : Ty) (rnd : Rnd) (d : Reg) (a : SrcA) (b : SrcB) (s : State) : Out :=
  finishLen (lenOf h (litB b)) ((s.laneA a false (s.me.active h)).then fun va s =>
    let act := s.me.active h
    let res := fun j L => mulTo fmtF (modeOf s.me rnd) false (val t (byteAt (va L) j)) (val .f (s.me.scale32 b))
    commitF s ((lanesOf act).foldl (fun fl L => fl ||| flagsOf (fourth fun j => res j L)) 0) fun x =>
      putVec d.toNat act (fun j L => BitVec.ofNat 32 (res j L).bits) [0, 1, 2, 3] x)

/-- The larger of two magnitudes, as FP32 bits without sign; a NaN is canonical and stays (R160). -/
def amaxStep (acc v : Nat) : Nat :=
  if acc == fmtF.nanBits || (val .f v).isNan then fmtF.nanBits
  else if acc < v % 2 ^ 31 then v % 2 ^ 31 else acc

def execAmax (h : Head) (d : Reg) (a : SrcA) (s : State) : Out :=
  finishLen (lenOf h false) ((s.laneA a false (s.me.active h)).then fun va s =>
    let act := s.me.active h
    let els := (lanesOf act).flatMap fun L => (List.range 4).map fun j => vecElem s.me a va j L
    if act == 0 then .done s
    else commitF s (snanFl (els.map (val .f))) fun x => x.setS d.toNat (BitVec.ofNat 64 (els.foldl amaxStep 0)))

end Sys2Proof.Machine
end

