-- ==== Sys2Proof/Machine/Matrix.lean ====
section
/-! DEFINITION. Tensor descriptors, accumulators, and the issue of MMA (R226 to R232), one meaning per instruction; the checks of a
matched MMA (R233) and the arithmetic of the array (R235, R259 to R264), which the steps JOIN_MATCH and MMA_RETIRE call. -/

namespace Sys2Proof.Machine

/-! ### Tensor descriptors (R226 to R228) -/

def execTdset (h : Head) (w : BitVec 2) (td : BitVec 6) (ra : Reg) (s : State) : Out :=
  finishLen (lenOf h false) (
    let k := 4 * td.toNat + w.toNat
    if !s.me.guard h then .done s
    else withRoom s 0 1 fun s =>
      let c := s.myCell
      let s := s.setMe { s.me with journal := s.me.journal ++ [.desc k (tget 0 c.td k)] }
      .done (s.setMyCell { s.myCell with td := tset c.td k (s.me.s ra.toNat) }))

def execTdget (h : Head) (w : BitVec 2) (td : BitVec 6) (d : Reg) (s : State) : Out :=
  finishLen (lenOf h false) (.done (
    if !s.me.guard h then s
    else s.setMe (s.me.setS d.toNat (tget 0 s.myCell.td (4 * td.toNat + w.toNat)))))

/-- The four doublewords of a descriptor. -/
def Cell.desc (c : Cell) (n : Nat) : List W64 := [0, 1, 2, 3].map fun w => tget 0 c.td (4 * n + w)

/-- Fields of a descriptor (R226). -/
def tdBase (d : List W64) : W64 := d.getD 0 0
def tdStride (d : List W64) : Nat := ((d.getD 1 0).extractLsb' 32 16).toNat
def tdK (d : List W64) : Nat := ((d.getD 1 0).extractLsb' 16 16).toNat
def tdFmt (d : List W64) : BitVec 4 := (d.getD 1 0).extractLsb' 0 4
def tdScale (d : List W64) : W64 := d.getD 2 0
/-- VALID with every reserved bit zero. -/
def tdValid (d : List W64) : Bool :=
  d.getD 3 0 == 1 && (d.getD 1 0).extractLsb' 48 16 == 0 && (d.getD 1 0).extractLsb' 4 12 == 0

/-! ### Accumulators (R229, R230) -/

/-- An accumulator of a cell. -/
def Cell.acc (c : Cell) (a : Nat) : Acc := tget {} c.accs a
/-- The cell with an accumulator replaced. -/
def Cell.setAcc (c : Cell) (a : Nat) (x : Acc) : Cell := { c with accs := tset c.accs a x }

/-- Whether a join is an MMA, on an accumulator when one is named. -/
def Join.isMma (j : Join) (acc : Option Nat) : Bool :=
  j.present && match j.kind with
    | .mma op => acc.all fun a => op.acc.toNat == a
    | _ => false

/-- Whether an MMA of the cell that has not retired targets an accumulator (R229). -/
def Cell.accBusy (c : Cell) (a : Nat) : Bool :=
  (c.mma.any fun m => m.op.acc.toNat == a) || c.rowJoins.any fun j => j.isMma (some a)

def execAccz (h : Head) (acc : AReg) (s : State) : Out :=
  finishLen (lenOf h false) (
    if !s.me.guard h then .done s
    else if s.myCell.accBusy acc.toNat then .wait (.accBusy acc.toNat) s
    else .done (s.setMyCell (s.myCell.setAcc acc.toNat {})))

/-- The trap of an accumulator's address: z bytes for each of 1,024 elements, aligned to z (R166, R230). -/
def accTrap (s : State) (ea : W64) (z : Nat) : Option Trap :=
  match s.localOffset ea (1024 * z) with
  | none => some { cause := causeScratchBounds, addr := some ea }
  | some _ => if ea.toNat % z = 0 then none else some { cause := causeMisaligned, addr := some ea }

/-- 1,024 numbers of z bytes read from a memory. -/
def readElems (m : Memory) (key z : Nat) : List Nat := (List.range 1024).map fun i => readLE m (key + z * i) z

def execAccld (h : Head) (t : Ty) (acc : AReg) (ra : Reg) (s : State) : Out :=
  finishLen (lenOf h false) (
    let ea := s.me.s ra.toNat
    if !s.me.guard h then .done s
    else if s.myCell.accBusy acc.toNat then .wait (.accBusy acc.toNat) s
    else localAccess s <| match accTrap s ea 4 with
    | some t => .trap t s
    | none =>
      let off := s.offOf ea 4096
      let s := s.settleNear s.cur [(off, 4096)]
      let elems := number 0 ((readElems s.mem (cellKey s.cur.cell off) 4).map (BitVec.ofNat 32))
      .done (s.setMyCell (s.myCell.setAcc acc.toNat { tag := if t == .f then .f else .s32, elems })))

/-- The element type that a tag stands for. -/
def AccTag.ty : AccTag → Option Ty
  | .none => Option.none
  | .f => Option.some Ty.f
  | .s32 => Option.some Ty.s32

/-- An element copied where the formats are one; a NaN becomes the canonical one (R256, R264). Whether a signalling NaN raises NV in such a copy
the reference does not say. DESIGN CHOICE, log entry 69: it raises nothing. -/
def accCopy (t : Ty) (v : W32) : FRes :=
  match t, fmtF.unpack v.toNat with
  | .f, .nan _ => { bits := fmtF.nanBits }
  | _, _ => { bits := v.toNat }

/-- One element converted from the tag's format to the stored type (R230, R264). -/
def accConv (tag : AccTag) (t : Ty) (mode : Mode) (sat : Bool) (v : W32) : FRes :=
  match tag.ty with
  | none => { bits := 0 }
  | some src => if src == t then accCopy t v else cvtV t src mode sat v.toNat

/-- The words of a range of the scratchpad journalled once each (R170). -/
def journalRange : Nat → Nat → State → State
  | 0, _, s => s
  | n + 1, word, s => journalRange n (word + 8) (s.journalOnce word)

/-- ACCST (R230): it journals the aligned words that it overlaps, which are 513 where a 4,096-byte store begins in the middle of one, though R170
speaks of at most 512. DESIGN CHOICE, log entry 70. -/
def execAccst (h : Head) (t : Ty) (rnd : Rnd) (sat : Bool) (acc : AReg) (ra : Reg) (s : State) : Out :=
  finishLen (lenOf h false) (
    let ea := s.me.s ra.toNat
    let z := if t == .f || t == .s32 then 4 else 2
    if !s.me.guard h then .done s
    else if s.myCell.accBusy acc.toNat then .wait (.accBusy acc.toNat) s
    else localAccess s <| match accTrap s ea z with
    | some t => .trap t s
    | none =>
      let a := s.myCell.acc acc.toNat
      let res := (List.range 1024).map fun i => accConv a.tag t (modeOf s.me rnd) sat (tget 0 a.elems i)
      let off := s.offOf ea (1024 * z)
      let first := off / 8 * 8
      let words := (off + 1024 * z + 7) / 8 - off / 8
      let fresh := fun (s : State) => ((List.range words).filter fun i => !s.me.journalled (first + 8 * i)).length
      match commitF s (flagsOf res) id with
      | .done _ => withRoomOf s (fun s => (0, fresh s)) fun s =>
        match commitF s (flagsOf res) id with
        | .done s =>
          let s := s.settleNear s.cur [(off, 1024 * z)]
          let s := journalRange words first s
          .done { s with mem := writeBytes s.mem (cellKey s.cur.cell off) (res.flatMap fun r => leBytes z r.bits) }
        | other => other
      | other => other)

/-! ### The issue of MMA (R231, R232, R236) -/

def execMma (h : Head) (ta : Ty) (tb : BitVec 2) (acc : AReg) (tda tdb : BitVec 6) (s : State) : Out :=
  boundary (lenOf h false) s fun s =>
    if !s.me.guard h then .done s
    else if s.me.acquiring then .wait .acquire s
    else if s.myCell.mma.isSome || s.myCell.rowJoins.any (fun j => j.isMma none) then .wait .mmaTurn s
    else present (s.settle s.cur.cell) (.mma { ta, tb, acc, tda, tdb }) false (lenOf h false)

/-! ### The checks of a matched MMA (R233) -/

/-- The B type: as A, or E4 or E5 (R231). -/
def MmaOp.bTy (o : MmaOp) : Ty := if o.tb == 1 then .e4 else if o.tb == 2 then .e5 else o.ta
/-- Whether the operation is FP8. -/
def MmaOp.fp8 (o : MmaOp) : Bool := o.ta == .e4 || o.ta == .e5
/-- The bytes of an element. -/
def MmaOp.z (o : MmaOp) : Nat := if o.ta == .bf then 2 else 1
/-- The type code of R54. -/
def fmtCode : Ty → BitVec 4
  | .s8 => 7
  | .bf => 11
  | .e4 => 12
  | _ => 13

/-- The cell-space address that a field resolves to on the cell that holds the descriptor (R227). -/
def resolve (rel : Nat) (v : W64) : W64 := if v.toNat < 0x80000 then BitVec.ofNat 64 (2 ^ 63 + rel * 2 ^ 20 + v.toNat) else v

/-- Whether n bytes at a resolved address lie in the scratchpad of one of the cells of a row (R227). -/
def inQuad (rels : List Nat) (a : W64) (n : Nat) : Bool :=
  a.getLsbD 63 && a.extractLsb' 32 31 == 0 && rels.contains (a.toNat / 2 ^ 20 % 4096) && a.toNat % 2 ^ 20 + n ≤ 0x80000

/-- The memory key of a resolved address. -/
def quadKey (p : Part) (a : W64) : Nat := cellKey (p.dev (a.toNat / 2 ^ 20 % 4096)) (a.toNat % 2 ^ 20)

/-- Whether a descriptor breaks R226 or R227 in a role (R233, order 3). -/
def geometryBad (o : MmaOp) (rels : List Nat) (rel : Nat) (isA : Bool) (d : List W64) : Bool :=
  let k := tdK d
  let row := if isA then k * o.z else 32 * o.z
  let span := (if isA then 31 else k - 1) * tdStride d + row
  let scales := 4 * (k / 128) * if isA then 32 else 1
  k < 128 || 8192 < k || k % 128 != 0 || tdStride d % 8 != 0 || tdStride d < row || (tdBase d).toNat % 8 != 0 ||
  !inQuad rels (resolve rel (tdBase d)) span ||
  if o.fp8 then (tdScale d).toNat % 4 != 0 || !inQuad rels (resolve rel (tdScale d)) scales else tdScale d != 0

/-- The cause of one scale, if it fails (R233, order 5). -/
def scaleCause (bits : Nat) : Option (BitVec 7) :=
  match fmtF.unpack bits with
  | .nan _ => some causeScaleNonfinite
  | .inf _ => some causeScaleNonfinite
  | .fin n m _ => if m == 0 then some causeScaleZero else if n then some causeScaleNegative else none

/-- The scale product of a row, rounded to FP32 (R260). -/
def scaleProduct (a w : Nat) : Nat := (fmulV fmtF .rne (fmtF.unpack a) (fmtF.unpack w)).bits

/-- The cause of a scale product, if it fails. -/
def productCause (bits : Nat) : Option (BitVec 7) :=
  match fmtF.unpack bits with
  | .fin _ m _ => if m == 0 then some causeScaleZero else none
  | _ => some causeScaleNonfinite

/-- The first of a list of checks that fails. -/
def firstBad : List (Option (BitVec 7) × W64) → Option Trap
  | [] => none
  | (some cause, addr) :: _ => some { cause, addr := some addr }
  | (none, _) :: rest => firstBad rest

/-- The checks of the scales of block kb, in order, and the products (R233). `rd` reads FP32 bits at a resolved address. -/
def scaleChecks (rd : W64 → Nat) (sa sb : W64) (kb : Nat) : List (Option (BitVec 7) × W64) :=
  let aAddr := fun m => sa + BitVec.ofNat 64 (4 * (32 * kb + m))
  let wAddr := sb + BitVec.ofNat 64 (4 * kb)
  let rows := List.range 32
  (scaleCause (rd wAddr), wAddr) ::
    (rows.map fun m => (scaleCause (rd (aAddr m)), aAddr m)) ++
    rows.map fun m => (productCause (scaleProduct (rd (aAddr m)) (rd wAddr)), aAddr m)

/-- The scale products of a block. -/
def blockScales (rd : W64 → Nat) (sa sb : W64) (kb : Nat) : List W32 :=
  (List.range 32).map fun m =>
    BitVec.ofNat 32 (scaleProduct (rd (sa + BitVec.ofNat 64 (4 * (32 * kb + m)))) (rd (sb + BitVec.ofNat 64 (4 * kb))))

/-- FP32 bits at a resolved address. -/
def State.rd32 (s : State) (p : Part) (a : W64) : Nat := readLE s.mem (quadKey p a) 4

/-- The checks that a member makes of its own operands (R233): the first cause, if any. -/
def mmaCheck (s : State) (cell : Nat) (o : MmaOp) : Option Trap :=
  let p := s.partAt cell
  let c := s.cell cell
  let rel := p.rel cell
  let rels := (rowCells (rowOf cell)).map p.rel
  let a := c.desc o.tda.toNat
  let b := c.desc o.tdb.toNat
  let na := some (o.tda.setWidth 64)
  let nb := some (o.tdb.setWidth 64)
  let tag := (c.acc o.acc.toNat).tag
  if !tdValid a then some { cause := causeDescriptorInvalid, addr := na }
  else if !tdValid b then some { cause := causeDescriptorInvalid, addr := nb }
  else if tdFmt a != fmtCode o.ta then some { cause := causeTensorFormat, addr := na }
  else if tdFmt b != fmtCode o.bTy then some { cause := causeTensorFormat, addr := nb }
  else if geometryBad o rels rel true a then some { cause := causeTensorGeometry, addr := na }
  else if geometryBad o rels rel false b || tdK a != tdK b then some { cause := causeTensorGeometry, addr := nb }
  else if (o.ta == .s8 && tag == .f) || (o.ta != .s8 && tag == .s32) then
    some { cause := causeAccFormat, addr := some (o.acc.setWidth 64) }
  else if o.fp8 then
    firstBad ((List.range (tdK a / 128)).flatMap fun kb =>
      scaleChecks (s.rd32 p) (resolve rel (tdScale a)) (resolve rel (tdScale b)) kb)
  else none

/-- What must be the same in all four members of a matched MMA (R233). R233 does not say how the SCALE field of a BF or S8 descriptor,
which must be zero, is compared. DESIGN CHOICE, log entry 62: as it stands, so that differing ones raise GANG_MISMATCH. -/
def mmaKey (s : State) (cell : Nat) (o : MmaOp) : List W64 :=
  let c := s.cell cell
  let a := c.desc o.tda.toNat
  let b := c.desc o.tdb.toNat
  let rel := s.relOf cell
  [ resolve rel (tdBase a), if o.fp8 then resolve rel (tdScale a) else tdScale a, BitVec.ofNat 64 (tdK a),
    BitVec.ofNat 64 (tdStride a), (tdFmt a).setWidth 64, (fmtCode o.ta).setWidth 64, o.tb.setWidth 64,
    BitVec.ofNat 64 (tdK b) ]

/-- The arithmetic cycles of an MMA from its match to its retirement (R237). -/
def mmaCycles (o : MmaOp) (k : Nat) : Nat := 32 + (if o.ta == .bf then 256 else 128) * (k / 128)

/-- A member's MMA as it starts to run (R235). -/
def mmaStart (s : State) (cell ctx len : Nat) (o : MmaOp) : MmaRun :=
  let p := s.partAt cell
  let c := s.cell cell
  let rel := p.rel cell
  let a := c.desc o.tda.toNat
  let b := c.desc o.tdb.toNat
  let acc := c.acc o.acc.toNat
  let nkb := tdK a / 128
  let keys := (rowCells (rowOf cell)).map fun m => cellKey m 0
  { ctx, len, op := o, tdA := a, tdB := b
    scales := if o.fp8 then (List.range nkb).flatMap fun kb =>
      blockScales (s.rd32 p) (resolve rel (tdScale a)) (resolve rel (tdScale b)) kb else []
    start := if acc.tag == .none then [] else acc.elems
    old := s.mem.filter fun x => keys.any fun k => k ≤ x.1 && x.1 < k + 0x80000
    due := c.cyc + mmaCycles o (tdK a) }

/-! ### The arithmetic of the array (R235, R259 to R263) -/

/-- The block sum register (R259). -/
structure BlockReg where
  i : Int := 0
  nan : Bool := false
  pinf : Bool := false
  ninf : Bool := false

/-- One product taken into the register. -/
def BlockReg.take (r : BlockReg) (x y : FVal) : BlockReg :=
  match x, y with
  | .nan _, _ => { r with nan := true }
  | _, .nan _ => { r with nan := true }
  | .inf n, y => if y.isZero then { r with nan := true } else if n != y.neg then { r with ninf := true } else { r with pinf := true }
  | x, .inf n => if x.isZero then { r with nan := true } else if x.neg != n then { r with ninf := true } else { r with pinf := true }
  | .fin n1 m1 e1, .fin n2 m2 e2 => { r with i := r.i + scaled (n1 != n2) (m1 * m2) (e1 + e2) (-32) }

/-- The value of the register. -/
def BlockReg.val (r : BlockReg) : FVal :=
  if r.nan || (r.pinf && r.ninf) then .nan false
  else if r.pinf then .inf false
  else if r.ninf then .inf true
  else .fin (r.i < 0) r.i.natAbs (-32)

/-- A value rounded to FP32 (R260, step 2). -/
def toF32 : FVal → FVal
  | .fin n m e => fmtF.unpack (round fmtF .rne n m e).bits
  | v => v

/-- One K block added to an element of the working copy: a and b give the elements' bits (R260, R262, R263). -/
def mmaBlock (o : MmaOp) (scale : W32) (a b : Nat → Nat) (w : W32) : W32 :=
  let ks := List.range 128
  if o.ta == .s8 then
    let sum := ks.foldl (fun acc k => acc + (BitVec.ofNat 8 (a k)).toInt * (BitVec.ofNat 8 (b k)).toInt) (0 : Int)
    BitVec.ofInt 32 (w.toInt + sum)
  else if o.ta == .bf then
    BitVec.ofNat 32 (ks.foldl (fun w k =>
      (fmaV fmtF .rne (fmtBF.unpack (a k)) (fmtBF.unpack (b k)) (fmtF.unpack w)).bits) w.toNat)
  else
    let p := (ks.foldl (fun r k => r.take ((fmtOf o.ta).unpack (a k)) ((fmtOf o.bTy).unpack (b k))) ({} : BlockReg)).val
    BitVec.ofNat 32 (fmaV fmtF .rne (toF32 p) (fmtF.unpack scale.toNat) (fmtF.unpack w.toNat)).bits

/-- An element of the working copy through every K block in order. -/
def mmaElem (o : MmaOp) (scales : List W32) (m : Nat) (a b : Nat → Nat) : Nat → Nat → W32 → W32
  | 0, _, w => w
  | n + 1, kb, w =>
    mmaElem o scales m a b n (kb + 1)
      (mmaBlock o (scales.getD (32 * kb + m) 0) (fun k => a (128 * kb + k)) (fun k => b (128 * kb + k)) w)

/-- A byte of an operand while the MMA runs: each aligned 8-byte word shows the value at the match or the newer one, as is left
free (R236). -/
def MmaRun.byte (r : MmaRun) (s : State) (key : Nat) : Nat :=
  (mread (if Config.seesNew s.turn (key / 8) then s.mem else r.old) key).toNat

/-- The accumulator that an MMA writes back (R235). -/
def mmaResult (s : State) (cell : Nat) (r : MmaRun) : Acc :=
  let p := s.partAt cell
  let rel := p.rel cell
  let z := r.op.z
  let ka := quadKey p (resolve rel (tdBase r.tdA))
  let kb := quadKey p (resolve rel (tdBase r.tdB))
  let rd := fun key => if z = 2 then r.byte s key + 256 * r.byte s (key + 1) else r.byte s key
  let elem := fun i =>
    let m := i / 32
    let n := i % 32
    mmaElem r.op r.scales m (fun k => rd (ka + m * tdStride r.tdA + k * z)) (fun k => rd (kb + k * tdStride r.tdB + n * z))
      (tdK r.tdA / 128) 0 (tget 0 r.start i)
  { tag := if r.op.ta == .s8 then .s32 else .f, elems := number 0 ((List.range 1024).map elem) }

end Sys2Proof.Machine
end

