-- ==== Sys2Proof/Machine/TileWalk.lean ====
section
/-! DEFINITION. The tile-walk instructions (R238 to R244), one meaning per instruction. -/

namespace Sys2Proof.Machine

def execTwset (h : Head) (fld : PReg) (ra : Reg) (s : State) : Out :=
  finishLen (lenOf h false) (.done (
    if s.me.guard h then s.setMe { s.me with tw := tset s.me.tw fld.toNat (s.me.s ra.toNat) } else s))

/-- A shadow field (R238). -/
def Ctx.shadow (x : Ctx) (f : Nat) : W64 := tget 0 x.tw f

/-- The transfer that the shadow fields describe (R238). -/
def Ctx.transfer (x : Ctx) : Xfer :=
  let geom := x.shadow 2
  { src := x.shadow 0, dst := x.shadow 1, rows := (geom.extractLsb' 32 16).toNat, rowBytes := (geom.extractLsb' 0 24).toNat
    sstride := x.shadow 3, dstride := x.shadow 4, notify := x.shadow 5, zero := (x.shadow 6).getLsbD 0 }

/-- The checks of TWGO of order 1 for a new transfer (R239). -/
def State.twDescBad (s : State) (x : Xfer) (geom : W64) : Bool :=
  let p := s.partAt s.cur.cell
  let id := x.notify.toNat % 65536
  let d := s.chanDesc p id
  geom.extractLsb' 48 16 != 0 || geom.extractLsb' 24 8 != 0 || x.notify.extractLsb' 17 47 != 0 ||
  x.rows == 0 || x.rowBytes == 0 || x.rowBytes % 8 != 0 || x.dst.toNat % 8 != 0 || x.dstride.toNat % 8 != 0 ||
  (!x.zero && (x.src.toNat % 8 != 0 || x.sstride.toNat % 8 != 0)) || 2 ^ 21 < x.total ||
  (x.notify.getLsbD 16 && (d.state == 0 || d.id != id || p.dev d.writer != s.cur.cell))

/-- The rows of a transfer that its checks look at: destination rows, and source rows unless ZERO is set (R239). -/
def Xfer.checkRows (x : Xfer) : List (W64 × Bool) :=
  (rowAddrs x.dst x.dstride x.rows).map (fun a => (a, true)) ++
  if x.zero then [] else (rowAddrs x.src x.sstride x.rows).map fun a => (a, false)

/-- Whether a row names a cell that the partition does not have (R239, order 2). -/
def rowForeign (cells : Nat) (a : W64) : Bool :=
  a.getLsbD 63 && a.extractLsb' 32 31 == 0 && cells ≤ a.toNat / 2 ^ 20 % 4096

/-- Whether a row is out of bounds (R239, order 3). -/
def rowOut (n : Nat) (a : W64) (isDst : Bool) : Bool :=
  if a.getLsbD 63 then
    let off := a.toNat % 2 ^ 20
    a.extractLsb' 32 31 != 0 || !inRegion off n || (if isDst then 0x80000 ≤ off else 0x90000 ≤ off)
  else a.extractLsb' 56 7 != 0 || 2 ^ 56 < a.toNat + n

/-- The aligned words that stores will change, each as it stands before its store when they are performed one after the other. -/
def oldWords : List Access → Memory → List (Nat × W64)
  | [], _ => []
  | a :: l, m =>
    let k := a.key / 8 * 8
    (k, BitVec.ofNat 64 (readLE m k 8)) :: oldWords l (writeLE m a.key a.size a.data.toNat)

/-- The store of a context that a message carries. -/
def Msg.storeOf (m : Msg) (w : Who) : Option Access :=
  match m.body with
  | .access a => if a.op == .write && a.who == w then some a else none
  | _ => none

/-- The words that the issuing context has written by stores that are not yet performed, as they are before each of these: a read without REL shows
any of them, or the newest (R241). -/
def State.olds (s : State) : List (Nat × W64) :=
  oldWords ((s.refused.filterMap fun y => y.1.storeOf s.cur) ++ (s.net.filterMap fun m => m.storeOf s.cur) ++
    s.me.released.filterMap fun sd => match sd.body with
      | .store _ a => some a
      | _ => none) s.mem

/-- A transfer armed: its chunks from the first incomplete one, and the promise of R242 on the bytes that remain. -/
def State.armXfer (s : State) (slot : Nat) (x : Xfer) (ord : Order) (noPromise : Bool) : State :=
  let p := s.partAt s.cur.cell
  let j := x.firstOpen
  let left := x.total - 512 * j
  let g := if noPromise then 0 else s.grantable p { x with busy := true, state := 0 }
  let L := s.me.low
  let x : Xfer := { x.openChunk j with
    busy := true, state := if j == x.chunks then 3 else 0, failing := false, faultAddr := 0, faultCause := 0, subcause := 0
    rel := ord.rel, scope := ord.scope, rate := g
    promise := if g = 0 then 0xFFFFFFFFFFFFFFFF else BitVec.ofNat 64 (s.tbc + 2000 + (left + g - 1) / g)
    starter := s.cur, act := s.me.act, deps := if ord.rel then s.relDepsOf s.cur s.me.deps else []
    olds := if ord.rel then [] else s.olds
    job := (s.me.hdr L).job, step := s.me.step L, wid := (s.me.hdr L).wid }
  (s.setXfer s.cur.cell slot x).engineNext s.cur.cell slot

/-- With REL, the transfer starts when what the context has released is performed, and its queued local stores are (R171,
R241). -/
def twRelease (s : State) (ord : Order) (k : State → Res) : Res :=
  if !ord.rel then k s
  else if s.relClear s.cur ord.scope then k (s.settleNear s.cur [])
  else .wait (.releases (some ord.scope)) s

/-- The slot that a new transfer takes: the first free one from the one behind that of the transfer before. The reference names no order;
this one gives the ids of R378 in every run (log entry 63). -/
def Cell.freeSlot (c : Cell) : Option Nat :=
  ((List.range 16).map fun i => (c.xferOrder + i) % 16).find? fun i => !(c.xfer i).busy

def execTwgo (h : Head) (ord : Order) (d : Reg) (s : State) : Out :=
  boundary (lenOf h false) s fun s =>
    let ctl := s.me.shadow 6
    let rid := s.me.shadow 7
    let x := s.me.transfer
    let cells := (s.partAt s.cur.cell).cellCount
    let bad : Res := .trap { cause := causeTwDescriptor } s
    if !s.me.guard h then .done s
    else if s.me.acquiring then .wait .acquire s
    else if ctl.extractLsb' 3 61 != 0 || rid.extractLsb' 16 48 != 0 || (rid != 0 && !ctl.getLsbD 2) then bad
    else if ctl.getLsbD 2 then
      match s.myCell.live? (rid.extractLsb' 0 16) with
      | none => bad
      | some y =>
        if y.state != 2 then bad
        else twRelease s ord fun s =>
          .done ((s.setMe (s.me.setS d.toNat rid)).armXfer (rid.toNat % 16) y ord (ctl.getLsbD 1))
    else if s.twDescBad x (s.me.shadow 2) then bad
    else match x.checkRows.find? fun r => rowForeign cells r.1 with
    | some r => .trap { cause := causePartitionViolation, kind := 4, addr := r.1 } s
    | none =>
      if x.checkRows.any fun r => rowOut x.rowBytes r.1 r.2 then .trap { cause := causeTwBounds } s
      else match s.myCell.freeSlot with
      | none => .wait .slot s
      | some slot => twRelease s ord fun s =>
        let c := s.myCell
        let x : Xfer := { x with uses := (c.xfer slot).uses + 1, order := c.xferOrder }
        let s := s.setMyCell { c with xferOrder := c.xferOrder + 1 }
        .done ((s.setMe (s.me.setS d.toNat ((x.idOf slot).setWidth 64))).armXfer slot x ord (ctl.getLsbD 1))

/-- Word w of a live transfer's map (R244). -/
def Xfer.mapWord (x : Xfer) (id : BitVec 16) (w : Nat) : W64 :=
  if w < 64 then
    BitVec.ofNat 64 ((List.range 64).foldl (fun a b => if 64 * w + b < x.chunks && x.bit (64 * w + b) then a + 2 ^ b else a) 0)
  else if w = 64 then BitVec.ofNat 64 (id.toNat * 2 ^ 48 + x.chunks * 2 ^ 32 + x.complete * 2 ^ 16 + x.state)
  else if w = 65 then x.promise
  else if w = 66 then (if x.state == 2 then x.faultAddr else 0)
  else if x.state == 2 then x.faultCause.setWidth 64 else 0

/-- Word w of a retired id's map (R244). -/
def retiredWord (id : BitVec 16) (w : Nat) : W64 :=
  if w < 64 then 0xFFFFFFFFFFFFFFFF else if w = 64 then BitVec.ofNat 64 (id.toNat * 2 ^ 48 + 4) else 0

/-- The live transfer that a register names; a number of more than 16 bits was never issued and names a retired one (R240). -/
def Cell.liveOf (c : Cell) (v : W64) : Option Xfer := if v.toNat < 65536 then c.live? (v.extractLsb' 0 16) else none

def execTwmap (h : Head) (d : Reg) (ra : Reg) (b : SrcB) (s : State) : Out :=
  finishLen (lenOf h (litB b)) (
    let v := s.me.s ra.toNat
    let id := v.extractLsb' 0 16
    let w := (s.me.scalarB b).toNat
    if !s.me.guard h then .done s
    else if 68 ≤ w then .trap { cause := causeTwDescriptor } s
    else .done (s.setMe (s.me.setS d.toNat (match s.myCell.liveOf v with
      | some x => x.mapWord id w
      | none => retiredWord id w))))

/-- Whether chunk j of a transfer, or every chunk, reads as set; none when the chunk number is not allowed (R240, R243). -/
def Cell.chunkSet (c : Cell) (id : W64) (all : Bool) (j : Nat) : Option Bool :=
  match c.liveOf id with
  | none => some true
  | some x => if all then some (x.complete == x.chunks) else if j < x.chunks then some (x.bit j) else none

/-- What a set bit that is acquired takes up (R276), also from a transfer that has retired. Both parties are the cell, which every scope
includes. -/
def State.twAcquire (s : State) (id : W64) (ord : Order) : State :=
  if !ord.acq then s
  else match s.myCell.liveOf id with
  | some x => s.acquired s.cur x.deps
  | none => s.acquired s.cur (((s.myCell.twDeps.find? fun y => y.1.setWidth 64 == id).map (·.2)).getD [])

/-- A wait that acquires is held back by an earlier acquire (R278). -/
def acqAfter (s : State) (ord : Order) (k : Res) : Res := if ord.acq then afterAcquire s k else k

def execTwtest (h : Head) (ord : Order) (pd : PReg) (ra : Reg) (b : SrcB) (s : State) : Out :=
  finishLen (lenOf h (litB b)) (
    let id := s.me.s ra.toNat
    if !s.me.guard h then .done s
    else match s.myCell.chunkSet id false (s.me.scalarB b).toNat with
    | none => .trap { cause := causeTwDescriptor } s
    | some got =>
      let s := if got then s.twAcquire id ord else s
      .done (s.setMe (s.me.setK pd.toNat got)))

def execTwwait (h : Head) (all : Bool) (ord : Order) (ra : Reg) (b : SrcB) (s : State) : Out :=
  finishLen (lenOf h (litB b)) (
    let id := s.me.s ra.toNat
    let j := (s.me.scalarB b).toNat
    if !s.me.guard h then .done s
    else acqAfter s ord <| match s.myCell.chunkSet id all j with
    | none => .trap { cause := causeTwDescriptor } s
    | some true => .done (s.twAcquire id ord)
    | some false => .wait (.chunk (id.extractLsb' 0 16) (if all then none else some j)) s)

end Sys2Proof.Machine
end

