-- ==== Sys2Proof/Machine/Ready.lean ====
section
/-! DEFINITION. When a context is blocked and when it may issue (R44, R46, R321). -/

namespace Sys2Proof.Machine

/-- Whether a read of a data queue for `need` entries need not wait. -/
def DataQ.headReady (d : DataQ) (need : Nat) : Bool :=
  need ≤ d.entries.length && (d.entries.take need).all fun e => e.awaited == 0

/-- Whether a read of a reader endpoint need not wait (R210). -/
def State.chanReady (s : State) (w : Who) (q : Nat) : Bool :=
  let x := s.ctx w
  match tget none x.r.binds q with
  | some ⟨id, true⟩ =>
    let e := tget {} x.eps q
    let r := s.rcopy w.cell id
    let seq := s.nextSeq w.cell id + x.takenOf id
    !e.taken.isEmpty || takeable r.desc r.missing 1 seq != 0 || r.consumed seq
  | _ => true

/-- Whether what a context waits for has come. The waits that end with an event of their own never end here. -/
def State.waitOver (s : State) (w : Who) (k : Wait) : Bool :=
  let x := s.ctx w
  let c := s.cell w.cell
  match k with
  | .queue q need => (tget {} x.qs q).headReady need
  | .qspace q n => (tget {} x.qs q).entries.length + n ≤ 8
  | .chan q => s.chanReady w q
  | .credits id n => n ≤ (s.wcopy w.cell id).credits
  | .acquire => !x.acquiring
  | .ownAccess => !x.ownPending w.cell
  | .space n => x.heldBytes + x.relBytes + n ≤ 4096
  | .releases none => s.storesLeft w .system
  | .releases (some sc) => s.relClear w sc
  | .owed home => !s.owes w.cell home
  | .barrier b p => (c.bar b).phase != p || (c.bar b).parties == 0 || x.latched.any fun y => y.1 == causeBarrierConfig
  | .fence sc _ => s.fenceDone w sc
  | .slot => c.freeSlot.isSome
  | .chunk id ch => (c.chunkSet (id.setWidth 64) ch.isNone (ch.getD 0)) != some false
  | .mmaTurn => c.mma.isNone && !c.rowJoins.any fun j => j.isMma none
  | .accBusy a => !c.accBusy a
  | .quiesce => (s.partAt w.cell).gov.quiesce.isNone
  | .leaving => (s.backPressed w).isNone
  | _ => false

/-- Whether a context that holds an activation is blocked (R44): it waits, or its commit cannot release its next send (R341). An
MMA that runs and the members of a matched ONCE are past their wait. A request that a change of point holds back blocks it too (R368). -/
def State.blocked (s : State) (w : Who) : Bool :=
  (match (s.ctx w).wait with
    | none => false
    | some .mma => false
    | some (.joined _) => false
    | some k => !s.waitOver w k) || (s.backPressed w).isSome || s.heldBack? w

/-- Whether a context is ready in the sense of R44, whatever keeps its cell from issuing. -/
def State.unblocked (s : State) (w : Who) : Bool :=
  (s.ctx w).status == .running && !s.blocked w &&
  match (s.ctx w).wait with
  | some .mma => false
  | some (.joined _) => false
  | some .leaving => false
  | _ => true

/-- Whether the cells of a partition may issue at all: not once it is stopped (R432), nor in a cut for a checkpoint (R435). -/
def Part.runs (p : Part) : Bool :=
  p.open_ && !p.stopped && match p.cut with
  | .checkpoint _ _ => false
  | _ => true

/-- Whether a context stands in a boundary instruction that has begun: FORK or SVC (R42), an MMA in the array, or a matched ONCE. -/
def Ctx.midway (x : Ctx) : Bool :=
  match x.wait with
  | some .forkAcks => true
  | some .forkInject => true
  | some (.svc _) => true
  | some .mma => true
  | some (.joined _) => true
  | _ => false

/-- Whether a context is a member of a matched ONCE, which is neither blocked nor in one of the two instructions that R42 names. -/
def Ctx.inOnce (x : Ctx) : Bool :=
  match x.wait with
  | some (.joined _) => true
  | _ => false

/-- Whether every reserved entry of the data queues of a context is ready. -/
def Ctx.landed (x : Ctx) : Bool := x.qs.all fun q => q.2.entries.all fun e => e.awaited == 0

/-- Whether a context issues nothing any more, since its cell has asked it to stop: it waits for its entries, and for a boundary instruction that
has begun (R42, R323). -/
def Ctx.stopping (x : Ctx) : Bool := x.stopNext && (!x.midway || x.inOnce)

/-- Whether a context may issue: it runs, and is not blocked or at work in the array, nor stopping. -/
def State.ready (s : State) (w : Who) : Bool :=
  let x := s.ctx w
  let c := s.cell w.cell
  x.status == .running && (s.partAt w.cell).runs && !c.halted && !c.out && !c.tripped && c.promenade.isNone &&
  c.displacing != some w.ctx && !s.blocked w && !x.stopping &&
  match x.wait with
  | some .mma => false
  | some (.joined _) => false
  | some .leaving => false
  | _ => true

/-- Whether BUDGET counts for a context (R321, R350): also for the members of a matched ONCE, which are not blocked (log entry 28). -/
def State.counting (s : State) (w : Who) : Bool :=
  let x := s.ctx w
  let c := s.cell w.cell
  x.status == .running && (s.partAt w.cell).runs && !c.out && !c.tripped && c.promenade.isNone &&
  c.displacing != some w.ctx && !s.blocked w && !x.stopping &&
  !(s.partAt w.cell).cells.any (fun k => (s.cell k).halted) && x.wait != some .leaving

/-- The contexts of a cell. -/
def whos (cell : Nat) : List Who := ctxNums.map fun k => ⟨cell, k⟩

end Sys2Proof.Machine
end

