-- ==== Sys2Proof/Machine/Event.lean ====
section
/-! DEFINITION. What the steps of the device that no instruction word encodes have in common: one happens in a state where its
guard holds, and one that stands for a message takes it from the network. -/

namespace Sys2Proof.Machine

/-- The outcome of a step of the device: its next state, or that it does not happen in this state. -/
def event (name : String) (o : Option State) : Out :=
  match o with
  | some s => .next s
  | none => .refused (.notEnabled name)

/-- Whether the router of a switched-out cell refuses a message: stores and engine writes, the loader's writes and start messages, and the
messages of the system network, but for invalidations, which it acknowledges (R86, R182, R246, R342, R400). -/
def Msg.refusable (m : Msg) : Bool :=
  match m.body with
  | .inval _ _ _ => false
  | .codeWrite _ _ => true
  | .cellTables _ => true
  | .access a => match a.op with
    | .write => true
    | .engineWrite _ _ => true
    | _ => false
  | .parcel p => !p.onStrandNet
  | _ => m.vn == .system

/-- Whether message i may be delivered: no earlier message of its network and pair is in flight (R24), nor one that its target has refused
and that is to be sent again ahead of it (R291); a home station serves it next (R194), it is its turn at a cell's port (R36), and a channel
element has a place (R332, R338). -/
def State.deliverable (s : State) (i : Nat) : Bool :=
  match s.net[i]? with
  | none => false
  | some m =>
    (s.net.take i).all (fun x => !x.pair m) && (s.isOut m.dst || s.refused.all fun x => !x.1.pair m) && s.arbitrated m && match m.dst, m.body with
      | .cell n, .elem id _ _ _ _ => s.elemFits n id
      | .cell n, .parcel _ => s.portTurn n m || !s.portTakes n m
      | _, _ => true

/-- Whether a message is the request of an LDQ or an ATOMX. -/
def Msg.readsWord (m : Msg) : Bool :=
  match m.body with
  | .access a => match a.op with
    | .read => true
    | .atomic _ _ => true
    | _ => false
  | _ => false

/-- Whether a message's target refuses it now: an LDQ or an ATOMX too where it has refused an access ahead of it on the same pair, which is sent
again first, so that the two keep their order (R24, R286, R291). -/
def State.refuses (s : State) (m : Msg) : Bool :=
  s.isOut m.dst && (m.refusable || (m.readsWord && s.refused.any fun x => x.1.pair m))

/-- The step that takes message i of the network when it may be delivered, and its target refuses it or does not. -/
def arrivedIf (name : String) (refused : Bool) (i : Nat) (s : State) (k : Msg → State → Option State) : Out :=
  event name (
    match if s.deliverable i then s.net[i]? else none with
    | some m => if s.refuses m == refused then k m (s.take i) else none
    | none => none)

/-- The step that takes message i of the network, when it may be delivered, its target does not refuse it, and the step is for it. -/
def arrived (name : String) (i : Nat) (s : State) (k : Msg → State → Option State) : Out := arrivedIf name false i s k

/-- Whether the executor and dispatch of a partition work: it is neither stopped nor in a cut (R410, R432, R435). -/
def Part.active (p : Part) : Bool := p.open_ && !p.stopped && p.cut == .none

/-- Whether the cells of a partition form sets: until a pre-emption takes effect they do, and while its cells stop, as R323 has it (R410). -/
def Part.forms (p : Part) : Bool := p.open_ && !p.stopped && match p.cut with
  | .none => true
  | .closing => true
  | .preempting => true
  | _ => false

/-- Whether a cell forms sets at all: it is not switched out, stopping for THERMAL_TRIP, or moving (R323, R370, R434). -/
def Cell.up (c : Cell) : Bool := !c.out && !c.tripped && c.promenade.isNone

end Sys2Proof.Machine
end

