-- ==== Sys2Proof/Machine/Arrivals.lean ====
section
/-! DEFINITION. The inbox at work: arrivals (R36, R340), sets (R37, R316), start messages (R86), the bank write queue (R171), and
what a switched-out cell refuses (R182, R342, R425, R426). -/

namespace Sys2Proof.Machine

/-- Whether a parcel is a system message that the cell itself acts on when it arrives (R322, R336, R420, R86). -/
def Parcel.special (p : Parcel) : Bool :=
  match p.cls? with
  | some k => k == 1 || k == 2 || k == 4 || k == 6
  | none => false

/-- The number of a pool lane: its die and its lane. -/
def laneKey (die lane : Nat) : Nat := 256 * die + lane

/-- The place word that a parcel carries. -/
def Parcel.dest : Parcel → W64
  | .strand m => m.dest.setWidth 64
  | .msg m => m.dest.setWidth 64
  | .record _ w => w &&& 0xFFFFFFF

/-- A parcel from a pool counted against the pop request of its cell (R318). -/
def Cell.popped (c : Cell) (src : Endp) (p : Parcel) : Cell :=
  match src with
  | .poolRoot d =>
    let k := laneKey d (plLane p.dest)
    { c with popOpen := tset c.popOpen k (tget 0 c.popOpen k - 1) }
  | _ => c

/-- INBOX_ARRIVAL: the inbox accepts a strand, a message or a record (R32, R36, R340). -/
def execInboxArrival (i : Nat) (s : State) : Out :=
  arrived "INBOX_ARRIVAL" i s fun m s =>
    match m.dst, m.body with
    | .cell n, .parcel p =>
      if !p.special && (s.cell n).canAccept p then some
        ((s.setCell n ((s.cell n).popped m.src p)).inboxTakes n p) else none
    | _, _ => none

/-! ### Sets -/

/-- The free contexts of a cell (R314). -/
def Cell.freeCtxs (c : Cell) : List Nat := ctxNums.filter fun k => (c.ctx k).status == .free
/-- Whether any context of a cell is ready. -/
def State.anyReady (s : State) (cell : Nat) : Bool := (whos cell).any s.ready

/-- A set put into a context: its activation begins (R11, R34, R39). -/
def State.begin_ (s : State) (cell k : Nat) (l : List Arrival) (cores : Bool) (regs : Option TrapRegs) : State :=
  let c := s.cell cell
  let old := c.ctx k
  let place := (l.head?.map (·.place)).getD 0
  let (act, s) := s.fresh
  let x := beginCtx (c.entryRec (plEntry place)) place l cores s.turn act regs
  let x := { x with released := old.released, out := old.out, sent := old.sent, incsAwaited := old.incsAwaited, lastTbc := old.lastTbc }
  let s := s.setCtx ⟨cell, k⟩ x
  let s := s.setCell cell { s.cell cell with issuedSince := true }
  let d := (l.head?.map fun a => (a.id.extractLsb' 0 26, (a.lane.1).job)).getD (0, 0)
  s.trace ⟨cell, k⟩ 1 (plEntry place) [BitVec.ofNat 6 l.length ++ d.1 ++ d.2]

/-- A set formed from a bin in a free context (R37). -/
def State.formSet (s : State) (cell k : Nat) (b : Bin) : State :=
  let c := s.cell cell
  let l := b.msgs.take 32
  let b' : Bin := { b with msgs := b.msgs.drop 32, firstSegs := b.firstSegs + 1, due := false, regs := none }
  (s.setCell cell (c.setBin b')).begin_ cell k l false b.regs

/-- Whether the next group of a reservation has arrived in full (R313, R316). -/
def Reserv.full (r : Reserv) : Bool :=
  let n := if r.strands < r.size then r.strands else r.size
  0 < n && n ≤ r.waiting.length

/-- The next group of a reservation formed in one of its contexts (R316). Its first segment keeps the bin's entry in use, where one of the 16 is
its own or free (R36). -/
def State.formGroup (s : State) (cell j k : Nat) (r : Reserv) : State :=
  let c := s.cell cell
  let n := if r.strands < r.size then r.strands else r.size
  let r' := { r with groups := r.groups - 1, strands := r.strands - n, waiting := r.waiting.drop n }
  let c := { c with reservs := if r'.strands == 0 then delAt c.reservs j else setAt c.reservs j r' }
  let c : Cell := match c.bin? r.entry with
    | some b => c.setBin { b with firstSegs := b.firstSegs + 1 }
    | none =>
      if c.bins.length < 16 then
        let b := c.newBin r.entry []
        { c with bins := c.bins ++ [{ b with firstSegs := b.firstSegs + 1 }] }
      else c
  (s.setCell cell c).begin_ cell k (r.waiting.take n) true none

/-- What a sample of R37 takes: a class-0 bin, else a full group of a reservation, else the bin that R37 names. A pending
pre-emption leaves the bins of classes 0 to 2 (R323), and a displaced activation the class-0 bins: no group forms before it either (R320). -/
inductive Pick where
  | bin (k : Nat) (b : Bin)
  | group (j k : Nat) (r : Reserv)
  deriving DecidableEq, Repr

/-- The pick of a cell's sample, if it forms a set (R37). No sample falls between the arrivals of one network cycle: what one brings waits together
for a later sample (R36, R374). Which of several free contexts takes the set the reference does not say. DESIGN
CHOICE, log entry 62: the lowest-numbered one. -/
def State.sample (s : State) (cell : Nat) : Option Pick :=
  let c := s.cell cell
  if !c.up || c.halted || !(s.partAt cell).forms || !(s.gate cell).isEmpty then none
  else
    let bins := (c.qualifying (s.anyReady cell)).filter fun b => !c.preempting || b.urgent
    let zero := chooseBin (bins.filter fun b => b.msgs.any (·.isClass0))
    let free := c.freeCtxs.head?
    let held := ctxNums.find? fun k => (c.ctx k).status == .reserved
    match free, zero, held, findIdx Reserv.full c.reservs with
    | some k, some b, _, _ => some (.bin k b)
    | _, _, some k, some (j, r) => if c.displaced.isSome then none else some (.group j k r)
    | some k, none, _, _ => if c.displaced.isSome then none else (chooseBin bins).map (.bin k)
    | _, _, _, _ => none

/-- SET_FORMATION: one set forms at a sample (R37). -/
def execSetFormation (cell : Nat) (s : State) : Out :=
  event "SET_FORMATION" ((s.sample cell).map fun p =>
    match p with
    | .bin k b => s.formSet cell k b
    | .group j k r => s.formGroup cell j k r)

/-- Whether a bin's oldest arrival has waited the gather window and the bin is not yet marked (R37, rule 2). -/
def Cell.windowOver (c : Cell) (b : Bin) : Bool :=
  c.binOpen b && !b.due && match b.msgs.head? with
  | some a => (c.entryRec b.entry).gather.toNat ≤ c.cyc - a.cyc
  | none => false

/-- GATHER_WINDOW_EXPIRY: the bin qualifies from now on (R37). -/
def execGatherWindowExpiry (cell : Nat) (entry : PC) (s : State) : Out :=
  let c := s.cell cell
  event "GATHER_WINDOW_EXPIRY" ((c.bin? entry).bind fun b =>
    if c.windowOver b then some (s.setCell cell (c.setBin { b with due := true })) else none)

/-! ### The inbox tailrace -/

/-- Whether a refill read of a cell's inbox tailrace is in flight. -/
def State.refilling (s : State) (cell : Nat) : Bool :=
  s.net.any fun m => m.dst == .cell cell && match m.body with
    | .tailRead none _ _ _ => true
    | _ => false

/-- INBOX_REFILL: the router reads the oldest messages of the tailrace, as many as the threshold lets in (R340), unless a change of point holds
the read back (R368). They stay in the tailrace until they land. -/
def execInboxRefill (cell : Nat) (s : State) : Out :=
  let c := s.cell cell
  let n := refillCount (c.threshold - c.occupancy) c.tail
  let home := Endp.home ((s.partAt cell).blockAt (c.tailChain.blocks.headD 0) 0 / 2 ^ 32)
  event "INBOX_REFILL" (if !c.out && 2 * c.occupancy < c.threshold && n != 0 && !s.refilling cell && !s.barred cell home then some
    (s.post { vn := .response, src := home, dst := .cell cell, body := .tailRead none [] [] (c.tail.take n) }) else none)

/-- The arrivals of a refill that are still in the tailrace. -/
def Cell.stillTailed (c : Cell) (l : List Arrival) : List Arrival := l.filter fun a => c.tail.any fun y => y.seq == a.seq

/-- The arrivals of a refill that enter the buffer as they land: those of the head that are still in the tailrace, while none passes the
threshold. What the system network has brought since the read may have taken their room; the rest stays in the tailrace (R340). -/
def Cell.entering (c : Cell) (l : List Arrival) : List Arrival :=
  let here := c.stillTailed l
  here.take (refillCount (c.threshold - c.occupancy) here)

/-- Arrivals that a refill has read enter the buffer, each in its place in arrival order (R340). -/
def Cell.landInbox (c : Cell) (l : List Arrival) : Cell :=
  let here := c.entering l
  here.foldl Cell.enter { c with tail := c.tail.filter fun y => !here.any fun a => a.seq == y.seq }

/-- The same with the blocks that the refill has emptied given back (R338). -/
def State.landInbox (s : State) (cell : Nat) (l : List Arrival) : State :=
  let c := s.cell cell
  let (ch, s) := s.chainTake (s.partNo cell) c.tailChain (c.entering l).length
  s.setCell cell { c.landInbox l with tailChain := ch }

/-! ### Start messages (R86) -/

/-- START_MESSAGE: HOLD is cleared in every entry record, the class-6 handler runs if there is one, and the sender is answered. -/
def execStartMessage (i : Nat) (s : State) : Out :=
  arrived "START_MESSAGE" i s fun m s =>
    match m.dst, m.body with
    | .cell n, .parcel (.msg p) =>
      let c := (s.cell n).popped m.src (.msg p)
      let c' := { c with entries := c.entries.map fun (r : EntryRec) => { r with hold := false } }
      let c' := if c.hasHandler 6 then c'.accept (.msg p) else (c'.takeId (.msg p)).1
      if p.cls == 6 && c.canAccept (.msg p) then some
        ((s.setCell n c').post { vn := .response, src := .cell n, dst := m.src
                                 body := .startAck (p.payload.extractLsb' 32 32) n }) else none
    | _, _ => none

/-! ### The bank write queue -/

/-- BANK_WRITE: the oldest queued store of a cell is performed (R171). -/
def execBankWrite (cell : Nat) (s : State) : Out :=
  event "BANK_WRITE" (
    let c := s.cell cell
    match c.bankQ with
    | [] => none
    | b :: bs => some ((s.setCell cell { c with bankQ := bs }).perform cell b))

/-! ### Refusals of a switched-out cell -/

/-- Whether a message is a word that an engine writes. -/
def Body.engineWord? : Body → Option (Nat × Access)
  | .access a => match a.op with
    | .engineWrite slot _ => some (slot, a)
    | _ => none
  | _ => none

/-- An endpoint listed at a router that has refused it, up to 64 (R425). -/
def Refusals.add (r : Refusals) (e : Endp) : Refusals :=
  if r.listed.contains e then r
  else if r.listed.length < 64 then { r with listed := r.listed ++ [e] } else { r with overflow := true }

/-- A cell's router notes that it has refused an endpoint. -/
def State.noteRefusal (s : State) (cell : Nat) (e : Endp) : State :=
  let c := s.cell cell
  s.setCell cell { c with refusals := c.refusals.add e }

/-- SEND_REFUSED: the message goes back to its sender, which keeps it until the resume notification (R182, R342). -/
def execSendRefused (i : Nat) (s : State) : Out :=
  arrivedIf "SEND_REFUSED" true i s fun m s =>
    match m.dst with
    | .cell n =>
      if m.body.engineWord?.isNone then some
        (({ s with refused := s.refused ++ [(m, s.tbc)] } : State).noteRefusal n m.src) else none
    | _ => none

/-- TW_WRITE_REFUSED: the engine keeps the word in its slot, in state 1 (R246). -/
def execTwWriteRefused (i : Nat) (s : State) : Out :=
  arrivedIf "TW_WRITE_REFUSED" true i s fun m s =>
    match m.src, m.dst, m.body.engineWord? with
    | .cell k, .cell n, some (slot, a) =>
      let x := (s.cell k).xfer slot
      if x.busy && x.state == 0 then some
        ((s.setXfer k slot { x with state := 1, awaited := 0, kept := some (m.dst, a), keptAt := s.tbc }).noteRefusal n m.src) else none
    | _, _, _ => none

/-- The words that a cell's engine keeps for a target sent again. -/
def resendWords (cell : Nat) (t : Endp) : Tbl Xfer → State → State
  | [], s => s
  | (slot, x) :: rest, s =>
    let s := match x.kept with
      | some (d, a) =>
        if x.busy && x.state == 1 && d == t then
          (s.setXfer cell slot { x with state := 0, awaited := 1, kept := none }).post
            { vn := .request, src := .cell cell, dst := d, body := .access a }
        else s
      | none => s
    resendWords cell t rest s

/-- What an endpoint holds for a target sent again, ahead of whatever is on its way there (R182, R291, R342). -/
def State.resendTo (s : State) (e t : Endp) : State :=
  let l := s.refused.filter fun y => y.1.src == e && y.1.dst == t
  let s := { s with refused := s.refused.filter fun y => !(y.1.src == e && y.1.dst == t), net := l.map (·.1) ++ s.net }
  match e with
  | .cell k => resendWords k t (s.cell k).xfers s
  | _ => s

/-- RESUME_NOTIFICATION: the endpoint sends its refused items again (R425). -/
def execResumeNotification (i : Nat) (s : State) : Out :=
  arrived "RESUME_NOTIFICATION" i s fun m s =>
    match m.body with
    | .resume target => some (s.resendTo m.dst (.cell target))
    | _ => none

/-- Since when a cell's engine keeps words that a target has refused (R246). -/
def Cell.keptSince (c : Cell) (target : Nat) : List Nat :=
  (c.xfers.filter fun y => y.2.busy && y.2.state == 1 && y.2.kept.any fun k => k.1 == .cell target).map (·.2.keptAt)

/-- Since when an endpoint holds refused items for a target: the oldest of them. A cell's number is its code. -/
def State.refusedSince (s : State) (code target : Nat) : Option Nat :=
  let l := (s.refused.filter fun y => y.1.src.code == code && y.1.dst == .cell target).map (·.2) ++ (s.cell code).keptSince target
  match l with
  | [] => none
  | t :: ts => some (ts.foldl Nat.min t)

/-- The number under which the records of R426 of an endpoint and a target are limited. -/
def targetKey (code target : Nat) : Nat := 2 ^ 40 + 4096 * code + target

/-- Whether the record of R426 is due. An endpoint is named by its number, which is the cell for a cell. -/
def State.targetOut (s : State) (code target : Nat) : Bool :=
  let last := tget 0 s.sentAt (targetKey code target)
  (match s.refusedSince code target with
    | some t => t + 1000000 ≤ s.tbc
    | none => false) && (last == 0 || last + 1000000 ≤ s.tbc + 1)

/-- TARGET_SWITCHED_OUT: refused items held for 1,000 µs produce a record (R426). -/
def execTargetSwitchedOut (cell target : Nat) (s : State) : Out :=
  event "TARGET_SWITCHED_OUT" (if s.targetOut cell target then some (
    let pn := s.partNo target
    let e := ((s.refused.find? fun y => y.1.src.code == cell && y.1.dst == .cell target).map (·.1.src)).getD (.cell cell)
    let (own, src) : Option Nat × BitVec 2 := match e with
      | .cell k => (some k, 1)
      | .home _ => (none, 3)
      | .root => (none, 3)
      | .host => (none, 3)
      | .peer _ => (none, 3)
      | _ => (none, 2)
    let s := { s with sentAt := tset s.sentAt (targetKey cell target) (s.tbc + 1) }
    s.report pn e { s.recAt pn own causeTargetSwitchedOut src with addr := BitVec.ofNat 64 ((s.part pn).rel target) }) else none)

end Sys2Proof.Machine
end

