-- ==== Sys2Proof/Machine/Homes.lean ====
section
/-! DEFINITION. The homes (R269, R270): the checks at the home (R390, R391), the control window (R394), poisoned lines (R431), what
is performed, and the responses that come back to the cell (R172, R175, R183, R195). -/

namespace Sys2Proof.Machine

/-! ### The control window (R394) -/

/-- The entry record of an index. -/
def Cell.recAt (c : Cell) (i : Nat) : Option EntryRec := c.entries[i]?

/-- Doubleword k of a cell's control window. -/
def Cell.ctrl (c : Cell) (k : Nat) : W64 :=
  if k < 32 then c.handler k
  else if k = 32 then c.inboxCfg.setWidth 64
  else if k = 33 then c.casid.setWidth 64
  else if k = 34 then c.msgId.setWidth 64
  else if k < 256 then 0
  else match c.recAt ((k - 256) / 2) with
    | none => 0
    | some r =>
      if k % 2 = 0 then r.live ++ r.gather ++ BitVec.ofBool r.pin ++ BitVec.ofBool r.priv ++ r.entry
      else (0 : BitVec 31) ++ BitVec.ofBool r.hold ++ r.budget

/-- Doubleword k of a cell's control window written by code of the partition, which cannot set PRIV. -/
def Cell.setCtrl (c : Cell) (k : Nat) (v : W64) : Cell :=
  if k < 32 then { c with handlers := tset c.handlers k (v &&& 0x800000000FFFFFFF) }
  else if k = 32 then { c with inboxCfg := v.extractLsb' 0 8 }
  else if k < 256 then c
  else match c.recAt ((k - 256) / 2) with
    | none => c
    | some r =>
      let r : EntryRec :=
        if k % 2 = 0 then
          { r with live := v.extractLsb' 32 32, gather := v.extractLsb' 16 16, pin := v.getLsbD 15, priv := r.priv && v.getLsbD 14 }
        else { r with hold := v.getLsbD 32, budget := v.extractLsb' 0 32 }
      { c with entries := setAt c.entries ((k - 256) / 2) r }

/-- n bytes at an offset within a doubleword. -/
def subWord (v : W64) (off n : Nat) : W64 := (v >>> (8 * (off % 8))) &&& BitVec.ofNat 64 (2 ^ (8 * n) - 1)
/-- A doubleword with n bytes at an offset replaced. -/
def subWordSet (v : W64) (off n : Nat) (x : W64) : W64 :=
  let m := BitVec.ofNat 64 (2 ^ (8 * n) - 1)
  (v &&& ~~~(m <<< (8 * (off % 8)))) ||| ((x &&& m) <<< (8 * (off % 8)))

/-- n bytes read at a home: memory, or a cell's control window. -/
def State.homeRead (s : State) (dst : Endp) (key n : Nat) : W64 :=
  match dst with
  | .cell c =>
    let off := key % 2 ^ 20
    if 0x90000 ≤ off then subWord ((s.cell c).ctrl ((off - 0x90000) / 8)) off n else BitVec.ofNat 64 (readLE s.mem key n)
  | _ => BitVec.ofNat 64 (readLE s.mem key n)

/-- Whether an activation that stands in a context of the cell was formed before a write with a stamp. -/
def Cell.runsUnder (c : Cell) (stamp : Nat) : Bool :=
  (c.ctxs.any fun x => x.2.status != .free && decide (x.2.act < stamp)) || c.displaced.any fun x => decide (x.act < stamp)

/-- The words of the instruction store that n bytes at an offset of a cell take, remembered as they stand before a write that falls under
a running activation (R287); what no activation can see any more is forgotten. -/
def State.keepOld (s : State) (cell off n : Nat) : State :=
  if off < 0x80000 || 0x90000 ≤ off then s
  else
    let c := s.cell cell
    let stamp := s.nextId
    let first := (off - 0x80000) / 4
    let now := if c.runsUnder stamp then
        (List.range ((off - 0x80000 + n + 3) / 4 - first)).map fun k => ({ word := first + k, stamp, value := s.iword cell (first + k) } : OldWord)
      else []
    if now.isEmpty && c.oldWords.isEmpty then s
    else s.setCell cell { c with oldWords := (c.oldWords.filter fun o => c.runsUnder o.stamp) ++ now }

/-- The queued ATOMs performed that touch n bytes which another party writes: their words have been read already (R192). -/
def State.settleAtoms (s : State) (cell off n : Nat) : State := s.settleWhere cell fun b => b.atom && b.touches off n

/-- The queued stores of the context that has made an access performed, as many as it had queued by then: its local accesses come before the later
ones at any home (R273). -/
def State.settleAsker (s : State) (a : Access) : State :=
  if a.asker.isSome then s else s.settleWhere a.who.cell fun b => b.ctx == a.who.ctx && b.stamp ≤ a.id

/-- Bytes that the loader writes into a cell's scratchpad or instruction store (R85, R288). -/
def State.codeWritten (s : State) (cell key : Nat) (b : List Byte) : State :=
  let s := (s.settleAtoms cell (key % 2 ^ 20) b.length).keepOld cell (key % 2 ^ 20) b.length
  { s with mem := writeBytes s.mem key b }

/-- n bytes written at a home. A peer's memory is not this device's. -/
def State.homeWrite (s : State) (dst : Endp) (key n : Nat) (v : W64) : State :=
  match dst with
  | .cell c =>
    let off := key % 2 ^ 20
    if 0x90000 ≤ off then
      let k := (off - 0x90000) / 8
      s.setCell c ((s.cell c).setCtrl k (subWordSet ((s.cell c).ctrl k) off n v))
    else
      let s := (s.settleAtoms c off n).keepOld c off n
      { s with mem := writeLE s.mem key n v.toNat }
  | .peer _ => s
  | _ => { s with mem := writeLE s.mem key n v.toNat }

/-! ### Checks at the home -/

/-- Whether a home belongs to the partition of a request (R390). -/
def State.homeOwned (s : State) (dst : Endp) (key part : Nat) : Bool :=
  match dst with
  | .home _ => s.slabPart (key / 2 ^ 32) == some part
  | .cell c => s.partOf c == some part
  | _ => true

/-- Ranges of HBM that Thieno has written whole, each a base and a length: no line inside is poisoned any more (R431). -/
def State.sound (s : State) (l : List (Nat × Nat)) : State :=
  { s with clusters := tmap (fun _ (c : Cluster) => { c with
      poisoned := c.poisoned.filter fun y => !l.any fun r => r.1 ≤ 64 * y.1 && 64 * y.1 + 64 ≤ r.1 + r.2 }) s.clusters }

/-- The KIND of a violation record for an access (R391). -/
def Access.kind (a : Access) : Nat :=
  match a.asker, a.op with
  | some (.peer _), _ => 6
  | some _, _ => 5
  | none, .read => 0
  | none, .write => if 2 ^ 40 ≤ a.key && 0x80000 ≤ a.key % 2 ^ 20 && a.key % 2 ^ 20 < 0x90000 then 3 else 1
  | none, .atomic _ _ => 2
  | none, .engineRead _ _ => 4
  | none, .engineWrite _ _ => 4

/-- The cell that makes an access, if it is one. -/
def Access.cell? (a : Access) : Option Nat := if a.asker.isSome then none else some a.who.cell

/-- The log record of a request that fails at its home (R391). -/
def State.logAtHome (s : State) (dst : Endp) (a : Access) : State :=
  let (at_, target) : Nat × Nat := match dst with
    | .cell c => (2, s.phys c)
    | _ => (1, a.key / 2 ^ 32)
  s.logViolation { tbc := BitVec.ofNat 64 s.tbc, addr := a.ea, kind := a.kind, at_, part := a.part
                   phys := (a.cell?.map s.phys).getD 0xFFF, target := BitVec.ofNat 32 target }

/-- The log record and the one fault record of a request that fails at its home (R391). -/
def State.violated (s : State) (dst : Endp) (a : Access) : State :=
  let src : BitVec 2 := match dst with
    | .cell _ => 1
    | _ => 3
  (s.logAtHome dst a).report a.part dst (s.recAt a.part a.cell? causePartitionViolation src)

/-- Whether the Reel port through which a peer is reached is down (R458). -/
def State.portDown (s : State) (dev : Nat) : Bool := (s.reel (Config.reelRoute dev % 18)).lanes == 0

/-- The cause of an error that a peer's answer carries: one of the four of R180. -/
def peerCause (c : BitVec 7) : BitVec 7 :=
  if c == causeHomeUnreachable || c == causePartitionViolation || c == causeHbmUncorrectable then c else causeRemoteError

/-- Whether an access has an error at its home, and the state after it is noted there: its translation may have been taken away (R400),
and a peer is out of reach while its port is down (R180, R390, R431). -/
def State.homeError (s : State) (dst : Endp) (a : Access) (write : Bool) : Option (BitVec 7) × State :=
  if a.gone.isSome then (a.gone, s)
  else if !s.homeOwned dst a.key a.part then (some causePartitionViolation, s.violated dst a)
  else match dst with
    | .peer d =>
      if s.portDown d then (some causeHomeUnreachable, s)
      else ((Config.peerAnswer s.turn a.ea).1.map peerCause, s)
    | _ => if !write && (s.poison dst a.key).isSome then (some causeHbmUncorrectable, s) else (none, s)

/-! ### Performing an access -/

/-- An entry of the list of what a context waits for, performed and acknowledged; a displaced activation keeps its own. -/
def Ctx.performed (x : Ctx) (id : Nat) (home : Endp) : Ctx :=
  match findIdx (fun o => o.id == id && o.home == home) x.out with
  | some (k, _) => { x with out := delAt x.out k }
  | none => x
/-- The same for whichever context of the cell made the access. -/
def State.performedAt (s : State) (cell id : Nat) (home : Endp) : State :=
  let c := s.cell cell
  s.setCell cell { c with ctxs := tmap (fun _ x => x.performed id home) c.ctxs
                          displaced := c.displaced.map fun x => x.performed id home }

/-- What a release leaves at the bytes it writes (R276, R279). -/
def Access.leaves (a : Access) : Option RelDep :=
  a.rel.map fun scope => { key := a.key, size := a.size, cell := a.who.cell, scope, deps := a.deps }

/-- The value that a home returns: memory, or what a peer answers. -/
def State.homeValue (s : State) (dst : Endp) (a : Access) : W64 :=
  match dst with
  | .peer _ => (Config.peerAnswer s.turn a.ea).2
  | _ => s.homeRead dst a.key a.size

/-- The values that a word may still show to an engine: those before the stores that its transfer need not wait for (R241). -/
def State.oldValues (s : State) (cell slot : Nat) (a : Access) : List W64 :=
  (((s.cell cell).xfer slot).olds.filter fun y => y.1 == a.key).map (·.2)

/-- The value that an engine's read returns: the present one, or one that the word may still show. -/
def State.engineValue (s : State) (cell slot : Nat) (dst : Endp) (a : Access) : W64 :=
  let l := s.oldValues cell slot a
  if l.isEmpty then s.homeValue dst a else l.getD (Config.pick s.turn % (l.length + 1)) (s.homeValue dst a)

/-- Where the response to an access goes: to the cell or the peer that has made it. The host port answers for the host itself (R449). -/
def Access.replyTo (a : Access) : Option Endp :=
  match a.asker with
  | none => some (.cell a.who.cell)
  | some (.peer d) => some (.peer d)
  | some _ => none
/-- A reply with the value of a read or the old value of an atomic. -/
def replyRead (dst : Endp) (a : Access) (v : W64) (bad : Option (BitVec 7)) (deps : List Nat) (s : State) : State :=
  match a.replyTo with
  | some e => s.post { vn := .response, src := dst, dst := e, body := .readReply a v bad deps }
  | none => s
/-- The acknowledgement of a write. -/
def replyWrite (dst : Endp) (a : Access) (bad : Option (BitVec 7)) (s : State) : State :=
  match a.replyTo with
  | some e => s.post { vn := .response, src := dst, dst := e, body := .writeAck a bad }
  | none => s

/-- The acknowledgement of an atomic's write to the cell (R195), ahead of the old value, for which no release waits (R277). -/
def ackAtomic (dst : Endp) (a : Access) (s : State) : State := if a.asker.isSome then s else replyWrite dst a none s

/-- The acknowledgement of a send that is no access to memory, to the context that has noted it (R195, R196). -/
def State.ackSend (s : State) (home : Endp) (who : Option Who) (id : Nat) : State :=
  match who with
  | none => s
  | some w => replyWrite home { op := .write, who := w, id } none s

/-- An error that an engine meets at a home stops its transfer (R246); one whose translation has been taken away is one of translation. -/
def State.engineError (s : State) (slot : Nat) (a : Access) (cause : BitVec 7) : State :=
  let x := (s.cell a.who.cell).xfer slot
  s.setXfer a.who.cell slot (x.fail (if a.gone.isSome then causeTwTranslation else causeTwDestRefused) cause a.ea)

/-- The queued ATOMs of a cell performed whose word an access is about to change there (R192). -/
def State.settleWord (s : State) (dst : Endp) (a : Access) : State :=
  match dst with
  | .cell c => s.settleAtoms c (a.key % 2 ^ 20) a.size
  | _ => s

/-- One access performed at its home (R270). -/
def State.homeDo (s : State) (dst : Endp) (a : Access) : State :=
  match a.op with
  | .read =>
    let (bad, s) := (s.settleAsker a).homeError dst a false
    let deps := match a.acq with
      | some sc => s.depsAt a.key a.size a.who.cell sc
      | none => []
    let v := if bad.isSome then 0 else s.homeValue dst a
    replyRead dst a v bad deps (s.performedAt a.who.cell a.id dst)
  | .write =>
    match s.homeError dst a true with
    | (some c, s) => replyWrite dst a (some c) s
    | (none, s) =>
      replyWrite dst a none (((s.homeWrite dst a.key a.size a.data).noteRel a.key a.size a.leaves).unpoison dst a.key a.size)
  | .atomic op t =>
    match ((s.settleAsker a).settleWord dst a).homeError dst a false with
    | (some c, s) => replyRead dst a 0 (some c) [] (ackAtomic dst a s)
    | (none, s) =>
      let old := s.homeValue dst a
      let deps := match a.acq with
        | some sc => s.depsAt a.key a.size a.who.cell sc
        | none => []
      let s := s.homeWrite dst a.key a.size (atomNew op t old a.data a.cmp)
      let s := { s with relDeps := s.relDeps ++ (a.leaves.toList.filter fun y => !y.deps.isEmpty) }
      replyRead dst a old none deps (ackAtomic dst a s)
  | .engineRead slot k =>
    match s.homeError dst a false with
    | (some c, s) => s.engineError slot a c
    | (none, s) => s.engineGot a.who.cell slot k (s.engineValue a.who.cell slot dst a)
  | .engineWrite slot _ =>
    match s.homeError dst a true with
    | (some c, s) => s.engineError slot a c
    | (none, s) =>
      replyWrite dst a none (((s.homeWrite dst a.key 8 a.data).noteRel a.key 8 none).unpoison dst a.key 8)

/-- An entry record put among others in ascending ENTRY (R394). Of two entries declared at one word, whose LIVE, GATHER, PIN and BUDGET hold the
reference does not say. DESIGN CHOICE, log entry 70: those of the one declared first, which stands first and is found first. -/
def insertEntry (r : EntryRec) : List EntryRec → List EntryRec
  | [] => [r]
  | e :: l => if r.entry.toNat < e.entry.toNat then r :: e :: l else e :: insertEntry r l

/-- The tables of a cell after the write of a load: entry records, handler words and tensor images (step 6 of R84). -/
def Cell.withTables (c : Cell) (t : CellTables) : Cell :=
  { c with
    entries := t.entries.foldl (fun es r => insertEntry r es) (c.entries.filter fun r => t.kept.contains r.entry)
    handlers := t.handlers.foldl (fun h y => tset h y.1 y.2) c.handlers
    td := t.images.foldl (fun td y => (number 0 y.2).foldl (fun td w => tset td (4 * y.1 + w.1) w.2) td) c.td }

/-- HOME_ACCESS: a home performs one received access (R270), or a cell a write of the loader (R288). An access to a peer leaves on a Reel
port instead (R292), and completes with HOME_UNREACHABLE at once where that port is down (R180). -/
def execHomeAccess (i : Nat) (s : State) : Out :=
  arrived "HOME_ACCESS" i s fun m s =>
    match m.dst, m.body with
    | .peer d, .access a => if s.portDown d then some (s.homeDo m.dst a) else none
    | _, .access a => some (s.homeDo m.dst a)
    | .cell n, .codeWrite key b => some (s.codeWritten n key b)
    | .cell n, .cellTables t => some (s.setCell n ((s.cell n).withTables t))
    | _, _ => none

/-! ### Responses at the cell -/

/-- The part of a response that a lane's entry receives: bits 31 to 0, or the high half for the second entry of a pair. -/
def laneHalf (v : W64) (hi : Bool) : W32 := if hi then v.extractLsb' 32 32 else v.extractLsb' 0 32

/-- A reserved entry takes the response of one lane; the address and cause of the lowest lane that failed stay (R172, R174, R180). -/
def QEntry.got (e : QEntry) (a : Access) (v : W64) (bad : Option (BitVec 7)) (hi : Bool) : QEntry :=
  let e := { e with awaited := e.awaited - 1 }
  match bad with
  | none =>
    if e.scalar then { e with value := v } else { e with lanes := mkLanes fun L => if L = a.lane then laneHalf v hi else lane e.lanes L }
  | some c =>
    let first := (lanesOf e.badLanes).all fun L => decide (a.lane < L)
    { e with tag := .poison, badLanes := e.badLanes ||| maskOf fun L => L == a.lane
             badAddr := if first then a.ea else e.badAddr, badCause := if first then c else e.badCause }

/-- The response of one access put into the queue of its context (R172). -/
def Ctx.response (x : Ctx) (a : Access) (v : W64) (bad : Option (BitVec 7)) : Ctx :=
  let q := tget {} x.qs a.q
  let put := fun (e : QEntry) =>
    if e.id == a.id && e.awaited != 0 then e.got a v bad false
    else if a.half && e.id == a.id + 1 && e.awaited != 0 then e.got a v bad true
    else e
  { x with qs := tset x.qs a.q { q with entries := q.entries.map put } }

/-- QUEUE_RESPONSE: a reserved entry receives a response that has come to its cell; one for an entry that is gone is discarded (R172, R175). -/
def execQueueResponse (i : Nat) (s : State) : Out :=
  arrived "QUEUE_RESPONSE" i s fun m s =>
    match m.dst, m.body with
    | .cell _, .readReply a data bad deps =>
      let x := s.ctx a.who
      if x.act == a.act && x.status != .free then
        let s := s.setCtx a.who (x.response a (extendTo a.ty data.toNat) bad)
        some (if a.acq.isSome then s.acquired a.who deps else s)
      else some s
    | _, _ => none

/-- An error response for a released send latched in its activation, wherever that stands; the second and later ones are
counted (R183). -/
def Ctx.latch (x : Ctx) (cause : BitVec 7) (addr : W64) : Ctx :=
  match x.latched with
  | none => { x with latched := some (cause, addr), latchCount := 0 }
  | some _ => { x with latchCount := x.latchCount + 1 }

/-- Whether an activation is still in a context of a cell. -/
def Ctx.holds (x : Ctx) (act : Nat) : Bool := x.act == act && x.status != .free

/-- An error latched in its activation, or reported when that has ended. -/
def State.latchOrReport (s : State) (cell act : Nat) (cause : BitVec 7) (addr : W64) : State :=
  let c := s.cell cell
  let f := fun (x : Ctx) => if x.holds act then x.latch cause addr else x
  if c.ctxs.any (fun x => x.2.holds act) || c.displaced.any (fun x => x.holds act) then
    s.setCell cell { c with ctxs := tmap (fun _ x => f x) c.ctxs, displaced := c.displaced.map f }
  else
    s.reportLatched cell { s.recAt (s.partNo cell) (some cell) cause 1 with addr }

/-- STX_ERROR_RESPONSE: an error response for a released STX, or for an arrival whose configuration differs, is latched (R183,
R214). -/
def execStxErrorResponse (i : Nat) (s : State) : Out :=
  arrived "STX_ERROR_RESPONSE" i s fun m s =>
    match m.dst, m.body with
    | .cell _, .writeAck a (some cause) =>
      some ((s.performedAt a.who.cell a.id m.src).latchOrReport a.who.cell a.act cause a.ea)
    | .cell _, .barAck _ who act false =>
      some (s.latchOrReport who.cell act causeBarrierConfig (Config.noTrapAddr s.turn))
    | _, _ => none

/-- WRITE_ACKNOWLEDGEMENT: a write has been performed at its home (R195, R277). -/
def execWriteAcknowledgement (i : Nat) (s : State) : Out :=
  arrived "WRITE_ACKNOWLEDGEMENT" i s fun m s =>
    match m.dst, m.body with
    | .cell _, .writeAck a none => match a.op with
      | .engineWrite slot k => some (s.engineDone a.who.cell slot k)
      | _ => some (s.performedAt a.who.cell a.id m.src)
    | _, _ => none

/-! ### Memory errors (R431) -/

/-- HBM_ERROR: the home station of a slab corrects an error, or poisons the line (R431). -/
def execHbmError (pa : Nat) (corrected : Bool) (s : State) : Out :=
  let k := pa / 2 ^ 32
  event "HBM_ERROR" (if s.boot == .ready && k < 192 then some (
    let r := fun (pn : Nat) (cause : BitVec 7) => { s.recAt pn none cause 3 with addr := BitVec.ofNat 64 pa }
    if corrected then match s.slabPart k with
      | some pn => s.reportLimited pn (.home k) (r pn causeHbmCorrected)
      | none => s
    else
      let c := s.cluster k
      let rest := c.poisoned.filter fun y => y.1 != pa / 64
      let s := match s.slabPart k with
        | some pn => if rest.length == c.poisoned.length then s.report pn (.home k) (r pn causeHbmUncorrectable) else s
        | none => s
      s.setCluster k { c with poisoned := rest ++ [(pa / 64, 0)] }) else none)

/-- SCRATCH_CORRECTED: a cell corrects a scratchpad error and reports it (R431). -/
def execScratchCorrected (cell : Nat) (s : State) : Out :=
  event "SCRATCH_CORRECTED" ((s.partOf cell).map fun pn =>
    s.reportLimited pn (.cell cell) (s.recAt pn (some cell) causeScratchCorrected 1))

end Sys2Proof.Machine
end

