-- ==== Sys2Proof/Machine/Counts.lean ====
section
/-! DEFINITION. Job strand counts at their homes (R310 to R312), and the acknowledgements that FORK, far branches of uncounted lanes
and dispatch wait for (R204, R308, R375). -/

namespace Sys2Proof.Machine

/-- The JOB and COUNT of a count line (R310). -/
def State.countLine (s : State) (line : Nat) : W32 × Nat :=
  let v := readLE s.mem (hbmKey line) 8
  (BitVec.ofNat 32 (v / 2 ^ 32), v % 2 ^ 32)
/-- The count of a line written. -/
def State.setCount (s : State) (line : Nat) (n : Nat) : State := { s with mem := writeLE s.mem (hbmKey line) 4 n }
/-- The count line of a job written by the executor (R310). -/
def State.initLine (s : State) (line : Nat) (job : W32) (owner : Nat) : State :=
  (s.hbmWrite line 8 (job.toNat * 2 ^ 32)).hbmWrite (line + 8) 8 owner

/-- A record of JOB_COUNT_UNDERFLOW from the home of a line (R203, R310). -/
def State.countRecord (s : State) (line : Nat) (job : W32) : State :=
  match s.slabPart (line / 2 ^ 32) with
  | some pn =>
    s.reportLimited pn (.home (line / 2 ^ 32)) { s.recAt pn none causeJobUnderflow 3 with job }
  | none => s

/-- The cause with which a home refuses an increment, if it does (R204, R310). -/
def State.incRefused (s : State) (home : Endp) (line : Nat) (job : W32) (n : Nat) : Option (BitVec 7) :=
  if (s.poison home (hbmKey line)).isSome then some causeHbmUncorrectable
  else if (s.countLine line).1 != job then some causeJobUnderflow
  else if 2 ^ 32 ≤ (s.countLine line).2 + n then some causeForkCount
  else none

/-- COUNT_INCREMENT: the home applies or refuses an increment, and acknowledges it (R204). -/
def execCountIncrement (i : Nat) (s : State) : Out :=
  arrived "COUNT_INCREMENT" i s fun m s =>
    match m.body with
    | .countAdd job n who fork slot line =>
      let bad := s.incRefused m.dst line job n
      let s := if bad.isNone then s.setCount line ((s.countLine line).2 + n)
        else if bad == some causeJobUnderflow then s.countRecord line job else s
      some (s.post { vn := .response, src := m.dst, dst := m.src, body := .countAck job n who fork slot bad })
    | _ => none

/-- A decrement applied to a line, with JOB_DONE when it takes the count to zero; one that the line cannot take is reported (R203, R310,
R312). A poisoned line fails the request as it fails every read; its home has reported it already (R431). -/
def State.decrement (s : State) (home : Endp) (line : Nat) (job : W32) (n : Nat) : State :=
  let c := (s.countLine line).2
  if (s.poison home (hbmKey line)).isSome then s
  else if (s.countLine line).1 != job then s.countRecord line job
  else
    let s := if c < n then s.countRecord line job else s
    let s := s.setCount line (c - n)
    if c != 0 && c ≤ n then
      let p := s.part ((s.slabPart (line / 2 ^ 32)).getD 0x3F)
      let owner := readLE s.mem (hbmKey line + 8) 8 % 4
      s.post { vn := .system, src := home, dst := .dmc (p.dies.getD owner 0)
               body := .jobDone job line (BitVec.ofNat 64 s.tbc) }
    else s

/-- COUNT_DECREMENT: the home applies a decrement and acknowledges it (R196, R203, R312). -/
def execCountDecrement (i : Nat) (s : State) : Out :=
  arrived "COUNT_DECREMENT" i s fun m s =>
    match m.body with
    | .countSub job n line who id => some ((s.decrement m.dst line job n).ackSend m.dst who id)
    | _ => none

/-! ### Acknowledgements at a cell -/

/-- A FORK whose last increment has been acknowledged (R204): its children leave, or the increments that were applied are
taken back and it traps. -/
def State.forkCounted (s : State) (w : Who) (f : Fork) : State :=
  match f.refused with
  | none => s.setCtx w { s.ctx w with fork := some f, wait := some .forkInject }
  | some cause =>
    (f.applied.foldl (fun s j => s.subtractOne w.cell j) s).takeTrap w { cause }

/-- One acknowledgement of a FORK. -/
def Fork.ack (f : Fork) (job : W32) (n : Nat) (bad : Option (BitVec 7)) : Fork :=
  { f with awaited := f.awaited - 1
           applied := if bad.isNone then f.applied ++ [(job, n)] else f.applied
           refused := f.refused <|> bad }

/-- Whether a send is the strand of an uncounted lane of a job. -/
def Send.uncounted (sd : Send) (job : W32) : Bool :=
  match sd.body with
  | .strand m u => u && m.job == job
  | _ => false

/-- Whether a send is an increment of a job. -/
def Send.increments (sd : Send) (job : W32) : Bool :=
  match sd.body with
  | .incr j _ => j == job
  | _ => false

/-- The strands that a refused increment counted are discarded: those released with it, up to the job's next increment (R375). -/
def dropUncounted (job : W32) : List Send → List Send
  | [] => []
  | sd :: rest =>
    if sd.increments job then sd :: rest
    else if sd.uncounted job then dropUncounted job rest else sd :: dropUncounted job rest

/-- The acknowledgement of an increment that a far branch held (R375). The limit of R416 is for causes of kind R, which FORK_COUNT_OVERFLOW is not. -/
def State.incrementAcked (s : State) (w : Who) (job : W32) (bad : Option (BitVec 7)) : State :=
  let x := s.ctx w
  let x := { x with incsAwaited := x.incsAwaited - 1 }
  match bad with
  | none => s.setCtx w x
  | some cause =>
    let s := s.setCtx w { x with released := dropUncounted job x.released }
    let pn := s.partNo w.cell
    let r := { s.recAt pn (some w.cell) cause 1 with job }
    if cause == causeForkCount then s.report pn (.cell w.cell) r else s.reportLimited pn (.cell w.cell) r

/-- FORK_CHILD_INJECT: the next child leaves the router; with the last one FORK retires and commits (R204). -/
def execForkChildInject (cell ctx : Nat) (s : State) : Out :=
  let w : Who := ⟨cell, ctx⟩
  let x := s.ctx w
  event "FORK_CHILD_INJECT" (
    match x.wait, x.fork with
    | some .forkInject, some f =>
      match f.children with
      | [] => none
      | c :: cs =>
        let place := c.dest.setWidth 64
        let s' := s.sendParcel cell place (.strand c)
        let s' := if cs.isEmpty then (s'.setCtx w (({ x with fork := none } : Ctx).past f.len)).commit w 3
          else s'.setCtx w { x with fork := some { f with children := cs } }
        let own := (s.partAt cell).endpOf place == .cell cell
        let held := (own && !(s.gate cell).isEmpty) || s.barred cell ((s.partAt cell).endpOf place) || s.owes cell ((s.partAt cell).endpOf place)
        if !held && s.roomFor (s.partNo cell) place (.strand c) then some s' else none
    | _, _ => none)

end Sys2Proof.Machine
end

