-- ==== Sys2Proof/Machine/Joins.lean ====
section
/-! DEFINITION. Barriers above a cell (R213, R214), the match of joins (R215 to R217), and MMA from its match to its retirement (R233
to R237). -/

namespace Sys2Proof.Machine

/-! ### Barriers -/

/-- BARRIER_ARRIVAL: a remote arrival reaches the master and is counted, or its configuration differs and it is discarded with
an error response (R214). -/
def execBarrierArrival (i : Nat) (s : State) : Out :=
  arrived "BARRIER_ARRIVAL" i s fun m s =>
    match m.dst, m.body with
    | .cell n, .barArrive bar cfg who act deps =>
      let c := s.cell n
      let x := c.bar bar
      if !c.out then some (
        if x.config != cfg || x.parties == 0 then
          s.post { vn := .response, src := .cell n, dst := .cell who.cell, body := .barAck bar who act false }
        else
          let (x', completes) := x.arrive who.cell deps
          let s := s.setCell n (c.setBar bar x')
          if completes then s.sendPhase n bar else s) else none
    | _, _ => none

/-- The answer to a member's BARC: BARRIER_CONFIG when the master has counted arrivals, else the master's phase (R213). -/
def State.barAnswered (s : State) (w : Who) (bar len : Nat) (arrivals phase : W32) : State :=
  if arrivals != 0 then s.takeTrap w { cause := causeBarrierConfig }
  else
    let c := s.cell w.cell
    let s := s.setCell w.cell (c.setBar bar { c.bar bar with phase })
    (s.setCtx w ((s.ctx w).past len)).onceAfter w

/-- BARRIER_STATE_REPLY: the master answers a member's question, and the answer ends the member's BARC (R213). -/
def execBarrierStateReply (i : Nat) (s : State) : Out :=
  arrived "BARRIER_STATE_REPLY" i s fun m s =>
    match m.dst, m.body with
    | .cell n, .barQuery bar who =>
      let x := (s.cell n).bar bar
      if !(s.cell n).out then some (s.post
        { vn := .system, src := .cell n, dst := .cell who.cell, body := .barReply bar who x.arrivals x.phase }) else none
    | .cell _, .barReply bar who arrivals phase =>
      match (s.ctx who).wait with
      | some (.barReply b len) => some (if b == bar then s.barAnswered who bar len arrivals phase else s)
      | _ => some s
    | _, _ => none

/-- PHASE_UPDATE: a member writes the master's phase into its copy (R213). What a member does whose own barrier is configured with another span, or
not at all, the reference does not say. DESIGN CHOICE, log entry 70: it writes PHASE all the same. -/
def execPhaseUpdate (i : Nat) (s : State) : Out :=
  arrived "PHASE_UPDATE" i s fun m s =>
    match m.dst, m.body with
    | .cell n, .phase bar _ phase deps =>
      let c := s.cell n
      if !c.out then some (s.setCell n (c.setBar bar { c.bar bar with phase, pdeps := deps })) else none
    | _, _ => none

/-! ### The match of joins -/

/-- The cells of a wire. -/
def wireCells : Wire → List Nat
  | .row r => rowCells r
  | .cluster k => clusterCells k

/-- The first join of every member of a wire, when all are present and wait. -/
def State.heads (s : State) (wire : Wire) : Option (List (Nat × Join)) :=
  (wireCells wire).mapM fun n => match ((s.cell n).joins wire).head? with
    | some j => if j.present && (s.ctx ⟨n, j.ctx⟩).wait == some (.join wire) then some (n, j) else none
    | none => none

/-- Joins are of one kind when GANG meets GANG, ONCE meets ONCE, and MMA meets MMA (R215). -/
def JoinKind.tag : JoinKind → Nat
  | .gang => 0
  | .once => 1
  | .mma _ => 2

/-- Every member of a match traps, and its join is withdrawn. The reference does not say what becomes of the place on the wire.
DESIGN CHOICE, log entry 62: it stays with the activation, as after a pre-emption (R215). -/
def trapMembers (f : Nat → Trap) : List (Nat × Join) → State → State
  | [], s => s
  | (n, j) :: rest, s => trapMembers f rest (s.takeTrap ⟨n, j.ctx⟩ (f n))

/-- A matched GANG: each member retires it and commits (R216). -/
def gangMembers (wire : Wire) : List (Nat × Join) → State → State
  | [], s => s
  | (n, j) :: rest, s =>
    let w : Who := ⟨n, j.ctx⟩
    let s := s.dropJoin n wire
    gangMembers wire rest ((s.setCtx w ((s.ctx w).past j.len)).commit w 3)

/-- Each member of a matched MMA starts to run it (R235). The operands are those of the state `s0` at the match. -/
def mmaMembers (s0 : State) (wire : Wire) : List (Nat × Join) → State → State
  | [], s => s
  | (n, j) :: rest, s =>
    match j.kind with
    | .mma op =>
      let w : Who := ⟨n, j.ctx⟩
      let s := s.dropJoin n wire
      let s := s.setCell n { s.cell n with mma := some (mmaStart s0 n j.ctx j.len op) }
      mmaMembers s0 wire rest (s.setCtx w { s.ctx w with wait := some .mma })
    | _ => mmaMembers s0 wire rest s

/-- The operation of a join that is an MMA. -/
def Join.op? (j : Join) : Option MmaOp :=
  match j.kind with
  | .mma op => some op
  | _ => none

/-- A matched MMA: the operands must agree, and every member must pass its checks (R233, R234). -/
def State.matchMma (s : State) (wire : Wire) (l : List (Nat × Join)) : State :=
  let keys := l.map fun y => y.2.op?.map (mmaKey s y.1)
  if keys.any fun k => k != keys.headD none then trapMembers (fun _ => { cause := causeGangMismatch }) l s
  else
    let own := l.map fun y => (y.1, y.2.op?.bind (mmaCheck s y.1))
    match own.find? fun y => y.2.isSome with
    | none => mmaMembers s wire l s
    | some (first, _) =>
      trapMembers (fun n => ((own.find? fun y => y.1 == n).bind (·.2)).getD
        { cause := causeGangAbort, addr := some (BitVec.ofNat 64 (first % 4)) }) l s

/-- JOIN_MATCH: the first joins of all members of a wire are matched (R215). -/
def execJoinMatch (wire : Wire) (s : State) : Out :=
  event "JOIN_MATCH" ((s.heads wire).map fun l =>
    match l with
    | [] => s
    | (n, j) :: rest =>
      if rest.any fun y => y.2.kind.tag != j.kind.tag then trapMembers (fun _ => { cause := causeGangMismatch }) l s
      else match j.kind with
      | .gang => gangMembers wire l s
      | .once => s.onceStart ⟨n, j.ctx⟩ wire (l.map fun y => (⟨y.1, y.2.ctx⟩, y.2.act, y.2.len))
      | .mma _ => s.matchMma wire l)

/-! ### Counting work (R356) -/

/-- A cell's counter table sent to its governor and cleared. -/
def State.sendWork (s : State) (cell : Nat) : State :=
  let c := s.cell cell
  if c.units.isEmpty then s
  else (s.setCell cell { c with units := [] }).post
    { vn := .system, src := .cell cell, dst := s.govOf cell, body := .work c.units cell }

/-- Units added to one step of a cell's counter table of 16 steps. -/
def State.addUnit (s : State) (cell n : Nat) (id : W32) : State :=
  let c := s.cell cell
  let known := c.units.any fun u => u.1 == id.toNat
  let s := if known || c.units.length < 16 then s else s.sendWork cell
  let c := s.cell cell
  s.setCell cell { c with units := tset c.units id.toNat (tget 0 c.units id.toNat + n) }

/-- Units added to every step of a list. -/
def State.addUnits (s : State) (cell n : Nat) (ids : List W32) : State := ids.foldl (fun s id => s.addUnit cell n id) s

/-- The distinct nonzero steps of a context's live lanes (R356). -/
def Ctx.stepIds (x : Ctx) : List W32 := ((x.lives.map x.step).filter (· != 0)).eraseDups

/-! ### Retirement of MMA -/

/-- Whether the MMA of a row has run its time in all members (R237). -/
def State.mmaReady (s : State) (row : Nat) : Bool :=
  (rowCells row).all fun n => match (s.cell n).mma with
    | some r => r.due ≤ (s.cell n).cyc
    | none => false

/-- The members of a row write back and commit, and their steps take the units of the MMA's time (R356). The results are those of the
state `s0`. -/
def retireMembers (s0 : State) : List Nat → State → State
  | [], s => s
  | n :: rest, s =>
    match (s.cell n).mma with
    | none => retireMembers s0 rest s
    | some r =>
      let w : Who := ⟨n, r.ctx⟩
      let s := s.addUnits n (mmaCycles r.op (tdK r.tdA)) (s.ctx w).stepIds
      let c := (s.cell n).setAcc r.op.acc.toNat (mmaResult s0 n r)
      let s := s.setCell n { c with mma := none }
      retireMembers s0 rest ((s.setCtx w ((s.ctx w).past r.len)).commit w 3)

/-- MMA_RETIRE: the working copies are written back and every member commits (R235, R237). -/
def execMmaRetire (row : Nat) (s : State) : Out :=
  event "MMA_RETIRE" (if s.mmaReady row then some (retireMembers s (rowCells row) s) else none)

end Sys2Proof.Machine
end

