-- ==== Sys2Proof/Machine/Transfers.lean ====
section
/-! DEFINITION. The ends of chunks and transfers: chunk bits (R241), handle pushes (R245), faults (R246). -/

namespace Sys2Proof.Machine

/-- A transfer whose chunks are complete and whose handle is pushed: the slot is free (R240). -/
def Xfer.retire (x : Xfer) : Xfer := { x with busy := false, state := 4 }

/-- The channel that a transfer pushes its handle into (R238). -/
def Xfer.chan? (x : Xfer) : Option Nat := if x.notify.getLsbD 16 then some (x.notify.toNat % 65536) else none

/-- Whether every word of the present chunk is performed. -/
def Xfer.chunkDone (x : Xfer) : Bool :=
  x.busy && x.state == 0 && !x.failing && x.todo.isEmpty && x.awaited == 0 && x.cur < x.chunks && !x.bit x.cur

/-- A chunk's bit set; the engine goes on to the next chunk, or the transfer is complete. -/
def Xfer.chunkSet (x : Xfer) : Xfer :=
  let x := { x with done := tset x.done x.cur true }
  if x.firstOpen < x.chunks then x.openChunk x.firstOpen
  else if x.chan?.isSome then { x with state := 3 } else x.retire

/-- What the chunk bits of a transfer released is kept for the acquires that name its id after it has retired (R276). -/
def State.keepDeps (s : State) (cell slot : Nat) (x : Xfer) : State :=
  let c := s.cell cell
  let l := s.stillFlying cell x.deps
  let rest := c.twDeps.filter fun y => y.1 != x.idOf slot && y.2.any fun id => s.flying cell .system id
  if c.twDeps.isEmpty && l.isEmpty then s
  else s.setCell cell { c with twDeps := if l.isEmpty then rest else rest ++ [(x.idOf slot, l)] }

/-- TW_CHUNK_COMPLETE: the bit of a chunk is set (R241). With the last chunk the transfer retires, or the channel's writer end is taken up
for its handle (R337). -/
def execTwChunkComplete (cell slot : Nat) (s : State) : Out :=
  let x := (s.cell cell).xfer slot
  event "TW_CHUNK_COMPLETE" (if x.chunkDone then some (
    let x' := x.chunkSet
    let s := s.setXfer cell slot x'
    if !x'.busy then s.keepDeps cell slot x
    else match x'.chan? with
    | some id => if x'.state == 3 then s.takeEnd cell id false else s
    | none => s) else none)

/-- The handle of a completed transfer (R245). -/
def Xfer.handle (x : Xfer) (slot : Nat) : W64 :=
  x.idOf slot ++ BitVec.ofNat 16 x.chunks ++ (if x.dst.getLsbD 63 then x.dst.extractLsb' 20 12 else 0) ++ x.dst.extractLsb' 0 20

/-- Whether an earlier transfer of the cell has a handle for the same channel still to push (R241). -/
def Cell.earlierPush (c : Cell) (slot id : Nat) : Bool :=
  c.xfers.any fun y => y.1 != slot && y.2.busy && y.2.chan? == some id && y.2.order < (c.xfer slot).order

/-- Whether a completed transfer may push its handle: no earlier handle and no released element of the channel waits, there is credit, the
channel is open, and the writes behind the transfer are performed in the channel's scope (R241, R245, R277, R290, R337). -/
def State.pushDue (s : State) (cell slot id : Nat) : Bool :=
  let c := s.cell cell
  let x := c.xfer slot
  let wc := s.wcopy cell id
  x.busy && x.state == 3 && !c.earlierPush slot id && !c.queuedChan id && wc.credits != 0 && wc.desc.state == 1 &&
  x.deps.all fun k => !s.flying cell wc.desc.scopeOf k

/-- TW_HANDLE_PUSH: the handle leaves on the channel, and the slot is free (R245, R337). -/
def execTwHandlePush (cell slot : Nat) (s : State) : Out :=
  let x := (s.cell cell).xfer slot
  event "TW_HANDLE_PUSH" (
    match x.chan? with
    | none => none
    | some id =>
      let wc := s.wcopy cell id
      let home := Endp.cell ((s.partAt cell).dev wc.desc.reader)
      if s.pushDue cell slot id then some (
        let wc' := { wc with credits := wc.credits - 1, desc := { wc.desc with wcount := wc.desc.wcount + 1 } }
        let s := (s.setWcopy cell id (some wc')).setXfer cell slot x.retire
        let s := (s.keepDeps cell slot x).tidyW cell id
        s.post { vn := .request, src := .cell cell, dst := home, body := .elem id (x.handle slot) none 0 x.deps }) else none)

/-- Whether the channel of a waiting handle is closed (R246). -/
def State.pushClosed (s : State) (cell : Nat) (x : Xfer) : Bool :=
  x.busy && x.state == 3 && x.chan?.any fun id => (s.wcopy cell id).desc.state == 2

/-- The failed transfer: what stopped it, or the closed channel. -/
def Xfer.stopCause (x : Xfer) : BitVec 7 := if x.failing then x.faultCause else causeTwDestRefused

/-- TW_FAULT: the transfer stops in state 2; a class-3 message goes to the submitting cell, and a record with it (R246, R424). -/
def execTwFault (cell slot : Nat) (s : State) : Out :=
  let x := (s.cell cell).xfer slot
  event "TW_FAULT" (if x.busy && ((x.failing && x.awaited == 0 && x.state != 2) || s.pushClosed cell x) then some (
    let cause := x.stopCause
    let x' := { x with state := 2, failing := false, faultCause := cause, todo := []
                       faultAddr := if x.failing then x.faultAddr else Config.noTrapAddr s.turn
                       subcause := if x.failing then x.subcause else causeChannelClosed }
    let pn := s.partNo cell
    let rel := (s.part pn).rel cell
    let id := x.idOf slot
    let msg : Smsg :=
      { payload := id ++ BitVec.ofNat 16 x.firstOpen ++ (0 : BitVec 25) ++ cause
        origin := BitVec.ofNat 12 rel, part := BitVec.ofNat 6 pn, cls := 3, dest := (placeOf rel 0).extractLsb' 0 28
        step := x.step, job := x.job, wid := x.wid }
    let s := s.setXfer cell slot x'
    let s := s.post { vn := .system, src := .cell cell, dst := .cell cell, body := .parcel (.msg msg) }
    s.report pn (.cell cell) { s.recAt pn (some cell) cause 1 with
      addr := x'.faultAddr, xid := id, subcause := x'.subcause, wid := x.wid, step := x.step, job := x.job }) else none)

end Sys2Proof.Machine
end

