-- ==== Sys2Proof/Machine/Rings.lean ====
section
/-! DEFINITION. The channel engines (R332 to R337), the pool roots (R318, R343), and the Sluice (R344 to R348). -/

namespace Sys2Proof.Machine

/-! ### Channel engines -/

/-- CHANNEL_ELEMENT_ARRIVAL: the reader's engine places an element, and a CHW element is acknowledged (R332). -/
def execChannelElementArrival (i : Nat) (s : State) : Out :=
  arrived "CHANNEL_ELEMENT_ARRIVAL" i s fun m s =>
    match m.src, m.dst, m.body with
    | .cell k, .cell n, .elem id x who n' deps =>
      let s := if (tget none (s.cell n).rcopies id).isNone then s.setRcopy n id (some (s.takeReader n id 1)) else s
      let rel : RelDep := { key := 0, size := 8, cell := k, scope := (s.rcopy n id).desc.scopeOf, deps }
      let s := (s.elemArrive n id x (some rel)).syncR n id
      some (s.ackSend (.cell n) who n')
    | _, _, _ => none

/-- The element at an address of a tailrace as a refill reads it: a read of a poisoned line fails and gives zero (R180, R431; log entry
68). -/
def State.tailWord (s : State) (pa : Nat) : W64 := BitVec.ofNat 64 (s.unitWord pa)

/-- n elements read from the head of a tailrace: what they are, the slots they will take, and the blocks they empty (R333). The
releases behind them move to their slots. -/
def refillReads (cell : Nat) : Nat → Nat → Desc → State → List (Nat × W64) × List Nat × Desc × State
  | 0, _, d, s => ([], [], d, s)
  | n + 1, sq, d, s =>
    let (d', at_, blocks) := tailHead s (s.partAt cell) d
    let x := s.tailWord at_
    let s := s.moveRel (hbmKey at_) (cellKey cell (d.slot sq)) 8
    let (l, bs, d', s) := refillReads cell n (sq + 1) d' s
    ((sq, x) :: l, blocks ++ bs, d', s)

/-- Whether the engine refills a ring now (R333, R342). -/
def State.refillDue (s : State) (cell id : Nat) : Bool :=
  match tget none (s.cell cell).rcopies id with
  | none => false
  | some r => !(s.cell cell).out && r.landing == 0 && 0 < r.desc.trLen && 2 * r.desc.ringLen < r.desc.cap &&
    !s.barred cell (.home ((s.partAt cell).blockAt r.desc.headBlk r.desc.headIdx / 2 ^ 32))

/-- CHANNEL_REFILL: the engine reads as many elements as the ring has room for (R333). -/
def execChannelRefill (cell chan : Nat) (s : State) : Out :=
  event "CHANNEL_REFILL" (if s.refillDue cell chan then some (
    let r := s.rcopy cell chan
    let d := r.desc
    let n := Nat.min d.trLen (d.cap - d.ringLen)
    let home := Endp.home ((s.partAt cell).blockAt d.headBlk d.headIdx / 2 ^ 32)
    let (l, blocks, d', s) := refillReads cell n (d.wcount - d.trLen) d s
    let s := s.setRcopy cell chan (some { r with desc := d', landing := n, missing := l.map (·.1) })
    s.post { vn := .response, src := home, dst := .cell cell, body := .tailRead (some chan) l blocks [] }) else none)

/-- Elements written into their slots. -/
def landElems (cell : Nat) (d : Desc) : List (Nat × W64) → State → State
  | [], s => s
  | (sq, x) :: l, s =>
    let s := s.settleFor cell (d.slot sq) 8
    landElems cell d l { s with mem := writeLE s.mem (cellKey cell (d.slot sq)) 8 x.toNat }

/-- TAILRACE_READ_LANDED: what a refill has read lands in its ring slots or in the inbox buffer (R333, R340). -/
def execTailraceReadLanded (i : Nat) (s : State) : Out :=
  arrived "TAILRACE_READ_LANDED" i s fun m s =>
    match m.dst, m.body with
    | .cell n, .tailRead (some id) l blocks _ =>
      let r := s.rcopy n id
      let s := landElems n r.desc l s
      let s := s.setRcopy n id (some { r with landing := 0, missing := [] })
      some ((s.freeBlocks (s.partNo n) blocks).syncR n id)
    | .cell n, .tailRead none _ _ l => some (s.landInbox n l)
    | _, _ => none

/-- CLOSE_MARK_ARRIVAL: the reader's engine records the close and acknowledges the mark (R196, R335). -/
def execCloseMarkArrival (i : Nat) (s : State) : Out :=
  arrived "CLOSE_MARK_ARRIVAL" i s fun m s =>
    match m.dst, m.body with
    | .cell n, .closeMark id closeAt who n' =>
      let r := s.rcopy n id
      let s := (s.setRcopy n id (some { r with desc := { r.desc with state := 2, closeAt := closeAt.toNat } })).syncR n id
      some (s.ackSend (.cell n) who n')
    | _, _ => none

/-- Credits added to a writer copy; with no copy they are dropped (R336, R337). -/
def State.addCredits (s : State) (cell id n quota : Nat) : State :=
  let c := s.cell cell
  let s := s.setCell cell { c with issuedSince := true }
  match tget none c.wcopies id with
  | none => s
  | some w => s.setWcopy cell id (some { w with
      credits := w.credits + n, desc := { w.desc with quotaM1 := w.desc.quotaM1 + quota } })

/-- ROOM_NOTIFICATION: credits from pops, from the Sluice, or from a class-4 message (R336, R346). -/
def execRoomNotification (i : Nat) (s : State) : Out :=
  arrived "ROOM_NOTIFICATION" i s fun m s =>
    match m.dst, m.body with
    | .cell n, .room id k => some (s.addCredits n id k 0)
    | .cell n, .growth id k => some (s.addCredits n id k k)
    | .cell n, .parcel (.msg p) =>
      if p.cls == 4 then some
        ((s.setCell n ((s.cell n).popped m.src (.msg p))).addCredits n (p.payload.extractLsb' 48 16).toNat (p.payload.extractLsb' 0 32).toNat 0) else none
    | _, _ => none

/-! ### Pool roots -/

/-- The pool lane of a die. -/
def State.lane (s : State) (die lane : Nat) : PoolLane := tget {} (s.die die).lanes lane
/-- The state with a pool lane replaced. -/
def State.setLane (s : State) (die lane : Nat) (l : PoolLane) : State :=
  s.setDie die { s.die die with lanes := tset (s.die die).lanes lane l }

/-- A message put behind those of a lane's ring, in the next 128-byte entry of its circular array in HBM (R317). -/
def State.ringPut (s : State) (die lane : Nat) (p : Parcel) : State :=
  let l := s.lane die lane
  let s := s.hbmBytes (l.ringPa + 128 * ((l.first + l.ring.length) % l.capacity)) p.image
  s.setLane die lane { l with ring := l.ring ++ [p] }

/-- The n oldest messages of a ring gone. -/
def PoolLane.dropRing (l : PoolLane) (n : Nat) : PoolLane :=
  { l with ring := l.ring.drop n, first := (l.first + Nat.min n l.ring.length) % l.capacity }

/-- A message appended: to the ring when the tailrace is empty and the ring has room, else to the tailrace, with its block (R338, R343). -/
def State.laneAppend (s : State) (die lane : Nat) (p : Parcel) : State :=
  let l := s.lane die lane
  if l.tail.isEmpty && l.ring.length < l.capacity then s.ringPut die lane p
  else
    let (ch, s) := s.chainPut (l.part.getD 0) l.chain l.tail.length (blocksFor l.quota l.capacity 32) p.image
    s.setLane die lane { l with tail := l.tail ++ [p], chain := ch }

/-- Strands handed down the tree to a cell. -/
def State.hand (s : State) (die cell : Nat) (l : List Parcel) : State :=
  l.foldl (fun s p => s.post { vn := .strand, src := .poolRoot die, dst := .cell cell, body := .parcel p }) s

/-- Parked requests served in order from the ring (R318). -/
def servePark (die lane : Nat) : List (Nat × Nat) → State → State
  | [], s => s
  | (cell, want) :: rest, s =>
    let l := s.lane die lane
    let n := Nat.min want l.ring.length
    if n == 0 then s
    else
      let s := s.setLane die lane { l.dropRing n with
        parked := if n == want then l.parked.drop 1 else (cell, want - n) :: l.parked.drop 1 }
      servePark die lane rest (s.hand die cell (l.ring.take n))

/-- The parked requests of a lane served. -/
def State.serve (s : State) (die lane : Nat) : State := servePark die lane (s.lane die lane).parked s

/-- POOL_APPEND: the root appends a message to its lane, and serves what is parked (R317, R318, R343). A lane that is bound as a
Reel gateway forwards a message over its link instead (R207). -/
def execPoolAppend (i : Nat) (s : State) : Out :=
  arrived "POOL_APPEND" i s fun m s =>
    match m.dst, m.body with
    | .poolRoot d, .parcel p =>
      let k := plLane p.dest
      let l := s.lane d k
      match l.gateway, p with
      | some (dev, place), .msg q =>
        let port := Config.reelRoute dev.toNat % 18
        let r := s.reel port
        let fwd : Smsg := { q with dest := place.extractLsb' 0 28 }
        if r.lanes != 0 then some
          (s.post { vn := .system, src := .poolRoot d, dst := .peer dev.toNat, body := .parcel (.msg fwd) }) else none
      | _, _ => if l.ring.length + l.tail.length < l.quota then some ((s.laneAppend d k p).serve d k) else none
    | _, _ => none

/-- POOL_POP_REQUEST: the root grants what the ring holds, and parks the rest (R318). -/
def execPoolPopRequest (i : Nat) (s : State) : Out :=
  arrived "POOL_POP_REQUEST" i s fun m s =>
    match m.dst, m.body with
    | .poolRoot d, .popReq k cell want =>
      let l := s.lane d k
      some ((s.setLane d k { l with parked := l.parked ++ [(cell, want)] }).serve d k)
    | _, _ => none

/-- POOL_RING_REFILL: a ring below half its capacity is refilled from its tailrace (R343). -/
def execPoolRingRefill (die lane : Nat) (s : State) : Out :=
  let l := s.lane die lane
  event "POOL_RING_REFILL" (if 2 * l.ring.length < l.capacity && !l.tail.isEmpty then some (
    let n := Nat.min (l.capacity - l.ring.length) l.tail.length
    let (ch, s) := s.chainTake (l.part.getD 0) l.chain n
    let s := (l.tail.take n).foldl (fun s p => s.ringPut die lane p) s
    (s.setLane die lane { s.lane die lane with tail := l.tail.drop n, chain := ch }).serve die lane) else none)

/-- The replica cells that send a pop request now, with the number of strands they ask for (R318). -/
def State.popWants (s : State) (die lane : Nat) : List (Nat × Nat) :=
  (s.lane die lane).cells.filterMap fun n =>
    let c := s.cell n
    let b := ((c.bin? (s.lane die lane).entry).map (·.msgs.length)).getD 0
    if c.up && !c.halted && !s.barred n (.poolRoot die) && !c.freeCtxs.isEmpty && b < 32 && tget 0 c.popOpen (laneKey die lane) == 0 then some (n, 32 - b) else none

/-- The pop requests of a lane sent. -/
def State.askPool (s : State) (die lane : Nat) : State :=
  (s.popWants die lane).foldl (fun s y =>
    let c := s.cell y.1
    (s.setCell y.1 { c with popOpen := tset c.popOpen (laneKey die lane) y.2 }).post
      { vn := .system, src := .cell y.1, dst := .poolRoot die, body := .popReq lane y.1 y.2 }) s

/-! ### The Sluice -/

/-- A node of the wait-for graph (R345). -/
inductive SNode where
  | cell (n : Nat)
  | chan (id : Nat)
  | inbox (n : Nat)
  | lane (k : Nat)
  deriving DecidableEq, Repr

/-- An edge of the wait-for graph. -/
structure SEdge where
  src : SNode
  dst : SNode
  full : Bool := false
  deriving DecidableEq, Repr

/-- Whether no context of a cell is free and none is ready in the sense of R44 (R344). -/
def State.cellStuck (s : State) (n : Nat) : Bool := (s.cell n).freeCtxs.isEmpty && !(whos n).any s.unblocked
/-- Whether a cell is a waiting cell at a sample (R344). -/
def State.waiting (s : State) (n : Nat) : Bool := s.cellStuck n && (s.cell n).sluiceIdle && !(s.cell n).issuedSince

/-- The edge from a cell to the buffer that a place names (R345). -/
def placeEdge (p : Part) (n : Nat) (place : W64) : SEdge :=
  if plPool place then ⟨.cell n, .lane (laneKey (p.dies.getD (plDie place) 0) (plLane place)), true⟩
  else ⟨.cell n, .inbox (p.dev (plCell place)), true⟩

/-- The place into which a FORK cannot send its next child for want of room (R204, R341, R343). -/
def State.forkPressed (s : State) (w : Who) : Option W64 :=
  let x := s.ctx w
  match x.wait, x.fork with
  | some .forkInject, some f => match f.children with
    | [] => none
    | c :: _ =>
      let place := c.dest.setWidth 64
      if s.roomFor (s.partNo w.cell) place (.strand c) then none else some place
  | _, _ => none

/-- The edges of what the instruction of a blocked context waits for (R345). A read that its channel cannot serve is one of an empty channel, also
where the tailrace holds elements that no refill can bring (R377). -/
def State.waitEdges (s : State) (p : Part) (w : Who) : Wait → List SEdge
  | .credits id _ => [⟨.cell w.cell, .chan id, true⟩]
  | .chan q => match tget none (s.ctx w).r.binds q with
    | some ⟨id, true⟩ =>
      let d := (s.rcopy w.cell id).desc
      if d.state == 1 then [⟨.cell w.cell, .cell (p.dev d.writer), false⟩] else []
    | _ => []
  | .barrier b _ =>
    let span := ((s.cell w.cell).bar b).span
    if span == 0 then [⟨.cell w.cell, .cell w.cell, false⟩]
    else
      let m := spanMaster w.cell span
      ((spanMembers w.cell span).filter fun k => !((s.cell m).bar b).counted.contains k).map fun k => ⟨.cell w.cell, .cell k, false⟩
  | .join wire =>
    match findIdx (fun j : Join => j.present && j.act == (s.ctx w).act) ((s.cell w.cell).joins wire) with
    | none => []
    | some (k, _) =>
      ((wireCells wire).filter fun n => !((((s.cell n).joins wire)[k]?).any (·.present))).map fun n => ⟨.cell w.cell, .cell n, false⟩
  | _ => []

/-- The edges of one blocked context: of the commit, or the FORK, whose next send cannot enter, and of its instruction (R345). -/
def State.ctxEdges (s : State) (p : Part) (w : Who) : List SEdge :=
  let x := s.ctx w
  if x.status != .running then []
  else ((s.backPressed w).toList ++ (s.forkPressed w).toList).map (placeEdge p w.cell) ++
    match x.wait with
    | some k => if s.waitOver w k then [] else s.waitEdges p w k
    | none => []

/-- The edges of one waiting cell: its contexts', and its engine's where a handle waits for credit (R345, R351). -/
def State.cellEdges (s : State) (p : Part) (n : Nat) : List SEdge :=
  ((whos n).flatMap (s.ctxEdges p)) ++
  (s.cell n).xfers.filterMap fun y => match y.2.chan? with
    | some id => if y.2.busy && y.2.state == 3 && (s.wcopy n id).credits == 0 then some ⟨.cell n, .chan id, true⟩ else none
    | none => none

/-- The edges from a buffer to the cells that drain it (R345). -/
def State.drains (s : State) (p : Part) : SNode → List SEdge
  | .chan id => [⟨.chan id, .cell (p.dev (s.chanDesc p id).reader), false⟩]
  | .inbox n => [⟨.inbox n, .cell n, false⟩]
  | .lane k => (s.lane (k / 256) (k % 256)).cells.map fun n => ⟨.lane k, .cell n, false⟩
  | .cell _ => []

/-- The wait-for graph of a partition: edges into cells that are not waiting cells are left out. -/
def State.waitGraph (s : State) (p : Part) : List SEdge :=
  let cells := p.cells.filter s.waiting
  let l := cells.flatMap (s.cellEdges p)
  let bufs := (l.filter (·.full)).map (·.dst)
  let all := l ++ bufs.eraseDups.flatMap (s.drains p)
  all.filter fun e => match e.dst with
    | .cell n => cells.contains n
    | _ => true

/-- What can be reached from a set of nodes in n rounds. -/
def reachN (l : List SEdge) : Nat → List SNode → List SNode
  | 0, r => r
  | n + 1, r => reachN l n ((r ++ (l.filter fun e => r.contains e.src).map (·.dst)).eraseDups)
/-- What can be reached from a node by at least one edge. -/
def reach (l : List SEdge) (a : SNode) : List SNode := reachN l l.length ((l.filter fun e => e.src == a).map (·.dst))

/-- The strongly connected component of a node that lies on a cycle. -/
def component (l : List SEdge) (a : SNode) : List SNode :=
  let nodes := (l.flatMap fun e => [e.src, e.dst]).eraseDups
  nodes.filter fun b => (reach l a).contains b && (reach l b).contains a

/-- The quota of a buffer and the limit of R346. -/
def State.bufQuota (s : State) (p : Part) : SNode → Nat × Nat
  | .chan id => ((s.rcopy (p.dev (s.chanDesc p id).reader) id).desc.quota, 2 ^ 32)
  | .inbox n => ((s.cell n).tailQuota, 2 ^ 20)
  | .lane k => ((s.lane (k / 256) (k % 256)).quota, 2 ^ 21)
  | .cell _ => (0, 0)

/-- The place of a buffer in the order of R346: quota, kind, number. Lanes of two dies with one number follow the dies, for which the
rule names no order (DESIGN CHOICE, log entry 36). -/
def State.bufKey (s : State) (p : Part) (b : SNode) : Nat × Nat × Nat :=
  let q := (s.bufQuota p b).1
  match b with
  | .chan id => (q, 0, id)
  | .inbox n => (q, 1, p.rel n)
  | .lane k => (q, 2, k % 256 * 4 + k / 256)
  | .cell n => (q, 3, n)

/-- Lexicographic order of triples. -/
def lexLt (a b : Nat × Nat × Nat) : Bool :=
  a.1 < b.1 || (a.1 == b.1 && (a.2.1 < b.2.1 || (a.2.1 == b.2.1 && a.2.2 < b.2.2)))

/-- The buffer of a list that comes first and is below its limit. -/
def State.firstBuf (s : State) (p : Part) : List SNode → Option SNode
  | [] => none
  | b :: bs =>
    let rest := s.firstBuf p bs
    if (s.bufQuota p b).2 ≤ (s.bufQuota p b).1 then rest
    else match rest with
    | none => some b
    | some b' => if lexLt (s.bufKey p b') (s.bufKey p b) then some b' else some b

/-- The blocks of a buffer for a quota (R339). -/
def State.bufBlocks (s : State) (p : Part) (b : SNode) (q : Nat) : Nat :=
  match b with
  | .chan id => blocksFor q (s.chanDesc p id).cap 512
  | .inbox _ => blocksFor q 0 32
  | .lane k => blocksFor q (s.lane (k / 256) (k % 256)).capacity 32
  | .cell _ => 0

/-- The blocks of a partition's pool that no reservation holds (R338). -/
def Part.freeCount (p : Part) : Nat := p.poolB - p.reservedBlocks

/-- A buffer grown to a quota (R346). -/
def State.growBuf (s : State) (pn : Nat) (b : SNode) (q' : Nat) : State :=
  let p := s.part pn
  match b with
  | .chan id =>
    let d := s.chanDesc p id
    let rd := p.dev d.reader
    let grow := fun (d : Desc) => { d with quotaM1 := q' - 1, resBlk := blocksFor q' d.cap 512
                                           grown := if d.grown < 0xFFFF then d.grown + 1 else d.grown }
    let r := s.rcopy rd id
    let n := q' - r.desc.quota
    let s := (s.chanWord p id 1 ((grow d).words.getD 1 0)).chanWord p id 6 ((grow d).words.getD 6 0)
    let s := if (tget none (s.cell rd).rcopies id).isSome then s.setRcopy rd id (some { r with desc := grow r.desc }) else s
    s.post { vn := .system, src := .root, dst := .cell (p.dev d.writer), body := .growth id n }
  | .inbox n => s.setCell n { s.cell n with tailQuota := q' }
  | .lane k => s.setLane (k / 256) (k % 256) { s.lane (k / 256) (k % 256) with quota := q' }
  | .cell _ => s

/-- The number under which a buffer is remembered as reported. -/
def SNode.code : SNode → Nat
  | .chan id => 4 * id
  | .inbox n => 4 * n + 1
  | .lane k => 4 * k + 2
  | .cell n => 4 * n + 3

/-- The record of a pool that cannot cover a growth (R347). -/
def State.growRecord (s : State) (pn : Nat) (b : SNode) : State :=
  let p := s.part pn
  let (cause, cell, addr) : BitVec 7 × Option Nat × W64 := match b with
    | .chan id => (causeChannelQuota, some (p.dev (s.chanDesc p id).reader), BitVec.ofNat 64 id)
    | .inbox n => (causeInboxQuota, some n, Config.noTrapAddr s.turn)
    | .lane k => (causeInboxQuota, none, BitVec.ofNat 64 (2 ^ 63 + k % 256))
    | .cell _ => (causeInboxQuota, none, 0)
  let s := s.setPart pn { p with reported := p.reported ++ [b.code] }
  s.report pn .root { s.recAt pn cell cause 3 with addr }

/-- Whether the Sluice leaves a component alone: a cell of it, or a cell that drains a buffer of it, is out or halted (R348). -/
def State.compStill (s : State) (p : Part) (comp : List SNode) : Bool :=
  let cells := comp.flatMap fun b => match b with
    | .cell n => [n]
    | b => (s.drains p b).filterMap fun e => match e.dst with
      | .cell n => some n
      | _ => none
  cells.any fun n => (s.cell n).out || (s.cell n).halted

/-- The one growth of a component (R346, R347). -/
def State.growComp (s : State) (pn : Nat) (l : List SEdge) (comp : List SNode) : State :=
  let p := s.part pn
  let bufs := ((l.filter fun e => e.full && comp.contains e.src && comp.contains e.dst).map (·.dst)).eraseDups
  if s.compStill p comp then s
  else match s.firstBuf p bufs with
  | none => s
  | some b =>
    let (q, limit) := s.bufQuota p b
    let q' := Nat.min (2 * q) limit
    let charge := s.bufBlocks p b q' - s.bufBlocks p b q
    if charge ≤ p.freeCount then (s.setPart pn { p with reservedBlocks := p.reservedBlocks + charge }).growBuf pn b q'
    else if p.reported.contains b.code then s
    else s.growRecord pn b

/-- The components that hold a full-buffer edge, each once. -/
def fullComps (l : List SEdge) : List (List SNode) :=
  ((l.filter (·.full)).filterMap fun e =>
    if (reach l e.dst).contains e.src then some (component l e.dst) else none).eraseDups

/-- SLUICE_SAMPLE: at every multiple of 20,000 ns one buffer of each component grows (R344, R346). -/
def execSluiceSample (part : Nat) (s : State) : Out :=
  let p := s.part part
  event "SLUICE_SAMPLE" (if p.open_ && p.nextSluice ≤ s.tbc then some (
    let l := s.waitGraph p
    let s := s.setPart part { p with nextSluice := (s.tbc / 20000 + 1) * 20000 }
    let s' := (fullComps l).foldl (fun s comp => s.growComp part l comp) s
    p.cells.foldl (fun s' n =>
      s'.setCell n { s'.cell n with sluiceIdle := s.cellStuck n, issuedSince := false }) s') else none)

end Sys2Proof.Machine
end

