-- ==== Sys2Proof/Machine/Dispatching.lean ====
section
/-! DEFINITION. Slot tables and dispatch (R306 to R309, R313 to R316). -/

namespace Sys2Proof.Machine

/-! ### Bind records -/

/-- A doubleword of a bind record (R306). -/
def brWord (b : BindRec) (k : Nat) : W64 := b.getD k 0
def brPlace (b : BindRec) : W64 := brWord b 0
def brCount (b : BindRec) : Nat := ((brWord b 2).extractLsb' 32 32).toNat
def brJob (b : BindRec) : W32 := (brWord b 2).extractLsb' 0 32
def brGroup (b : BindRec) : Nat := ((brWord b 3).extractLsb' 56 5).toNat + 1
def brPart (b : BindRec) : Nat := ((brWord b 3).extractLsb' 50 6).toNat
def brPrio (b : BindRec) : Nat := ((brWord b 3).extractLsb' 46 2).toNat
def brPinned (b : BindRec) : Bool := (brWord b 3).getLsbD 45
def brCores (b : BindRec) : Bool := (brWord b 3).getLsbD 44
def brWidw (b : BindRec) : BitVec 42 := (brWord b 3).extractLsb' 0 42
def brStep (b : BindRec) : W32 := (brWord b 6).extractLsb' 32 32
def brHandler (b : BindRec) : W64 := ((brWord b 6).extractLsb' 0 28).setWidth 64
def brLine (b : BindRec) : Nat := (brWord b 7).toNat

/-- The groups of a co-resident launch (R313). -/
def brGroups (b : BindRec) : Nat := (brCount b + brGroup b - 1) / brGroup b

/-- A slot of a die. -/
def Die.slot (d : Die) (k : Nat) : Slot := tget {} d.slots k
/-- The state with a slot replaced. -/
def State.setSlot (s : State) (die k : Nat) (x : Slot) : State :=
  s.setDie die { s.die die with slots := tset (s.die die).slots k x }

/-- The target cells of a launch: its cell, or the replicas of its lane in ascending partition-relative number (R314). -/
def State.targets (s : State) (p : Part) (place : W64) : List Nat :=
  if plPool place then
    let l := s.laneAt p (plDie place) (plLane place)
    p.cells.filter fun n => l.cells.contains n
  else [p.dev (plCell place)]

/-- The first check of R307 that fails, of the reasons 1 to 6. -/
def State.bindBad (s : State) (pn : Nat) (b : BindRec) : Option Nat :=
  let p := s.part pn
  let b3 := brWord b 3
  let h := brHandler b
  if b3.extractLsb' 61 3 != 0 || b3.extractLsb' 48 2 != 0 || b3.extractLsb' 42 2 != 0 ||
     (brWord b 6).extractLsb' 28 4 != 0 || brPart b != pn then some 1
  else if brCount b == 0 || 64 < ((List.range 6).map fun k => widwAt (brWidw b) k).sum ||
     (List.range 6).any (fun k => 64 < widwAt (brWidw b) k) then some 2
  else if (checkPlace s pn (brPlace b) false).isSome then some 3
  else if brLine b != p.jobLine ((brJob b).toNat % 4096) then some 4
  else if brStep b != 0 && (plPool h || p.cellCount ≤ plCell h || !(s.cell (p.dev (plCell h))).hasHandler 0 ||
     (s.cell (p.dev (plCell h))).handler 0 &&& 0xFFFFFFF != h) then some 5
  else if brStep b == 0 && (brWord b 4 != 0 || brWord b 5 != 0 || h != 0) then some 5
  else if brGroup b != 1 && !brCores b then some 6
  else none

/-- A record rejected: the slot is free, its reservations are released, and the fault server learns the reason (R307, R315). The
executor, which learns it too, faults the node. -/
def State.rejectSlot (s : State) (die k reason : Nat) : State :=
  let x := (s.die die).slot k
  let s := s.setSlot die k {}
  let s := x.grants.foldl (fun s y =>
    s.post { vn := .system, src := .dispatch die, dst := .cell y.1, body := .release (die, k) (brJob x.bindRec) }) s
  let job := brJob x.bindRec
  let p := s.part x.part
  let s := s.setPart x.part { p with killed := p.killed ++ [job] }
  let s := s.post { vn := .system, src := .dispatch die, dst := .dmc p.die0
                    body := .jobDone job (p.jobLine (job.toNat % 4096)) (BitVec.ofNat 64 s.tbc) }
  s.reportLimited x.part (.dispatch die)
    { s.recAt x.part none causeSlotReject 2 with addr := BitVec.ofNat 64 reason, msgid := job, job }

/-- The addition of a slot's strands to its job's count (R308). -/
def State.countSlot (s : State) (die k : Nat) : State :=
  let x := (s.die die).slot k
  let b := x.bindRec
  let s := s.setSlot die k { x with state := .counting }
  s.post { vn := .request, src := .dispatch die, dst := .home (brLine b / 2 ^ 32)
           body := .countAdd (brJob b) (brCount b) none false (some (die, k)) (brLine b) }

/-- The strands that remain after the groups that have been granted. -/
def Slot.left (x : Slot) : Nat := brCount x.bindRec - brGroup x.bindRec * (x.grants.map (·.2)).sum

/-- The next cell asked to reserve contexts, or the end of the check: enough, or too few (R315). -/
def State.askNext (s : State) (die k : Nat) : State :=
  let x := (s.die die).slot k
  if x.left == 0 then s.countSlot die k
  else match x.toAsk with
  | [] => s.rejectSlot die k 7
  | n :: rest =>
    (s.setSlot die k { x with state := .reserving, toAsk := rest }).post
      { vn := .system, src := .dispatch die, dst := .cell n
        body := .reserve (die, k) (plEntry (brPlace x.bindRec)) x.left (brGroup x.bindRec) (brJob x.bindRec) }

/-- SLOT_ARM: the dispatch unit checks an armed record (R307). -/
def execSlotArm (die slot : Nat) (s : State) : Out :=
  let x := (s.die die).slot slot
  event "SLOT_ARM" (if x.state == .armed && (s.part x.part).active then some (
    match s.bindBad x.part x.bindRec with
    | some r => s.rejectSlot die slot r
    | none =>
      if brCores x.bindRec then
        (s.setSlot die slot { x with toAsk := s.targets (s.part x.part) (brPlace x.bindRec) }).askNext die slot
      else s.countSlot die slot) else none)

/-! ### Reservations (R315) -/

/-- A cell's grant for a launch: none when it already holds a reservation for the entry or has been asked to stop; else a context
for each group, as far as it has free ones. One is kept for a displaced activation (R320). -/
def Cell.grant (c : Cell) (entry : PC) (groups : Nat) : Nat :=
  if c.out || c.preempting || c.reservs.any (fun r => r.entry == entry) then 0 else Nat.min groups (c.freeCtxs.length - if c.displaced.isSome then 1 else 0)

/-- Contexts of a cell reserved. -/
def Cell.reserveCtxs (c : Cell) (n : Nat) : Cell :=
  (c.freeCtxs.take n).foldl (fun (c : Cell) k => c.setCtx k { c.ctx k with status := .reserved }) c
/-- Reserved contexts of a cell freed. -/
def Cell.unreserve (c : Cell) (n : Nat) : Cell :=
  ((ctxNums.filter fun k => (c.ctx k).status == .reserved).take n).foldl
    (fun (c : Cell) k => c.setCtx k { c.ctx k with status := .free }) c

/-- RESERVE_CONTEXTS: a cell answers a request for contexts, the dispatch unit takes the answer, or a cell lets the reservation of a launch
go, which its slot and its job name (R315). -/
def execReserveContexts (i : Nat) (s : State) : Out :=
  arrived "RESERVE_CONTEXTS" i s fun m s =>
    match m.dst, m.body with
    | .cell n, .reserve slot entry strands size job =>
      let c := s.cell n
      let g := c.grant entry ((strands + size - 1) / size)
      let r : Reserv := { slot, entry, groups := g, size, strands := Nat.min strands (g * size), job }
      let c' := if g == 0 then c else { c.reserveCtxs g with reservs := c.reservs ++ [r] }
      some ((s.setCell n c').post { vn := .system, src := .cell n, dst := m.src, body := .reserveAns slot n g })
    | .dispatch d, .reserveAns slot n g =>
      let x := (s.die d).slot slot.2
      let grants := if g == 0 then x.grants else x.grants ++ [(n, g)]
      some ((s.setSlot d slot.2 { x with grants }).askNext d slot.2)
    | .cell n, .release slot job =>
      let c := s.cell n
      let own := fun (r : Reserv) => r.slot == slot && r.job == job
      match c.reservs.find? own with
      | none => some s
      | some r => some (s.setCell n { c.unreserve r.groups with reservs := c.reservs.filter fun y => !own y })
    | _, _ => none

/-! ### Injection (R308, R309) -/

/-- A slot whose addition is acknowledged: rejected with reason 4, or its step is registered and its strands may leave (R308). -/
def State.slotCounted (s : State) (die k : Nat) (bad : Bool) : State :=
  if bad then s.rejectSlot die k 4
  else
    let x := (s.die die).slot k
    let b := x.bindRec
    let s := s.setSlot die k { x with state := .injecting }
    if brStep b == 0 then s
    else s.post { vn := .system, src := .dispatch die, dst := .governor x.part
                  body := .stepReg (brStep b) (BitVec.ofNat 64 s.tbc + brWord b 4) (brWord b 5)
                    ((brHandler b).extractLsb' 0 28) (brJob b) }

/-- FORK_ACK: an acknowledgement of an increment reaches the cell or the dispatch unit that asked for it (R204, R308, R375). -/
def execForkAck (i : Nat) (s : State) : Out :=
  arrived "FORK_ACK" i s fun m s =>
    match m.dst, m.body with
    | .cell _, .countAck job n (some w) true _ bad =>
      match (s.ctx w).fork with
      | some f =>
        let f := f.ack job n bad
        some (if f.awaited == 0 then s.forkCounted w f else s.setCtx w { s.ctx w with fork := some f })
      | none => some s
    | .cell _, .countAck job _ (some w) false _ bad => some (s.incrementAcked w job bad)
    | .dispatch _, .countAck _ _ _ _ (some slot) bad => some (s.slotCounted slot.1 slot.2 bad.isSome)
    | _, _ => none

/-- The cell of strand i of a co-resident launch: groups go to the granted cells in order (R316). -/
def groupCell (g : Nat) : List (Nat × Nat) → Option Nat
  | [] => none
  | (n, k) :: rest => if g < k then some n else groupCell (g - k) rest

/-- The endpoint of strand i of a slot. -/
def State.strandTo (s : State) (x : Slot) (i : Nat) : Endp :=
  let b := x.bindRec
  if brCores b then .cell ((groupCell (i / brGroup b) x.grants).getD 0) else (s.part x.part).endpOf (brPlace b)

/-- Strand i of a slot (R309). -/
def Slot.strand (x : Slot) (i : Nat) : Strand :=
  let b := x.bindRec
  { wid := brWord b 1 + BitVec.ofNat 64 i, dest := (brPlace b).extractLsb' 0 28, step := brStep b, job := brJob b, origin := 0xFFF
    part := BitVec.ofNat 6 x.part, widw := brWidw b }

/-- The cluster whose station takes a strand: the target cell's, or the one whose die stop carries the root of the die's pool (R22,
R309). -/
def stationOf : Endp → Nat
  | .cell n => n / 16
  | .poolRoot d => 48 * d + 28
  | _ => 0

/-- Whether a parcel may leave for an endpoint now (R341, R343). -/
def State.roomAt (s : State) (dst : Endp) (p : Parcel) : Bool :=
  match dst with
  | .cell n => (s.cell n).canAccept p
  | .poolRoot d =>
    let l := s.lane d (plLane p.dest)
    l.ring.length + l.tail.length < l.quota
  | _ => true

/-- The next strand of a slot, with the endpoint, when it can leave now. -/
def State.slotNext (s : State) (x : Slot) : Option (Endp × Strand) :=
  if x.state != .injecting || brCount x.bindRec ≤ x.next || !(s.part x.part).active then none
  else
    let dst := s.strandTo x x.next
    let m := x.strand x.next
    if (s.cluster (stationOf dst)).station.length < 64 && s.roomAt dst (.strand m) then some (dst, m) else none

/-- One strand of a slot handed to its station; with the last one the slot is free (R308). -/
def State.releaseOne (s : State) (die k : Nat) (dst : Endp) (m : Strand) : State :=
  let x := (s.die die).slot k
  let c := s.cluster (stationOf dst)
  let s := s.setCluster (stationOf dst) { c with station := c.station ++ [(dst, m)] }
  s.setSlot die k (if x.next + 1 == brCount x.bindRec then {} else { x with next := x.next + 1 })

/-- Strands of one slot released while they can leave, at most n; what is left of n. -/
def releaseSlot (die k : Nat) : Nat → State → Nat × State
  | 0, s => (0, s)
  | n + 1, s =>
    match s.slotNext ((s.die die).slot k) with
    | none => (n + 1, s)
    | some (dst, m) => releaseSlot die k n (s.releaseOne die k dst m)

/-- Strands released from slots in turn, at most n. -/
def releaseSlots (die : Nat) : List Nat → Nat → State → State
  | [], _, s => s
  | k :: ks, n, s =>
    let (n, s) := releaseSlot die k n s
    releaseSlots die ks n s

/-- A slot put into the order of service: descending priority, then ascending age (R309). -/
def insertSlot (k : Nat) (x : Slot) : List (Nat × Slot) → List (Nat × Slot)
  | [] => [(k, x)]
  | (j, y) :: rest =>
    if brPrio y.bindRec < brPrio x.bindRec || (brPrio y.bindRec == brPrio x.bindRec && x.age.toNat < y.age.toNat)
    then (k, x) :: (j, y) :: rest else (j, y) :: insertSlot k x rest

/-- The slots of a die in the order of service. -/
def Die.served (d : Die) : List (Nat × Slot) := d.slots.foldr (fun y l => insertSlot y.1 y.2 l) []

/-- DISPATCH_RELEASE: up to 32 strands of a die go to the stations (R309). -/
def execDispatchRelease (die : Nat) (s : State) : Out :=
  let l := (s.die die).served
  event "DISPATCH_RELEASE" (if l.any fun y => (s.slotNext y.2).isSome then some (releaseSlots die (l.map (·.1)) 32 s) else none)

/-- STATION_INJECT: a station injects its oldest strand (R309). -/
def execStationInject (cluster : Nat) (s : State) : Out :=
  let c := s.cluster cluster
  event "STATION_INJECT" (
    match c.station with
    | [] => none
    | (dst, m) :: rest =>
      if s.roomAt dst (.strand m) then some
        ((s.setCluster cluster { c with station := rest }).post
          { vn := .strand, src := .station cluster, dst, body := .parcel (.strand m) }) else none)

end Sys2Proof.Machine
end

