-- ==== Sys2Proof/Machine/Graphs.lean ====
section
/-! DEFINITION. The graph executor: kicks and patch tables (R300, R301), replays and nodes (R302 to R305), channel resets (R303), and
job numbers and their lines (R310, R312). -/

namespace Sys2Proof.Machine

/-! ### The executor's accesses -/

/-- Where the executor finds a virtual address under an ASID: the home and the memory key. -/
def State.execWhere (s : State) (pn : Nat) (asid : BitVec 12) (kind : AccKind) (va : W64) : Option (Endp × Nat) :=
  if va.extractLsb' 56 8 != 0 || !(s.part pn).asidOk asid then none
  else match (s.walk pn asid va.toNat kind []).1 with
  | .leaf e l =>
    let t := tlbOf asid va.toNat e l
    if (t.denies kind).isSome then none
    else
      let pa := t.pbase + (va.toNat - t.vbase)
      some (if t.peer then (.peer t.peerdev.toNat, peerKey t.peerdev.toNat pa) else (.home (pa / 2 ^ 32), hbmKey pa))
  | _ => none

/-- A walk that left the partition's slabs written into the violation log with AT = 3 (R391). -/
def State.logWalk (s : State) (pn phys kind : Nat) (va : W64) (pa : Nat) : State :=
  s.logViolation { tbc := BitVec.ofNat 64 s.tbc, addr := va, kind, at_ := 3, part := pn, phys
                   target := BitVec.ofNat 32 (pa / 2 ^ 32) }

/-- The state after an access of the executor has failed: its walk is logged if it left the slabs (R391, R398). -/
def State.execFails (s : State) (pn : Nat) (asid : BitVec 12) (kind : AccKind) (va : W64) : State :=
  if va.extractLsb' 56 8 != 0 || !(s.part pn).asidOk asid then s
  else match (s.walk pn asid va.toNat kind []).1 with
  | .outside pa => s.logWalk pn 0xFFF kind.num va pa
  | _ => s

/-- The access that the executor makes as its service would (R392). -/
def execAccess (pn : Nat) (va : W64) (key : Nat) : Access :=
  { op := .read, ea := va, key, part := pn }

/-- A doubleword read by the executor. -/
def State.execRead (s : State) (pn : Nat) (asid : BitVec 12) (va : W64) : Option W64 :=
  match s.execWhere pn asid .read va with
  | none => none
  | some (home, key) =>
    let a := execAccess pn va key
    if (s.homeError home a false).1.isSome then none else some (s.homeValue home a)

/-- A doubleword written by the executor. -/
def State.execWrite (s : State) (pn : Nat) (asid : BitVec 12) (va v : W64) : Option State :=
  match s.execWhere pn asid .write va with
  | none => none
  | some (home, key) =>
    if (s.homeError home (execAccess pn va key) true).1.isSome then none
    else some (((s.homeWrite home key 8 v).noteRel key 8 none).unpoison home key 8)

/-! ### Kicks -/

/-- The kick register of a partition. -/
def Part.kick (p : Part) (r : Nat) : KickReg := tget {} p.kicks r
/-- The state with a kick register replaced. -/
def State.setKick (s : State) (pn r : Nat) (k : KickReg) : State :=
  let p := s.part pn
  s.setPart pn { p with kicks := tset p.kicks r k }

/-- The record of a node fault (R305). -/
def State.nodeRecord (s : State) (pn : Nat) (node : W64) : State :=
  let p := s.part pn
  s.reportLimited pn (.dmc p.die0) { s.recAt pn none causeGraphNodeFault 2 with addr := node }

/-- The graph of a handle. -/
def Part.graph (p : Part) (h : Nat) : Option Graph := tget none p.graphs h

/-- Whether writes of the host to peer pages of a partition are still to be performed: its function takes no KICK or command before they are
(R449). -/
def State.hostWrites (s : State) (pn : Nat) : Bool :=
  let of := fun (a : Access) => a.asker == some .host && a.part == pn && a.op == .write
  s.net.any (fun m => match m.body with
    | .access a => of a
    | _ => false) || s.reels.any fun r => r.2.waiting.any fun l => l.any of

/-- KICK: a write of a kick register queues a replay, discards it or rejects it (R300), once the host's earlier writes through BAR2 are
performed (R449). -/
def execKick (part reg : Nat) (value : W64) (s : State) : Out :=
  let p := s.part part
  let k := p.kick reg
  event "KICK" (if p.open_ && reg < 16 && !s.hostWrites part then some (
    if 4 ≤ k.queue.length then s.setPart part { p with kickOverflow := p.kickOverflow + 1 }
    else if value.extractLsb' 0 3 != 0 || (p.graph (value.extractLsb' 56 8).toNat).isNone then s.nodeRecord part 0xFFFF
    else s.setKick part reg { k with queue := k.queue ++ [(value, k.next)], next := k.next + 1 }) else none)

/-! ### Patch tables (R301) -/

/-- One patch applied to a node and its template; none where the field does not suit the node or the value breaks a rule. -/
def patchNode (n : Node) (t : Template) (field : Nat) (v : W64) : Option (Node × Template) :=
  match n.kind, field with
  | 1, 1 => some (n, { t with widBase := v })
  | 1, 2 => if v == 0 || 2 ^ 32 ≤ v.toNat then none else some (n, { t with count := v.toNat })
  | 1, 3 => some (n, { t with reldl := v })
  | 1, 4 => some (n, { t with work := v })
  | 1, 5 => if 3 < v.toNat then none else some (n, { t with prio := v.toNat })
  | 2, 8 => if v.toNat % 8 != 0 then none else some ({ n with na := v }, t)
  | 3, 8 => if v.toNat % 8 != 0 then none else some ({ n with na := v }, t)
  | 3, 9 => if v == 0 || 2 ^ 32 ≤ v.toNat then none else some ({ n with nc := v }, t)
  | 4, 10 => if v.toNat % 8 != 0 then none else some ({ n with na := v }, t)
  | 4, 11 => if v.toNat % 8 != 0 then none else some ({ n with nb := v }, t)
  | 4, 12 => if v.toNat % 8 != 0 || 2 ^ 32 < v.toNat then none else some ({ n with nc := v }, t)
  | _, _ => none

/-- n entries of a patch table applied from an address on; where one breaks a rule, the node to report, and the address of the read that
failed when one did. -/
def applyPatches (rd : W64 → Option W64) (noNode : W64) :
    Nat → W64 → List Node → List Template → (List Node × List Template) ⊕ (W64 × Option W64)
  | 0, _, ns, ts => .inl (ns, ts)
  | n + 1, va, ns, ts =>
    match rd va, rd (va + 8) with
    | none, _ => .inr (noNode, some va)
    | _, none => .inr (noNode, some (va + 8))
    | some d, some v =>
      let node := (d.extractLsb' 16 16).toNat
      match ns[node]?, ts[node]? with
      | some x, some t =>
        if d.extractLsb' 32 32 != 0 || d.extractLsb' 8 8 != 0 then .inr (BitVec.ofNat 64 node, none)
        else match patchNode x t (d.extractLsb' 0 8).toNat v with
        | some (x, t) => applyPatches rd noNode n (va + 16) (setAt ns node x) (setAt ts node t)
        | none => .inr (BitVec.ofNat 64 node, none)
      | _, _ => .inr (BitVec.ofNat 64 node, none)

/-- The template of a node; a node that is no KERNEL has one that nothing reads. -/
def Graph.templateOf (g : Graph) (n : Node) : Template :=
  g.templates.getD (n.na.toNat % 65536)
    { place := 0, handler := 0, widBase := 0, count := 1, prio := 0, cores := false, pinned := false, group := 1, widw := 0, step := 0
      reldl := 0, work := 0 }

/-- The nodes of a replay and the template of each, after its patch table; or the node to report, with the read that failed. Whether
a patch of a template field (R301) reaches another KERNEL node with the same template the reference does not say. DESIGN CHOICE, log entry 70: it
does not. -/
def State.patched (s : State) (pn : Nat) (g : Graph) (value : W64) : (List Node × List Template) ⊕ (W64 × Option W64) :=
  let ts := g.nodes.map g.templateOf
  let va := value &&& 0x00FFFFFFFFFFFFF8
  let rd := s.execRead pn g.asid
  let noNode := Config.noTrapAddr s.turn
  if va == 0 then .inl (g.nodes, ts)
  else match rd va with
  | none => .inr (noNode, some va)
  | some d => if 1024 < d.toNat then .inr (noNode, none) else applyPatches rd noNode d.toNat (va + 8) g.nodes ts

/-! ### Replays -/

/-- The state of a node in a replay. -/
def Replay.node (r : Replay) (n : Nat) : NodeState := tget .idle r.state n
/-- The replay with a node's state set. -/
def Replay.mark (r : Replay) (n : Nat) (x : NodeState) : Replay := { r with state := tset r.state n x }

/-- The BODY and LAST of a LOOP node (R298). -/
def Node.body (n : Node) : Nat := n.nb.toNat % 65536
def Node.last (n : Node) : Nat := n.nb.toNat / 65536 % 65536

/-- Whether a node is the BODY of a loop. -/
def Replay.isBody (r : Replay) (n : Nat) : Bool := r.nodes.any fun x => x.kind == 3 && x.body == n

/-- A node that may start; one that has yet to start or still runs from before starts once more when that run completes (log entry 60). -/
def Replay.begin_ (r : Replay) (n : Nat) : Replay :=
  if r.node n == .running || r.node n == .waiting then { r with again := r.again ++ [n] } else r.mark n .waiting

/-- A run of a node over; it waits again if it may start again. -/
def Replay.finish (r : Replay) (n : Nat) : Replay :=
  if r.again.contains n then { r.mark n .waiting with again := r.again.erase n } else r.mark n .done

/-- One arrival at a node; it can start when the count reaches NPRED (R302). -/
def Replay.arrive (r : Replay) (n : Nat) : Replay :=
  match r.nodes[n]? with
  | none => r
  | some x =>
    let k := tget 0 r.arrivals n + 1
    let r := { r with arrivals := tset r.arrivals n k }
    if k == x.npred && !r.isBody n then r.begin_ n else r

/-- One arrival added to each successor that a node selects (R302): the first, the second, once where both name one node (log entry
60). -/
def Replay.select (r : Replay) (x : Node) (first second : Bool) : Replay :=
  let r := if first && x.succ0 != 0xFFFF then r.arrive x.succ0 else r
  if second && x.succ1 != 0xFFFF && !(first && x.succ1 == x.succ0) then r.arrive x.succ1 else r

/-- A loop's body started, its nodes' counts at zero (R302); nodes of it that still run go on. -/
def Replay.iterate (r : Replay) (n : Nat) (x : Node) : Replay :=
  let inBody := fun k => x.body ≤ k && k ≤ x.last
  let r := { r with arrivals := r.arrivals.filter (fun y => !inBody y.1), loopsRun := tset r.loopsRun n (tget 0 r.loopsRun n + 1) }
  r.begin_ x.body

/-- A node that faults ends there, and no further node starts (R305). -/
def Replay.fault (r : Replay) (n : Nat) : Replay := { r.mark n .done with faulted := true }

/-- The loops whose LAST is a node and that run. -/
def Replay.loopsOf (r : Replay) (n : Nat) : List (Nat × Node) :=
  (Sys2Proof.Machine.number 0 r.nodes).filter fun y => y.2.kind == 3 && y.2.last == n && r.node y.1 == .running

/-- What follows the completion of a LAST node: each of its loops reads its predicate, and starts its body again, completes with a choice of
successors, or faults (R302). The answer names the loops that fault and those that complete. -/
def lastDone (rd : W64 → Option W64) : List (Nat × Node) → Replay → List Nat × List (Nat × Bool × Bool) × Replay
  | [], r => ([], [], r)
  | (m, y) :: rest, r =>
    match rd y.na with
    | none =>
      let (bad, loops, r) := lastDone rd rest (r.fault m)
      (m :: bad, loops, r)
    | some v =>
      if v != 0 && tget 0 r.loopsRun m < y.nc.toNat % 2 ^ 32 then lastDone rd rest (r.iterate m y)
      else
        let first := v == 0 || y.succ1 == 0xFFFF
        let (bad, loops, r) := lastDone rd rest r
        (bad, (m, first, !first) :: loops, r)

/-- Nodes complete, each with the successors that it selects, and with a LAST node its loops where they do (R302). The list names the loops
that faulted. -/
def complete (rd : W64 → Option W64) : Nat → List (Nat × Bool × Bool) → Replay → List Nat × Replay
  | 0, _, r => ([], r)
  | _, [], r => ([], r)
  | fuel + 1, (n, a, b) :: rest, r =>
    match r.nodes[n]? with
    | none => complete rd fuel rest r
    | some x =>
      let r := (r.finish n).select x a b
      let (bad, loops, r) := lastDone rd (r.loopsOf n) r
      let (bad', r) := complete rd fuel (loops ++ rest) r
      (bad ++ bad', r)

/-- A replay of a kick register put back, with records of the nodes that faulted. -/
def State.setReplay (s : State) (pn reg : Nat) (x : List Nat × Replay) : State :=
  let s := s.setKick pn reg { (s.part pn).kick reg with replay := some x.2 }
  x.1.foldl (fun s n => s.nodeRecord pn (BitVec.ofNat 64 n)) s

/-- A node of a running replay completes. -/
def State.nodeDone (s : State) (pn reg n : Nat) (a b : Bool) (r : Replay) (g : Graph) : State :=
  let x := complete (s.execRead pn g.asid) (r.nodes.length + 1) [(n, a, b)] r
  let s := x.1.foldl (fun s m => s.execFails pn g.asid .read ((r.nodes[m]?).map (·.na) |>.getD 0)) s
  s.setReplay pn reg x

/-- A node of a running replay faults. -/
def State.nodeFault (s : State) (pn reg n : Nat) (r : Replay) : State := s.setReplay pn reg ([n], r.fault n)

/-- REPLAY_START: the next kick of a register begins its replay (R301, R302). -/
def execReplayStart (part reg : Nat) (s : State) : Out :=
  let p := s.part part
  let k := p.kick reg
  event "REPLAY_START" (
    match k.queue, k.replay with
    | (v, num) :: rest, none =>
      match p.graph (v.extractLsb' 56 8).toNat with
      | none => none
      | some g =>
        let h := (v.extractLsb' 56 8).toNat
        if p.active then some (
          match s.patched part g v with
          | .inl (nodes, templates) =>
            let r : Replay := { handle := h, number := num, nodes, templates }
            s.setKick part reg { k with queue := rest, replay := some (r.mark 0 .waiting) }
          | .inr (node, failed) =>
            let s := match failed with
              | some va => s.execFails part g.asid .read va
              | none => s
            let r : Replay := { handle := h, number := num, nodes := [], templates := [], faulted := true, noStart := true }
            (s.setKick part reg { k with queue := rest, replay := some r }).nodeRecord part node) else none
    | _, _ => none)

/-! ### Channel resets (R303) -/

/-- The four channel ids of a KERNEL node that are in use (R298). -/
def Node.chans (n : Node) : List Nat :=
  ((List.range 4).map fun k => (n.nb.extractLsb' (16 * k) 16).toNat).filter (· != 0xFFFF)

/-- The blocks of a tailrace, from its head. -/
def tailBlocks (s : State) (p : Part) : Nat → Nat → List Nat
  | 0, _ => []
  | n + 1, b => b :: tailBlocks s p n (s.poolLink p b)

/-- Whether a channel cannot be reset: it is no channel, an end is bound, or a writer copy is held for pushes (R303). -/
def State.resetBad (s : State) (p : Part) (id : Nat) : Bool :=
  let d := s.chanDesc p id
  d.state == 0 || s.chanBound p d || (s.cell (p.dev d.writer)).pushPending id

/-- Whether a refill of a channel is in flight. -/
def State.landing (s : State) (p : Part) (id : Nat) : Bool :=
  (tget none (s.cell (p.dev (s.chanDesc p id).reader)).rcopies id).any fun r => r.landing != 0

/-- A channel reset: open, empty, its quota as declared (R303, R329). -/
def State.resetChan (s : State) (pn id : Nat) : State :=
  let p := s.part pn
  let d0 := s.chanDesc p id
  let d := (s.rcopy (p.dev d0.reader) id).desc
  let s := s.freeBlocks pn (tailBlocks s p d.blockCount d.headBlk)
  let quotaM1 := tget d0.quotaM1 p.chanQuota id
  let resBlk := blocksFor (quotaM1 + 1) d0.cap 512
  let s := s.setRcopy (p.dev d0.reader) id none
  let s := s.setWcopy (p.dev d0.writer) id none
  let s := s.setChanDesc p { d0 with
    state := 1, quotaM1, wcount := 0, rcount := 0, headBlk := 0, tailBlk := 0, trLen := 0, tailIdx := 0, headIdx := 0, resBlk
    grown := 0, closeAt := 0 }
  let p := s.part pn
  let back := blocksFor (d0.quotaM1 + 1) d0.cap 512 - resBlk
  s.setPart pn { p with reservedBlocks := p.reservedBlocks - back, reported := if back == 0 then p.reported else [] }

/-! ### Starting nodes -/

/-- The lines of the job table that running jobs hold. -/
def Part.linesUsed (p : Part) : List Nat := p.running.map fun y => y.1.toNat % 4096

/-- A job number whose line is free: the one that Thieno picks, or else the lowest (R310). -/
def State.freeJob (s : State) (p : Part) : Option W32 :=
  let j : W32 := BitVec.ofNat 32 (Config.thienoPick s.turn 0)
  if !p.linesUsed.contains (j.toNat % 4096) then some j
  else ((List.range 4096).find? fun k => !p.linesUsed.contains k).map (BitVec.ofNat 32)

/-- The die of a place. -/
def Part.dieOfPlace (p : Part) (place : W64) : Nat :=
  if plPool place then p.dies.getD (plDie place) 0 else dieOf (p.dev (plCell place))

/-- The first free slot of a die's table (R307). -/
def Die.freeSlot (d : Die) : Option Nat := (List.range 256).find? fun k => (d.slot k).state == .free

/-- The bind record of a template for a job (R306). -/
def Template.bind (t : Template) (pn : Nat) (job : W32) (line : Nat) : BindRec :=
  [ t.place, t.widBase, BitVec.ofNat 32 t.count ++ job,
    (0 : BitVec 3) ++ BitVec.ofNat 5 (if t.cores then t.group - 1 else 0) ++ BitVec.ofNat 6 pn ++ (0 : BitVec 2) ++
      BitVec.ofNat 2 t.prio ++ BitVec.ofBool t.pinned ++ BitVec.ofBool t.cores ++ (0 : BitVec 2) ++ t.widw,
    t.reldl, t.work, t.step ++ (t.handler.extractLsb' 0 28).setWidth 32, BitVec.ofNat 64 line ]

/-- Whether a cell's CASID may be changed now: it holds no activation, bin entry or reservation (R395). -/
def Cell.casidFree (c : Cell) : Bool :=
  ctxNums.all (fun k => (c.ctx k).status == .free) && c.bins.isEmpty && c.overflow.isEmpty && c.reservs.isEmpty &&
  c.displaced.isNone

/-- Whether every cell of a graph has its ASID or may take it now (R395). -/
def State.casidsReady (s : State) (g : Graph) : Bool :=
  g.cells.all fun n => (s.cell n).casid == g.asid || (s.cell n).casid == 0xFFF || (s.cell n).casidFree

/-- The ASID written into every cell of a graph. -/
def State.writeCasids (s : State) (g : Graph) : State :=
  g.cells.foldl (fun s n => if (s.cell n).casid == g.asid then s else s.setCell n { s.cell n with casid := g.asid }) s

/-- The cells that a launch pins: those of a PINNED record, or of one whose entry carries `.pin` (R324). -/
def State.pinsOf (s : State) (p : Part) (t : Template) : List Nat :=
  (s.targets p t.place).filter fun n => t.pinned || ((s.cell n).entryRec (plEntry t.place)).pin

/-- A KERNEL node starts: its channels are reset, and its bind record is written and armed (R302). None while it waits. -/
def State.startKernel (s : State) (pn reg n : Nat) (r : Replay) (g : Graph) (x : Node) (t : Template) : Option State :=
  let p := s.part pn
  let die := p.dieOfPlace t.place
  if x.chans.any (s.resetBad p) then some (s.nodeFault pn reg n r)
  else match s.freeJob p, (s.die die).freeSlot with
  | some job, some k =>
    if !s.casidsReady g || x.chans.any (s.landing p) then none
    else
      let s := x.chans.foldl (fun s id => s.resetChan pn id) (s.writeCasids g)
      let line := p.jobLine (job.toNat % 4096)
      let s := s.initLine line job 0
      let d := s.die die
      let s := s.setDie die { d with nextAge := d.nextAge + 1 }
      let s := s.setSlot die k { state := .armed, part := pn, bindRec := t.bind pn job line, age := d.nextAge }
      let p := s.part pn
      let s := s.setPart pn { p with running := p.running ++ [(job, reg, n)], prios := p.prios ++ [(job, t.prio)] }
      let r := { r.mark n .running with pins := r.pins ++ s.pinsOf p t, jobs := tset r.jobs n job }
      some (s.setReplay pn reg ([], r))
  | _, _ => none

/-- One node started (R302). None while it must wait. -/
def State.startNode (s : State) (pn reg n : Nat) (r : Replay) (g : Graph) : Option State :=
  let rd := s.execRead pn g.asid
  match r.nodes[n]?, r.templates[n]? with
  | some x, some t =>
    match x.kind with
    | 1 => s.startKernel pn reg n r g x t
    | 2 => some (match rd x.na with
      | none => (s.execFails pn g.asid .read x.na).nodeFault pn reg n r
      | some v => s.nodeDone pn reg n (v != 0) (v == 0) r g)
    | 3 =>
      let r' : Replay := { r with loopsRun := tset r.loopsRun n 0 }
      some (s.setReplay pn reg ([], (r'.mark n .running).iterate n x))
    | 4 =>
      let r' : Replay := { r with copied := tset r.copied n 0 }
      some (s.setReplay pn reg ([], r'.mark n .running))
    | _ => some (s.nodeDone pn reg n true true r g)
  | _, _ => none

/-- NODE_START: a node whose arrivals have reached NPRED starts (R302). -/
def execNodeStart (part reg node : Nat) (s : State) : Out :=
  let p := s.part part
  event "NODE_START" (
    match (p.kick reg).replay with
    | none => none
    | some r =>
      match p.graph r.handle with
      | none => none
      | some g => if p.active && !r.faulted && r.node node == .waiting then s.startNode part reg node r g else none)

/-- The next word of a COPY node moved; the words are copied in ascending order (log entry 9). -/
def State.copyWord (s : State) (pn reg n : Nat) (r : Replay) (g : Graph) (x : Node) : State :=
  let k := tget 0 r.copied n
  let off := BitVec.ofNat 64 (8 * k)
  match s.execRead pn g.asid (x.na + off) with
  | none => (s.execFails pn g.asid .read (x.na + off)).nodeFault pn reg n r
  | some v => match s.execWrite pn g.asid (x.nb + off) v with
    | none => (s.execFails pn g.asid .write (x.nb + off)).nodeFault pn reg n r
    | some s => s.setReplay pn reg ([], { r with copied := tset r.copied n (k + 1) })

/-- The COPY nodes of a replay that run and have words to move. -/
def Replay.copying (r : Replay) : List (Nat × Node) :=
  (Sys2Proof.Machine.number 0 r.nodes).filter fun y =>
    y.2.kind == 4 && r.node y.1 == .running && 8 * tget 0 r.copied y.1 < y.2.nc.toNat

/-- One word of the first COPY of a kick register moved, when there is one. -/
def State.copyStep (s : State) (pn reg : Nat) : State :=
  match ((s.part pn).kick reg).replay with
  | none => s
  | some r => match (s.part pn).graph r.handle, r.copying with
    | some g, (n, x) :: _ => if (s.part pn).stopped then s else s.copyWord pn reg n r g x
    | _, _ => s

/-- COPY_COMPLETE: every destination word has been performed (R302). -/
def execCopyComplete (part reg node : Nat) (s : State) : Out :=
  let p := s.part part
  event "COPY_COMPLETE" (
    match (p.kick reg).replay with
    | none => none
    | some r =>
      match r.nodes[node]?, p.graph r.handle with
      | some x, some g =>
        if x.kind == 4 && r.node node == .running && x.nc.toNat ≤ 8 * tget 0 r.copied node then some
          (s.nodeDone part reg node true true r g) else none
      | _, _ => none)

/-- The jobs that cells no longer drop once JOB_DONE is there (R422). -/
def State.endDrop (s : State) (p : Part) (job : W32) : State :=
  p.cells.foldl (fun s n =>
    let c := s.cell n
    if c.dropping.contains job then s.setCell n { c with dropping := c.dropping.filter (· != job) } else s) s

/-- A step whose every registering job has sent its JOB_DONE ends (R354). -/
def Governor.jobOver (g : Governor) (job : W32) : Governor :=
  { g with steps := g.steps.map fun (e : StepEntry) =>
      let left := e.jobsLeft.filter (· != job)
      { e with jobsLeft := left, ended := e.ended || (left.isEmpty && !e.jobsLeft.isEmpty) } }

/-- Whether an activation has released a write of a strand of a job that is not yet performed at its home. -/
def Ctx.writesFor (x : Ctx) (job : W32) : Bool :=
  (x.out.any fun o => o.write && o.jobs.contains job) ||
  x.released.any fun sd => sd.jobs.contains job && match sd.body with
    | .store _ _ => true
    | .elem _ _ => true
    | _ => false

/-- Whether a released write of a job's strands is still to be performed: its node has not completed before (R304). -/
def State.writesFor (s : State) (p : Part) (job : W32) : Bool :=
  p.cells.any fun n => (s.cell n).ctxs.any (fun x => x.2.writesFor job) || (s.cell n).displaced.any (·.writesFor job)

/-- JOB_DONE: the DMC completes the KERNEL node of the job, once its strands' writes have been performed; a killed or rejected job faults
it (R304, R305, R312, R422). -/
def execJobDone (i : Nat) (s : State) : Out :=
  arrived "JOB_DONE" i s fun m s =>
    match m.body with
    | .jobDone job line _ =>
      match s.slabPart (line / 2 ^ 32) with
      | none => some s
      | some pn =>
        let p := s.part pn
        if s.writesFor p job then none else
        let s := s.endDrop p job
        match p.running.find? fun y => y.1 == job with
        | none => some s
        | some (_, reg, n) =>
          let bad := p.killed.contains job
          let p := { p with running := p.running.filter fun y => y.1 != job, killed := p.killed.filter (· != job)
                            prios := p.prios.filter fun y => y.1 != job, gov := p.gov.jobOver job }
          let s := s.setPart pn p
          match (p.kick reg).replay with
          | none => some s
          | some r => match p.graph r.handle with
            | none => some s
            | some g => some (if bad then s.nodeFault pn reg n r else s.nodeDone pn reg n true true r g)
    | _ => none

/-- Whether a replay has ended: no node runs, and none can start (R302, R305). -/
def Replay.over (r : Replay) : Bool :=
  r.noStart || !r.state.any fun y =>
    (y.2 == .running && !(r.faulted && (r.nodes[y.1]?).any fun x => x.kind == 3)) || (y.2 == .waiting && !r.faulted)

/-- The function of a partition's virtual function in the list of interrupts. -/
def vfIrq (pn : Nat) : Nat := pn + 1

/-- REPLAY_END: the done word is written and the interrupt raised (R301, R305). -/
def execReplayEnd (part reg : Nat) (s : State) : Out :=
  let p := s.part part
  let k := p.kick reg
  event "REPLAY_END" (
    match k.replay with
    | none => none
    | some r => if r.over && p.active then some (
      let s := s.setKick part reg { k with replay := none }
      match p.graph r.handle with
      | none => s
      | some g =>
        let v := BitVec.ofNat 64 r.number ||| if r.faulted then 0x8000000000000000 else 0
        let s := if g.doneVa == 0 then s else (s.execWrite part g.asid g.doneVa v).getD (s.execFails part g.asid .write g.doneVa)
        if g.irq then { s with irqs := s.irqs ++ [(vfIrq part, 2)] } else s) else none)

end Sys2Proof.Machine
end

