-- ==== Sys2Proof/Machine/Steps.lean ====
section
/-! DEFINITION. Steps and time (R218 to R221), one meaning per instruction. -/

namespace Sys2Proof.Machine

def execStep (h : Head) (ra : Reg) (b : SrcB) (c : Reg) (s : State) : Out :=
  finishLen (lenOf h (litB b)) (
    let x := s.me
    let id := x.s ra.toNat
    if !x.guard h || x.r.live == 0 then .done s
    else if id == 0 || 2 ^ 32 ≤ id.toNat || x.lives.any (fun L => x.step L != 0) then .trap { cause := causeStepNesting } s
    else if !s.myCell.hasHandler 0 then .trap { cause := causeHandlerUnbound } s
    else withRoom s 16 0 fun s =>
      let x := s.me
      let sd : Send := { bytes := 16
                         body := .stepReg (id.extractLsb' 0 32) (x.scalarB b) (x.s c.toNat)
                           ((s.myCell.handler 0).extractLsb' 0 28) (x.hdr x.low).job }
      .done (s.setMe (({ x with r := { x.r with steps := x.lives.map fun L => (L, id.extractLsb' 0 32) } } : Ctx).hold [sd])))

/-- The distinct nonzero steps of the live lanes. -/
def Ctx.liveSteps (x : Ctx) : List W32 := ((x.lives.map x.step).filter (· != 0)).eraseDups

def execStepend (h : Head) (s : State) : Out :=
  finishLen (lenOf h false) (
    let ids := s.me.liveSteps
    if !s.me.guard h then .done s
    else if ids.isEmpty then .trap { cause := causeStepNesting } s
    else withRoom s (16 * ids.length) 0 fun s =>
      let x := s.me
      .done (s.setMe (({ x with r := { x.r with steps := [] } } : Ctx).hold
        (ids.map fun id => { bytes := 16, body := .stepEnd id }))))

/-- Whether a send registers a step. -/
def Send.registers (sd : Send) (id : W32) : Bool :=
  match sd.body with
  | .stepReg k _ _ _ _ => k == id
  | _ => false

/-- Whether a registration of a step has not yet reached the governor of a partition. -/
def State.registering (s : State) (p : Part) (part : Nat) (id : W32) : Bool :=
  (s.net.any fun m => m.dst == .governor part && match m.body with
    | .stepReg k _ _ _ _ => k == id
    | _ => false) ||
  p.cells.any fun c => (s.cell c).ctxs.any fun x => (x.2.held ++ x.2.released).any fun sd => sd.registers id

/-- The slack of a step (R220): no step, an ended one and a refused one read as the largest number. -/
def State.slackOf (s : State) (part : Nat) (id : W32) : W64 :=
  let p := s.part part
  if id == 0 then 0x7FFFFFFFFFFFFFFF
  else match p.gov.steps.find? fun e => e.id == id && !e.ended with
    | some e => BitVec.ofInt 64 e.slack
    | none => if s.registering p part id then Config.earlySlack s.turn else 0x7FFFFFFFFFFFFFFF

def execSlack (h : Head) (d : Reg) (s : State) : Out :=
  finishLen (lenOf h false) (.done (
    if !s.me.guard h then s
    else s.setMe (s.me.setS d.toNat (s.slackOf (s.partNo s.cur.cell) (s.me.step s.me.low)))))

/-- A transfer that an activation started, promised by a time and not complete (R221): its slot. -/
def State.missedPromise (s : State) (w : Who) (t : W64) : Option Nat :=
  ((s.cell w.cell).xfers.find? fun y =>
    y.2.busy && y.2.starter == w && y.2.act == (s.ctx w).act && y.2.promise.toNat ≤ t.toNat &&
    y.2.firstOpen < y.2.chunks).map (·.1)

/-- SLEEPT completes, or raises TW_PROMISE_MISSED (R221). -/
def sleepEnds (s : State) (w : Who) (t : W64) : Res :=
  match s.missedPromise w t with
  | some slot => .trap { cause := causeTwPromise, xid := ((s.cell w.cell).xfer slot).idOf slot } s
  | none => .done s

def execSleept (h : Head) (ra : Reg) (s : State) : Out :=
  finishLen (lenOf h false) (
    let t := s.me.s ra.toNat
    if !s.me.guard h then .done s
    else if t.toNat ≤ s.tbc then sleepEnds s s.cur t
    else .wait (.sleep t (lenOf h false)) s)

end Sys2Proof.Machine
end

