-- ==== Sys2Proof/Machine/Cells.lean ====
section
/-! DEFINITION. Contexts brought to a stop: the class-0 reserve (R319), displacement (R320), the watchdog (R321), pre-emption and swap
images (R322 to R325, R427, R436), timed waits (R197, R221), and the drop of a killed job's strands (R422). -/

namespace Sys2Proof.Machine

/-! ### Stopping points -/

/-- A context rolled back and stopped; its first segment's messages stay consumed (R323, R434). A budget that has run out leaves the
trace record with PREEMPT_REQUEST, whose PC and id are TRAPPC and TRAPMSG (R441). -/
def State.stopCtx (s : State) (w : Who) : State :=
  let out := (s.ctx w).budget == 0
  let s := (s.rollback w).consumeFirst w
  let x := s.ctx w
  let s := s.setCtx w { x with status := .stopped, stopNext := false }
  if out && !(s.cell w.cell).tripped then
    s.trace w 5 x.trap.pc [causePreemptRequest ++ (1 : BitVec 1) ++ (0 : BitVec 24) ++ x.trap.msg]
  else s

/-- One context of a cell that is asked to stop: once it is blocked, at a budget of zero, or at the commit after its boundary instruction, it issues
nothing more, and it stops as soon as its entries are ready (R42, R323). One whose activation has ended has nothing to stop. A cell that trips stops
its running contexts too (R434). -/
def State.seekStop (s : State) (w : Who) : State :=
  let x := s.ctx w
  if x.status != .running || x.wait == some .leaving then s
  else if x.midway && !x.inOnce then (if x.stopNext || x.wait == some .mma then s else s.setCtx w { x with stopNext := true })
  else if !(x.stopNext || (s.cell w.cell).tripped || s.blocked w || x.budget == 0) then s
  else if x.landed then s.stopCtx w
  else if x.stopNext then s
  else s.setCtx w { x with stopNext := true }

/-- The master of a ONCE that cannot go on gives its match up, so that its members wait at their joins again. -/
def State.giveOnce (s : State) (w : Who) : State :=
  if (s.ctx w).once.isSome && (s.ctx w).status == .running then s.rollback w else s

/-- A cell's part in a stop. A promenade completes before a pre-emption stops its contexts (R372). -/
def State.cellStops (s : State) (cell : Nat) : State :=
  let c := s.cell cell
  if c.tripped && !c.out then (whos cell).foldl (fun s w => (s.giveOnce w).seekStop w) s
  else if c.preempting && !c.out && c.promenade.isNone then (whos cell).foldl State.seekStop s
  else s

/-- Whether no context of a cell runs any more. -/
def Cell.still (c : Cell) : Bool := ctxNums.all fun k => (c.ctx k).status != .running || (c.ctx k).wait == some .leaving

/-! ### Segment boundaries without a rollback (R370, R428, R435) -/

/-- Whether a context can come to a segment boundary now: every reserved entry of its queues is ready (R370, R385). The model asks that of a
running context too, whose next instruction may wait for one: DEDUCED, log entry 28. -/
def Ctx.boundable (x : Ctx) : Bool := x.status != .running || x.wait == some .leaving || (!x.midway && x.landed)
/-- The same for a context of a cell, which no displacement has chosen. -/
def State.boundable (s : State) (w : Who) : Bool :=
  (s.ctx w).boundable && ((s.ctx w).status != .running || (s.cell w.cell).displacing != some w.ctx)

/-- A context comes to a segment boundary: one that waits for a join withdraws it, another takes an implicit checkpoint (R370). -/
def State.toBoundary (s : State) (w : Who) : State :=
  let x := s.ctx w
  if x.status != .running then s
  else match x.wait with
    | some .leaving => s
    | some (.join _) => s.rollback w
    | _ =>
      let s := s.commit w 1
      let s := s.setCtx w { s.ctx w with wait := none }
      if (s.ctx w).r.live == 0 then s.endActivation w else s

/-- Every context of a cell at a segment boundary. -/
def State.cellBoundary (s : State) (cell : Nat) : State := (whos cell).foldl State.toBoundary s

/-! ### Cell images (R427, R436) -/

/-- Byte k of a doubleword's bytes (R4). -/
def byteOf (w : W64) (k : Nat) : Byte := w.extractLsb' (8 * (k % 8)) 8

/-- Byte k of a cell's image. The accumulators' elements and the tensor descriptors stand in their numbers' order from the starts of their
regions on; the context areas are private to the device, and for the rest R436 names no inner layout: free bytes (log entry 46). -/
def State.imageByte (s : State) (cell k : Nat) : Byte :=
  let c := s.cell cell
  if k < 0x90000 then mread s.mem (cellKey cell k)
  else if k < 0x91000 then byteOf (c.ctrl ((k - 0x90000) / 8)) k
  else if k < 0xD1000 then Config.imageByte cell k s.turn
  else if k < 0xD5000 then
    let e := (k - 0xD1000) / 4
    byteOf ((tget 0 (c.acc (e / 1024)).elems (e % 1024)).setWidth 64) (k % 4)
  else if 0xD6000 ≤ k && k < 0xD6800 then byteOf (tget 0 c.td ((k - 0xD6000) / 8)) k
  else if k < 0xDF000 then Config.imageByte cell k s.turn
  else 0

/-- A cell's image written at a physical address. -/
def State.writeImage (s : State) (cell pa : Nat) : State :=
  let s := s.settle cell
  ({ s with mem := writeAll (fun k => hbmKey (pa + k)) (s.imageByte cell) 0x100000 s.mem } : State).written pa 0x100000

/-- n bytes that a function gives from k on, as a number (R4). -/
def imageNum (b : Nat → Byte) (k : Nat) : Nat → Nat
  | 0 => 0
  | n + 1 => (b k).toNat + 256 * imageNum b (k + 1) n

/-- Doubleword k of a cell's control window read back from an image; PRIV is never set by that. -/
def Cell.loadCtrl (c : Cell) (k : Nat) (v : W64) : Cell :=
  if k = 33 then { c with casid := v.extractLsb' 0 12 }
  else if k = 34 then { c with msgId := v.extractLsb' 0 32 }
  else
    let c := c.setCtrl k v
    if k < 256 || k % 2 = 1 then c
    else match c.recAt ((k - 256) / 2) with
      | none => c
      | some r => { c with entries := setAt c.entries ((k - 256) / 2) { r with entry := v.extractLsb' 0 14 } }

/-- What an image gives of an accumulator's elements. -/
def loadAcc (b : Nat → Byte) (a : Nat) (x : Acc) : Acc :=
  { x with elems := (List.range 1024).foldl (fun t e => tset t e (BitVec.ofNat 32 (imageNum b (0xD1000 + 4096 * a + 4 * e) 4))) x.elems }

/-- A cell's image read back through the memory keys of its bytes: the scratchpad, the instruction store, the control window, the
accumulators and the tensor descriptors. The rest is private to the device, or has no layout that R436 names, and is as it was. A read of a
poisoned line fails and gives zeros (R180, R431; log entry 68). -/
def State.loadImage (s : State) (cell : Nat) (at_ : Nat → Nat) : State :=
  let b := fun k => if s.poisonedAt (at_ k) then 0 else mread s.mem (at_ k)
  let c := s.cell cell
  let c := ((List.range 35) ++ (List.range (2 * c.entries.length)).map (· + 256)).foldl
    (fun (c : Cell) k => c.loadCtrl k (BitVec.ofNat 64 (imageNum b (0x90000 + 8 * k) 8))) c
  let c := { c with
    accs := [0, 1, 2, 3].foldl (fun t a => tset t a (loadAcc b a (tget {} t a))) c.accs
    td := (List.range 256).foldl (fun t k => tset t k (BitVec.ofNat 64 (imageNum b (0xD6000 + 8 * k) 8))) c.td }
  ({ s with mem := writeAll (cellKey cell) b 0x90000 s.mem } : State).setCell cell c

/-- A cell's image read back from a physical address. -/
def State.readImage (s : State) (cell pa : Nat) : State := s.loadImage cell fun k => hbmKey (pa + k)

/-- The memory key of byte k of a swap image in blocks of the pool. -/
def Part.swapAt (p : Part) (l : List Nat) (k : Nat) : Nat := hbmKey (p.blockAt (l.getD (k / 4096) 0) 0 + k % 4096)

/-- Whether the pool has room for a swap image: 256 blocks that no reservation holds (R338, R427). -/
def Part.swapRoom (p : Part) : Bool := 256 ≤ p.freeCount && 256 ≤ p.freeBlocks.length

/-- The swap image of a cell written into 256 blocks of the tailrace pool, which it holds until it resumes (R427). -/
def State.swapOut (s : State) (cell : Nat) : State :=
  let s := s.settle cell
  let pn := s.partNo cell
  let p := s.part pn
  let l := p.freeBlocks.take 256
  let s := { s with mem := writeAll (p.swapAt l) (s.imageByte cell) 0x100000 s.mem }
  let s := l.foldl (fun s b => s.written (p.blockAt b 0) 4096) s
  let s := s.setPart pn { p with freeBlocks := p.freeBlocks.drop 256, reservedBlocks := p.reservedBlocks + 256 }
  s.setCell cell { s.cell cell with swap := l }

/-- A cell restored from an image of its own; its message ids run on from those that it has given since (R32), and its CASID is the one that Thieno
has written last (R395). -/
def State.reload (s : State) (cell : Nat) (at_ : Nat → Nat) : State :=
  let t := s.loadImage cell at_
  t.setCell cell { t.cell cell with msgId := (s.cell cell).msgId, casid := (s.cell cell).casid }

/-- A cell restored from its swap image, when it has one, and the blocks given back. -/
def State.swapIn (s : State) (cell : Nat) : State :=
  let l := (s.cell cell).swap
  if l.isEmpty then s
  else
    let pn := s.partNo cell
    let s := s.reload cell ((s.part pn).swapAt l)
    let s := s.setCell cell { s.cell cell with swap := [] }
    let s := s.freeBlocks pn l
    let p := s.part pn
    s.setPart pn { p with reservedBlocks := p.reservedBlocks - 256, reported := [] }

/-- Free bytes in the displacement area of a cell, whose layout is private to the device (R320, R407). -/
def State.writeDisplaced (s : State) (cell : Nat) : State :=
  let p := s.partAt cell
  let pa := p.displaceAt (p.rel cell)
  ({ s with mem := writeAll (fun k => hbmKey (pa + k)) (fun k => Config.imageByte cell k s.turn) 0x8000 s.mem } : State).written pa 0x8000

/-! ### The class-0 reserve (R319) -/

/-- Whether a cell has a class-0 activation that is ready. -/
def State.zeroReady (s : State) (cell : Nat) : Bool := (whos cell).any fun w => (s.ctx w).cls == some 0 && s.ready w

/-- CLASS0_RESERVE: after 63 lane-issue cycles the next one goes to a class-0 activation; 64 stands for that grant (R319). -/
def execClass0Reserve (cell : Nat) (s : State) : Out :=
  let c := s.cell cell
  event "CLASS0_RESERVE" (if c.class0Count == 63 && s.zeroReady cell then some (s.setCell cell { c with class0Count := 64 }) else none)

/-! ### Displacement (R320) -/

/-- The contexts that may be displaced: blocked ones that hold no co-resident activation and stand in no boundary instruction whose
effect has begun. -/
def State.displaceable (s : State) (w : Who) : Bool :=
  let x := s.ctx w
  x.status == .running && s.blocked w && !x.cores && !x.midway && x.wait != some .leaving

/-- The context whose segment began latest, the lowest number on a tie. -/
def latest (s : State) : List Who → Option Who
  | [] => none
  | w :: ws =>
    match latest s ws with
    | none => some w
    | some v => if (s.ctx w).begun < (s.ctx v).begun then some v else some w

/-- The bins whose handler messages may displace a context: class 0, 2 or 3, or 0 and 2 while a pre-emption is pending (R320, R323). -/
def Cell.displacers (c : Cell) : List Bin :=
  (c.qualifying false).filter fun b => b.msgs.any fun a => match a.parcel.cls? with
    | some k => k == 0 || k == 2 || (k == 3 && !c.preempting)
    | none => false

/-- Whether a displacement may begin or end on a cell. -/
def State.mayDisplace (s : State) (cell : Nat) : Bool :=
  let c := s.cell cell
  c.up && !c.halted && c.displaced.isNone && (s.partAt cell).forms

/-- A cell chooses a context for displacement when every one is blocked or parked and a message qualifies for it; the context withdraws
its join. A choice whose context has stopped running is given up. -/
def State.chooseDisplaced (s : State) (cell : Nat) : State :=
  let c := s.cell cell
  match c.displacing with
  | some k => if (c.ctx k).status == .running then s else s.setCell cell { c with displacing := none }
  | none =>
    if c.bins.isEmpty || !s.mayDisplace cell || c.displacers.isEmpty then s
    else
      let stuck := (whos cell).all fun w => (s.ctx w).status == .parked || ((s.ctx w).status == .running && s.blocked w)
      if !stuck then s
      else match latest s ((whos cell).filter s.displaceable) with
      | some w => s.setCell cell ({ c with displacing := some w.ctx }.withdraw (s.ctx w).act false)
      | none => s

/-- The context of a displacement that happens now: the chosen one, with every entry of its queues ready. -/
def State.displaces (s : State) (cell : Nat) : Option Who :=
  match (s.cell cell).displacing with
  | some k =>
    let x := s.ctx ⟨cell, k⟩
    if s.mayDisplace cell && x.status == .running && x.landed then some ⟨cell, k⟩ else none
  | none => none

/-- DISPLACEMENT: the chosen context is rolled back and moves into the displacement area; the message's set takes its place. What it has
released and what is on its way stay where they are until it returns (R320). -/
def execDisplacement (cell : Nat) (s : State) : Out :=
  event "DISPLACEMENT" ((s.displaces cell).map fun w =>
    let s := (s.rollback w).consumeFirst w
    let x := s.ctx w
    let s := s.writeDisplaced cell
    let s := s.setCtx w x.freed
    let s := s.setCell cell { s.cell cell with
      displaced := some { x with released := [], out := [], sent := [], incsAwaited := 0 }, displacing := none }
    match chooseBin (s.cell cell).displacers with
    | some b => s.formSet cell w.ctx b
    | none => s)

/-- The sends and the accesses on their way that an activation has left in the contexts of its cell, put behind one another. -/
def Cell.leftBy (c : Cell) (act : Nat) : List Send × List Pending :=
  (c.ctxs.flatMap fun x => x.2.released.filter fun sd => sd.act == act, c.ctxs.flatMap fun x => x.2.out.filter fun o => o.act == act)

/-- A context without what an activation has left in it. -/
def Ctx.without (x : Ctx) (act : Nat) : Ctx :=
  { x with released := x.released.filter fun sd => sd.act != act, out := x.out.filter fun o => o.act != act }

/-- Whether increments are still to be acknowledged that strands of an activation wait for. -/
def Cell.incsLeft (c : Cell) (act : Nat) : Bool :=
  c.ctxs.any fun x => x.2.incsAwaited != 0 && x.2.released.any fun sd => sd.act == act

/-- An activation put into a context again: its channel ends and transfers follow it, and so does what it has left in other contexts. -/
def State.reinstate (s : State) (w : Who) (x : Ctx) : State :=
  let c := s.cell w.cell
  let (sends, outs) := c.leftBy x.act
  let c := { c with
    ctxs := tmap (fun _ (y : Ctx) => y.without x.act) c.ctxs
    xfers := tmap (fun _ (y : Xfer) => if y.act == x.act then { y with starter := w } else y) c.xfers }
  let old := c.ctx w.ctx
  s.setCell w.cell (c.setCtx w.ctx { x with
    stopNext := false, released := old.released ++ sends, out := old.out ++ outs, sent := old.sent, incsAwaited := old.incsAwaited
    lastTbc := Nat.max x.lastTbc old.lastTbc })

/-- DISPLACED_RESTORE: a freed context takes the displaced activation back (R320). -/
def execDisplacedRestore (cell : Nat) (s : State) : Out :=
  let c := s.cell cell
  event "DISPLACED_RESTORE" (
    match c.displaced, c.freeCtxs.head? with
    | some x, some k => if c.up && !c.preempting && (s.partAt cell).forms && !c.incsLeft x.act then some
        ((s.setCell cell { c with displaced := none }).reinstate ⟨cell, k⟩ x) else none
    | _, _ => none)

/-! ### Watchdog and timed waits -/

/-- Whether BUDGET has reached zero and the activation traps (R321). -/
def State.budgetOut (s : State) (w : Who) : Bool :=
  let x := s.ctx w
  let c := s.cell w.cell
  x.status == .running && x.budget == 0 && !x.spared && (!x.midway || x.inOnce) && c.displacing != some w.ctx && !c.preempting && !c.tripped && !c.out

/-- WATCHDOG: an activation whose BUDGET has reached zero traps (R321). -/
def execWatchdog (cell ctx : Nat) (s : State) : Out :=
  event "WATCHDOG" (if s.budgetOut ⟨cell, ctx⟩ then some (s.takeTrap ⟨cell, ctx⟩ { cause := causeWatchdog }) else none)

/-- Whether a context of a cell goes on when a wait of its own ends. -/
def State.awake (s : State) (w : Who) : Bool :=
  let c := s.cell w.cell
  (s.ctx w).status == .running && !(s.ctx w).stopping && c.up && !c.halted && c.displacing != some w.ctx && (s.partAt w.cell).runs

/-- SLEEPT_WAKE: the timebase reaches the time of a SLEEPT, which completes or raises TW_PROMISE_MISSED (R221). -/
def execSleeptWake (cell ctx : Nat) (s : State) : Out :=
  let w : Who := ⟨cell, ctx⟩
  let x := s.ctx w
  event "SLEEPT_WAKE" (
    match x.wait with
    | some (.sleep t n) => if t.toNat ≤ s.tbc && s.awake w then some (
        match sleepEnds s w t with
        | .done s => (s.setCtx w (x.past n)).onceAfter w
        | .trap t s => s.takeTrap w t
        | .wait _ s => s) else none
    | _ => none)

/-- FENCE_TIMEOUT: a FENCE that has waited 1,000 µs traps (R197). -/
def execFenceTimeout (cell ctx : Nat) (s : State) : Out :=
  let w : Who := ⟨cell, ctx⟩
  event "FENCE_TIMEOUT" (
    match (s.ctx w).wait with
    | some (.fence sc since) =>
      if since + 1000000 ≤ s.tbc && s.awake w && !s.fenceDone w sc then some (s.takeTrap w { cause := causeFenceTimeout }) else none
    | _ => none)

/-! ### Pre-emption (R322, R323) -/

/-- Whether a cell is pinned: a running replay has dispatched a launch that pins it (R324). -/
def State.pinned (s : State) (cell : Nat) : Bool :=
  (s.partAt cell).kicks.any fun k => k.2.replay.any fun r => r.pins.contains cell

/-- Whether a cell refuses a pre-emption request (R322). -/
def State.refusesPreempt (s : State) (cell : Nat) : Bool :=
  let c := s.cell cell
  s.pinned cell || !c.reservs.isEmpty || ctxNums.any (fun k => (c.ctx k).status != .free && (c.ctx k).cores) ||
  c.displaced.any (·.cores)

/-- A class-1 message to a cell from Thieno service. -/
def State.askPreempt (s : State) (cell : Nat) : State :=
  let pn := s.partNo cell
  let p := s.part pn
  let m : Smsg := { part := BitVec.ofNat 6 pn, cls := 1, dest := (placeOf (p.rel cell) 0).extractLsb' 0 28 }
  s.post { vn := .system, src := .dmc p.die0, dst := .cell cell, body := .parcel (.msg m) }

/-- Whether Thieno service may switch a cell out on its own: its image has room, it lies in no reserved region, and it is not on its way
out (R324, R427). -/
def State.swappable (s : State) (cell : Nat) : Bool :=
  let c := s.cell cell
  let p := s.partAt cell
  p.active && !p.running.isEmpty && !p.reserved.contains (cell / 16) && p.swapRoom && c.up && !c.preempting &&
  !s.net.any fun m => m.dst == .cell cell && match m.body with
    | .parcel q => q.cls? == some 1
    | _ => false

/-- Thieno service's own request, when it makes one (R322). -/
def State.thienoPreempts (s : State) : State :=
  if s.parts.all fun p => p.2.running.isEmpty then s
  else match Config.preempts s.turn with
  | some cell => if s.swappable cell then s.askPreempt cell else s
  | none => s

/-- PREEMPT_REQUEST: a cell refuses a class-1 message, or starts to bring its contexts to stopping points (R322, R323). -/
def execPreemptRequest (i : Nat) (s : State) : Out :=
  arrived "PREEMPT_REQUEST" i s fun m s =>
    match m.dst, m.body with
    | .cell n, .parcel (.msg p) =>
      let c := (s.cell n).popped m.src (.msg p)
      let c' := if c.hasHandler 1 then c.accept (.msg p) else (c.takeId (.msg p)).1
      if p.cls == 1 && !c.out && c.canAccept (.msg p) then some (
        if s.refusesPreempt n then (s.setCell n (c.takeId (.msg p)).1).post { vn := .system, src := .cell n, dst := m.src, body := .preemptAns n false }
        else s.setCell n { c' with preempting := true }) else none
    | .dmc _, .preemptAns _ _ => some s
    | _, _ => none

/-- Whether a refill of a cell's inbox or of one of its channels is still to land (R333, R340, R342, R351). -/
def State.refillsLand (s : State) (cell : Nat) : Bool :=
  s.refilling cell || (s.cell cell).rcopies.any fun y => y.2.any fun r => r.landing != 0

/-- The stopped contexts of a cell run from their segment starts. -/
def Cell.restart (c : Cell) : Cell :=
  { c with ctxs := tmap (fun _ (x : Ctx) => if x.status == .stopped then { x with status := .running } else x) c.ctxs }

/-- PREEMPT_STOPPED: every context has stopped, and no promenade and no refill is under way; the cell reports, writes its image, and its
router diverts arrivals (R323, R342, R351, R372). A cell whose image has no room goes on where it stands (R427). -/
def execPreemptStopped (cell : Nat) (s : State) : Out :=
  let c := s.cell cell
  let p := s.partAt cell
  let own := p.cut == .none || p.cut == .closing
  let placed := !own || p.swapRoom
  event "PREEMPT_STOPPED" (if c.preempting && !c.out && c.still && !s.refillsLand cell && c.promenade.isNone then some (
    let s :=
      if placed then
        let s := if own then s.swapOut cell else s
        s.setCell cell { s.cell cell with preempting := false, out := true }
      else s.setCell cell { c.restart with preempting := false }
    s.post { vn := .system, src := .cell cell, dst := .dmc p.die0, body := .preemptAns cell placed }) else none)

/-- The resume notifications of a router, or one to every cell and home station when its list overflowed (R425). -/
def State.notifyResume (s : State) (cell : Nat) : State :=
  let c := s.cell cell
  let p := s.partAt cell
  let l := if c.refusals.overflow then p.cells.map Endp.cell ++ p.clusters.map Endp.home ++ p.slabs.map Endp.home else c.refusals.listed
  let s := s.setCell cell { c with refusals := {} }
  l.foldl (fun s e => s.post { vn := .system, src := .cell cell, dst := e, body := .resume cell }) s

/-- Whether a move in a cell's row is under way. -/
def State.rowMoving (s : State) (cell : Nat) : Bool := (rowCells (rowOf cell)).any fun n => (s.cell n).promenade.isSome

/-- A switched-out cell works again, from its swap image where it has one: its stopped contexts run from their segment starts (R323, R434).
One that has tripped again within 100 ms of its resume after a trip moves to its row's spare as it resumes, unless it is halted or its row
moves already (R372). -/
def State.resumeCell (s : State) (cell : Nat) : State :=
  let s := s.swapIn cell
  let c := s.cell cell
  let again := c.retrip && s.spareFree (rowOf cell) && !c.halted && !s.rowMoving cell
  let s := s.setCell cell { c.restart with
    out := false, tripped := false, retrip := false, resumedAt := if c.tripped then s.tbc + 1 else c.resumedAt
    promenade := if again then some (s.spareCol (rowOf cell)) else c.promenade }
  s.notifyResume cell

/-- A number of degrees in the unit of the samples, 1/16 °C (R460). -/
def degC (n : Nat) : Nat := 16 * n

/-- Whether Thieno service can resume a cell on its own (R323, R429, R434). -/
def State.resumable (s : State) (cell : Nat) : Bool :=
  let c := s.cell cell
  c.out && !c.gone && (s.partAt cell).active && (!c.tripped || c.temp < degC 90)

/-- CELL_RESUME: a switched-out cell is restored from its image (R323, R434). -/
def execCellResume (cell : Nat) (s : State) : Out := event "CELL_RESUME" (if s.resumable cell then some (s.resumeCell cell) else none)

/-! ### The drop of a job (R422) -/

/-- The strands of a job among arrivals, and the others. -/
def dropArrivals (job : W32) (l : List Arrival) : List Arrival := l.filter fun a => a.parcel.job? != some job
/-- How many strands of a job there are among arrivals. -/
def countArrivals (job : W32) (l : List Arrival) : Nat := (l.filter fun a => a.parcel.job? == some job).length

/-- The strands of a job that a cell's inbox holds. -/
def Cell.strandsOf (c : Cell) (job : W32) : Nat :=
  (c.bins.map fun b => countArrivals job b.msgs).sum + countArrivals job (c.overflow.map (·.2)) + countArrivals job c.tail +
  (c.reservs.map fun r => countArrivals job r.waiting).sum

/-- A bin without the strands of a job. Where its oldest arrival goes, the next one's window is its own (R37). -/
def Bin.purge (b : Bin) (job : W32) : Bin :=
  let msgs := dropArrivals job b.msgs
  { b with msgs, due := b.due && msgs.head? == b.msgs.head? }

/-- A cell's inbox without the strands of a job, its bins freed, and a reservation of the job let go. -/
def Cell.purge (c : Cell) (job : W32) : Cell :=
  let own := c.reservs.filter fun r => r.job == job
  let c : Cell := own.foldl (fun (c : Cell) r => c.unreserve r.groups) c
  let c := { c with
    bins := c.bins.map fun (b : Bin) => b.purge job
    overflow := c.overflow.filter fun y => y.2.parcel.job? != some job
    tail := dropArrivals job c.tail
    reservs := c.reservs.filter fun r => r.job != job
    pending := c.pending.map fun (t : PendTrap) => { t with msgs := dropArrivals job t.msgs } }
  (c.bins.map (·.entry)).foldl (fun (c : Cell) e => c.binFree e) c

/-- The strands of a job taken out of one pool ring and its tailrace; their number. -/
def PoolLane.purge (l : PoolLane) (job : W32) : PoolLane × Nat :=
  let keep := fun (p : Parcel) => p.job? != some job
  let l' := { l with ring := l.ring.filter keep, tail := l.tail.filter keep }
  (l', l.ring.length + l.tail.length - l'.ring.length - l'.tail.length)

/-- The entries of a ring or a tailrace written again after some have been taken out. -/
def writeEntries (at_ : Nat → Nat) : Nat → List Parcel → State → State
  | _, [], s => s
  | k, p :: l, s => writeEntries at_ (k + 1) l (s.hbmBytes (at_ k) p.image)

/-- A tailrace of which only these messages are left, without the blocks that it no longer needs (R338, R422). -/
def State.refit (s : State) (pn : Nat) (ch : Chain) (l : List Parcel) : Chain × State :=
  let (ch, s) := s.chainTrim pn ch l.length
  let p := s.part pn
  (ch, writeEntries (fun k => p.blockAt (ch.blocks.getD ((ch.head + k) / 32) 0) (16 * ((ch.head + k) % 32))) 0 l s)

/-- A pool lane after messages have been taken out of it, its ring and its tailrace written again. -/
def State.refitLane (s : State) (die lane : Nat) (l : PoolLane) : State :=
  let (ch, s) := s.refit (l.part.getD 0) l.chain l.tail
  let s := writeEntries (fun k => l.ringPa + 128 * ((l.first + k) % l.capacity)) 0 l.ring s
  s.setLane die lane { l with chain := ch }

/-- The pool lanes that a cell pops, without the strands of a job; each strand is subtracted. -/
def purgeLanes (cell : Nat) (job : W32) : List (Nat × Nat) → State → State
  | [], s => s
  | (d, k) :: rest, s =>
    let (l, n) := (s.lane d k).purge job
    purgeLanes cell job rest (if n == 0 then s else (s.refitLane d k l).subtract cell (List.replicate n job))

/-- The lanes that a cell pops. -/
def State.lanesOfCell (s : State) (cell : Nat) : List (Nat × Nat) :=
  s.dies.flatMap fun d => (d.2.lanes.filter fun l => l.2.cells.contains cell).map fun l => (d.1, l.1)

/-- JOB_DROP: Thieno service tells every cell of the partition, or a cell removes and subtracts the strands of a killed job, and drops
those that arrive until its JOB_DONE (R422). -/
def execJobDrop (i : Nat) (s : State) : Out :=
  arrived "JOB_DROP" i s fun m s =>
    match m.dst, m.body with
    | .cell n, .drop job =>
      let c := s.cell n
      let k := c.strandsOf job
      let c' := c.purge job
      if !c.out then some (
        let (ch, s) := if c'.tail == c.tail then (c.tailChain, s) else s.refit (s.partNo n) c.tailChain (c'.tail.map (·.parcel))
        let s := s.setCell n { c' with tailChain := ch, dropping := if c.dropping.contains job then c.dropping else c.dropping ++ [job] }
        purgeLanes n job (s.lanesOfCell n) (s.subtract n (List.replicate k job))) else none
    | .dmc _, .drop job =>
      match m.src with
      | .cell n =>
        let pn := s.partNo n
        let p := s.part pn
        some (p.cells.foldl (fun s k => s.post { vn := .system, src := m.dst, dst := .cell k, body := .drop job }) s)
      | _ => some s
    | _, _ => none

end Sys2Proof.Machine
end

