-- ==== Sys2Proof/Machine/Governor.lean ====
section
/-! DEFINITION. Deadline steps, the governor and the Weir (R352 to R369), and the thermal moves (R370, R371). -/

namespace Sys2Proof.Machine

/-! ### Work reports (R356) -/

/-- WORK_REPORT: a cell's counter table is added to what the governor decides on next (R356). -/
def execWorkReport (i : Nat) (s : State) : Out :=
  arrived "WORK_REPORT" i s fun m s =>
    match m.dst, m.body with
    | .governor pn, .work counts _ =>
      let p := s.part pn
      let steps := p.gov.steps.map fun (e : StepEntry) =>
        if e.ended then e else { e with fresh := e.fresh + tget 0 counts e.id.toNat }
      some (s.setPart pn { p with gov := { p.gov with steps } })
    | _, _ => none

/-! ### The step table (R353, R354) -/

/-- The kinds of notification (R361). -/
def kindRisk : Nat := 1
def kindMissed : Nat := 2
def kindThrottle : Nat := 3
def kindRefused : Nat := 4

/-- A slack saturated to 60 bits, signed (R361). -/
def slack60 (x : Int) : Int := if x < -(2 ^ 59) then -(2 ^ 59) else if 2 ^ 59 - 1 < x then 2 ^ 59 - 1 else x

/-- A class-0 notification sent to a handler place (R360, R361). -/
def State.notify (s : State) (pn kind : Nat) (slack : Int) (handler : BitVec 28) (id job : W32) : State :=
  let p := s.part pn
  let m : Smsg :=
    { payload := BitVec.ofNat 4 kind ++ BitVec.ofInt 60 (slack60 slack), origin := 0xFFF, part := BitVec.ofNat 6 pn, cls := 0
      dest := handler, step := id, job }
  s.post { vn := .system, src := .governor pn, dst := p.endpOf (handler.setWidth 64), body := .parcel (.msg m) }

/-- A registration that the table takes: an entry that has not ended is replaced, an ended one of the same id is freed first (R353,
R372). Before its first boundary a replaced step's slack is the new D less its entry (R359). What becomes of the notification state of a
replaced step, also after DEADLINE_MISSED, R353 does not say. DESIGN CHOICE, log entry 69: it stays. None when the table is full. -/
def Governor.register (g : Governor) (now : Nat) (id : W32) (d work : W64) (h : BitVec 28) (job : W32) : Option Governor :=
  if g.steps.any fun e => e.id == id && !e.ended then
    let steps := g.steps.map fun (e : StepEntry) =>
      if e.id == id && !e.ended then
        { e with deadline := d, work := work.toNat, handler := h, job, replacedAt := some now
                 slack := if e.bounded then e.slack else (d.toNat : Int) - e.entered.toNat
                 jobsLeft := if e.jobsLeft.contains job then e.jobsLeft else e.jobsLeft ++ [job] }
      else e
    some { g with steps }
  else
    let rest := g.steps.filter fun e => e.id != id
    if 256 ≤ rest.length then none
    else
      let e : StepEntry :=
        { id, deadline := d, work := work.toNat, handler := h, job, jobsLeft := [job], entered := BitVec.ofNat 64 now
          slack := (d.toNat : Int) - now }
      some { g with steps := rest ++ [e] }

/-- STEP_REGISTRATION: a registration enters the step table, or is answered with REFUSED (R353). -/
def execStepRegistration (i : Nat) (s : State) : Out :=
  arrived "STEP_REGISTRATION" i s fun m s =>
    match m.dst, m.body with
    | .governor pn, .stepReg id d work h job =>
      let p := s.part pn
      match p.gov.register s.tbc id d work h job with
      | some gov => some (s.setPart pn { p with gov })
      | none => some (s.notify pn kindRefused 0 h id job)
    | _, _ => none

/-- A step's entry as its retirement reaches it: it ends (R354), or, where a registration has replaced it in the same period, the end
applies to the entry before and the registration stands in a new one (R372). -/
def StepEntry.retire (e : StepEntry) : StepEntry :=
  match e.replacedAt with
  | none => { e with ended := true }
  | some t => { id := e.id, deadline := e.deadline, work := e.work, handler := e.handler, job := e.job, jobsLeft := [e.job]
                entered := BitVec.ofNat 64 t, slack := (e.deadline.toNat : Int) - t }

/-- STEP_RETIREMENT: the first retirement of a step ends it (R354). -/
def execStepRetirement (i : Nat) (s : State) : Out :=
  arrived "STEP_RETIREMENT" i s fun m s =>
    match m.dst, m.body with
    | .governor pn, .stepEnd id =>
      let p := s.part pn
      let steps := p.gov.steps.map fun (e : StepEntry) => if e.id == id then e.retire else e
      some (s.setPart pn { p with gov := { p.gov with steps } })
    | _, _ => none

/-! ### The governor's period (R357 to R360) -/

/-- ⌈a ÷ b⌉. -/
def ceilDiv (a b : Nat) : Nat := (a + b - 1) / b
/-- The points of operation. -/
def points : List Nat := List.range 16

/-- t_n: the time in ns to finish at point n at the measured rate (R357). -/
def timeAt (rem c k n : Nat) : Nat := ceilDiv (rem * k * 1000) (c * 165 * (5 + n))

/-- What the governor computes for a step: demand, slack, urgency and margin. -/
structure Decision where
  demand : Nat
  slack : Int
  urgency : Nat
  margin : Nat := 0
  deriving DecidableEq, Repr

/-- The decision on one step at a boundary, from its entry with the period's units added (R357, R358). -/
def StepEntry.decide (e : StepEntry) (t floor inForce : Nat) : Decision :=
  let d := e.deadline.toNat
  let left : Int := (d : Int) - t
  if e.note == .missed && d ≤ t then { demand := 15, slack := left, urgency := 255 }
  else if e.work == 0 || e.work ≤ e.done then { demand := 15, slack := left, urgency := 16 }
  else match e.meas with
  | none => { demand := inForce, slack := left, urgency := 1 }
  | some (c, k) =>
    let rem := e.work - e.done
    let t15 := timeAt rem c k 15
    let fits := points.filter fun n => floor ≤ n && t + ceilDiv (17 * timeAt rem c k n) 16 ≤ d
    { demand := fits.headD 15, slack := left - t15, margin := ceilDiv t15 16
      urgency := if d ≤ t then 255 else Nat.min 255 (ceilDiv (16 * t15) (d - t)) }

/-- The notification that a step sends at a boundary, and its state after (R360). `above` tells that the chosen point stands above the
point in force. -/
def StepEntry.note! (e : StepEntry) (t : Nat) (x : Decision) (above : Bool) : Option Nat × StepEntry :=
  let e := if above then e else { e with throttle := false }
  if e.note == .missed then (none, e)
  else if e.deadline.toNat ≤ t then (some kindMissed, { e with note := .missed })
  else if x.slack ≤ 0 && e.note == .armed then (some kindRisk, { e with note := .warned })
  else if (x.margin : Int) < x.slack && e.note == .warned then (none, { e with note := .armed })
  else if above && !e.throttle then (some kindThrottle, { e with throttle := true })
  else (none, e)

/-- The units of the period taken into a step's entry (R357). -/
def StepEntry.take (e : StepEntry) (k : Nat) : StepEntry :=
  { e with done := e.done + e.fresh, fresh := 0, meas := if e.fresh == 0 then e.meas else some (e.fresh, k) }

/-- Every step of a governor decided at a boundary: the entries after, and the notifications with their slack. -/
def decideSteps (t k floor inForce : Nat) (above : Bool) : List StepEntry → List StepEntry × List Nat × List (StepEntry × Nat)
  | [] => ([], [], [])
  | e :: rest =>
    let (es, ds, ns) := decideSteps t k floor inForce above rest
    let e := e.take k
    let x := e.decide t floor inForce
    let (n, e) := e.note! t x above
    let e := { e with slack := x.slack, urgency := x.urgency, bounded := true, replacedAt := none }
    (e :: es, x.demand :: ds, match n with
      | some n => (e, n) :: ns
      | none => ns)

/-- The highest of a list of numbers; a default when it is empty. -/
def maxOf (d : Nat) : List Nat → Nat
  | [] => d
  | x :: xs => xs.foldl Nat.max x

/-! ### Tokens (R363) -/

/-- T_dyn of a point. -/
def tDyn (n : Nat) : Nat := [4, 5, 6, 7, 8, 10, 12, 14, 16, 18, 20, 22, 25, 28, 31, 34].getD n 34
/-- T_idle of a point. -/
def tIdle (n : Nat) : Nat := if n < 8 then 3 else 4
/-- The voltage of a point in mV. -/
def millivolts (n : Nat) : Nat := 620 + 22 * n

/-- The point at which a rail stands; a rail that nothing has moved stands at point 15 (log entry 29). -/
def State.rail (s : State) (r : Nat) : Nat := tget 15 s.rails r
/-- The cost of point n to a cluster of a partition at an activity. -/
def State.cost (s : State) (p : Part) (a n : Nat) : Nat :=
  let x := Nat.max n (s.rail p.rail)
  tIdle x + ceilDiv (a * tDyn x) 256
/-- The floor cost of a cluster of a partition. -/
def State.floorCost (s : State) (p : Part) : Nat := s.cost p 256 p.floor

/-- The cycles in which the cells of a cluster have issued or run their array slices. -/
def State.clusterBusy (s : State) (k : Nat) : Nat := ((clusterCells k).map fun n => (s.cell n).busyCycles).sum
/-- The activity of a cluster over a span of b busy cycles in K cycles (R363). -/
def activity (b k : Nat) : Nat := if k == 0 then 256 else Nat.min 256 (ceilDiv (256 * b) (16 * k))

/-- The bid of a cluster for a period, sent to the Weir (R364). -/
def State.sendBid (s : State) (pn cluster period k : Nat) : State :=
  let p := s.part pn
  let c := s.cluster cluster
  let busy := s.clusterBusy cluster
  let act := activity (busy - c.busyAt) k
  let ask := s.cost p act p.gov.chosen
  let prio := maxOf 0 (p.prios.map (·.2))
  let urgency := maxOf 1 ((p.gov.steps.filter fun e => !e.ended).map (·.urgency))
  (s.setCluster cluster { c with busyAt := busy, act }).post
    { vn := .system, src := .governor pn, dst := .weir, body := .bid cluster ask ((1 + prio) * urgency) period }

/-- GOVERNOR_PERIOD: the governor decides at a boundary, notifies handlers, and its clusters bid (R357 to R364). -/
def execGovernorPeriod (part : Nat) (s : State) : Out :=
  let p := s.part part
  let g := p.gov
  let t := g.next
  event "GOVERNOR_PERIOD" (if p.open_ && t ≤ s.tbc && g.sent == t then some (
    let k := g.cycles - g.cyclesAt
    let live := g.steps.filter fun e => !e.ended
    let (es, ds, ns) := decideSteps t k p.floor g.inForce (decide (g.inForce < g.chosen)) live
    let gov : Governor := { g with steps := es, chosen := maxOf p.defpt ds, cyclesAt := g.cycles, next := t + 10000 }
    let s := s.setPart part { p with gov }
    let s := ns.foldl (fun s y => s.notify part y.2 y.1.slack y.1.handler y.1.id y.1.job) s
    p.clusters.foldl (fun s c => s.sendBid part c (t / 10000) k) s) else none)

/-- The cells of a partition send their counter tables once at each boundary (R356). -/
def State.reportWork (s : State) (pn : Nat) : State :=
  let p := s.part pn
  if p.open_ && p.gov.next ≤ s.tbc && p.gov.sent != p.gov.next then
    p.cells.foldl State.sendWork (s.setPart pn { p with gov := { p.gov with sent := p.gov.next } })
  else s

/-! ### The Weir (R364, R365) -/

/-- CLUSTER_BID: a bid reaches the Weir; one for a period that is cleared is too late (R364). -/
def execClusterBid (i : Nat) (s : State) : Out :=
  arrived "CLUSTER_BID" i s fun m s =>
    match m.dst, m.body with
    | .weir, .bid cluster ask weight period =>
      let c := s.cluster cluster
      if period < s.weirDone then some s
      else some (s.setCluster cluster { c with bids := tset c.bids period (ask, weight) })
    | _, _ => none

/-- A cluster's case before the Weir. -/
structure Ask where
  cluster : Nat
  rail : Nat
  floor : Nat
  ask : Nat
  weight : Nat
  deriving DecidableEq, Repr

/-- The cases of the clusters of the open partitions for a period. -/
def State.asks (s : State) (period : Nat) : List Ask :=
  s.parts.flatMap fun y =>
    if !y.2.open_ then []
    else y.2.clusters.map fun k =>
      let b := tget (0, 0) (s.cluster k).bids period
      { cluster := k, rail := y.2.rail, floor := s.floorCost y.2, ask := b.1, weight := b.2 }

/-- The order of service: descending weight, and among equal weights the turn of the period (R365). -/
def Ask.before (period : Nat) (a b : Ask) : Bool :=
  b.weight < a.weight ||
  (a.weight == b.weight && (a.cluster + 192 - period % 192) % 192 < (b.cluster + 192 - period % 192) % 192)

/-- A case put into the order of service. -/
def insertAsk (period : Nat) (a : Ask) : List Ask → List Ask
  | [] => [a]
  | b :: rest => if a.before period b then a :: b :: rest else b :: insertAsk period a rest

/-- The most tokens that a rail may carry: 1,100 A at the voltage of its point (R365). -/
def railLimit (point : Nat) : Nat := 4400 * millivolts point / 1000

/-- The grants in the order of service, from the tokens left and the tokens on each rail (R365). -/
def grants (limit : Nat → Nat) : Nat → Tbl Nat → List Ask → List (Nat × Nat)
  | _, _, [] => []
  | left, used, a :: rest =>
    let more := Nat.min (Nat.min (a.ask - a.floor) left) (limit a.rail - tget 0 used a.rail)
    (a.cluster, a.floor + more) :: grants limit (left - more) (tset used a.rail (tget 0 used a.rail + more)) rest

/-- The market of a period. -/
def State.market (s : State) (period : Nat) : List (Nat × Nat) :=
  let l := s.asks period
  let floors := (l.map (·.floor)).sum
  let used := l.foldl (fun u a => tset u a.rail (tget 0 u a.rail + a.floor)) []
  grants (fun r => railLimit (s.rail r)) (s.capTokens - 2920 - floors) used (l.foldr (insertAsk period) [])

/-- Whether every governor has decided at the boundary of a period. -/
def State.decided (s : State) (period : Nat) : Bool := s.parts.all fun y => !y.2.open_ || period * 10000 < y.2.gov.next

/-- WEIR_CLEAR: the Weir clears the market of the next period and sends the grants (R365). -/
def execWeirClear (s : State) : Out :=
  let period := s.weirDone
  event "WEIR_CLEAR" (if s.boot == .ready && period * 10000 + 2000 ≤ s.tbc && s.decided period then some (
    let l := s.market period
    let clusters := tmap (fun _ (c : Cluster) => { c with bids := c.bids.filter fun y => period < y.1 }) s.clusters
    let s := { s with weirDone := period + 1, clusters }
    l.foldl (fun s g => s.post
      { vn := .system, src := .weir, dst := .station g.1, body := .grant g.1 g.2 period }) s) else none)

/-- The highest point that a cluster can afford at the activity that it bid with, its partition's floor at the least. -/
def State.affords (s : State) (p : Part) (cluster : Nat) : Nat :=
  let c := s.cluster cluster
  ((points.filter fun n => s.cost p c.act n ≤ c.grant).getLast?).getD p.floor

/-- The point in force that a period's grants allow (R365). -/
def State.allowed (s : State) (p : Part) : Nat :=
  Nat.max p.floor ((p.clusters.map (s.affords p)).foldl Nat.min p.gov.chosen)

/-- A governor that turns toward a point: nothing to do, a rail to be raised first, or a quiesce that starts or goes on (R367, R368,
R372). -/
def Governor.toward (g : Governor) (point rail now : Nat) : Governor :=
  if point == g.inForce then { g with raising := none, quiesce := none }
  else match g.quiesce with
  | some (_, start) => { g with raising := if point ≤ rail then none else some point, quiesce := some (point, start) }
  | none => if point ≤ rail then { g with raising := none, quiesce := some (point, now) } else { g with raising := some point }

/-- GRANT_ARRIVAL: a grant reaches a cluster; with the last of a domain's the point in force may have to change (R365, R368). -/
def execGrantArrival (i : Nat) (s : State) : Out :=
  arrived "GRANT_ARRIVAL" i s fun m s =>
    match m.body with
    | .grant cluster tokens period =>
      let c := s.cluster cluster
      let s := s.setCluster cluster { c with
        grant := tokens, granted := period + 1, denyEnds := c.denyEnds || (c.denied && c.grant < tokens) }
      match s.clusterPart cluster with
      | none => some s
      | some pn =>
        let p := s.part pn
        if p.clusters.all fun k => (s.cluster k).granted == period + 1 then
          some (s.setPart pn { p with gov := p.gov.toward (s.allowed p) (s.rail p.rail) s.tbc })
        else some s
    | _ => none

/-! ### Meters, rails and the quiesce (R366 to R369) -/

/-- The trace record of POWER_CAP_ENFORCED in every cell of a cluster. It belongs to no context, and R441 asks for TRAPPC and TRAPMSG: those
of context 0 (DESIGN CHOICE, log entry 29). -/
def State.traceEnforced (s : State) (cluster : Nat) : State :=
  (clusterCells cluster).foldl (fun s n =>
    let t := (s.ctx ⟨n, 0⟩).trap
    s.trace ⟨n, 0⟩ 5 t.pc [causePowerCap ++ (1 : BitVec 1) ++ (0 : BitVec 24) ++ t.msg]) s

/-- METER_WINDOW: the clock generator meters a window and may deny issue in the next one, beyond a fraction of the grant over the cost
(R366). A denial ends in the first window after a higher grant (R372). -/
def execMeterWindow (cluster : Nat) (s : State) : Out :=
  let c := s.cluster cluster
  event "METER_WINDOW" (
    match s.clusterPart cluster with
    | none => none
    | some pn =>
      let p := s.part pn
      if p.open_ && c.nextMeter ≤ s.tbc then some (
        let busy := s.clusterBusy cluster
        let a := activity (busy - c.meterBusy) (p.gov.cycles - c.meterCycles)
        let cost := s.cost p a p.gov.inForce
        let denied := decide (c.grant < cost) && !c.denyEnds
        let s := s.setCluster cluster { c with
          denied, denyNum := c.grant, denyDen := cost, denyEnds := false, meterBusy := busy, meterCycles := p.gov.cycles, nextMeter := (s.tbc / 1000 + 1) * 1000 }
        if denied then (s.traceEnforced cluster).reportLimited pn (.governor pn) (s.recAt pn none causePowerCap 2) else s) else none)

/-- The point that a rail must reach before the command in flight can connect a partition to it: a PART_SET_RAIL one that is open, or a
PART_CREATE the one at which the partition that its PCB describes begins (R365, R367, R407). -/
def State.railFor (s : State) (w : CmdWait) (rail : Nat) : Option Nat :=
  match w with
  | .railing pn r => if r == rail then some (s.part pn).gov.inForce else Option.none
  | .creating _ b =>
    if ofLE ((b.drop 1).take 1) == rail then some (Nat.max (ofLE ((b.drop 3).take 1)) (ofLE ((b.drop 2).take 1))) else Option.none
  | _ => Option.none

/-- The point that a rail must stand at: the highest in force, or being raised to, among its domains and those that a command is to
connect to it (R367). -/
def State.railNeeds (s : State) (rail : Nat) : Nat :=
  maxOf (s.rail rail) (((s.parts.filter fun y => y.2.open_ && y.2.rail == rail).map fun y =>
    Nat.max y.2.gov.inForce (Nat.max (y.2.gov.raising.getD 0) ((y.2.gov.quiesce.map (·.1)).getD 0))) ++
    s.cmds.filterMap fun y => s.railFor y.2.wait rail)

/-- The governors of a rail's domains whose rail has reached the point that they wait for. -/
def State.railReached (s : State) (rail : Nat) : State :=
  { s with parts := tmap (fun _ (p : Part) => match p.gov.raising with
      | some n => if p.open_ && p.rail == rail && n ≤ s.rail rail then
          { p with gov := { p.gov with raising := none, quiesce := some (n, (p.gov.quiesce.map (·.2)).getD s.tbc) } } else p
      | none => p) s.parts }

/-- RAIL_STEP: the regulator moves a rail by one point (R367). -/
def execRailStep (rail : Nat) (s : State) : Out :=
  let m := s.rail rail
  let n := s.railNeeds rail
  event "RAIL_STEP" (if s.boot == .ready && n != m && tget 0 s.railNext rail ≤ s.tbc then some (
    let s := { s with rails := tset s.rails rail (if m < n then m + 1 else m - 1), railNext := tset s.railNext rail (s.tbc + 5000) }
    s.railReached rail) else none)

/-- Whether an endpoint stands in a domain's clusters. -/
def Part.within (p : Part) (e : Endp) : Bool := (Endp.cluster? e).any fun k => p.clusters.contains k

/-- Whether a domain has drained: no message from it to an endpoint outside is on its way, nor a response to it from there, no access of it
waits at a Reel port for a peer, and no pop request of it is open at a pool root (R318, R368). -/
def State.drained (s : State) (pn : Nat) : Bool :=
  let p := s.part pn
  (s.net.all fun m => !((p.within m.src && p.outside pn m.dst) || (m.vn == .response && p.outside pn m.src && p.within m.dst))) &&
  (s.reels.all fun r => r.2.waiting.all fun l => l.all fun a => !(a.cell?.any fun n => p.within (.cell n))) &&
  p.cells.all fun n => (s.cell n).popOpen.all fun y => y.2 == 0

/-- QUIESCE_DRAINED: every cluster has drained and the rail stands high enough, and the domain's clocks change together (R367, R368). -/
def execQuiesceDrained (part : Nat) (s : State) : Out :=
  let p := s.part part
  event "QUIESCE_DRAINED" (
    match p.gov.quiesce with
    | some (n, _) =>
      if p.open_ && n ≤ s.rail p.rail && s.drained part && p.cells.all fun k => (s.cell k).promenade.isNone then some
        (s.setPart part { p with gov := { p.gov with inForce := n, quiesce := none } }) else none
    | none => none)

/-- QUIESCE_TIMEOUT: a drain of more than 20,000 ns defers the change (R369). -/
def execQuiesceTimeout (part : Nat) (s : State) : Out :=
  let p := s.part part
  event "QUIESCE_TIMEOUT" (
    match p.gov.quiesce with
    | some (_, start) => if p.open_ && start + 20000 ≤ s.tbc then some (
        let s := s.setPart part { p with gov := { p.gov with quiesce := none, raising := none } }
        s.reportLimited part (.governor part) (s.recAt part none causeQuiesceTimeout 2)) else none
    | none => none)

/-! ### Temperature (R370, R371) -/

/-- The logical cell that a physical cell serves. -/
def State.logicalOf (s : State) (phys : Nat) : Option Nat :=
  (rowCells (4 * (phys / 20) + phys % 20 / 5)).find? fun n => s.phys n == phys

/-- The record of a trip, and its bit at the sideband target (R371, R434, R460). -/
def State.tripRecord (s : State) (cell : Nat) : State :=
  let s := { s with i3cStatus := s.i3cStatus ||| 2 }
  s.reportLimited (s.partNo cell) (.cell cell) (s.recAt (s.partNo cell) (some cell) causeThermalTrip 1)

/-- A cell begins to stop for THERMAL_TRIP; a thermal copy under way is abandoned (R371, R372, R434). A copy of a quarantine goes on, since its row
must leave the failed cell (R428; log entry 44). A cell that is out already has nothing to stop: it trips at once, and stays out until it has
cooled. -/
def State.trip (s : State) (cell : Nat) : State :=
  let c := s.cell cell
  if c.tripped then s
  else if c.out then (s.setCell cell { c with tripped := true }).tripRecord cell
  else
    let shift := (rowCells (rowOf cell)).any fun n => (s.cell n).failing.isSome
    s.setCell cell { c with
      tripped := true, promenade := if shift then c.promenade else none
      retrip := c.resumedAt != 0 && s.tbc + 1 < c.resumedAt + 100000000 }

/-- A sample of a logical cell's temperature acted on, in 1/16 °C (R370, R371). -/
def State.heat (s : State) (cell temp : Nat) : State :=
  let s := s.setCell cell { s.cell cell with temp }
  let c := s.cell cell
  if degC 115 ≤ temp then s.trip cell
  else if temp ≤ degC 100 then s.setCell cell { c with issueNum := 1, issueDen := 1 }
  else if s.spareFree (rowOf cell) && !s.rowMoving cell then
    if c.out || c.halted || c.tripped then s
    else s.setCell cell { c with promenade := some (s.spareCol (rowOf cell)), issueNum := 1, issueDen := 1 }
  else s.setCell cell { c with issueNum := 1, issueDen := if temp ≤ degC 108 then 2 else 4 }

/-- THERMAL_SAMPLE: a sample of one sensor, in 1/16 °C (R370, R371). A vacated cell below 90 °C is the row's spare again. -/
def execThermalSample (phys temp : Nat) (s : State) : Out :=
  event "THERMAL_SAMPLE" (if s.boot == .ready && phys < 3840 then some (
    let s := { s with physTemp := tset s.physTemp phys temp }
    let s := if temp < degC 90 then { s with hotPhys := s.hotPhys.filter (· != phys) } else s
    match s.logicalOf phys with
    | some n => s.heat n temp
    | none => s) else none)

/-- A cell that has stopped for THERMAL_TRIP, and whose refills have landed, is switched out, with one record (R342, R351, R434). -/
def State.tripOut (s : State) (cell : Nat) : State :=
  let c := s.cell cell
  if c.tripped && !c.out && c.still && !s.refillsLand cell then
    (s.setCell cell { c with out := true, preempting := false }).tripRecord cell
  else s

/-- Whether a move of a cell can end now: its contexts can come to boundaries, no higher column of its row has still to move, and where it leads
nowhere, which switches the cell out, its refills have landed (R351, R370, R428, R429). -/
def State.moveReady (s : State) (cell : Nat) : Bool :=
  (whos cell).all s.boundable && ((s.cell cell).promenade != some 5 || !s.refillsLand cell) && (rowCells (rowOf cell)).all fun n => n ≤ cell || (s.cell n).promenade.isNone

/-- The row map with a logical column moved. -/
def State.remap (s : State) (cell col : Nat) : State :=
  { s with rowMaps := tset s.rowMaps (rowOf cell) (setAt (s.rowMap (rowOf cell)) (cell % 4) col) }

/-- The records of a move, with the physical cell at detection, and what becomes of that cell (R370, R417, R428). A cell whose partition has been
destroyed meanwhile has no one to tell. -/
def State.moved (s : State) (cell old : Nat) (quarantine : Bool) (failing : Option W32) : State :=
  let pn := s.partNo cell
  let told := (s.partOf cell).isSome
  match failing with
  | some lost =>
    let s := { s with failedPhys := s.failedPhys ++ [old] }
    if !told then s
    else s.report pn (.cell cell) { s.recAt pn (some cell) causeCellQuarantined 1 with phys := BitVec.ofNat 12 old, addr := BitVec.ofNat 64 old, count := lost }
  | none =>
    if quarantine then s
    else
      let s := { s with hotPhys := s.hotPhys ++ [old] }
      if !told then s
      else s.reportLimited pn (.cell cell) { s.recAt pn (some cell) causeThermalMigrated 1 with phys := BitVec.ofNat 12 old }

/-- A cell's cycle count as it comes to stand on another physical cell: what that one has counted before, with the cycles in which no
logical cell stood on it left free. The count that it leaves behind stays with its old place (R21). -/
def State.recount (s : State) (cell old new : Nat) : State :=
  let c := s.cell cell
  let counted := tget 0 s.spareCyc new + Config.movedCyc s.turn
  let s := { s with spareCyc := tset s.spareCyc old ((c.cyc + c.cycOff) % 2 ^ 64) }
  s.setCell cell { c with cycOff := counted + (2 ^ 64 - c.cyc % 2 ^ 64) }

/-- PROMENADE_COPY_DONE: the state copy ends and the row map names the new physical cell (R370, R428). The TLB is not copied (R411), and
CYC is the new cell's own (R21). A cell with nowhere to go stays switched out (R429). -/
def execPromenadeCopyDone (cell : Nat) (s : State) : Out :=
  event "PROMENADE_COPY_DONE" (
    match (s.cell cell).promenade with
    | none => none
    | some col => if s.moveReady cell then some (
        let old := s.phys cell
        let shift := (rowCells (rowOf cell)).any fun n => (s.cell n).failing.isSome
        let s := (s.cellBoundary cell).settle cell
        let c := s.cell cell
        let failing := c.failing
        let s := s.setCell cell { c with
          promenade := none, failing := none, tlb := [], out := c.out || col == 5, gone := col == 5 }
        let s := s.remap cell col
        (s.recount cell old (s.phys cell)).moved cell old shift failing) else none)

end Sys2Proof.Machine
end

