-- ==== Sys2Proof/Machine/Translation.lean ====
section
/-! DEFINITION. The translation service: fills (R397 to R399), invalidations (R400, R401), the service-call gate (R402) and quotes
(R404). -/

namespace Sys2Proof.Machine

/-! ### Fills -/

/-- The answer to a fill request, and the state after the walk (R397, R398). An ATOMX to a peer page takes the entry, so that the cell
raises ATOMIC_UNSUPPORTED first. An engine's walk is logged as one (R391). -/
def State.fillAnswer (s : State) (k : Nat) (who : Who) (va : W64) (asid : BitVec 12) (kind : AccKind) (engine : Bool) :
    (TlbEntry ⊕ BitVec 7) × State :=
  let pn := s.partNo who.cell
  if !(s.part pn).asidOk asid then (.inr causeAsidInvalid, s)
  else
    let c := s.cluster k
    let (e, cache) := s.walk pn asid va.toNat kind c.walkCache
    let s := s.setCluster k { c with walkCache := cache }
    match e with
    | .notPresent => (.inr causePageNotPresent, s)
    | .outside pa => (.inr causePageNotPresent, s.logWalk pn (s.phys who.cell) (if engine then 4 else kind.num) va pa)
    | .leaf x l =>
      let t := tlbOf asid va.toNat x l
      if t.peer && kind == .atomic then (.inl t, s)
      else match t.denies kind with
      | some cause => (.inr cause, s)
      | none => (.inl t, s)

/-- TLB_FILL_REQUEST: a millwright walks the tables and answers (R397 to R399). -/
def execTlbFillRequest (i : Nat) (s : State) : Out :=
  arrived "TLB_FILL_REQUEST" i s fun m s =>
    match m.dst, m.body with
    | .millwright k, .tlbReq who va asid kind engine stale =>
      let (res, s) := s.fillAnswer k who va asid kind engine.isSome
      some (s.post { vn := .system, src := m.dst, dst := m.src, body := .tlbRep who va asid kind engine stale res })
    | _, _ => none

/-- WALKER_TIME_LIMIT: a supplied walker that runs for more than 10 µs ends its walk with PAGE_NOT_PRESENT (R399). -/
def execWalkerTimeLimit (i : Nat) (s : State) : Out :=
  arrived "WALKER_TIME_LIMIT" i s fun m s =>
    match m.dst, m.body with
    | .millwright _, .tlbReq who va asid kind engine stale =>
      let p := s.partAt who.cell
      if p.asidOk asid && (tget none p.asids asid.toNat).any (·.supplied) then some
        (s.post { vn := .system, src := m.dst, dst := m.src
                  body := .tlbRep who va asid kind engine stale (.inr causePageNotPresent) }) else none
    | _, _ => none

/-- A fill's result acted on by the engine: it goes on, or its transfer fails (R246, R397). -/
def State.engineFilled (s : State) (cell slot : Nat) (va : W64) (bad : Option (BitVec 7)) : State :=
  let x := (s.cell cell).xfer slot
  if !x.busy || x.awaited == 0 then s
  else match bad with
  | none => s.setXfer cell slot { x with awaited := 0 }
  | some cause => s.setXfer cell slot (x.fail causeTwTranslation cause va)

/-- A fill's result acted on by the context that waits for it: it issues again, or traps (R167, R397). -/
def State.ctxFilled (s : State) (w : Who) (va : W64) (bad : Option (BitVec 7)) : State :=
  if (s.ctx w).wait != some (.tlb va) then s
  else match bad with
  | none => s.setCtx w { s.ctx w with wait := none }
  | some cause => s.takeTrap w { cause, addr := some va }

/-- TLB_FILL_REPLY: the entry enters the TLB and the access goes on; a reply that an invalidation has crossed is dropped and the
request sent again (R397, R400). -/
def execTlbFillReply (i : Nat) (s : State) : Out :=
  arrived "TLB_FILL_REPLY" i s fun m s =>
    match m.dst, m.body with
    | .cell n, .tlbRep who va _ kind engine stale res =>
      if stale then
        some (s.post { vn := .system, src := m.dst, dst := m.src, body := .tlbReq who va (s.cell n).casid kind engine false })
      else
        let (s, bad) : State × Option (BitVec 7) := match res with
          | .inl e => (s.setCell n ((s.cell n).tlbFill e), none)
          | .inr cause => (s, some cause)
        match engine with
        | some slot => some (s.engineFilled n slot va bad)
        | none => some (s.ctxFilled who va bad)
    | _, _ => none

/-! ### Invalidations (R400) -/

/-- Whether a span of n bytes at a virtual address meets an invalidated page; no page stands for every one. -/
def meets (page : Option (W64 × Nat)) (base n : Nat) : Bool :=
  match page with
  | none => true
  | some (va, size) =>
    let lo := va.toNat - va.toNat % pageBytes size
    lo < base + n && base < lo + pageBytes size

/-- The entries of a TLB that an invalidation leaves. -/
def Cell.invalidate (c : Cell) (asid : BitVec 12) (page : Option (W64 × Nat)) : Cell :=
  { c with tlb := c.tlb.filter fun e => !(e.asid == asid && meets page e.vbase (pageBytes e.size)) }

/-- The lowest VA bit that the index of a level covers (R398). -/
def levelLow (l : Nat) : Nat := if l = 0 then 43 else if l = 1 then 30 else if l = 2 then 21 else 16

/-- The entries of a walk cache that an invalidation leaves. -/
def Cluster.invalidate (c : Cluster) (asid : BitVec 12) (page : Option (W64 × Nat)) : Cluster :=
  { c with walkCache := c.walkCache.filter fun e =>
      !(e.asid == asid && meets page (e.index * 2 ^ levelLow e.level) (2 ^ levelLow e.level)) }

/-- The requests and replies of a cell that are in flight, those of an invalidated translation marked. -/
def markStale (cell : Nat) (asid : BitVec 12) (page : Option (W64 × Nat)) (m : Msg) : Msg :=
  match m.body with
  | .tlbReq who va a kind engine stale =>
    { m with body := .tlbReq who va a kind engine (stale || (who.cell == cell && a == asid && meets page va.toNat 1)) }
  | .tlbRep who va a kind engine stale res =>
    { m with body := .tlbRep who va a kind engine (stale || (who.cell == cell && a == asid && meets page va.toNat 1)) res }
  | _ => m

/-- Whether the millwright of a cell's cluster has yet to take an invalidation. A cell takes its own after that, so that no walk that used
the old entries answers it later (DESIGN CHOICE, log entry 64). -/
def State.walksOld (s : State) (n id : Nat) : Bool :=
  s.net.any fun m => m.dst == .millwright (n / 16) && match m.body with
    | .inval k _ _ => k == id
    | _ => false

/-- INVALIDATION: a party removes what matches and acknowledges, or the root core takes an acknowledgement; a spare cell holds no entry
(R400). -/
def execInvalidation (i : Nat) (s : State) : Out :=
  arrived "INVALIDATION" i s fun m s =>
    match m.dst, m.body with
    | .cell n, .inval id asid page =>
      if s.walksOld n id then none
      else
        let s := s.setCell n ((s.cell n).invalidate asid page)
        let s := { s with net := s.net.map (markStale n asid page) }
        some (s.post { vn := .system, src := m.dst, dst := .root, body := .invalAck id m.dst })
    | .spare _, .inval id _ _ => some (s.post { vn := .system, src := m.dst, dst := .root, body := .invalAck id m.dst })
    | .millwright k, .inval id asid page =>
      let s := s.setCluster k ((s.cluster k).invalidate asid page)
      some (s.post { vn := .system, src := m.dst, dst := .root, body := .invalAck id m.dst })
    | .root, .invalAck id party =>
      some { s with invals := s.invals.map fun (v : Inval) =>
        if v.id == id then { v with waiting := v.waiting.filter (· != party) } else v }
    | _, _ => none

/-- Every party to an invalidation: the cells, the spare cells of the rows and the millwrights of the device (R400). -/
def invalParties : List Endp :=
  (List.range 3072).map Endp.cell ++ (List.range 768).map Endp.spare ++ (List.range 192).map Endp.millwright

/-- An invalidation sent by Thieno root. -/
def State.invalidate (s : State) (asid : BitVec 12) (page : Option (W64 × Nat)) (after : After) : State :=
  let (id, s) := s.fresh
  let s := { s with invals := s.invals ++ [{ id, asid, page, waiting := invalParties, after }] }
  invalParties.foldl (fun s e => s.post { vn := .system, src := .root, dst := e, body := .inval id asid page }) s

/-- The reply to an SVC: a status in s1 and a value in s2 (R222). -/
def State.svcDone (s : State) (w : Who) (s1 s2 : W64) : State :=
  match (s.ctx w).wait with
  | some (.svc n) => (s.setCtx w ((((s.ctx w).setS 1 s1).setS 2 s2).past n)).commit w 3
  | _ => s

/-! ### Answers to host commands (R405) -/

/-- A register of a function's BAR0. -/
def State.bar (s : State) (fn off : Nat) : W64 := tget 0 (tget [] s.bars fn) off
/-- A register of a function's BAR0 set. -/
def State.setBar (s : State) (fn off : Nat) (v : W64) : State :=
  { s with bars := tset s.bars fn (tset (tget [] s.bars fn) off v) }

/-- Response doublewords written from RSP0 on. -/
def setRsp (fn : Nat) : Nat → List W64 → State → State
  | _, [], s => s
  | k, v :: vs, s => setRsp fn (k + 1) vs (s.setBar fn (0x40 + 8 * k) v)

/-- A response: TAG and STATUS in RSP0, the results, and zeros (R405). -/
def State.respond (s : State) (fn : Nat) (tag : W32) (status : Nat) (results : List W64) : State :=
  setRsp fn 0 ((tag ++ BitVec.ofNat 32 status) :: (results ++ List.replicate 7 0).take 7) s

/-- A command answered, with the interrupt of vector 0 (R448). -/
def State.answer (s : State) (fn : Nat) (tag : W32) (status : Nat) (results : List W64) : State :=
  let s := s.respond fn tag status results
  { s with irqs := s.irqs ++ [(fn, 0)], cmds := tset s.cmds fn {} }

/-- The command in flight of a function. -/
def State.inFlight (s : State) (fn : Nat) : InFlight := tget {} s.cmds fn

/-- One page of a MEM_MAP has been invalidated; with the last the command returns. -/
def State.pageMapped (s : State) (fn : Nat) : State :=
  let f := s.inFlight fn
  match f.wait with
  | .mapping left pages =>
    if left ≤ 1 then s.answer fn f.tag 0 [BitVec.ofNat 64 pages]
    else { s with cmds := tset s.cmds fn { f with wait := .mapping (left - 1) pages } }
  | _ => s

/-- The quarantine of an ASID ends, unless an invalidation that began it too is still under way (R401). -/
def State.asidFree (s : State) (asid : Nat) : State :=
  if s.invals.any fun v => v.after == .asidFree asid then s
  else { s with parts := tmap (fun _ (p : Part) =>
      if (tget none p.asids asid).any (·.quarantine) then { p with asids := tset p.asids asid none } else p) s.parts }

/-! ### Accesses under an invalidated translation (R400) -/

/-- The access kind of what a home does. -/
def AccOp.kind : AccOp → AccKind
  | .read => .read
  | .write => .write
  | .atomic _ _ => .atomic
  | .engineRead _ _ => .read
  | .engineWrite _ _ => .write

/-- Whether an access was translated under an invalidated ASID and page. -/
def Access.reached (a : Access) (asid : BitVec 12) (page : Option (W64 × Nat)) : Bool :=
  !a.ea.getLsbD 63 && a.asid == asid && meets page a.ea.toNat 1

/-- An access that has not been performed translated anew as its invalidation completes: its home and key, or the cause that it then has
for its error (R400). Only a store that has not left its cell comes to such an error; which cause it has the reference does not say. DESIGN
CHOICE, log entry 64: that of the check which its new translation fails. An access that is on its way is performed before, and has no such
error (State.stranded). -/
def State.retranslated (s : State) (asid : BitVec 12) (dst : Endp) (a : Access) : Endp × Access × State :=
  let pn := a.part
  let va := a.ea.toNat
  let kind := a.op.kind
  match (s.walk pn asid va kind []).1 with
  | .notPresent => (dst, { a with gone := some causePageNotPresent }, s)
  | .outside pa =>
    let k := if a.asker.isSome then 5 else match a.op with
      | .engineRead _ _ => 4
      | .engineWrite _ _ => 4
      | _ => kind.num
    (dst, { a with gone := some causePageNotPresent }, s.logWalk pn ((a.cell?.map s.phys).getD 0xFFF) k a.ea pa)
  | .leaf e l =>
    let t := tlbOf asid va e l
    if t.peer && kind == .atomic then (dst, { a with gone := some causeAtomicUnsupported }, s)
    else match t.denies kind with
    | some cause => (dst, { a with gone := some cause }, s)
    | none =>
      let pa := t.pbase + (va - t.vbase)
      if t.peer then (.peer t.peerdev.toNat, { a with key := peerKey t.peerdev.toNat pa, gone := none }, s)
      else (.home (pa / 2 ^ 32), { a with key := hbmKey pa, gone := none }, s)

/-- An access in the list of what its context waits for, with its new home. -/
def Ctx.rehomed (x : Ctx) (id : Nat) (old new : Endp) : Ctx :=
  match findIdx (fun o => o.id == id && o.home == old) x.out with
  | some (k, o) => { x with out := setAt x.out k { o with home := new } }
  | none => x

/-- The same for whichever context of the cell made the access. -/
def State.rehomedAt (s : State) (cell id : Nat) (old new : Endp) : State :=
  if old == new then s
  else
    let c := s.cell cell
    s.setCell cell { c with ctxs := tmap (fun _ (x : Ctx) => x.rehomed id old new) c.ctxs
                            displaced := c.displaced.map fun x => x.rehomed id old new }

/-- The accesses in the network that an invalidation reaches, translated anew. -/
def rehomeNet (asid : BitVec 12) (page : Option (W64 × Nat)) : List Msg → State → List Msg × State
  | [], s => ([], s)
  | m :: l, s =>
    let (m, s) : Msg × State := match m.body with
      | .access a =>
        if a.reached asid page then
          let (d, a', s) := s.retranslated asid m.dst a
          ({ m with dst := d, body := .access a' }, s.rehomedAt a.who.cell a.id m.dst d)
        else (m, s)
      | _ => (m, s)
    let (l, s) := rehomeNet asid page l s
    (m :: l, s)

/-- The stores that a context has issued and that have not left, translated anew. -/
def rehomeSends (asid : BitVec 12) (page : Option (W64 × Nat)) : List Send → State → List Send × State
  | [], s => ([], s)
  | sd :: l, s =>
    let (sd, s) : Send × State := match sd.body with
      | .store home a =>
        if a.reached asid page then
          let (d, a', s) := s.retranslated asid home a
          ({ sd with body := .store d a' }, s)
        else (sd, s)
      | _ => (sd, s)
    let (l, s) := rehomeSends asid page l s
    (sd :: l, s)

/-- One context's stores translated anew. -/
def State.rehomeCtx (s : State) (asid : BitVec 12) (page : Option (W64 × Nat)) (x : Ctx) : Ctx × State :=
  let (held, s) := rehomeSends asid page x.held s
  let (released, s) := rehomeSends asid page x.released s
  ({ x with held, released }, s)

/-- The stores of a cell translated anew. -/
def State.rehomeCell (s : State) (asid : BitVec 12) (page : Option (W64 × Nat)) (cell : Nat) : State :=
  let s := ((s.cell cell).ctxs.map (·.1)).foldl (fun s k =>
    let (x, s) := s.rehomeCtx asid page (s.ctx ⟨cell, k⟩)
    s.setCtx ⟨cell, k⟩ x) s
  match (s.cell cell).displaced with
  | none => s
  | some x =>
    let (x, s) := s.rehomeCtx asid page x
    s.setCell cell { s.cell cell with displaced := some x }

/-- Every access that has not been performed uses the new translation from here on (R400). -/
def State.rehome (s : State) (asid : BitVec 12) (page : Option (W64 × Nat)) : State :=
  let (net, s) := rehomeNet asid page s.net s
  (s.cells.map (·.1)).foldl (fun s n => s.rehomeCell asid page n) { s with net }

/-- Whether an access on its way has no translation any more, or one that its kind of access may not use. -/
def State.stranded (s : State) (asid : BitVec 12) (page : Option (W64 × Nat)) (m : Msg) : Bool :=
  match m.body with
  | .access a => a.reached asid page && (s.retranslated asid m.dst a).2.1.gone.isSome
  | _ => false

/-- Whether an invalidation waits for an access: one to a peer that it reaches and that is still to be answered, or one on its way to a home that
has no new translation. Either was translated before, and is performed before the invalidation completes (R400), so that an error of R180 has
one of the causes of that rule. -/
def State.awaitsAccess (s : State) (asid : BitVec 12) (page : Option (W64 × Nat)) : Bool :=
  (s.reels.any fun r => r.2.waiting.any fun l => l.any fun a => a.reached asid page) || s.net.any (s.stranded asid page)

/-- INVALIDATION_COMPLETE: the last acknowledgement has arrived; accesses that are still to be performed take the new translation, and what
waited for the invalidation goes on (R400, R401). -/
def execInvalidationComplete (id : Nat) (s : State) : Out :=
  event "INVALIDATION_COMPLETE" (
    match s.invals.find? fun v => v.id == id with
    | none => none
    | some v => if v.waiting.isEmpty && !s.awaitsAccess v.asid v.page then some (
        let s := ({ s with invals := s.invals.filter fun v => v.id != id } : State).rehome v.asid v.page
        match v.after with
        | .nothing => s
        | .svcReply w s1 s2 => s.svcDone w s1 s2
        | .memMapDone fn => s.pageMapped fn
        | .asidFree a => s.asidFree a) else none)

/-! ### The service-call gate (R402) -/

/-- A refused request: the SVC raises SERVICE_DENIED with the service number (R402). -/
def State.svcDenied (s : State) (w : Who) (n : W32) : State :=
  match (s.ctx w).wait with
  | some (.svc _) => s.takeTrap w { cause := causeServiceDenied, addr := some (n.setWidth 64) }
  | _ => s

/-- Whether the hook table redirects the routine of a service: which hook number stands for it is free (R453; log entry 57). -/
def State.hooked (s : State) (n : Nat) : Bool :=
  (List.range (ofLE ((s.hookTable.drop 4).take 4))).any fun k => ofLE ((s.hookTable.drop (64 + 16 * k)).take 2) == Config.hookOf n % 65536

/-- What a redirected routine answers: the reference gives its code no instruction set, and so its answer is free (R453; log entry 57). -/
def State.hookAnswer (s : State) (w : Who) (n : Nat) : State :=
  match Config.hookAnswer s.turn with
  | none => s.svcDenied w (BitVec.ofNat 32 n)
  | some (s1, s2) => s.svcDone w s1 s2

/-- The routine of a service, or the one that the hook table puts in its place (R402, R453). -/
def State.service (s : State) (w : Who) (n : Nat) (k : State → State) : State := if s.hooked n then s.hookAnswer w n else k s

/-- A request for one service taken by the gate. -/
def svcRequest (name : String) (n i : Nat) (s : State) (k : Who → List W64 → State → State) : Out :=
  arrived name i s fun m s =>
    match m.body with
    | .svc who code args => if code.toNat == n then some (s.service who n (k who args)) else none
    | _ => none

/-- An argument of a request, s1 first. -/
def arg (l : List W64) (k : Nat) : W64 := l.getD (k - 1) 0

/-- The ASID that an argument names, when the partition may name it. -/
def State.svcAsid (s : State) (w : Who) (v : W64) : Option (BitVec 12) :=
  let p := s.partAt w.cell
  let a := v.toNat
  if a < p.asidBase || p.asidBase + p.asidCount ≤ a || !p.asidOk (BitVec.ofNat 12 a) then none else some (BitVec.ofNat 12 a)

/-- Whether an ASID is the ROM walker's. -/
def Part.romAsid (p : Part) (asid : BitVec 12) : Bool := (tget none p.asids asid.toNat).any fun a => !a.supplied

/-- SVC_VERSION: Thieno 3.0 (R402). The gate refuses a number that names no service here too. -/
def execSvcVersion (i : Nat) (s : State) : Out :=
  arrived "SVC_VERSION" i s fun m s =>
    match m.body with
    | .svc who code _ =>
      if code == 0 then some (s.service who 0 fun s => s.svcDone who 0 0x30000) else if 5 < code.toNat then some (s.svcDenied who code) else none
    | _ => none

/-- SVC_INVAL_PAGE: one page invalidated (R402). -/
def execSvcInvalPage (i : Nat) (s : State) : Out :=
  svcRequest "SVC_INVAL_PAGE" 1 i s fun w args s =>
    match s.svcAsid w (arg args 1) with
    | some asid =>
      if 2 < (arg args 3).toNat then s.svcDenied w 1
      else s.invalidate asid (some (arg args 2, (arg args 3).toNat)) (.svcReply w 0 0)
    | none => s.svcDenied w 1

/-- SVC_INVAL_ASID: a whole ASID invalidated (R402). -/
def execSvcInvalAsid (i : Nat) (s : State) : Out :=
  svcRequest "SVC_INVAL_ASID" 2 i s fun w args s =>
    match s.svcAsid w (arg args 1) with
    | some asid => s.invalidate asid none (.svcReply w 0 0)
    | none => s.svcDenied w 2

/-- The place in memory of the leaf of a page under an ASID. -/
def State.leafOf (s : State) (p : Part) (asid : BitVec 12) (va size : Nat) : Option Nat :=
  (tget none p.asids asid.toNat).bind fun a => leafSlot s.soundMem p va size walkLevels a.root

/-- A table entry. -/
def State.entryAt (s : State) (pa : Nat) : W64 := BitVec.ofNat 64 (s.unitWord pa)
/-- A table entry written. -/
def State.setEntry (s : State) (pa : Nat) (e : W64) : State := s.hbmWrite pa 8 e.toNat

/-- Whether a leaf names memory that a partition may map: a peer page, or a page in its slabs. -/
def Part.mayMap (p : Part) (e : W64) : Bool := e.getLsbD 7 || p.ownsPa (entryAddr e)

/-- SVC_MAP: a leaf written and its page invalidated (R402). -/
def execSvcMap (i : Nat) (s : State) : Out :=
  svcRequest "SVC_MAP" 3 i s fun w args s =>
    let p := s.partAt w.cell
    let e := arg args 3
    let size := (arg args 4).toNat
    match s.svcAsid w (arg args 1) with
    | some asid =>
      if !p.romAsid asid || !p.mayMap e || 2 < size then s.svcDenied w 3
      else match s.leafOf p asid (arg args 2).toNat size with
      | none => s.svcDone w 1 (Config.noTraceField s.turn)
      | some pa =>
        let old := s.entryAt pa
        (s.setEntry pa e).invalidate asid (some (arg args 2, size)) (.svcReply w 0 old)
    | none => s.svcDenied w 3

/-- SVC_UNMAP: a leaf removed and its page invalidated (R402). -/
def execSvcUnmap (i : Nat) (s : State) : Out :=
  svcRequest "SVC_UNMAP" 4 i s fun w args s =>
    let p := s.partAt w.cell
    let size := (arg args 3).toNat
    match s.svcAsid w (arg args 1) with
    | some asid =>
      if !p.romAsid asid || 2 < size then s.svcDenied w 4
      else match s.leafOf p asid (arg args 2).toNat size with
      | none => s.svcDone w 1 (Config.noTraceField s.turn)
      | some pa =>
        let old := s.entryAt pa
        if !old.getLsbD 0 || !old.getLsbD 4 then s.svcDone w 1 (Config.noTraceField s.turn)
        else (s.setEntry pa 0).invalidate asid (some (arg args 2, size)) (.svcReply w 0 old)
    | none => s.svcDenied w 4

/-! ### Quotes (R404) -/

/-- The PCB of a partition as applied, with FAULTSRV as currently set (R404, R407). -/
def Part.config (p : Part) : List Byte := fit 0x50 p.pcb ++ leBytes 8 p.faultSrv.toNat ++ (fit 256 p.pcb).drop 0x58

/-- A graph put among others in the order of their loads. -/
def insertLoad (g : Graph) : List Graph → List Graph
  | [] => [g]
  | h :: l => if g.load < h.load then g :: h :: l else h :: insertLoad g l

/-- The digests of the code objects and graph objects now loaded, in load order (R403, R404). -/
def Part.codeDigests (p : Part) : List (List Byte) :=
  ((p.graphs.filterMap (·.2)).foldr insertLoad []).flatMap (·.digests)

/-- The bytes of a quote that its signature covers (R404). -/
def State.quoteBody (s : State) (pn : Nat) (nonce : List Byte) : List Byte :=
  let p := s.part pn
  leBytes 4 0x51544741 ++ leBytes 2 1 ++ [BitVec.ofNat 8 pn, 0] ++ leBytes 4 0x30720021 ++ leBytes 4 0 ++ leBytes 8 s.tbc ++
  fit 32 nonce ++ fit 64 s.fwDigest ++ shake256 p.config ++ shake256 p.codeDigests.flatten

/-- A quote: 384 bytes (R404). -/
def State.quote (s : State) (pn : Nat) (nonce : List Byte) : List Byte :=
  let b := s.quoteBody pn nonce
  b ++ deviceSign b ++ List.replicate 22 0

/-- Whether n bytes at a physical address lie in a partition's slabs. -/
def Part.ownsRange (p : Part) (pa n : Nat) : Bool :=
  (List.range ((pa + n - 1) / 2 ^ 32 + 1 - pa / 2 ^ 32)).all fun k => p.ownsPa (pa / 2 ^ 32 * 2 ^ 32 + k * 2 ^ 32)

/-- SVC_QUOTE: a signed quote written into the partition's memory (R402, R404). A nonce in a poisoned line cannot be read (R431), and the
request is denied (log entry 68). -/
def execSvcQuote (i : Nat) (s : State) : Out :=
  svcRequest "SVC_QUOTE" 5 i s fun w args s =>
    let pn := s.partNo w.cell
    let p := s.part pn
    let buf := (arg args 1).toNat
    let non := (arg args 2).toNat
    if !p.ownsRange buf 384 || !p.ownsRange non 32 || s.poisonedAt non || s.poisonedAt (non + 31) then s.svcDenied w 5
    else
      (s.hbmBytes buf (s.quote pn (readBytes s.mem (hbmKey non) 32))).svcDone w 0 384

end Sys2Proof.Machine
end

