-- ==== Sys2Proof/Machine/Faults.lean ====
section
/-! DEFINITION. What becomes of faults: records at Thieno service and its verdicts (R416 to R418), verdicts at the cell (R420 to R422),
the quarantine of a cell (R428 to R430), and stops of partitions and of the device (R432, R433). -/

namespace Sys2Proof.Machine

/-! ### Records at the DMC (R416, R418) -/

/-- The verdicts of R416's last column. -/
inductive Vdict where
  | kill | resume | resume3 | xwait | none
  deriving DecidableEq, Repr

/-- The verdict of Thieno service for a cause and its SUBCAUSE; GANG_ABORT takes another member's. -/
def verdictOf (cause sub : BitVec 7) : Vdict :=
  if cause == causeQueuePoison then
    (if sub == causeHomeUnreachable || sub == causeRemoteError then .resume3 else .kill)
  else if cause == causeHomeUnreachable || cause == causeRemoteError || cause == causeFenceTimeout then .resume3
  else if cause == causeTwPromise then .xwait
  else if cause == causeIstoreUncorrectable || cause == causeArraySelfcheck then .resume
  else if cause == causeRegfileUncorrectable then .none
  else .kill

/-- The payload of a verdict (R420). -/
def verdictPayload (action : Nat) (xwait : Bool) (ctx : BitVec 3) (msgid : W32) : W64 :=
  BitVec.ofNat 4 action ++ BitVec.ofBool xwait ++ (0 : BitVec 24) ++ ctx ++ msgid

/-- A verdict sent by Thieno service to a trapping cell (R420). -/
def State.sendVerdict (s : State) (pn rel : Nat) (payload : W64) : State :=
  let p := s.part pn
  let m : Smsg := { payload, origin := 0xFFF, part := BitVec.ofNat 6 pn, cls := 2, dest := (placeOf rel 0).extractLsb' 0 28 }
  s.post { vn := .system, src := .dmc p.die0, dst := .cell (p.dev rel), body := .parcel (.msg m) }

/-- The number of RESUMEs that a message id and context of a cell have had (R416). -/
def Part.resumes (p : Part) (r : Frec) : Nat :=
  ((p.retries.find? fun y => y.1 == r.cell.toNat * 8 + r.ctx.toNat && y.2.1 == r.msgid).map (·.2.2)).getD 0
/-- The same with one more. -/
def Part.countResume (p : Part) (r : Frec) : Part :=
  let k := r.cell.toNat * 8 + r.ctx.toNat
  { p with retries := (p.retries.filter fun y => !(y.1 == k && y.2.1 == r.msgid)) ++ [(k, r.msgid, p.resumes r + 1)] }

/-- The action of Thieno service on a record, and whether it waits for the transfer: 1 RESUME, 3 KILL. -/
def State.decideRecord (s : State) (pn : Nat) (r : Frec) : (Nat × Bool) × State :=
  let p := s.part pn
  match verdictOf r.cause r.subcause with
  | .kill => ((3, false), s)
  | .resume => ((1, false), s)
  | .xwait => ((1, true), s)
  | .resume3 => if p.resumes r < 3 then ((1, false), s.setPart pn (p.countResume r)) else ((3, false), s)
  | .none => ((0, false), s)

/-- A verdict given: remembered for members that wait for it, and sent. -/
def State.giveVerdict (s : State) (pn : Nat) (r : Frec) (action : Nat) (xwait : Bool) : State :=
  if action == 0 then s
  else
    let p := s.part pn
    let s := s.setPart pn { p with verdicts := p.verdicts ++ [(r.cell.toNat, r.tbc, action)] }
    s.sendVerdict pn r.cell.toNat (verdictPayload action xwait r.ctx r.msgid)

/-- The member that a GANG_ABORT record names, by its partition-relative number: a logical column of the quadrille for an MMA, a logical
cell for a ONCE (R416). The model tells the two apart by the ONCE prefix at PC. -/
def State.abortOf (s : State) (pn : Nat) (r : Frec) : Nat :=
  let cell := (s.part pn).dev r.cell.toNat
  match decode (s.fetchWords ⟨cell, r.ctx.toNat⟩ r.pc.toNat) with
  | .ok (.once _) _ => r.addr.toNat % 4096
  | _ => r.cell.toNat / 4 * 4 + r.addr.toNat % 4

/-- Members whose GANG_ABORT records wait for the verdict of another member: those whose verdict is known are answered. -/
def answerGang (pn : Nat) : List Frec → State → State
  | [], s => s
  | r :: rest, s =>
    let s := answerGang pn rest s
    let p := s.part pn
    match p.verdicts.find? fun y => y.1 == s.abortOf pn r && y.2.1 == r.tbc with
    | some (_, _, a) =>
      let s := s.setPart pn { p with gangWait := p.gangWait.filter (· != r) }
      s.sendVerdict pn r.cell.toNat (verdictPayload a false r.ctx r.msgid)
    | none => s

/-- Thieno service as the fault server: it answers a record that asks for a verdict (R416). -/
def State.serveRecord (s : State) (pn : Nat) (r : Frec) : State :=
  if !r.vreq then s
  else
    let s := if r.cause == causeGangAbort then
        let p := s.part pn
        s.setPart pn { p with gangWait := p.gangWait ++ [r] }
      else
        let (a, s) := s.decideRecord pn r
        s.giveVerdict pn r a.1 a.2
    answerGang pn (s.part pn).gangWait s

/-- A record written into the host's ring that the fault server of its sending names, with its number and the interrupt of vector 1 (R411,
R418, R448). -/
def State.hostRecord (s : State) (pn : Nat) (r : Frec) (server : W64) : State :=
  let p := s.part pn
  let seq := p.seq + 1
  let base := (server.extractLsb' 0 62).toNat
  let words := ({ r with seq } : Frec).words
  let s := { s with mem := writeBytes s.mem (hostKey (base + 64 * (seq.toNat % 64))) (words.flatMap fun (w : W64) => leBytes 8 w.toNat) }
  { s.setPart pn { p with seq } with irqs := s.irqs ++ [(pn + 1, 1)] }

/-- FAULT_RECORD: a record reaches the DMC of the partition's die 0, which serves it or writes it for the host, as the fault server of its
sending says (R411, R416, R418). -/
def execFaultRecord (i : Nat) (s : State) : Out :=
  arrived "FAULT_RECORD" i s fun m s =>
    match m.dst, m.body with
    | .dmc _, .parcel (.record r server) =>
      let pn := r.part.toNat
      if !(s.part pn).open_ then some s
      else if serverKind server == 1 then some (s.hostRecord pn r server) else some (s.serveRecord pn r)
    | _, _ => none

/-! ### Verdicts at the cell (R420 to R422) -/

/-- The pending trap that a verdict is for, when the verdict is not void. -/
def Cell.trapOf (c : Cell) (v : W64) : Option PendTrap :=
  let action := (v.extractLsb' 60 4).toNat
  if action == 0 || 3 < action || v.extractLsb' 35 24 != 0 then none
  else c.pending.find? fun t => t.ctx == v.extractLsb' 32 3 && t.msgid == v.extractLsb' 0 32 && !t.xwait

/-- Whether a transfer id is complete: every chunk set, or the id retired (R240, R421). -/
def Cell.xferOver (c : Cell) (id : BitVec 16) : Bool :=
  match c.live? id with
  | none => true
  | some x => x.chunks ≤ x.firstOpen

/-- A job's node counted as faulted: its job runs and has been killed or rejected (R305, R422). -/
def Part.markKilled (p : Part) (job : W32) : Part :=
  if p.killed.contains job || !p.running.any (fun y => y.1 == job) then p else { p with killed := p.killed ++ [job] }

/-- Strands of jobs told to Thieno service for their drop; the nodes of the jobs are faulted from now on (R422). -/
def State.tellDrop (s : State) (cell : Nat) (jobs : List W32) : State :=
  let pn := s.partNo cell
  jobs.eraseDups.foldl (fun s j => (s.setPart pn ((s.part pn).markKilled j)).post
    { vn := .system, src := .cell cell, dst := .dmc (s.partAt cell).die0, body := .drop j }) s

/-- The effect of a verdict on a pending trap (R421). -/
def State.applyVerdict (s : State) (cell : Nat) (t : PendTrap) (v : W64) : State :=
  let action := (v.extractLsb' 60 4).toNat
  if action == 1 then
    if v.getLsbD 59 && !(s.cell cell).xferOver t.frec.xid then
      let c := s.cell cell
      s.setCell cell { c with pending := c.pending.map fun y => if y == t then { y with xwait := true } else y }
    else s.verdictResume cell t
  else
    let (s, jobs) := s.verdictDiscard cell t
    if action == 3 then s.tellDrop cell jobs else s

/-- A sender from which a cell accepts a verdict: Thieno service, or a privileged activation of the partition, which alone can send
class 2 (R393, R420). -/
def State.verdictFrom (s : State) (cell : Nat) (src : Endp) : Bool :=
  match src with
  | .dmc _ => true
  | .cell k => s.partOf k == s.partOf cell
  | .peer a => serverKind (s.partAt cell).faultSrv == 3 && a == ((s.partAt cell).faultSrv.extractLsb' 0 16).toNat
  | _ => false

/-- VERDICT: a cell acts on a class-2 message, which then enters its handler's bin where there is one (R420). -/
def execVerdict (i : Nat) (s : State) : Out :=
  arrived "VERDICT" i s fun m s =>
    match m.dst, m.body with
    | .cell n, .parcel (.msg p) =>
      if p.cls == 2 && !(s.cell n).out && (s.cell n).canAccept (.msg p) then some (
        let s := if s.verdictFrom n m.src then match (s.cell n).trapOf p.payload with
            | some t => s.applyVerdict n t p.payload
            | none => s
          else s
        let c := (s.cell n).popped m.src (.msg p)
        s.setCell n (if c.hasHandler 2 then c.accept (.msg p) else (c.takeId (.msg p)).1)) else none
    | _, _ => none

/-- The RESUMEs of a cell whose transfers are complete (R421). -/
def State.xwaits (s : State) (cell : Nat) : State :=
  let c := s.cell cell
  if c.out then s
  else (c.pending.filter fun t => t.xwait && c.xferOver t.frec.xid).foldl (fun s t => s.verdictResume cell t) s

/-- VERDICT_DOORBELL: the host's verdict for a cell of its partition, when the host is the fault server (R418, R448). -/
def execVerdictDoorbell (part : Nat) (payload : W64) (s : State) : Out :=
  let p := s.part part
  let rel := ((s.bar (part + 1) 0x200).extractLsb' 0 12).toNat
  event "VERDICT_DOORBELL" (if p.open_ then some (
    let s := s.setBar (part + 1) 0x208 payload
    if serverKind p.faultSrv == 1 && rel < p.cellCount then s.sendVerdict part rel payload else s) else none)

/-! ### Quarantine (R428 to R430) -/

/-- The cause of a cell's error. -/
def CellError_cause : CellError → BitVec 7
  | .scratch => causeScratchUncorrectable
  | .regfile => causeRegfileUncorrectable
  | .istore => causeIstoreUncorrectable
  | .accumulator => causeAccUncorrectable
  | .array => causeArraySelfcheck

/-- The traps of a parked context that have no verdict yet forgotten. -/
def Cell.forget (c : Cell) (k : Nat) : Cell :=
  { c with pending := c.pending.filter fun t => !(t.bin.isNone && t.ctx.toNat == k) }

/-- The context that met an error discarded: its segment is undone and its lanes are subtracted, it cannot be restored, and its record asks
for no verdict (R413, R421, R428). The other members of an MMA that it was in take GANG_ABORT (R234). -/
def State.discardCtx (s : State) (w : Who) (cause : BitVec 7) : State :=
  let atWork := (s.ctx w).wait == some .mma
  let s := (s.rollback w).setCell w.cell (((s.rollback w).cell w.cell).forget w.ctx)
  let x := s.ctx w
  let r : Frec := { s.trapRecord w { cause } x.r.pc x.first with vreq := false, addr := Config.noTrapAddr s.turn }
  let jobs := (x.lives.filter fun L => (x.hdr L).counted).map fun L => (x.hdr L).job
  let s := if x.first then s.setCell w.cell ((s.cell w.cell).firstDone (plEntry x.entry)) else s
  let s := (s.subtract w.cell jobs).endActivation w
  let s := s.report (s.partNo w.cell) (.cell w.cell) r
  if atWork then s.abortMma w.cell else s

/-- The context that met an error traps, or is discarded; one that is parked keeps its record, and the new cause is reported without asking
for a verdict (R428, R442). -/
def State.errorCtx (s : State) (w : Who) (err : CellError) : State :=
  let x := s.ctx w
  let cause := CellError_cause err
  if (x.status != .running && x.status != .parked) || x.wait == some .leaving then s
  else if err == .regfile then s.discardCtx w cause
  else if x.status == .parked then
    s.report (s.partNo w.cell) (.cell w.cell)
      { s.trapRecord w { cause } x.r.pc x.first with vreq := false, addr := Config.noTrapAddr s.turn }
  else s.takeTrap w { cause }

/-- A cell's instruction store written again from the loaded code objects, in load order (R428). -/
def State.rewriteCode (s : State) (cell : Nat) : State :=
  let gs := ((s.partAt cell).graphs.filterMap (·.2)).foldr insertLoad []
  ((gs.flatMap (·.code)).filter fun y => y.1 == cell).foldl (fun s y =>
    s.codeWritten cell (cellKey cell (0x80000 + 4 * y.2.1)) (y.2.2.flatMap fun v => leBytes 4 v.toNat)) s

/-- What the failed cell's copy loses: failing scratch words and accumulators are zero, and the instruction store is written again from
the loaded code (R428). -/
def State.loseWords (s : State) (cell : Nat) (words accs : List Nat) : State :=
  let s := s.settle cell
  let s := { s with mem := words.foldl (fun m w => clearRange m (cellKey cell (8 * (w % 65536))) 8) s.mem }
  (s.setCell cell { s.cell cell with accs := accs.foldl (fun t a => tset t (a % 4) {}) (s.cell cell).accs }).rewriteCode cell

/-- The columns of a row from a cell's on start to move one physical column toward the spare (R428). -/
def State.shiftRow (s : State) (cell : Nat) : State :=
  let row := rowOf cell
  let map := s.rowMap row ++ [s.spareCol row]
  ((rowCells row).filter fun n => cell ≤ n).foldl (fun s n =>
    s.setCell n { s.cell n with promenade := some (map.getD (n % 4 + 1) 5) }) s

/-- CELL_QUARANTINE: a cell detects an uncorrectable error (R428). Its row shifts to the spare; with no free spare the cell has nowhere to
go (R429); during a copy each error is lost with the old cell, and the words of all of them are counted (R430). -/
def execCellQuarantine (cell : Nat) (err : CellError) (ctx : Option Nat) (words accs : List Nat) (s : State) : Out :=
  let c := s.cell cell
  event "CELL_QUARANTINE" (if s.boot == .ready && (s.partOf cell).isSome && !c.gone && (c.failing.isNone || c.promenade.isSome) then some (
    let pn := s.partNo cell
    let lost := BitVec.ofNat 32 words.length
    if c.promenade.isSome then
      let s := s.report pn (.cell cell) { s.recAt pn (some cell) (CellError_cause err) 1 with count := lost }
      let all := match c.failing with
        | none => lost
        | some n => count32 (n.toNat + words.length)
      (s.setCell cell { s.cell cell with failing := some all }).loseWords cell words accs
    else
      let s := match ctx with
        | some k => s.errorCtx ⟨cell, k⟩ err
        | none => s
      if s.spareFree (rowOf cell) && !s.rowMoving cell then
        ((s.setCell cell { s.cell cell with failing := some lost }).loseWords cell words accs).shiftRow cell
      else s.setCell cell { s.cell cell with failing := some 0xFFFFFFFF, promenade := some 5 }) else none)

/-! ### Stops (R432, R433) -/

/-- The cause of a fault that stops partitions. -/
def StopError_cause : StopError → BitVec 7
  | .router => causeRouterUncorrectable
  | .dieBridge => causeDieBridge
  | .clockVoltage => causeClockVoltage

/-- One partition stopped, with its record (R432). -/
def State.stopPart (s : State) (cause : BitVec 7) (pn : Nat) : State :=
  let p := s.part pn
  if !p.open_ then s
  else (s.setPart pn { p with stopped := true }).report pn .root { s.recAt pn none cause 3 with vreq := false }

/-- PARTITION_STOP: the partitions that a fault touches stop (R432). -/
def execPartitionStop (err : StopError) (parts : List Nat) (s : State) : Out :=
  event "PARTITION_STOP" (if s.boot == .ready then some
    (parts.eraseDups.foldl (fun s pn => s.stopPart (StopError_cause err) pn) s) else none)

/-- MACHINE_CHECK: every partition stops, and the physical function is interrupted; only a device reset ends the stop (R433, R460). -/
def execMachineCheck (s : State) : Out :=
  event "MACHINE_CHECK" (if s.boot == .ready then some (
    let s := (tkeys s.parts).foldl (fun s pn => s.stopPart causeMachineCheck pn) s
    { s with machineCheck := true, irqs := s.irqs ++ [(0, Config.machineCheckVector)], i3cStatus := s.i3cStatus ||| 1 }) else none)

end Sys2Proof.Machine
end

