-- ==== Sys2Proof/Machine/Commands.lean ====
section
/-! DEFINITION. Host commands (R405, R451): how one is accepted, and the commands on partitions, ASIDs, mappings, attestation, debug,
trace, power and status (R406 to R410, R439, R440, R452). -/

namespace Sys2Proof.Machine

/-! ### Acceptance (R405) -/

/-- The STATUS values of R405. -/
def stDone : Nat := 0
def stBusy : Nat := 1
def stUnknown : Nat := 2
def stNotPermitted : Nat := 3
def stBadParameter : Nat := 4
def stNoResource : Nat := 5
def stInUse : Nat := 6

/-- The number of a function: the PF is 0 and VF k is k + 1. -/
def Fn.num : Fn → Nat
  | .pf => 0
  | .vf k => k + 1

/-- What a command comes to: it fails with a status, is done with its results, or waits. -/
inductive Cmd where
  | fail (status : Nat)
  | done (results : List W64) (s : State)
  | wait (w : CmdWait) (s : State)
  deriving DecidableEq, Repr

/-- A parameter doubleword of the command of a function. -/
def State.cmd (s : State) (fn k : Nat) : W64 := s.bar fn (8 * k)

/-- Whether a function can take commands: the PF from step 6 of boot on, a VF while its partition is open (R408, R409, R454). -/
def State.fnUp (s : State) (fn : Fn) : Bool :=
  s.boot != .off && match fn with
  | .pf => true
  | .vf k => (s.part k).open_

/-- Whether the host's earlier writes through the BAR2 of a function are performed (R449). -/
def State.hostSettled (s : State) (fn : Fn) : Bool :=
  match fn with
  | .pf => true
  | .vf k => !s.hostWrites k

/-- Whether a function accepts a write to CMD0: the host's earlier writes through its BAR2 are performed (R449). -/
def State.accepts (s : State) (fn : Fn) : Bool := s.fnUp fn && s.hostSettled fn

/-- Whether the parameters of a command set no bit outside the masks that its row gives. -/
def State.reservedClear (s : State) (fn : Nat) (masks : List W64) : Bool :=
  (List.range 7).all fun k => s.cmd fn (k + 1) &&& ~~~(masks.getD k 0) == 0

/-- How a command is taken: its opcode, whether a VF may give it, whether it names a partition that must be open, and the bits that its
parameters have. -/
structure CmdShape where
  opcode : Nat
  vf : Bool := true
  target : Bool := true
  masks : List W64 := []
  deriving DecidableEq, Repr

/-- Every bit of a doubleword. -/
def all64 : W64 := 0xFFFFFFFFFFFFFFFF

/-- The partition that a command means (R405). -/
def cmdPart (fn : Fn) (cmd0 : W64) : Nat :=
  match fn with
  | .pf => (cmd0.extractLsb' 16 8).toNat
  | .vf k => k

/-- The status with which a command is turned away before it acts, if it is (R405, R454). -/
def State.turnedAway (s : State) (fn : Fn) (cmd0 : W64) (sh : CmdShape) : Option Nat :=
  let pn := cmdPart fn cmd0
  let vf := fn != .pf
  if s.boot != .ready && sh.opcode != 0x0701 then some stNotPermitted
  else if cmd0.extractLsb' 24 8 != 0 || !s.reservedClear (Fn.num fn) sh.masks || (vf && cmd0.extractLsb' 16 8 != 0) then
    some stBadParameter
  else if vf && !sh.vf then some stNotPermitted
  else if sh.target && !(pn < 48 && (s.part pn).open_) then some stBadParameter
  else none

/-- CMD0 as its register holds it: reserved bits of registers read as zero (R3, R405). -/
def cmd0Kept (cmd0 : W64) : W64 := cmd0 &&& 0xFFFFFFFF00FFFFFF

/-- A command written into CMD0: BUSY while another is in flight, else turned away or performed (R405). `sel` tells apart the rows
that share an opcode. -/
def command (name : String) (sh : CmdShape) (fn : Fn) (cmd0 : W64) (s : State) (sel : State → Bool)
    (run : Nat → State → Cmd) : Out :=
  let n := Fn.num fn
  let tag := cmd0.extractLsb' 32 32
  event name (if s.accepts fn && (cmd0.extractLsb' 0 16).toNat == sh.opcode && sel s then some (
    let s := s.setBar n 0 (cmd0Kept cmd0)
    if (s.inFlight n).wait != .none then s.respond n tag stBusy []
    else match s.turnedAway fn cmd0 sh with
    | some st => s.answer n tag st []
    | none => match run (cmdPart fn cmd0) s with
      | .fail st => s.answer n tag st []
      | .done r s => s.answer n tag stDone r
      | .wait w s => { s.respond n tag 0xFFFF [] with cmds := tset s.cmds n { tag, wait := w } }) else none)

/-- Every state: a row that has its opcode to itself. -/
def anyState (_ : State) : Bool := true

/-- The opcodes of R406 and R451. -/
def opcodes : List Nat :=
  [0x0001, 0x0002, 0x0003, 0x0004, 0x0005, 0x0101, 0x0102, 0x0103, 0x0401, 0x0201, 0x0202, 0x0301, 0x0302, 0x0303, 0x0501, 0x0502,
   0x0503, 0x0601, 0x0701, 0x0801]

/-- UNKNOWN_OPCODE: a command whose OPCODE names no command (R405). -/
def execUnknownOpcode (fn : Fn) (cmd0 : W64) (s : State) : Out :=
  let n := Fn.num fn
  let tag := cmd0.extractLsb' 32 32
  event "UNKNOWN_OPCODE" (if s.accepts fn && !opcodes.contains (cmd0.extractLsb' 0 16).toNat then some (
    let s := s.setBar n 0 (cmd0Kept cmd0)
    if (s.inFlight n).wait != .none then s.respond n tag stBusy [] else s.answer n tag stUnknown []) else none)

/-! ### The partition configuration block (R407) -/

/-- n bytes of a block at an offset, as a number. -/
def field (b : List Byte) (off n : Nat) : Nat := ofLE ((b.drop off).take n)
/-- The bits of a bitmap of 192. -/
def bitList (v : Nat) : List Nat := (List.range 192).filter fun k => v.testBit k
/-- A power of two. -/
def isPow2 (n : Nat) : Bool := (List.range 64).any fun k => n == 2 ^ k

/-- The partition that a PCB describes. -/
def Part.ofPcb (b : List Byte) : Part :=
  { rail := field b 1 1, floor := field b 2 1, defpt := field b 3 1, asidBase := field b 4 2, asidCount := field b 6 2
    clusters := bitList (field b 0x08 24), slabs := bitList (field b 0x20 24), reserved := bitList (field b 0x38 24)
    faultSrv := BitVec.ofNat 64 (field b 0x50 8), poolB := field b 0x58 4, inboxQ := field b 0x5C 4, reelShare := field b 0x60 1
    sysPa := field b 0x68 8, loadMb := field b 0x70 4, pcb := b }

/-- Whether a PCB keeps the limits of R407. -/
def pcbOk (pn : Nat) (b : List Byte) (p : Part) : Bool :=
  field b 0 1 == pn && decide (pn < 48) && decide (p.rail < 4) && decide (p.floor < 16) && decide (p.defpt < 16) &&
  decide (p.asidBase ≤ 0xFFD) && decide (2 ≤ p.asidCount) && decide (p.asidCount + p.asidBase ≤ 4095) &&
  !p.clusters.isEmpty && p.reserved.all p.clusters.contains && decide (64 ≤ p.poolB) && decide (p.poolB ≤ 1000000) &&
  isPow2 p.inboxQ && decide (32 ≤ p.inboxQ) && decide (p.inboxQ ≤ 2 ^ 20) && decide (p.reelShare ≤ 64) &&
  ((b.drop 0x61).take 7).all (· == 0) && (b.drop 0x74).all (· == 0) && decide (p.loadMb ≤ 4095) &&
  p.sysPa % 0x10000 == 0 && p.ownsPa p.sysPa && (p.sysEnd - 1) / 2 ^ 32 == p.sysPa / 2 ^ 32

/-- The ASIDs that a partition's range holds or that are still in quarantine from it. -/
def Part.holdsAsid (p : Part) (a : Nat) : Bool :=
  (p.open_ && decide (p.asidBase ≤ a) && decide (a < p.asidBase + p.asidCount)) || (tget none p.asids a).isSome

/-- Whether a new partition asks for what another has (R408). -/
def State.inUse (s : State) (pn : Nat) (p : Part) : Bool :=
  (s.part pn).open_ || s.parts.any fun y =>
    (y.2.open_ && (y.2.clusters.any p.clusters.contains || y.2.slabs.any p.slabs.contains)) ||
    (List.range p.asidCount).any fun k => y.2.holdsAsid (p.asidBase + k)

/-- The blocks that the inboxes of a partition reserve (R339). -/
def Part.inboxBlocks (p : Part) : Nat := p.cellCount * ((p.inboxQ + 31) / 32 + 1)

/-- The floor costs of the open partitions (R365). -/
def State.floors (s : State) : Nat :=
  ((s.parts.filter fun y => y.2.open_).map fun y => y.2.clusters.length * s.floorCost y.2).sum

/-- Whether the reservations, floor costs and shares of a new partition fit (R408). -/
def State.fits (s : State) (p : Part) : Bool :=
  p.inboxBlocks ≤ p.poolB && s.floors + p.clusters.length * s.floorCost p + 2920 ≤ s.capTokens &&
  ((s.parts.filter fun y => y.2.open_).map (·.2.reelShare)).sum + p.reelShare ≤ 64

/-! ### The system ASID's tables (R407) -/

/-- Table entries written one after another. -/
def putEntries : Nat → List Nat → Memory → Memory
  | _, [], m => m
  | pa, e :: es, m => putEntries (pa + 8) es (writeLE m (hbmKey pa) 8 e)

/-- The virtual base of the system area. -/
def sysVa : Nat := 0x00FF000000000000

/-- The tables that map the system area in 64 KiB leaves with READ, WRITE and ATOM. The L0 table lies at the start of the table area; the
places of the others are the device's own. -/
def Part.sysTables (p : Part) (m : Memory) : Memory :=
  let t := p.tableArea
  let n := (p.sysEnd - p.sysPa + 0xFFFF) / 0x10000
  let l1 := t + 0x10000
  let l2 := t + 0x20000
  let l3 := t + 0x24000
  let m := putEntries (t + 8 * levelIndex sysVa 43 13) [l1 + 1] m
  let m := putEntries (l1 + 8 * levelIndex sysVa 30 13) ((List.range ((n + 16383) / 16384)).map fun k => l2 + 4096 * k + 1) m
  let m := putEntries l2 ((List.range ((n + 31) / 32)).map fun k => l3 + 256 * k + 1) m
  putEntries l3 ((List.range n).map fun k => p.sysPa + 0x10000 * k + 0x1F) m

/-- Where those tables end. -/
def Part.sysTablesEnd (p : Part) : Nat := p.tableArea + 0x24000 + 256 * (((p.sysEnd - p.sysPa + 0xFFFF) / 0x10000 + 31) / 32)

/-! ### Partitions -/

/-- The point at which a partition begins: DEFPT, and its floor at the least (R365, R407). -/
def Part.startPoint (p : Part) : Nat := Nat.max p.defpt p.floor

/-- Where the governor, the Weir and the Sluice of a new partition begin. -/
def Part.begun (p : Part) (now : Nat) : Part :=
  { p with gov := { chosen := p.startPoint, inForce := p.startPoint, next := (now / 10000 + 1) * 10000, sent := 0 }
           nextSluice := (now / 20000 + 1) * 20000 }

/-- A partition brought up from its PCB (R408); while the device stands in MACHINE_CHECK it is a stopped one (R433). -/
def State.createPart (s : State) (pn : Nat) (p : Part) : State :=
  let p := { p.begun s.tbc with
    open_ := true, stopped := s.machineCheck, freeBlocks := List.range p.poolB, reservedBlocks := p.inboxBlocks
    asids := tset (s.part pn).asids p.asidBase (some { root := p.tableArea }) }
  let s := ({ s with mem := p.sysTables (clearRange s.mem (hbmKey p.sysPa) (p.sysEnd - p.sysPa)) } : State).sound
    [(p.sysPa, p.sysEnd - p.sysPa)]
  let s := s.setPart pn p
  let s := p.cells.foldl (fun s n => s.setCell n { s.cell n with tailQuota := p.inboxQ }) s
  p.clusters.foldl (fun s k => s.setCluster k { s.cluster k with
    grant := s.floorCost p, nextMeter := (s.tbc / 1000 + 1) * 1000, busyAt := s.clusterBusy k, meterBusy := s.clusterBusy k, meterCycles := 0
    denied := false, denyEnds := false }) s

/-- PART_CREATE (R408). Where the rail stands below the point at which the partition begins it is raised first (R367). -/
def execPartCreate (fn : Fn) (cmd0 : W64) (s : State) : Out :=
  command "PART_CREATE" { opcode := 0x0001, vf := false, target := false, masks := [all64] } fn cmd0 s anyState fun pn s =>
    let b := readBytes s.mem (hostKey (s.cmd 0 1).toNat) 256
    let p := Part.ofPcb b
    if !pcbOk pn b p then .fail stBadParameter
    else if s.inUse pn p then .fail stInUse
    else if !s.fits p then .fail stNoResource
    else if s.rail p.rail < p.startPoint then .wait (.creating pn b) s
    else .done [] (s.createPart pn p)

/-- What a cell keeps of its temperature whatever becomes of its work: one that has tripped stays out until Thieno service resumes it below 90 °C
(R371). -/
def Cell.hot (c : Cell) : Cell :=
  { temp := c.temp, issueNum := c.issueNum, issueDen := c.issueDen, tripped := c.tripped, out := c.tripped, resumedAt := c.resumedAt
    retrip := c.retrip }

/-- The contexts of a cell with nothing but what each has last read of the timebase, which a later read does not fall below (R20). -/
def Cell.clocks (c : Cell) : Tbl Ctx :=
  (tmap (fun _ (x : Ctx) => ({ lastTbc := x.lastTbc } : Ctx)) c.ctxs).filter fun y => y.2.lastTbc != 0

/-- A cell zeroed, its control window with it (R409): what counts physical time and place stays, a row map keeps its shifts, and a move that is under
way goes on (R370, R428). -/
def Cell.zeroed (c : Cell) : Cell :=
  { c.hot with
    inboxCfg := 0, casid := 0, cyc := c.cyc, cycOff := c.cycOff, gone := c.gone, out := c.gone || c.tripped, busyCycles := c.busyCycles
    promenade := c.promenade, failing := c.failing, ctxs := c.clocks }

/-- Whether an endpoint belongs to a partition. -/
def Part.has (p : Part) (pn : Nat) : Endp → Bool
  | .cell n => p.clusters.contains (n / 16)
  | .home k => p.slabs.contains k
  | .station k => p.clusters.contains k
  | .millwright k => p.clusters.contains k
  | .governor q => q == pn
  | .loader q => q == pn
  | _ => false

/-- A list with the slabs of a partition cleared from memory. -/
def clearSlabs (p : Part) (m : Memory) : Memory := p.slabs.foldl (fun m k => clearRange m (hbmKey (k * 2 ^ 32)) (2 ^ 32)) m

/-- The parts of the dies that a partition uses given up. -/
def Die.without (d : Die) (pn : Nat) : Die :=
  { d with slots := d.slots.filter fun y => !(y.2.state != .free && y.2.part == pn)
           lanes := d.lanes.filter fun y => y.2.part != some pn }

/-- Whether a message is part of an invalidation, which goes on whatever becomes of a partition (R400). -/
def Body.ofInval : Body → Bool
  | .inval _ _ _ => true
  | .invalAck _ _ => true
  | _ => false

/-- The violations among the accesses that a partition still has on their way, as its destruction stops them: each is logged, and its fault
record dropped (R409, R411). -/
def State.logDropped (s : State) (pn : Nat) : State :=
  s.net.foldl (fun s m => match m.body with
    | .access a => if a.part == pn && !s.homeOwned m.dst a.key a.part then s.logAtHome m.dst a else s
    | _ => s) s

/-- Whether a message is an access of the host for a partition. -/
def Msg.ofHost (m : Msg) (pn : Nat) : Bool :=
  m.src == .host && match m.body with
  | .access a => a.part == pn
  | _ => false

/-- Whether what a message carries is a partition's own, wherever it is: a parcel, or the end of a job. -/
def Body.ofPart (p : Part) (pn : Nat) : Body → Bool
  | .parcel (.strand m) => m.part.toNat == pn
  | .parcel (.msg m) => m.part.toNat == pn
  | .parcel (.record r _) => r.part.toNat == pn
  | .jobDone _ line _ => p.slabs.contains (line / 2 ^ 32)
  | _ => false

/-- A Reel port without what a partition has there. The requests on their way to peers are still answered, to no one (R386, R409). -/
def Reel.without (pn : Nat) (r : Reel) : Reel :=
  { r with waiting := r.waiting.map fun l => l.filter fun a => a.part != pn, used := tdel r.used pn }

/-- A partition's cells, messages, slots, lanes and memory gone (R409). -/
def State.wipePart (s : State) (pn : Nat) : State :=
  let p := s.part pn
  let s := p.cells.foldl (fun s n =>
    { s.setCell n (s.cell n).zeroed with mem := clearRange s.mem (cellKey n 0) 0x90000 }) s
  let keep := fun (m : Msg) => m.body.ofInval || !(p.has pn m.src || p.has pn m.dst || m.ofHost pn || m.body.ofPart p pn)
  let clusters := tmap (fun k (c : Cluster) => { c with
    station := c.station.filter fun y => y.2.part != BitVec.ofNat 6 pn
    poisoned := if p.slabs.contains k then [] else c.poisoned }) s.clusters
  { s with mem := clearSlabs p s.mem, net := s.net.filter keep, refused := s.refused.filter fun m => keep m.1
           clusters, dies := tmap (fun _ d => d.without pn) s.dies, reels := tmap (fun _ r => r.without pn) s.reels
           relDeps := s.relDeps.filter fun r => !p.ownsPa r.key && !(2 ^ 40 ≤ r.key && p.clusters.contains ((r.key - 2 ^ 40) / 2 ^ 20 / 16)) }

/-- Every ASID of a partition's range put into quarantine, with its invalidation (R401, R409). -/
def State.quarantineAll (s : State) (pn : Nat) (p : Part) : State :=
  (List.range p.asidCount).foldl (fun s k =>
    let a := p.asidBase + k
    let q := s.part pn
    (s.setPart pn { q with asids := tset q.asids a (some { quarantine := true }) }).invalidate (BitVec.ofNat 12 a) none (.asidFree a)) s

/-- What follows an invalidation once the partition that has asked for it is gone: nobody is answered, and a quarantine ends (R400, R401). -/
def After.without (p : Part) (pn : Nat) : After → After
  | .svcReply w s1 s2 => if p.has pn (.cell w.cell) then .nothing else .svcReply w s1 s2
  | .memMapDone fn => if fn == pn + 1 then .nothing else .memMapDone fn
  | a => a

/-- A partition taken down (R409). ASIDs that are in quarantine already, from an earlier range too, stay there until their own invalidations
complete (R401). -/
def State.destroyPart (s : State) (pn : Nat) : State :=
  let p := s.part pn
  let s := (s.logDropped pn).wipePart pn
  let s := { s.setPart pn { asids := p.asids.filter fun y => y.2.any (·.quarantine) } with
    bars := tdel s.bars (pn + 1), cmds := tdel s.cmds (pn + 1)
    invals := s.invals.map fun (v : Inval) => { v with after := v.after.without p pn } }
  s.quarantineAll pn p

/-- PART_DESTROY (R409). -/
def execPartDestroy (fn : Fn) (cmd0 : W64) (s : State) : Out :=
  command "PART_DESTROY" { opcode := 0x0002, vf := false } fn cmd0 s anyState fun pn s =>
    .done [BitVec.ofNat 64 (s.part pn).slabs.length] (s.destroyPart pn)

/-- A partition connected to a rail that stands high enough for its point in force; a raise that it waits for may be reached now (R367). -/
def State.connectRail (s : State) (pn r : Nat) : State := (s.setPart pn { s.part pn with rail := r }).railReached r

/-- PART_SET_RAIL: a partition without a running job moves to another rail, which is raised to its point in force first (R367, R408). -/
def execPartSetRail (fn : Fn) (cmd0 : W64) (s : State) : Out :=
  command "PART_SET_RAIL" { opcode := 0x0003, vf := false, masks := [3] } fn cmd0 s anyState fun pn s =>
    let p := s.part pn
    let r := (s.cmd 0 1).toNat
    if !p.running.isEmpty then .fail stInUse
    else if s.rail r < p.gov.inForce then .wait (.railing pn r) s
    else .done [] (s.connectRail pn r)

/-- Every pending trap of a partition reported again to its new server (R423). -/
def State.resendTraps (s : State) (pn : Nat) : State :=
  (s.part pn).cells.foldl (fun s n =>
    ((s.cell n).pending.filter fun t => !t.xwait).foldl (fun s t => s.report pn (.cell n) t.frec) s) s

/-- PART_SET_FAULTSRV (R423). -/
def execPartSetFaultsrv (fn : Fn) (cmd0 : W64) (s : State) : Out :=
  command "PART_SET_FAULTSRV" { opcode := 0x0004, masks := [all64] } fn cmd0 s anyState fun pn s =>
    let p := s.part pn
    .done [p.faultSrv] ((s.setPart pn { p with faultSrv := s.cmd (Fn.num fn) 1 }).resendTraps pn)

/-- The bytes of a dump area (R436). -/
def Part.dumpBytes (p : Part) : Nat := (16 * p.clusters.length + 1) * 0x100000
/-- Whether a dump area lies in a partition's slabs. -/
def Part.dumpOk (p : Part) (pa : Nat) : Bool := p.ownsRange pa p.dumpBytes

/-- A cell swap of a partition in progress, or on its way to begin (R325). -/
def State.swapping (s : State) (p : Part) : Bool :=
  (p.cells.any fun n => (s.cell n).preempting && !(s.cell n).out) ||
  s.net.any fun m => match m.dst, m.body with
    | .cell n, .parcel q => q.cls? == some 1 && p.clusters.contains (n / 16)
    | _, _ => false

/-- Whether a partition's Thieno service stands at a command boundary: no command of its function is in flight, and no cell swap in
progress (R325, R410). -/
def State.atCmdBoundary (s : State) (pn : Nat) : Bool := (s.inFlight (pn + 1)).wait == .none && !s.swapping (s.part pn)

/-- Whether a partition is coming to a cut for a checkpoint, or stands in one. -/
def Part.cutting (p : Part) : Bool :=
  match p.cut with
  | .checkpoint _ _ => true
  | _ => false

/-- A context that stands at the boundary of a cut stopped there. -/
def State.haltCtx (s : State) (w : Who) : State := if (s.ctx w).status == .running then s.stopCtx w else s

/-- Every cell of a partition asked to stop (R410); one that a checkpoint has left stopped stops where it stands (R435). -/
def State.preemptCells (s : State) (pn : Nat) : State :=
  let p := s.part pn
  let s := if p.cutting then p.cells.foldl (fun s n => (whos n).foldl State.haltCtx s) s else s
  p.cells.foldl (fun s n =>
    let c := s.cell n
    if c.out then s else s.setCell n { c with preempting := true }) (s.setPart pn { p with cut := .preempting })

/-- PART_PREEMPT: the executor, the kick queues and dispatch hold; every cell is asked to stop at the next command boundary, which comes after a
checkpoint in progress (R325, R410). -/
def execPartPreempt (fn : Fn) (cmd0 : W64) (s : State) : Out :=
  command "PART_PREEMPT" { opcode := 0x0005, vf := false, masks := [1, all64] } fn cmd0 s
    (fun s => !(s.cmd (Fn.num fn) 1).getLsbD 0) fun pn s =>
    let p := s.part pn
    let dump := (s.cmd 0 2).toNat
    if p.cut != .none && !p.cutting then .fail stInUse
    else if !p.dumpOk dump then .fail stBadParameter
    else .wait (.preemptSoon pn dump) (if p.cutting then s else s.setPart pn { p with cut := .closing })

/-- Every cell of a pre-empted partition reloaded from its image and resumed; one that has tripped is reloaded too, and resumes once it has
cooled (R410, R434). -/
def resumeCells (dump : Nat) : List (Nat × Nat) → State → State
  | [], s => s
  | (k, n) :: rest, s =>
    let c := s.cell n
    let s := if !c.out || c.gone then s else s.reload n fun j => hbmKey (dump + 0x100000 * k + j)
    let s := if !c.out || c.gone || c.tripped then s else s.resumeCell n
    resumeCells dump rest s

/-- PART_RESUME: a pre-empted partition goes on (R410). -/
def execPartResume (fn : Fn) (cmd0 : W64) (s : State) : Out :=
  command "PART_RESUME" { opcode := 0x0005, vf := false, masks := [1, all64] } fn cmd0 s
    (fun s => (s.cmd (Fn.num fn) 1).getLsbD 0) fun pn s =>
    let p := s.part pn
    let dump := (s.cmd 0 2).toNat
    if p.cut != .preempted then .fail stInUse
    else if !p.dumpOk dump then .fail stBadParameter
    else .done [] (resumeCells dump (number 0 p.cells) (s.setPart pn { p with cut := .none }))

/-! ### ASIDs and mappings -/

/-- An ASID of a partition's range that is free: the one that Thieno picks, or else the lowest. -/
def State.freeAsid (s : State) (p : Part) : Option Nat :=
  let free := (List.range p.asidCount).map (p.asidBase + ·) |>.filter fun a => (tget none p.asids a).isNone
  let k := Config.thienoPick s.turn 1
  if free.contains k then some k else free.head?

/-- ASID_ALLOC (R398, R399, R406). -/
def execAsidAlloc (fn : Fn) (cmd0 : W64) (s : State) : Out :=
  command "ASID_ALLOC" { opcode := 0x0101, masks := [all64, 1, all64] } fn cmd0 s anyState fun pn s =>
    let p := s.part pn
    let n := Fn.num fn
    let root := (s.cmd n 1).toNat
    let supplied := (s.cmd n 2).getLsbD 0
    let walker := (s.cmd n 3).toNat
    if root % 0x10000 != 0 || !p.ownsRange root 0x10000 || (supplied && !p.ownsPa walker) then .fail stBadParameter
    else match s.freeAsid p with
    | none => .fail stNoResource
    | some a =>
      .done [BitVec.ofNat 64 a] (s.setPart pn { p with asids := tset p.asids a (some { root, supplied, walker }) })

/-- ASID_RELEASE: into quarantine until its invalidation completes (R401). -/
def execAsidRelease (fn : Fn) (cmd0 : W64) (s : State) : Out :=
  command "ASID_RELEASE" { opcode := 0x0102, masks := [0xFFF] } fn cmd0 s anyState fun pn s =>
    let p := s.part pn
    let a := (s.cmd (Fn.num fn) 1).toNat
    match tget none p.asids a with
    | none => .fail stBadParameter
    | some x =>
      if x.quarantine || a == p.asidBase then .fail stBadParameter
      else if p.cells.any fun n => (s.cell n).casid.toNat == a then .fail stInUse
      else .done [] ((s.setPart pn { p with asids := tset p.asids a (some { x with quarantine := true }) }).invalidate
        (BitVec.ofNat 12 a) none (.asidFree a))

/-- The leaf of page i of a mapping (R406). -/
def leafAt (e : W64) (size i : Nat) : W64 :=
  (e &&& 0xFFFFFF00000000FF) ||| (BitVec.ofNat 64 (entryAddr e + i * pageBytes size) &&& 0xFFFFFFFF00)

/-- Consecutive pages mapped, each with its invalidation. -/
def mapPages (p : Part) (asid : BitVec 12) (e : W64) (va size fn : Nat) : List Nat → State → State
  | [], s => s
  | i :: is, s =>
    let v := va + i * pageBytes size
    let s := match s.leafOf p asid v size with
      | some pa => s.setEntry pa (leafAt e size i)
      | none => s
    mapPages p asid e va size fn is (s.invalidate asid (some (BitVec.ofNat 64 v, size)) (.memMapDone fn))

/-- MEM_MAP: consecutive pages mapped; it returns when every invalidation is complete (R400, R406). -/
def execMemMap (fn : Fn) (cmd0 : W64) (s : State) : Out :=
  command "MEM_MAP" { opcode := 0x0103, masks := [0xFFF, all64, all64, 0x3FFFFFFFF] } fn cmd0 s anyState fun pn s =>
    let p := s.part pn
    let n := Fn.num fn
    let asid := (s.cmd n 1).extractLsb' 0 12
    let va := (s.cmd n 2).toNat
    let e := s.cmd n 3
    let size := ((s.cmd n 4).extractLsb' 32 2).toNat
    let count := ((s.cmd n 4).extractLsb' 0 32).toNat
    let pages := List.range count
    if !p.asidOk asid || !p.romAsid asid || 2 < size || pages.any (fun i =>
        (s.leafOf p asid (va + i * pageBytes size) size).isNone || !p.mayMap (leafAt e size i)) then .fail stBadParameter
    else if count == 0 then .done [0] s
    else .wait (.mapping count count) (mapPages p asid e va size n pages s)

/-! ### Attestation -/

/-- The parameters of ATTEST. -/
def attestShape : CmdShape := { opcode := 0x0401, masks := [all64, all64, all64, all64, all64, 1] }

/-- ATTEST_QUOTE: a quote written to host memory (R404). -/
def execAttestQuote (fn : Fn) (cmd0 : W64) (s : State) : Out :=
  command "ATTEST_QUOTE" attestShape fn cmd0 s (fun s => !(s.cmd (Fn.num fn) 6).getLsbD 0) fun pn s =>
    let n := Fn.num fn
    let nonce := [2, 3, 4, 5].flatMap fun k => leBytes 8 (s.cmd n k).toNat
    .done [384] { s with mem := writeBytes s.mem (hostKey (s.cmd n 1).toNat) (s.quote pn nonce) }

/-- ATTEST_PUBLIC_KEY: the public key written to host memory (R406). -/
def execAttestPublicKey (fn : Fn) (cmd0 : W64) (s : State) : Out :=
  command "ATTEST_PUBLIC_KEY" attestShape fn cmd0 s (fun s => (s.cmd (Fn.num fn) 6).getLsbD 0) fun _ s =>
    .done [57] { s with mem := writeBytes s.mem (hostKey (s.cmd (Fn.num fn) 1).toNat) deviceKey }

/-! ### Debug and trace (R439, R440) -/

/-- The cells that a parameter names: one, or all of the partition; none when it lies outside. -/
def Part.named (p : Part) (v : W64) : Option (List Nat) :=
  if v == 0xFFF then some p.cells else if v.toNat < p.cellCount then some [p.dev v.toNat] else none

/-- The cells of a list halted or not. -/
def setHalted (h : Bool) (l : List Nat) (s : State) : State :=
  l.foldl (fun s n => s.setCell n { s.cell n with halted := h }) s

/-- DEBUG_HALT (R439, R451). -/
def execDebugHalt (fn : Fn) (cmd0 : W64) (s : State) : Out :=
  command "DEBUG_HALT" { opcode := 0x0501, masks := [0xFFF, 1] } fn cmd0 s anyState fun pn s =>
    let p := s.part pn
    match p.named (s.cmd (Fn.num fn) 1) with
    | none => .fail stBadParameter
    | some l =>
      if p.cut != .none then .fail stInUse
      else .done [] (setHalted true l (s.setPart pn { p with armed := (s.cmd (Fn.num fn) 2).getLsbD 0 }))

/-- DEBUG_RESUME; it is refused for a stopped partition (R432, R439). -/
def execDebugResume (fn : Fn) (cmd0 : W64) (s : State) : Out :=
  command "DEBUG_RESUME" { opcode := 0x0502, masks := [0xFFF] } fn cmd0 s anyState fun pn s =>
    let p := s.part pn
    match p.named (s.cmd (Fn.num fn) 1) with
    | none => .fail stBadParameter
    | some l => if p.stopped then .fail stNotPermitted else .done [] (setHalted false l s)

/-- TRACE_CONFIG (R440, R451). -/
def execTraceConfig (fn : Fn) (cmd0 : W64) (s : State) : Out :=
  command "TRACE_CONFIG" { opcode := 0x0503, masks := [0xFFF, all64, all64, 0x7E] } fn cmd0 s anyState fun pn s =>
    let p := s.part pn
    let n := Fn.num fn
    let va := s.cmd n 2
    let bytes := (s.cmd n 3).toNat
    match p.named (s.cmd n 1) with
    | none => .fail stBadParameter
    | some l =>
      if va.toNat % 4096 != 0 || (bytes != 0 && !(isPow2 bytes && decide (4096 ≤ bytes) && decide (bytes ≤ 2 ^ 30))) then
        .fail stBadParameter
      else
        let t : Trace := { va, bytes, mask := (s.cmd n 4).extractLsb' 1 6 }
        .done [] (l.foldl (fun s c => s.setCell c { s.cell c with trace := t }) s)

/-! ### Power and status (R365, R452) -/

/-- POWER_CAP_SET (R365, R451). -/
def execPowerCapSet (fn : Fn) (cmd0 : W64) (s : State) : Out :=
  command "POWER_CAP_SET" { opcode := 0x0601, vf := false, target := false, masks := [0xFFFFFFFF] } fn cmd0 s anyState fun _ s =>
    let w := (s.cmd 0 1).toNat
    if 2600 < w then .fail stBadParameter
    else if 4 * w < 2920 + s.floors then .fail stNoResource
    else .done [BitVec.ofNat 64 w] { s with capTokens := 4 * w }

/-- The parameters of QUERY. -/
def queryShape (target : Bool) : CmdShape := { opcode := 0x0701, target, masks := [all64, all64] }

/-- Whether the selector of a QUERY is k. -/
def selects (fn : Fn) (k : W64) (s : State) : Bool := s.cmd (Fn.num fn) 1 == k

/-- QUERY_IDENTITY; a selector that names nothing is a bad parameter (R452). -/
def execQueryIdentity (fn : Fn) (cmd0 : W64) (s : State) : Out :=
  command "QUERY_IDENTITY" (queryShape false) fn cmd0 s (fun s => selects fn 0 s || 3 < (s.cmd (Fn.num fn) 1).toNat) fun _ s =>
    if selects fn 0 s then .done [0x30720021, 0x30000] s else .fail stBadParameter

/-- A bitmap of the numbers of a list, 64 to a doubleword. -/
def bitmap (l : List Nat) (k : Nat) : W64 := BitVec.ofNat 64 ((l.filter fun h => h / 64 == k).map fun h => 2 ^ (h % 64)).sum

/-- QUERY_PARTITION_STATUS (R452). -/
def execQueryPartitionStatus (fn : Fn) (cmd0 : W64) (s : State) : Out :=
  command "QUERY_PARTITION_STATUS" (queryShape true) fn cmd0 s (selects fn 1) fun pn s =>
    let p := s.part pn
    let h := (p.graphs.filter fun g => g.2.isSome).map (·.1)
    let drops := Nat.min p.bar2Drops 0xFFFFFFFF
    let bits := (if p.stopped then 1 else 0) + (if p.armed then 2 else 0) + (if p.cut == .preempted then 4 else 0)
    .done [BitVec.ofNat 64 p.kickOverflow, BitVec.ofNat 64 (drops * 2 ^ 32 + bits), bitmap h 0, bitmap h 1, bitmap h 2, bitmap h 3,
           BitVec.ofNat 64 h.length] s

/-- The 32 bytes of a violation record (R391). -/
def Violation.bytes (v : Violation) : List Byte :=
  leBytes 8 v.tbc.toNat ++ leBytes 8 v.addr.toNat ++
  leBytes 4 (v.kind * 2 ^ 28 + v.at_ * 2 ^ 24 + v.part % 64 * 2 ^ 18 + v.phys % 4096) ++ leBytes 4 v.target.toNat ++ leBytes 8 0

/-- QUERY_VIOLATION_LOG, for the physical function (R391, R452). -/
def execQueryViolationLog (fn : Fn) (cmd0 : W64) (s : State) : Out :=
  command "QUERY_VIOLATION_LOG" (queryShape false) fn cmd0 s (selects fn 2) fun _ s =>
    if fn != .pf then .fail stNotPermitted
    else .done [BitVec.ofNat 64 s.violations.length, BitVec.ofNat 64 s.violationOverwrites]
      { s with mem := writeBytes s.mem (hostKey (s.cmd 0 2).toNat) (s.violations.flatMap (·.bytes)) }

/-- The three bits of a port's lane state (R452). -/
def laneCode (n : Nat) : Nat := if n == 8 then 3 else if n == 4 then 2 else if n == 2 then 1 else 0

/-- QUERY_REEL_PORTS (R452). -/
def execQueryReelPorts (fn : Fn) (cmd0 : W64) (s : State) : Out :=
  command "QUERY_REEL_PORTS" (queryShape false) fn cmd0 s (selects fn 3) fun _ s =>
    .done [BitVec.ofNat 64 (((List.range 18).map fun p => laneCode (s.reel p).lanes * 8 ^ p).sum)] s

/-! ### Gateways (R207, R451, R461) -/

/-- The parameters of REEL_BIND. -/
def reelShape : CmdShape := { opcode := 0x0801, vf := false, masks := [0x3FF, 0xFFFF, 0xFFFFFFF, 1] }

/-- The die and the lane that a REEL_BIND names, when the lane is free or the partition's own. -/
def State.reelLane (s : State) (pn : Nat) : Cmd ⊕ (Nat × Nat) :=
  let p := s.part pn
  let v := s.cmd 0 1
  match p.dies[(v.extractLsb' 8 2).toNat]? with
  | none => .inl (.fail stBadParameter)
  | some d =>
    let k := (v.extractLsb' 0 8).toNat
    let l := s.lane d k
    if l.part.isSome && l.part != some pn then .inl (.fail stInUse) else .inr (d, k)

/-- REEL_BIND: a pool lane becomes a gateway (R207). -/
def execReelBind (fn : Fn) (cmd0 : W64) (s : State) : Out :=
  command "REEL_BIND" reelShape fn cmd0 s (fun s => !(s.cmd (Fn.num fn) 4).getLsbD 0) fun pn s =>
    match s.reelLane pn with
    | .inl c => c
    | .inr (d, k) =>
      let l := s.lane d k
      .done [] (s.setLane d k { l with part := some pn, gateway := some ((s.cmd 0 2).extractLsb' 0 16, s.cmd 0 3) })

/-- REEL_UNBIND: a gateway lane is a plain lane again (R461). -/
def execReelUnbind (fn : Fn) (cmd0 : W64) (s : State) : Out :=
  command "REEL_UNBIND" reelShape fn cmd0 s (fun s => (s.cmd (Fn.num fn) 4).getLsbD 0) fun pn s =>
    match s.reelLane pn with
    | .inl c => c
    | .inr (d, k) =>
      let l := s.lane d k
      if l.gateway.isNone then .fail stBadParameter
      else .done [] (s.setLane d k { l with gateway := none, part := if l.capacity == 0 then none else l.part })

end Sys2Proof.Machine
end

