-- ==== Sys2Proof/Machine/Links.lean ====
section
/-! DEFINITION. The Reel ports (R292, R456 to R458): flits sent and received, replay, shedding and retraining. -/

namespace Sys2Proof.Machine

/-! ### Flits (R457) -/

/-- A field of a flit's first doubleword. -/
def flitField (f : List Byte) (hi lo : Nat) : Nat := bits (field f 0 8) hi lo
/-- The sequence number of a flit. -/
def flitSeq (f : List Byte) : Nat := flitField f 51 40

/-- A flit with its CRC. -/
def makeFlit (ack seq type cont part src : Nat) (payload : List Byte) : List Byte :=
  let head := ack * 2 ^ 52 + seq * 2 ^ 40 + type * 2 ^ 36 + cont * 2 ^ 34 + part * 2 ^ 28 + src
  let b := leBytes 8 head ++ fit 48 payload
  b ++ leBytes 8 (crc64 b).toNat

/-- This device's Reel address at a port (R456). -/
def ownReel (port : Nat) : Nat := Config.reelDevice % 2 ^ 11 * 32 + port % 32

/-- Whether a sequence number lies at or before another, within the window of 4,096 (R457). -/
def seqUpTo (last seq : Nat) : Bool := (last + 4096 - seq) % 4096 < 2048

/-- The flits kept for replay that an ACK has not acknowledged (R292). -/
def Reel.acked (r : Reel) (ack : Nat) : Reel :=
  { r with replayBuf := r.replayBuf.filter fun f => !seqUpTo ack (flitSeq f)
           ack := if seqUpTo r.txSeq.toNat ack then BitVec.ofNat 12 ack else r.ack }

/-- A flit handed to the link and kept for replay. -/
def Reel.send (r : Reel) (port type cont part : Nat) (payload : List Byte) : Reel :=
  let seq := r.txSeq + 1
  let f := makeFlit r.rxLast.toNat seq.toNat type cont part (ownReel port) payload
  { r with txSeq := seq, replayBuf := r.replayBuf ++ [f], out := r.out ++ [f] }

/-- A control flit that names the last sequence received in order (R458). -/
def Reel.control (r : Reel) (port : Nat) : Reel :=
  { r with out := r.out ++ [makeFlit r.rxLast.toNat r.txSeq.toNat 4 0 0 (ownReel port) []] }

/-! ### Sending -/

/-- What goes to a peer: the type of its flits, its partition, their payloads, and the places in the mesh of the messages that they carry. A
message takes one flit; a fault record two, its place after it; an access and a response one, whose payload has no layout in the reference
(R457, log entry 18). -/
structure ToPeer where
  type : Nat
  part : Nat
  flits : List (List Byte)
  places : List Nat
  deriving DecidableEq, Repr

/-- The flits of message i for a peer. -/
def Body.toPeer (turn i : Nat) : Body → Option ToPeer
  | .parcel (.msg m) => some ⟨3, m.part.toNat, [wordBytes m.words], [i]⟩
  | .parcel (.record r d) =>
    let b := wordBytes (r.words ++ [d &&& 0xFFFFFFF])
    some ⟨3, r.part.toNat, [b.take 48, b.drop 48], [i]⟩
  | .access a => some ⟨1, a.part, [fit 48 (Config.reelRequest turn)], [i]⟩
  | .readReply a _ _ _ => some ⟨2, a.part, [fit 48 (Config.reelRequest turn)], [i]⟩
  | .writeAck a _ => some ⟨2, a.part, [fit 48 (Config.reelRequest turn)], [i]⟩
  | _ => none

/-- Whether an access is a write that no release orders. -/
def Access.plainWrite (a : Access) : Bool :=
  a.rel.isNone && match a.op with
  | .write => true
  | .engineWrite _ _ => true
  | _ => false

/-- The messages, from the first of a pair on, whose writes fill a line from an address on, with the address that they come to. -/
def fillLine (stop : Nat) : Nat → List (Nat × Msg) → List Nat × Nat
  | at_, [] => ([], at_)
  | at_, (i, m) :: rest =>
    match m.body with
    | .access a =>
      if a.plainWrite && a.key == at_ && at_ + a.size ≤ stop then
        let (l, e) := fillLine stop (at_ + a.size) rest
        (i :: l, e)
      else ([], at_)
    | _ => ([], at_)

/-- A 64-byte write that message i and the next ones of its pair make together: two flits (R177, R457). -/
def State.lineWrite (s : State) (i : Nat) (m : Msg) : Option ToPeer :=
  match m.body with
  | .access a =>
    let (l, e) := fillLine (a.key + 64) a.key (((number 0 s.net).drop i).filter fun y => y.2.pair m)
    if a.key % 64 == 0 && e == a.key + 64 && Config.reelCombines s.turn then
      some ⟨1, a.part, List.replicate 2 (fit 48 (Config.reelRequest s.turn)), l⟩
    else none
  | _ => none

/-- The flits of one message sent over a port, one after another (R457). -/
def Reel.sendAll (r : Reel) (port : Nat) (p : ToPeer) : Reel :=
  match p.flits with
  | [a] => r.send port p.type 0 p.part a
  | [a, b] => (r.send port p.type 1 p.part a).send port p.type 3 p.part b
  | _ => r

/-- Flits counted against the share of a partition, or beyond every share under 64 (R456). -/
def Reel.charge (r : Reel) (part n : Nat) : Reel := { r with used := tset r.used part (tget 0 r.used part + n) }

/-- The next round of a port: what a partition has sent beyond its share counts in it (R456). -/
def Reel.nextRound (share : Nat → Nat) (r : Reel) : Reel :=
  { r with used := ((r.used.filter fun y => y.1 < 64).map fun y => (y.1, y.2 - share y.1)).filter fun y => y.2 != 0 }

/-- Whether a port can take n flits: it is up, not retraining, and keeps at most 256 (R458). -/
def Reel.room (r : Reel) (n : Nat) : Bool := 2 ≤ r.lanes && !r.retraining && r.replayBuf.length + n ≤ 256

/-- What the ports can take for peers now: each with its port. -/
def State.forPeers (s : State) : List (Nat × ToPeer) :=
  (number 0 s.net).filterMap fun y =>
    match y.2.dst with
    | .peer a => do
      let p ← (s.lineWrite y.1 y.2).orElse fun _ => y.2.body.toPeer s.turn y.1
      let port := Config.reelRoute a % 18
      if s.deliverable y.1 && (s.reel port).room p.flits.length then some (port, p) else none
    | _ => none

/-- Whether a partition has flits of its share of a port left in the round (R456). -/
def State.inShare (s : State) (port part : Nat) : Bool := tget 0 (s.reel port).used part < (s.part part).reelShare

/-- The message for a peer that goes next: the oldest of a partition within its share of the port, or, when there is none, the oldest, since
unused share goes to the others (R456). -/
def State.toPeer (s : State) : Option (Nat × ToPeer) :=
  (s.forPeers.find? fun y => s.inShare y.1 y.2.part).orElse fun _ => s.forPeers.head?

/-- A port's next round, when its 64 flits have gone and nothing waits that its partition's share still holds: a share that a record of two flits
has passed by one is made up before it (R456). -/
def State.nextRound (s : State) (port : Nat) : State :=
  let r := s.reel port
  if (r.used.map (·.2)).sum < 64 || s.forPeers.any fun y => y.1 == port && s.inShare port y.2.part then s
  else s.setReel port (r.nextRound fun k => (s.part k).reelShare)

/-- One message for a peer handed to its port; the accesses of a request then wait there for its response. -/
def State.transmit (s : State) : State :=
  let s := (tkeys s.reels).foldl State.nextRound s
  match s.toPeer with
  | some (port, p) =>
    let key := if s.inShare port p.part then p.part else 64
    let r := ((s.reel port).sendAll port p).charge key p.flits.length
    let l := p.places.filterMap fun i => (s.net[i]?).bind fun m => match m.body with
      | .access a => some a
      | _ => none
    (p.places.reverse.foldl State.take s).setReel port (if l.isEmpty then r else { r with waiting := r.waiting ++ [l] })
  | none => s

/-- The peer device whose memory an access is for. -/
def Access.peer (a : Access) : Nat := (a.key - 2 ^ 66) / 2 ^ 40

/-- The accesses of a request that waits at a port completed, with what the peer answers or with the error of a port that is down (R180). -/
def State.peerDone (s : State) (port k : Nat) : State :=
  let r := s.reel port
  match r.waiting[k]? with
  | some l => l.foldl (fun s a => s.homeDo (.peer a.peer) a) (s.setReel port { r with waiting := delAt r.waiting k })
  | none => s

/-! ### Receiving -/

/-- A message from its doublewords (R206). -/
def Smsg.ofWords (w : Nat → W64) : Smsg :=
  { payload := w 0, origin := (w 1).extractLsb' 48 12, part := (w 1).extractLsb' 42 6, cls := (w 1).extractLsb' 32 5
    dest := (w 1).extractLsb' 0 28, step := (w 2).extractLsb' 32 32, job := (w 2).extractLsb' 0 32, wid := w 3 }

/-- A fault record from its doublewords (R417). -/
def Frec.ofWords (w : Nat → W64) : Frec :=
  { tbc := w 0, cause := (w 1).extractLsb' 57 7, vreq := (w 1).getLsbD 56, part := (w 1).extractLsb' 50 6, first := (w 1).getLsbD 49
    cell := (w 1).extractLsb' 36 12, phys := (w 1).extractLsb' 24 12, ctx := (w 1).extractLsb' 16 3, src := (w 1).extractLsb' 14 2
    pc := (w 1).extractLsb' 0 14, addr := w 2, msgid := (w 3).extractLsb' 32 32, xid := (w 3).extractLsb' 16 16, wid := w 4
    step := (w 5).extractLsb' 32 32, job := (w 5).extractLsb' 0 32, count := (w 6).extractLsb' 32 32, subcause := (w 6).extractLsb' 0 7
    seq := w 7 }

/-- The doublewords of a list of bytes. -/
def wordsOf (b : List Byte) (k : Nat) : W64 := BitVec.ofNat 64 (field b (8 * k) 8)

/-- The error response to a peer for what arrives for a partition that is not open (R409). -/
def State.turnPeerAway (s : State) (pn src : Nat) : State :=
  s.post { vn := .response, src := .root, dst := .peer src
           body := .writeAck { op := .write, part := pn, asker := some (.peer src) } (some causeRemoteError) }

/-- A parcel from a peer handed into the mesh of a partition, when the partition is open and the place passes R28. -/
def State.handIn (s : State) (pn src : Nat) (p : Parcel) : State :=
  let q := s.part pn
  let place := p.dest
  if !q.open_ then s.turnPeerAway pn src
  else if (checkPlace s pn place false).isSome then s
  else
    let dst := if plPool place then .poolRoot (q.dies.getD (plDie place) 0) else .cell (q.dev (plCell place))
    s.post { vn := p.vnet, src := .peer src, dst, body := .parcel p }

/-- A message of a peer, or a fault record, which takes two flits. -/
def State.peerMessage (s : State) (pn src : Nat) (b : List Byte) : State :=
  let w := wordsOf b
  if b.length == 48 then s.handIn pn src (.msg { Smsg.ofWords w with part := BitVec.ofNat 6 pn })
  else s.handIn pn src (.record (Frec.ofWords w) (w 8 &&& 0xFFFFFFF))

/-- The operation that a peer's request asks for. -/
def askedOp (f : Nat → Nat) : AccOp :=
  match f 0 % 3 with
  | 0 => .read
  | 1 => .write
  | _ => .atomic ([AtomOp.add, .and, .or, .xor, .min, .max, .swap, .cas].getD (f 5 % 8) .add) (if f 2 % 2 == 0 then .b32 else .b64)

/-- A peer's request performed at its home, which answers with a response (R269, R390, R457): a read, a write or an atomic of 1 to 8 bytes,
or a 64-byte write of two flits, which fails as one where its line lies outside the partition (R391). What its payload asks for has no layout in the reference, and so is free (log entry 18). -/
def State.peerAsks (s : State) (pn src : Nat) (b : List Byte) : State :=
  if !(s.part pn).open_ then s.turnPeerAway pn src
  else
    let f := Config.reelAsk b
    let op := askedOp f
    let (id, s) := s.fresh
    let ask := fun (pa size data : Nat) (by_ : Endp) =>
      ({ op, ea := BitVec.ofNat 64 pa, key := hbmKey pa, size, data := BitVec.ofNat 64 data, cmp := BitVec.ofNat 64 (f 4), part := pn, id
         asker := some by_ } : Access)
    if b.length == 48 then
      let size := match op with
        | .atomic _ t => if t == .b32 then 4 else 8
        | _ => 2 ^ (f 2 % 4)
      let pa := f 1 / size * size
      s.homeDo (.home (pa / 2 ^ 32)) (ask pa size (f 3) (.peer src))
    else
      let pa := f 1 / 64 * 64
      if !s.homeOwned (.home (pa / 2 ^ 32)) (hbmKey pa) pn then
        s.homeDo (.home (pa / 2 ^ 32)) { ask pa 8 (f 6) (.peer src) with op := .write }
      else (List.range 8).foldl (fun s k =>
        s.homeDo (.home (pa / 2 ^ 32)) { ask (pa + 8 * k) 8 (f (6 + k)) (if k == 7 then .peer src else .host) with op := .write }) s

/-- A flit that arrives in sequence, and what it completes: a request, a response, or a message (R292, R458). The payload of a response has no
layout in the reference: which of the requests that wait it answers is free (log entry 18). -/
def State.flitTaken (s : State) (port : Nat) (f : List Byte) : State :=
  let r := s.reel port
  let r := { r.acked (flitField f 63 52) with rxLast := BitVec.ofNat 12 (flitSeq f) }
  let b := (f.drop 8).take 48
  let all := if flitField f 35 34 == 0 then [b] else r.partial_ ++ [b]
  if flitField f 35 34 % 3 != 0 then s.setReel port { r with partial_ := all }
  else
    let s := s.setReel port { r with partial_ := [] }
    let pn := flitField f 33 28
    let src := flitField f 15 0
    match flitField f 39 36 with
    | 1 => s.peerAsks pn src all.flatten
    | 2 => s.peerDone port (Config.choice s.turn % r.waiting.length)
    | 3 => s.peerMessage pn src all.flatten
    | _ => s

/-- REEL_FLIT_RECEIVE: a flit is taken in sequence, discarded as a duplicate, or, when bad or out of sequence, discarded with a control
flit (R292, R458). -/
def execReelFlitReceive (port : Nat) (flit : List Byte) (s : State) : Out :=
  let r := s.reel port
  let good := (crc64 (flit.take 56)).toNat == field flit 56 8
  event "REEL_FLIT_RECEIVE" (if s.boot == .ready && port < 18 && 2 ≤ r.lanes && !r.retraining && flit.length == 64 then some (
    if !good then s.setReel port (r.control port)
    else if flitField flit 39 36 == 4 then s
    else if (flitSeq flit + 4096 - r.rxLast.toNat) % 4096 == 1 then s.flitTaken port flit
    else if seqUpTo r.rxLast.toNat (flitSeq flit) then s
    else s.setReel port (r.control port)) else none)

/-! ### Replay, shedding and retraining (R458) -/

/-- A replay counted with those of the microsecond before it; 16 of them stay until the port sheds. -/
def Reel.countReplay (r : Reel) (now : Nat) : Reel :=
  if 16 ≤ r.replays.length then r else { r with replays := (r.replays.filter fun t => now ≤ t + 1000) ++ [now] }

/-- The kept flits handed to the link again. -/
def Reel.replay (r : Reel) : Reel := { r with out := r.out ++ r.replayBuf }

/-- REEL_CONTROL_FLIT: a control flit names the last sequence that the peer has; the sender replays what follows it (R458). -/
def execReelControlFlit (port : Nat) (ack : BitVec 12) (s : State) : Out :=
  let r := s.reel port
  event "REEL_CONTROL_FLIT" (if s.boot == .ready && port < 18 && 2 ≤ r.lanes && !r.retraining then some
    (s.setReel port ((r.acked ack.toNat).countReplay s.tbc).replay) else none)

/-- A record to every partition with a share of a port (R458). -/
def State.linkRecord (s : State) (port : Nat) (cause : BitVec 7) : State :=
  (s.parts.filter fun y => y.2.open_ && y.2.reelShare != 0).foldl (fun s y =>
    s.reportLimited y.1 (.peer port) (s.recAt y.1 none cause 3)) s

/-- REEL_SHED: after 16 replays within 1 µs the port stops and retrains on half its lanes (R458). -/
def execReelShed (port : Nat) (s : State) : Out :=
  let r := s.reel port
  event "REEL_SHED" (if port < 18 && 16 ≤ r.replays.length && 4 ≤ r.lanes && !r.retraining then some
    ((s.setReel port { r with lanes := r.lanes / 2, replays := [], retraining := true }).linkRecord port causeLinkDegraded) else none)

/-- The lanes that a retrain brings up, at most those it was made for; fewer than 2 leave the port down. -/
def trainedLanes (r : Reel) (n : Nat) : Nat :=
  let top := if r.lanes == 0 then 8 else r.lanes
  let n := if top < n then top else n
  if 8 ≤ n then 8 else if 4 ≤ n then 4 else if 2 ≤ n then 2 else 0

/-- REEL_RETRAIN_DONE: the port replays on the lanes that have trained, or is down and reports LINK_DOWN, and every access that waits there
completes with HOME_UNREACHABLE (R180, R458). -/
def execReelRetrainDone (port lanes : Nat) (s : State) : Out :=
  let r := s.reel port
  let n := trainedLanes r lanes
  event "REEL_RETRAIN_DONE" (if port < 18 && r.retraining then some (
    if n != 0 then s.setReel port { r.replay with lanes := n, retraining := false }
    else
      let t := s.setReel port { r with lanes := 0, retraining := false, nextTry := s.tbc + 1000000000 }
      let t := r.waiting.foldl (fun t _ => t.peerDone port 0) t
      if r.lanes == 0 then t
      else ({ t with i3cStatus := t.i3cStatus ||| 4 } : State).linkRecord port causeLinkDown) else none)

/-- REEL_RETRAIN_TIMER: a down port is retrained once per second (R458). -/
def execReelRetrainTimer (port : Nat) (s : State) : Out :=
  let r := s.reel port
  event "REEL_RETRAIN_TIMER" (if s.boot == .ready && port < 18 && r.lanes == 0 && !r.retraining && r.nextTry ≤ s.tbc then some
    (s.setReel port { r with retraining := true }) else none)

end Sys2Proof.Machine
end

