-- ==== Sys2Proof/Machine/Boot.lean ====
section
/-! DEFINITION. Power, boot and reset (R20, R453 to R455), the registers of the host port and of the sideband (R448, R460), and the BAR2
windows (R449, R450). -/

namespace Sys2Proof.Machine

/-! ### Boot (R454) -/

/-- The device with everything that power holds gone. Host memory and the safe tier lie outside it. -/
def State.cold (s : State) : State :=
  { mem := s.mem.filter fun y => hostKey 0 ≤ y.1, images := s.images, irqs := s.irqs, inputs := s.inputs, nextId := s.nextId
    turn := s.turn }

/-- A logical cell that its row can no longer serve (R429). -/
def State.lost (s : State) (cell : Nat) : State :=
  s.setCell cell { s.cell cell with gone := true, out := true }

/-- The logical columns of a row from a cell's on moved one physical column toward the spare; without a free spare the cell has no place
(R428, R429). -/
def State.bootShift (s : State) (cell : Nat) : State :=
  let row := rowOf cell
  let map := s.rowMap row
  let free := s.spareFree row
  let next := map ++ [s.spareCol row]
  if free then
    { s with rowMaps := tset s.rowMaps row ((number 0 map).map fun y => if cell % 4 ≤ y.1 then next.getD (y.1 + 1) 5 else y.2) }
  else (s.remap cell 5).lost cell

/-- The self-check of one physical cell: a failing one is quarantined (step 5 of R454). -/
def State.selfCheck (s : State) (phys : Nat) : State :=
  if s.failedPhys.contains phys || Config.selfCheckPasses s.turn phys then s
  else
    let t := match s.logicalOf phys with
      | some cell => s.bootShift cell
      | none => s
    { t with failedPhys := t.failedPhys ++ [phys] }

/-- Steps 1 to 7 of R454 up to the hook window, which stays open for 2 s. -/
def State.bootUp (s : State) : State :=
  let s := (List.range 3840).foldl State.selfCheck s
  { s with boot := .hookWindow (s.tbc + 2000000000) }

/-- POWER_GOOD: the device boots from nothing; the timebase starts at zero (R20, R454). -/
def execPowerGood (s : State) : Out := event "POWER_GOOD" (if s.boot == .off then some s.cold.bootUp else none)

/-- POWER_REMOVAL: all device state ends (R20). -/
def execPowerRemoval (s : State) : Out := event "POWER_REMOVAL" (if s.boot != .off then some s.cold else none)

/-- A device reset: every partition goes, and the boot sequence runs again. The timebase runs on, and row maps keep their quarantine
shifts (R409, R455). What the sensors, the rails and the sideband address are stays, a cell that has tripped stays out until it has cooled
(R371), and a context's reads of the timebase go on from its last one (R20). -/
def State.deviceReset (s : State) : State :=
  let cells := tmap (fun n (c : Cell) =>
    let gone := (s.rowMap (rowOf n)).getD (n % 4) 0 == 5
    ({ c.hot with gone, out := c.hot.out || gone, ctxs := c.clocks } : Cell)) s.cells
  let t : State := { s.cold with
    tbc := s.tbc, cells, rowMaps := s.rowMaps, failedPhys := s.failedPhys, hotPhys := s.hotPhys, physTemp := s.physTemp, rails := s.rails
    railNext := s.railNext, i3cAddr := s.i3cAddr }
  t.bootUp

/-- The value that resets the device (R448, R460). -/
def resetKey : W32 := 0x00005A5A

/-- DEVRESET: the physical function resets the device; any other value is ignored (R448, R455). -/
def execDevreset (value : W32) (s : State) : Out :=
  event "DEVRESET" (if s.boot != .off then some (if value == resetKey then s.deviceReset else s) else none)

/-- I3C_RESET: the sideband resets the device (R455, R460). -/
def execI3cReset (value : W32) (s : State) : Out :=
  event "I3C_RESET" (if s.boot != .off && s.i3cAddr.isSome then some (if value == resetKey then s.deviceReset else s) else none)

/-- ENTDAA: the sideband target takes its dynamic address (R460). -/
def execEntdaa (s : State) : Out := event "ENTDAA" (if s.boot != .off then some { s with i3cAddr := some 0x3A } else none)

/-! ### The hook table (R450, R453) -/

/-- Whether a hook table passes every check: its header, its length, the offsets of its routines, and its signature (R453). -/
def hookTableOk (b : List Byte) : Bool :=
  let count := field b 4 4
  let code := field b 8 4
  let entries := (List.range count).map fun k => field b (64 + 16 * k + 4) 4
  decide (64 ≤ b.length) && field b 0 4 == 0x4B4F4F48 && decide (count ≤ 64) && decide (code ≤ 0x100000) &&
  ((b.drop 12).take 52).all (· == 0) && b.length == 64 + 16 * count + code + 114 && entries.all (fun o => decide (o < code)) &&
  edVerify (fit 57 Config.firmwareKey) (b.drop (b.length - 114)) (b.take (b.length - 114))

/-- Step 8 of R454: the Reel ports trained, every command open; a port that trains down shows in STATUS (R458, R460). The staging area is zeroed
and returned. -/
def State.openUp (s : State) (table : List Byte) : State :=
  let s := { s with
    boot := .ready, hookStage := [], hookTable := table, fwDigest := shake256 (Config.serviceImage ++ table)
    weirDone := s.tbc / 10000, i3cStatus := s.i3cStatus ||| 8 }
  (List.range 18).foldl (fun s k =>
    let n := Config.reelTrained s.turn k
    let lanes := if n == 8 || n == 4 || n == 2 then n else 0
    let s := if lanes == 0 then { s with i3cStatus := s.i3cStatus ||| 4 } else s
    s.setReel k { lanes, nextTry := s.tbc + 1000000000 }) s

/-- HOOKLEN: the table in the staging area is verified and the window ends; outside the window the write is ignored (R448, R450). -/
def execHooklen (value : W32) (s : State) : Out :=
  let n := value.toNat
  let b := (List.range n).map fun k => tget 0 s.hookStage k
  event "HOOKLEN" (
    match s.boot with
    | .off => none
    | .ready => some s
    | .hookWindow _ => some (s.openUp (if 64 ≤ n && n ≤ 0x200000 && hookTableOk b then b else [])))

/-- HOOK_WINDOW_EXPIRY: 2 s pass with no write to HOOKLEN (R450). -/
def execHookWindowExpiry (s : State) : Out :=
  event "HOOK_WINDOW_EXPIRY" (
    match s.boot with
    | .hookWindow ends => if ends ≤ s.tbc then some (s.openUp []) else none
    | _ => none)

/-! ### Registers of the host port and of the sideband (R448, R460) -/

/-- Offsets of BAR0 whose writes are steps of their own: CMD0, the kicks, the second doorbell word, DEVRESET and HOOKLEN. -/
def ownWrite (fn : Fn) (off : Nat) : Bool :=
  off == 0 || match fn with
  | .pf => off == 0x400 || off == 0x410
  | .vf _ => (0x100 ≤ off && off < 0x180) || off == 0x208

/-- A write to a plain register of a BAR0: CMD1 to CMD7, the cell of a verdict, HWIN; every other write is ignored (R448). -/
def State.barWrite (s : State) (fn : Fn) (off : Nat) (v : W64) : State :=
  let n := Fn.num fn
  if off % 8 == 0 && 8 ≤ off && off < 0x40 then s.setBar n off v
  else if fn != .pf && off == 0x200 then s.setBar n off v
  else if fn != .pf && off == 0x300 then s.setBar n off (v &&& 0x00FFFFFF00000FFF)
  else s

/-- REGISTER_WRITE: a write to a register that has no step of its own (R448, R460); one to a CMD register waits until the host's earlier writes through
BAR2 are performed (R449). -/
def execRegisterWrite (port : HostPort) (off : Nat) (value : W64) (s : State) : Out :=
  event "REGISTER_WRITE" (
    match port with
    | .bar0 fn => if s.fnUp fn && off < 0x10000 && !ownWrite fn off && (0x40 ≤ off || s.hostSettled fn) then some (s.barWrite fn off value) else none
    | .i3c => if s.boot != .off && s.i3cAddr.isSome && off != 0x18 then some
        (if off == 0x14 then { s with i3cStatus := s.i3cStatus &&& ~~~(value.extractLsb' 0 4) } else s) else none)

/-- What a read of a BAR0 register returns (R448). -/
def State.barRead (s : State) (fn : Fn) (off : Nat) : W64 :=
  let n := Fn.num fn
  if off < 0x80 then s.bar n off else if fn != .pf && off == 0x300 then s.bar n off else 0

/-- The temperature of the hottest physical cell, in 1/16 °C (R370, R460). -/
def State.hottest (s : State) : Nat := (s.physTemp.map (·.2)).foldl Nat.max 0

/-- What the sideband target shows at an offset (R460): its part and stepping, the hottest cell, the power and the rail currents, which the
sensors of the package give within the limits of R365 and R459, and STATUS. The sensors show what their reset values say until the boot is done (log
entry 58). -/
def State.i3cReg (s : State) (off : Nat) : W64 :=
  let shown := fun (v : BitVec 16) => if s.boot == .ready then v.setWidth 64 else 0
  let sensed := fun (k limit : Nat) => shown (BitVec.ofNat 16 ((Config.sensor s.turn k).toNat % (limit + 1)))
  match off with
  | 0x00 => 0x30720021
  | 0x04 => shown (BitVec.ofNat 16 s.hottest)
  | 0x08 => sensed 0 2600
  | 0x0C => sensed 1 1100
  | 0x0E => sensed 2 1100
  | 0x10 => sensed 3 1100
  | 0x12 => sensed 4 1100
  | 0x14 => s.i3cStatus.setWidth 64
  | _ => 0

/-! ### BAR2 (R449, R450) -/

/-- The bytes of the staging area written. -/
def State.stage (s : State) (off size : Nat) (v : W64) : State :=
  { s with hookStage := (List.range size).foldl (fun t k => tset t (off + k) (v.extractLsb' (8 * k) 8)) s.hookStage }

/-- A walk for BAR2 through the ROM walker (R449). -/
def State.bar2Walk (s : State) (pn : Nat) (asid : BitVec 12) (va : Nat) : WalkEnd :=
  let p := s.part pn
  match tget none p.asids asid.toNat with
  | some a => if a.quarantine then .notPresent else (romWalk s.soundMem p asid va walkLevels a.root []).1
  | none => .notPresent

/-- An access through BAR2 that leaves the slabs: one log record and one fault record (R391, R449). -/
def State.bar2Violation (s : State) (pn : Nat) (va : W64) (pa : Nat) : State :=
  let s := s.logViolation { tbc := BitVec.ofNat 64 s.tbc, addr := va, kind := 5, at_ := 3, part := pn, phys := 0xFFF
                            target := BitVec.ofNat 32 (pa / 2 ^ 32) }
  s.report pn .host { s.recAt pn none causePartitionViolation 3 with addr := va }

/-- An access through BAR2 that is dropped and counted (R449). -/
def State.bar2Drop (s : State) (pn : Nat) : State :=
  let p := s.part pn
  s.setPart pn { p with bar2Drops := p.bar2Drops + 1 }

/-- A part of an access through BAR2 that lies in one doubleword: its page, its virtual address and its bytes. -/
structure Bar2Part where
  page : TlbEntry
  va : Nat
  size : Nat
  deriving DecidableEq, Repr

/-- The physical address of a part. -/
def Bar2Part.pa (x : Bar2Part) : Nat := x.page.pbase + (x.va - x.page.vbase)

/-- The parts of an access whose first and last byte two pages map. -/
def bar2Parts (e f : TlbEntry) (va size : Nat) : List Bar2Part :=
  let n := 8 - va % 8
  if size ≤ n then [⟨e, va, size⟩] else [⟨e, va, n⟩, ⟨f, va + n, size - n⟩]

/-- A request of the host for a peer page: it goes to its Reel port as any other (R292, R456, log entry 18). -/
def State.bar2Request (s : State) (pn : Nat) (x : Bar2Part) (op : AccOp) (v : W64) : State :=
  let (id, s) := s.fresh
  let dev := x.page.peerdev.toNat
  let a : Access := { op, ea := BitVec.ofNat 64 x.va, key := peerKey dev x.pa, size := x.size, data := v, part := pn, id, asid := x.page.asid
                      asker := some .host }
  s.post { vn := .request, src := .host, dst := .peer dev, body := .access a }

/-- A part of a write of the host performed at its home, or sent to its peer (R449). -/
def State.bar2Write (s : State) (pn : Nat) (x : Bar2Part) (v : W64) : State :=
  let home := Endp.home (x.pa / 2 ^ 32)
  let key := hbmKey x.pa
  if x.page.peer then s.bar2Request pn x .write v
  else ((s.homeWrite home key x.size v).noteRel key x.size none).unpoison home key x.size

/-- The page of a byte of a window: its mapping, or nothing where the access fails. -/
def State.bar2Page (s : State) (pn : Nat) (asid : BitVec 12) (va : Nat) (write : Bool) : Option TlbEntry :=
  match s.bar2Walk pn asid va with
  | .leaf e l =>
    let t := tlbOf asid va e l
    if (t.denies (if write then .write else .read)).isSome then none else some t
  | _ => none

/-- The first byte of an access whose walk leaves the slabs, with where it goes. -/
def State.bar2Outside (s : State) (pn : Nat) (asid : BitVec 12) : List Nat → Option (Nat × Nat)
  | [] => none
  | va :: l => match s.bar2Walk pn asid va with
    | .outside pa => some (va, pa)
    | _ => s.bar2Outside pn asid l

/-- What a read that fails returns: all ones (R449, R450). -/
def allOnes (size : Nat) : W64 := BitVec.ofNat 64 (2 ^ (8 * size) - 1)

/-- What a part of a read returns: memory, or what a peer answers; none where the read fails, as one of a poisoned line does (R431). -/
def State.bar2Bytes (s : State) (x : Bar2Part) : Option (List Byte) :=
  if x.page.peer then
    match Config.peerAnswer s.turn (BitVec.ofNat 64 x.va) with
    | (none, v) => if s.portDown x.page.peerdev.toNat then none else some ((leBytes 8 v.toNat).take x.size)
    | (some _, _) => none
  else if s.poisonedAt x.pa then none
  else some (readBytes s.mem (hbmKey x.pa) x.size)

/-- A read of the host through BAR2 whose pages allow it; one that fails after all is counted and returns all ones (R431, R449). -/
def State.bar2Read (s : State) (pn size : Nat) (l : List Bar2Part) : State :=
  let t := (l.filter fun x => x.page.peer).foldl (fun s x => s.bar2Request pn x .read 0) s
  match l.mapM s.bar2Bytes with
  | some b => { t with bar2Data := BitVec.ofNat 64 (ofLE b.flatten) }
  | none => { t.bar2Drop pn with bar2Data := allOnes size }

/-- An access of the host through the BAR2 of a virtual function: it is performed when every byte of it can be; one that fails
drops a write and returns all ones to a read (R449). -/
def State.bar2Vf (s : State) (pn off size : Nat) (write : Option W64) : State :=
  let w := s.bar (pn + 1) 0x300
  let asid := w.extractLsb' 0 12
  let va := (w.extractLsb' 32 24).toNat * 2 ^ 32 + off
  let ends := [va, va + size - 1]
  let ones := fun (s : State) => if write.isSome then s else { s with bar2Data := allOnes size }
  match s.bar2Outside pn asid ends with
  | some (a, pa) => ones (s.bar2Violation pn (BitVec.ofNat 64 a) pa)
  | none => match ends.mapM fun a => s.bar2Page pn asid a write.isSome with
    | some [e, f] => match write with
      | none => s.bar2Read pn size (bar2Parts e f va size)
      | some v => (bar2Parts e f va size).foldl (fun s x => s.bar2Write pn x (v >>> (8 * (x.va - va)))) s
    | _ => ones (s.bar2Drop pn)

/-- What a read of the staging area returns during the hook window, and all ones after it (R450). -/
def State.staged (s : State) (off size : Nat) : W64 :=
  match s.boot with
  | .hookWindow _ => BitVec.ofNat 64 (ofLE ((List.range size).map fun k => tget 0 s.hookStage (off + k)))
  | _ => allOnes size

/-- BAR2_ACCESS: a host access of 1 to 8 bytes through a BAR2 window; what a read returns stands in `bar2Data` (R449, R450). A write waits until the
earlier ones are performed at their homes. -/
def execBar2Access (fn : Fn) (off size : Nat) (write : Option W64) (s : State) : Out :=
  event "BAR2_ACCESS" (if s.fnUp fn && 1 ≤ size && size ≤ 8 && (write.isNone || s.hostSettled fn) then some (
    match fn with
    | .pf => match s.boot, write with
      | .hookWindow _, some v => if off + size ≤ 0x200000 then s.stage off size v else s
      | _, none => { s with bar2Data := s.staged off size }
      | _, _ => s
    | .vf k => if off + size ≤ 2 ^ 32 then s.bar2Vf k off size write else s) else none)

end Sys2Proof.Machine
end

