-- ==== Sys2Proof/Machine/Control.lean ====
section
/-! DEFINITION. Local control (R96, R136 to R140), one meaning per instruction. -/

namespace Sys2Proof.Machine

/-- A taken local branch: the program counter at the target, and the BR_TAKEN record, with the target for BRX and RET
(R136, R441). -/
def jump (s : State) (target : PC) (named : Bool) : State :=
  let s := s.trace s.cur 2 s.me.r.pc (if named then [target.setWidth 64] else [])
  s.setMe (s.me.at_ target)

/-- A branch that is taken or not. -/
def branch (h : Head) (s : State) (taken : Bool) (target : PC) (named : Bool) : Out :=
  .next (if taken then jump s target named else s.setMe (s.me.past (lenOf h false)))

def execBr (h : Head) (off : BitVec 14) (s : State) : Out :=
  branch h s (s.me.guard h) (s.me.r.pc + off) false

/-- BRL writes the address of the word after it into s31 (R136). What that address is past the end of the store the reference does not say.
DESIGN CHOICE, log entry 23: it does not wrap, so s31 takes 0x4000. -/
def execBrl (h : Head) (off : BitVec 14) (s : State) : Out :=
  if s.me.guard h then
    let s := s.setMe (s.me.setS 31 (BitVec.ofNat 64 (s.me.r.pc.toNat + lenOf h false)))
    branch h s true (s.me.r.pc + off) false
  else branch h s false 0 false

def execBrx (h : Head) (ra : Reg) (s : State) : Out :=
  branch h s (s.me.guard h) ((s.me.s ra.toNat).extractLsb' 0 14) true

def execRet (h : Head) (s : State) : Out :=
  branch h s (s.me.guard h) ((s.me.s 31).extractLsb' 0 14) true

def execPushm (h : Head) (pa : PReg) (s : State) : Out :=
  finishLen (lenOf h false) (
    let x := s.me
    if 16 ≤ x.r.masks.length then .trap { cause := causeMaskOverflow } s
    else .done (s.setMe { x with r := { x.r with masks := x.r.cm :: x.r.masks, cm := x.r.cm &&& x.p pa.toNat } }))

def execElsem (h : Head) (pa : PReg) (s : State) : Out :=
  finishLen (lenOf h false) (
    let x := s.me
    match x.r.masks with
    | [] => .trap { cause := causeMaskUnderflow } s
    | m :: _ => .done (s.setMe { x with r := { x.r with cm := m &&& ~~~(x.p pa.toNat) } }))

def execPopm (h : Head) (s : State) : Out :=
  finishLen (lenOf h false) (
    let x := s.me
    match x.r.masks with
    | [] => .trap { cause := causeMaskUnderflow } s
    | m :: ms => .done (s.setMe { x with r := { x.r with masks := ms, cm := m } }))

def execBrany (h : Head) (pa : PReg) (off : BitVec 14) (s : State) : Out :=
  branch h s (s.me.active h &&& s.me.p pa.toNat != 0) (s.me.r.pc + off) false

def execBrall (h : Head) (pa : PReg) (off : BitVec 14) (s : State) : Out :=
  branch h s (s.me.active h &&& ~~~(s.me.p pa.toNat) == 0) (s.me.r.pc + off) false

/-- LOOP opens with D not 0 and closes with D = 0 (R140). -/
def execLoop (h : Head) (d : Reg) (off : BitVec 14) (s : State) : Out :=
  let x := s.me
  let target := x.r.pc + off
  let stay := fun (x : Ctx) => finishLen (lenOf h false) (.done (s.setMe x))
  let nest := finishLen (lenOf h false) (.trap { cause := causeLoopNest } s)
  if !x.guard h then stay x
  else if d != 0 then
    if x.s d.toNat == 0 then branch h s true target false
    else if 4 ≤ x.r.loops.length then nest
    else stay { x with r := { x.r with loops := x.s d.toNat :: x.r.loops } }
  else match x.r.loops with
    | [] => nest
    | c :: cs =>
      if c - 1 != 0 then branch h (s.setMe { x with r := { x.r with loops := (c - 1) :: cs } }) true target false
      else stay { x with r := { x.r with loops := cs } }

end Sys2Proof.Machine
end

