-- ==== Sys2Proof/Machine/Loader.lean ====
section
/-! DEFINITION. The code loader: code objects and graph objects (R81, R82, R296 to R299), placement, relocation and the start of a
load (R73 to R86), and its end. -/

namespace Sys2Proof.Machine

/-! ### Code objects (R81, R82) -/

/-- A piece: where it goes, its code words and scratch data as bytes, and the record of its HBM data block. -/
structure PieceRec where
  replicated : Bool := false
  die : Nat := 0
  at_ : Nat := 0
  code : List Byte := []
  data : List Byte := []
  align : Nat := 1
  block : Option Nat := none
  deriving DecidableEq, Repr

/-- A symbol; its `kind` is 1 entry, 2 scratch datum, 3 HBM datum, 4 tensor or 5 import. -/
structure Sym where
  name : List Byte := []
  kind : Nat := 5
  exported : Bool := false
  pin : Bool := false
  cls : Option Nat := none
  piece : Nat := 0
  value : Nat := 0
  live : W32 := 0
  budget : W32 := 0
  gather : BitVec 16 := 0
  deriving DecidableEq, Repr

/-- A relocation. -/
structure Reloc where
  piece : Nat
  type : Nat
  area : Nat
  at_ : Nat
  sym : Nat
  addend : Int
  deriving DecidableEq, Repr

/-- A channel that a code object declares. -/
structure ChanRec where
  id : Nat
  writer : Nat
  reader : Nat
  lgring : Nat
  scope : Nat
  quotaM1 : Nat
  deriving DecidableEq, Repr

/-- A descriptor image, under its name (R76, R82). -/
structure TensorRec where
  name : List Byte
  exported : Bool
  piece : Nat
  td : Nat
  image : List W64
  deriving DecidableEq, Repr

/-- A block of HBM data. -/
structure BlockRec where
  bytes : List Byte := []
  piece : Nat := 0
  deriving DecidableEq, Repr

/-- A code object. -/
structure CodeObj where
  pieces : List PieceRec
  syms : List Sym
  relocs : List Reloc
  chans : List ChanRec
  tensors : List TensorRec
  blocks : List BlockRec
  digest : List Byte
  priv : Bool
  deriving DecidableEq, Repr

/-- n bytes at an offset. -/
def slice (b : List Byte) (off n : Nat) : List Byte := (b.drop off).take n
/-- Whether n bytes at an offset lie within an object. -/
def within (b : List Byte) (off n : Nat) : Bool := off + n ≤ b.length
/-- Whether n bytes at an offset are zero. -/
def zeros (b : List Byte) (off n : Nat) : Bool := (slice b off n).all (· == 0)
/-- The records of a table. -/
def recordsAt (b : List Byte) (off size n : Nat) : List (List Byte) := (List.range n).map fun k => slice b (off + size * k) size
/-- Whether an alignment is one that R75 allows. -/
def alignOk (n : Nat) : Bool := isPow2 n && n ≤ 4096

/-- A piece record (R73, R81). That a load fails for one whose KIND is not in the table, whose parts or block index lie outside the object, or whose
DALIGN is no alignment is the model's. DESIGN CHOICE, log entry 70. -/
def parsePiece (b r : List Byte) : Option PieceRec :=
  let replicated := field r 4 1 == 1
  let w := field r 8 4
  let code := field r 12 4
  let words := field r 16 4
  let data := field r 20 4
  let bytes := field r 24 4
  let block := field r 30 2
  if field r 4 1 < 2 && zeros r 6 2 && words ≤ 16384 && within b code (4 * words) && within b data bytes &&
    (bytes == 0 || alignOk (field r 28 2)) && (if replicated then field r 5 1 < 4 && 1 ≤ w && w ≤ 768 else w < 4096) then some
    { replicated, die := field r 5 1, at_ := w, code := slice b code (4 * words), data := slice b data bytes
      align := Nat.max 1 (field r 28 2), block := if block == 0xFFFF then none else some block } else none

/-- A name of the string table. -/
def nameAt (b : List Byte) (off : Nat) : List Byte := (b.drop off).takeWhile (· != 0)

/-- Whether the value of a symbol lies in what it names. No rule has a load fail for one beyond its piece's words, scratch data or block (R81,
R84). DESIGN CHOICE, log entry 65: the load fails. -/
def symValueOk (kind value : Nat) (p : PieceRec) (blocks : List BlockRec) : Bool :=
  match kind with
  | 1 => value < 16384 && 4 * value ≤ p.code.length
  | 2 => value ≤ p.data.length
  | 3 => p.block.any fun k => value ≤ (blocks.getD k {}).bytes.length
  | 4 => value < 64
  | _ => true

/-- A symbol record (R74, R81). That a load fails for one whose KIND is not in the table, or whose piece or string lies outside the object, is the
model's. DESIGN CHOICE, log entry 70. -/
def parseSym (b : List Byte) (str : Nat) (pieces : List PieceRec) (blocks : List BlockRec) (r : List Byte) : Option Sym :=
  let kind := field r 4 1
  let flags := field r 5 1
  let piece := field r 6 2
  let cls := if flags / 4 % 2 == 1 then some (field r 22 1) else none
  if 1 ≤ kind && kind ≤ 5 && flags < 8 && zeros r 23 9 && within b (str + field r 0 4) 1 &&
    (kind == 5 || piece < pieces.length) && symValueOk kind (field r 8 4) (pieces.getD piece {}) blocks &&
    (kind != 1 || field r 16 4 != 0) && cls.all (fun c => c < 32 && c != 7) then some
    { name := nameAt b (str + field r 0 4), kind, exported := flags % 2 == 1, pin := flags / 2 % 2 == 1, cls, piece
      value := field r 8 4, live := BitVec.ofNat 32 (field r 12 4), budget := BitVec.ofNat 32 (field r 16 4)
      gather := BitVec.ofNat 16 (field r 20 2) } else none

/-- A relocation record (R81). -/
def parseReloc (pieces syms : Nat) (r : List Byte) : Option Reloc :=
  let type := field r 2 1
  if field r 0 2 < pieces && 1 ≤ type && type ≤ 6 && field r 3 1 < 3 && field r 8 4 < syms then some
    { piece := field r 0 2, type, area := field r 3 1, at_ := field r 4 4, sym := field r 8 4
      addend := (BitVec.ofNat 32 (field r 12 4)).toInt } else none

/-- A channel record (R77, R82). -/
def parseChan (pieces : List PieceRec) (r : List Byte) : Option ChanRec :=
  let single := fun k => (pieces[k]?).any fun p => !p.replicated
  let lg := field r 6 1
  if single (field r 2 2) && single (field r 4 2) && 2 ≤ lg && lg ≤ 14 && field r 7 1 < 4 &&
    2 ^ lg ≤ field r 8 4 + 1 && zeros r 12 20 then some
    { id := field r 0 2, writer := field r 2 2, reader := field r 4 2, lgring := lg, scope := field r 7 1, quotaM1 := field r 8 4 } else none

/-- A tensor record (R76, R82). -/
def parseTensor (b : List Byte) (str pieces : Nat) (r : List Byte) : Option TensorRec :=
  if within b (str + field r 0 4) 1 && field r 4 2 < pieces && field r 6 1 < 64 && field r 7 1 < 2 && zeros r 8 8 then some
    { name := nameAt b (str + field r 0 4), exported := field r 7 1 == 1, piece := field r 4 2, td := field r 6 1, image := (List.range 4).map fun k => BitVec.ofNat 64 (field r (16 + 8 * k) 8) } else none

/-- An HBM data block record (R82). That a load fails for one whose bytes or piece lie outside the object, or whose ALIGN is no alignment, and that a
block which the HDATA of no piece names is ignored, is the model's. DESIGN CHOICE, log entry 70. -/
def parseBlock (b : List Byte) (pieces : Nat) (r : List Byte) : Option BlockRec :=
  if within b (field r 0 4) (field r 4 4) && alignOk (field r 8 2) && field r 10 2 < pieces && zeros r 12 4 then some
    { bytes := slice b (field r 0 4) (field r 4 4), piece := field r 10 2 } else none

/-- Whether a step record has its reserved bytes zero and an id (R78, R82). -/
def stepRecOk (r : List Byte) : Bool := zeros r 28 4 && field r 4 4 != 0
/-- Whether a launch record has its reserved bytes zero and names its own object (R297). -/
def launchRecOk (r : List Byte) : Bool := field r 0 4 == 0xFFFFFFFF && field r 0x14 2 < 512 && zeros r 0x16 2 && zeros r 0x38 8 && field r 0x18 8 < 2 ^ 42

/-- A code object read and checked (R81, R82, step 1 of R84). No rule has a load fail where SIZE differs from the size that the list of GRAPH_LOAD
gives. DESIGN CHOICE, log entry 65: the load fails. Nor does a rule name a failure for a table that reaches beyond the object or for a malformed
record. DESIGN CHOICE, log entry 70: the load fails. -/
def parseObj (b : List Byte) (priv : Bool) : Option CodeObj := do
  let nPiece := field b 0x08 4
  let nSym := field b 0x0C 4
  let nRel := field b 0x10 4
  let nChan := field b 0x14 2
  let nTens := field b 0x16 2
  let nLaunch := field b 0x18 2
  let nStep := field b 0x1A 2
  let nBlock := field b 0x34 2
  let offRec := field b 0x28 4
  let offTens := offRec + 32 * nChan
  let offStep := offTens + 48 * nTens
  let offLaunch := offStep + 32 * nStep
  let offBlock := offLaunch + 64 * nLaunch
  guard (128 ≤ b.length && field b 0 4 == 0x444E5250 && field b 4 2 == 1 && zeros b 6 2 && zeros b 0x36 10 &&
    field b 0x30 4 == b.length && slice b 0x40 64 == shake256 (b.drop 0x80))
  guard (within b (field b 0x1C 4) (32 * nPiece) && within b (field b 0x20 4) (32 * nSym) && within b (field b 0x24 4) (16 * nRel) &&
    within b offBlock (16 * nBlock))
  let pieces ← (recordsAt b (field b 0x1C 4) 32 nPiece).mapM (parsePiece b)
  let blocks ← (recordsAt b offBlock 16 nBlock).mapM (parseBlock b nPiece)
  guard ((number 0 pieces).all fun y => y.2.block.all fun k => (blocks[k]?).any fun x => x.piece == y.1)
  let syms ← (recordsAt b (field b 0x20 4) 32 nSym).mapM (parseSym b (field b 0x2C 4) pieces blocks)
  let relocs ← (recordsAt b (field b 0x24 4) 16 nRel).mapM (parseReloc nPiece nSym)
  let chans ← (recordsAt b offRec 32 nChan).mapM (parseChan pieces)
  let tensors ← (recordsAt b offTens 48 nTens).mapM (parseTensor b (field b 0x2C 4) nPiece)
  guard ((recordsAt b offStep 32 nStep).all stepRecOk && (recordsAt b offLaunch 64 nLaunch).all launchRecOk)
  return { pieces, syms, relocs, chans, tensors, blocks, digest := slice b 0x40 64, priv }

/-! ### Placement (steps 3 and 4 of R84) -/

/-- A piece that has been placed: its cells with the scratch offset on each, the word address, the partition-relative die and the lane of
a replicated one, and the virtual base and the physical pages of its HBM data block. -/
structure Placed where
  cells : List (Nat × Nat) := []
  word : Nat := 0
  lane : Option (Nat × Nat) := none
  va : Nat := 0
  pages : List Nat := []
  deriving DecidableEq, Repr

/-- What is taken while a load is placed: word ranges and scratch ranges by cell, lanes by die, the load area by address, the new tables
and pages, memory with the tables written, and how many choices have been made. -/
structure Plan where
  words : List (Nat × Nat × Nat)
  scratch : List (Nat × Nat × Nat)
  lanes : List (Nat × Nat)
  area : List (Nat × Nat)
  tables : List (Nat × Nat × Nat) := []
  pages : List (W64 × Nat) := []
  mem : Memory
  made : Nat := 0
  deriving DecidableEq, Repr

/-- The first number from k on, of n, that passes a test. -/
def firstOk (ok : Nat → Bool) : Nat → Nat → Option Nat
  | 0, _ => none
  | n + 1, k => if ok k then some k else firstOk ok n (k + 1)

/-- One of n numbers that pass a test: the one that the loader picks, or else the lowest (log entry 9). -/
def choose (pick : Nat → Nat) (k n : Nat) (ok : Nat → Bool) : Option Nat :=
  if n == 0 then none else if ok (pick k % n) then some (pick k % n) else firstOk ok n 0

/-- Whether a range of a cell is free in a list of ranges. -/
def rangeFree (l : List (Nat × Nat × Nat)) (cell at_ n : Nat) : Bool :=
  !l.any fun y => y.1 == cell && at_ < y.2.1 + y.2.2 && y.2.1 < at_ + n

/-- A range of a scratchpad taken, at an alignment. -/
def Plan.takeScratch (q : Plan) (pick : Nat → Nat) (cell n align : Nat) : Option (Nat × Plan) :=
  (choose pick q.made (0x80000 / align) fun k => align * k + n ≤ 0x80000 && rangeFree q.scratch cell (align * k) n).map fun k =>
    (align * k, { q with scratch := q.scratch ++ [(cell, align * k, n)], made := q.made + 1 })

/-- The cells of a list that have room for a piece: n words at an address of the store, and so many bytes at an offset of the scratchpad. -/
def Plan.roomy (q : Plan) (r : PieceRec) (cells : List Nat) (word off : Nat) : List Nat :=
  cells.filter fun c => rangeFree q.words c word (r.code.length / 4) &&
    (r.data.isEmpty || (off + r.data.length ≤ 0x80000 && rangeFree q.scratch c off r.data.length))

/-- n different cells of a list, as the loader picks them. -/
def pickCells (pick : Nat → Nat) (cells : List Nat) : Nat → Nat → List Nat → Option (List Nat)
  | 0, _, l => some l
  | n + 1, k, l =>
    match choose pick k cells.length fun j => !l.contains (cells.getD j 0) with
    | some j => pickCells pick cells n (k + 1) (l ++ [cells.getD j 0])
    | none => none

/-- A piece put on n cells of a list: at one word address on all of them, its data at one offset on all (R317, R443). Each choice is the one
that the loader picks, or else the lowest with which the piece fits (log entry 9). -/
def Plan.takeRoom (q : Plan) (pick : Nat → Nat) (r : PieceRec) (cells : List Nat) (n : Nat) : Option (List Nat × Nat × Nat × Plan) := do
  let offs := 0x80000 / r.align
  let fits := fun w k => n ≤ (q.roomy r cells w (r.align * k)).length
  let w ← choose pick q.made (16385 - r.code.length / 4) fun w => (firstOk (fits w) offs 0).isSome
  let k ← choose pick (q.made + 1) offs (fits w)
  let off := r.align * k
  let l ← pickCells pick (q.roomy r cells w off) n (q.made + 2) []
  return (l, w, off, { q with
    words := q.words ++ l.map fun c => (c, w, r.code.length / 4)
    scratch := if r.data.isEmpty then q.scratch else q.scratch ++ l.map fun c => (c, off, r.data.length)
    made := q.made + 2 + n })

/-- n bytes taken from lo to hi, aligned to their number. -/
def Plan.takeArea (q : Plan) (pick : Nat → Nat) (lo hi n : Nat) : Option (Nat × Plan) :=
  let base := (lo + n - 1) / n * n
  (choose pick q.made ((hi - base) / n) fun k =>
      !q.area.any fun y => base + n * k < y.1 + y.2 && y.1 < base + n * k + n).map fun k =>
    let pa := base + n * k
    (pa, { q with area := q.area ++ [(pa, n)], made := q.made + 1 })

/-- Where the new tables of an ASID go: the table area for the system ASID (R407), the load area for another (R84; log entry 9). -/
def Part.tableRange (p : Part) (asid : BitVec 12) : Nat × Nat :=
  if asid.toNat == p.asidBase then (p.sysTablesEnd, p.loadArea) else (p.loadArea, p.sysEnd)

/-- The bytes of the table that the entries of a level lead to (R398). -/
def tableBytes (level : Nat) : Nat := if level = 0 then 0x10000 else if level = 1 then 4096 else 256

/-- Whether a 64 KiB page can be mapped from a table on: no leaf maps it, and the tables above it can be entered. -/
def mappable (m : Memory) (p : Part) (va : Nat) : List (Nat × Nat × Nat) → Nat → Bool
  | [], _ => false
  | (level, low, bits) :: rest, table =>
    let pa := table + 8 * levelIndex va low bits
    let e := BitVec.ofNat 64 (readLE m (hbmKey pa) 8)
    p.ownsPa pa && (!e.getLsbD 0 || (!entryBad e level && !e.getLsbD 4 && mappable m p va rest (entryAddr e)))

/-- A 64 KiB page mapped, with the tables that its mapping lacks taken from the range r (step 4 of R84). -/
def mapPage (pick : Nat → Nat) (r : Nat × Nat) (va leaf : Nat) : List (Nat × Nat × Nat) → Nat → Plan → Option Plan
  | [], _, _ => none
  | (level, low, bits) :: rest, table, q =>
    let pa := table + 8 * levelIndex va low bits
    if level == 3 then some { q with mem := writeLE q.mem (hbmKey pa) 8 leaf }
    else
      let e := BitVec.ofNat 64 (readLE q.mem (hbmKey pa) 8)
      if e.getLsbD 0 then mapPage pick r va leaf rest (entryAddr e) q
      else match q.takeArea pick r.1 r.2 (tableBytes level) with
      | none => none
      | some (t, q) =>
        let m := writeLE (clearRange q.mem (hbmKey t) (tableBytes level)) (hbmKey pa) 8 (t + 1)
        mapPage pick r va leaf rest t { q with mem := m, tables := q.tables ++ [(t, tableBytes level, pa)] }

/-- n pages of a block taken and mapped one after another from a virtual address on. -/
def mapBlock (pick : Nat → Nat) (p : Part) (r : Nat × Nat) (root : Nat) : Nat → Nat → Plan → Option (List Nat × Plan)
  | 0, _, q => some ([], q)
  | n + 1, va, q => do
    let (pa, q) ← q.takeArea pick p.loadArea p.sysEnd 0x10000
    let q ← mapPage pick r va (pa + 0x1F) walkLevels root q
    let (l, q) ← mapBlock pick p r root n (va + 0x10000) { q with pages := q.pages ++ [(BitVec.ofNat 64 va, pa)] }
    return (pa :: l, q)

/-- The 64 KiB pages below 0x00FF_0000_0000_0000. -/
def loadPages : Nat := 0xFF00000000

/-- An HBM data block placed and mapped (R75, R84). Whether a block of 0 bytes takes a page the reference does not say. DESIGN CHOICE, log entry 70:
it takes one. -/
def Plan.takeBlock (q : Plan) (pick : Nat → Nat) (p : Part) (r : Nat × Nat) (root n : Nat) : Option (Nat × List Nat × Plan) := do
  let pages := Nat.max 1 ((n + 0xFFFF) / 0x10000)
  let v ← choose pick q.made loadPages fun k =>
    k + pages ≤ loadPages && (List.range pages).all fun j => mappable q.mem p ((k + j) * 0x10000) walkLevels root
  let (l, q) ← mapBlock pick p r root pages (v * 0x10000) { q with made := q.made + 1 }
  return (v * 0x10000, l, q)

/-- The cells that a piece may go to, how many it takes of them, and its lane. A status where a named cell lies outside the partition, the
die has fewer cells than replicas, or no lane is left. -/
def Plan.takeCells (q : Plan) (pick : Nat → Nat) (p : Part) (r : PieceRec) : Nat ⊕ (List Nat × Nat × Option (Nat × Nat) × Plan) :=
  if !r.replicated then if r.at_ < p.cellCount then .inr ([p.dev r.at_], 1, none, q) else .inl stBadParameter
  else match p.dies[r.die]? with
  | none => .inl stBadParameter
  | some d =>
    let cells := p.cells.filter fun n => dieOf n == d
    if cells.length < r.at_ then .inl stBadParameter
    else match choose pick q.made 256 fun k => !q.lanes.contains (d, k) with
    | some k => .inr (cells, r.at_, some (r.die, k), { q with lanes := q.lanes ++ [(d, k)], made := q.made + 1 })
    | none => .inl stNoResource

/-- The root of the graph's ASID when its walker is the ROM walker and its L0 table lies in the partition's slabs (R84). -/
def Part.loadRoot (p : Part) (asid : BitVec 12) : Option Nat :=
  match tget none p.asids asid.toNat with
  | some a => if !a.quarantine && !a.supplied && p.ownsRange a.root 0x10000 then some a.root else none
  | none => none

/-- One piece placed. -/
def placePiece (pick : Nat → Nat) (p : Part) (asid : BitVec 12) (blocks : List BlockRec) (q : Plan) (r : PieceRec) :
    Nat ⊕ (Placed × Plan) :=
  match q.takeCells pick p r with
  | .inl st => .inl st
  | .inr (cells, n, lane, q) =>
    let rest : Option (Placed × Plan) := do
      let (l, word, off, q) ← q.takeRoom pick r cells n
      let l := l.map fun c => (c, off)
      match r.block with
      | none => return ({ cells := l, word, lane }, q)
      | some k =>
        let root ← p.loadRoot asid
        let (va, pages, q) ← q.takeBlock pick p (p.tableRange asid) root (blocks.getD k {}).bytes.length
        return ({ cells := l, word, lane, va, pages }, q)
    match rest with
    | some x => .inr x
    | none => .inl (if r.block.isSome && (p.loadRoot asid).isNone then stBadParameter else stNoResource)

/-- The pieces of an object placed, in order. -/
def placePieces (pick : Nat → Nat) (p : Part) (asid : BitVec 12) (blocks : List BlockRec) :
    List PieceRec → Plan → Nat ⊕ (List Placed × Plan)
  | [], q => .inr ([], q)
  | r :: rs, q =>
    match placePiece pick p asid blocks q r with
    | .inl st => .inl st
    | .inr (x, q) => match placePieces pick p asid blocks rs q with
      | .inl st => .inl st
      | .inr (l, q) => .inr (x :: l, q)

/-- The pieces of every object placed. -/
def placeObjs (pick : Nat → Nat) (p : Part) (asid : BitVec 12) : List CodeObj → Plan → Nat ⊕ (List (List Placed) × Plan)
  | [], q => .inr ([], q)
  | o :: os, q =>
    match placePieces pick p asid o.blocks o.pieces q with
    | .inl st => .inl st
    | .inr (x, q) => match placeObjs pick p asid os q with
      | .inl st => .inl st
      | .inr (l, q) => .inr (x :: l, q)

/-- The rings of a list of channels placed in the scratchpads of their reader cells. -/
def placeRings (pick : Nat → Nat) (l : List Placed) : List ChanRec → Plan → Option (List (ChanRec × Nat) × Plan)
  | [], q => some ([], q)
  | c :: cs, q => do
    let cell := ((l.getD c.reader {}).cells.headD (0, 0)).1
    let (off, q) ← q.takeScratch pick cell (8 * 2 ^ c.lgring) 64
    let (rest, q) ← placeRings pick l cs q
    return ((c, off) :: rest, q)

/-- The rings of every object. -/
def placeAllRings (pick : Nat → Nat) : List (CodeObj × List Placed) → Plan → Option (List (List (ChanRec × Nat)) × Plan)
  | [], q => some ([], q)
  | (o, l) :: rest, q => do
    let (x, q) ← placeRings pick l o.chans q
    let (xs, q) ← placeAllRings pick rest q
    return (x :: xs, q)

/-! ### Relocation (steps 2 and 5 of R84, R83) -/

/-- A code object with its pieces placed and its rings. -/
structure Loaded where
  obj : CodeObj
  placed : List Placed
  rings : List (ChanRec × Nat)
  deriving DecidableEq, Repr

/-- The symbol that an exported tensor record stands for: its descriptor number (R76, R82). -/
def TensorRec.sym (t : TensorRec) : Sym := { name := t.name, kind := 4, exported := t.exported, piece := t.piece, value := t.td }

/-- The first exported symbol or tensor of a name, with its object. -/
def findExport (name : List Byte) : List Loaded → Option (Loaded × Sym)
  | [] => none
  | o :: os => match (o.obj.syms ++ o.obj.tensors.map TensorRec.sym).find? fun x => x.exported && x.kind != 5 && x.name == name with
    | some x => some (o, x)
    | none => findExport name os

/-- What a symbol of an object stands for, an import resolved (step 2 of R84). -/
def resolveSym (all : List Loaded) (o : Loaded) (k : Nat) : Option (Loaded × Sym) :=
  match o.obj.syms[k]? with
  | none => none
  | some x => if x.kind == 5 then findExport x.name all else some (o, x)

/-- The place word of an entry of a piece: with a pool lane for a replicated one (R27, R317). -/
def entryPlace (p : Part) (x : Placed) (entry : Nat) : Nat :=
  match x.lane with
  | some (d, k) => d * 2 ^ 24 + k * 2 ^ 16 + 2 ^ 14 + entry
  | none => p.rel ((x.cells.headD (0, 0)).1) * 2 ^ 16 + entry

/-- The value of a relocation against a symbol, with its number of bytes; none where it does not fit or has no sense (R83). -/
def relocValue (p : Part) (r : Reloc) (o : Loaded) (x : Sym) : Option (Nat × Nat) :=
  let pl := o.placed.getD x.piece {}
  let fitted := fun (base limit : Nat) => if 0 ≤ (base : Int) + r.addend && (base : Int) + r.addend < limit then some ((base : Int) + r.addend).toNat else none
  match r.type, x.kind with
  | 1, 1 => (fitted (pl.word + x.value) 0x4000).map fun e => (entryPlace p pl e, 8)
  | 2, 2 =>
    if pl.lane.isSome then none
    else
      let (cell, off) := pl.cells.headD (0, 0)
      (fitted (2 ^ 63 + p.rel cell * 2 ^ 20 + off + x.value) (2 ^ 64)).map fun v => (v, 8)
  | 3, 3 => (fitted (pl.va + x.value) (2 ^ 64)).map fun v => (v, 8)
  | 4, 1 => (fitted (pl.word + x.value) 0x4000).map fun v => (v, 4)
  | 5, 4 => (fitted x.value 64).map fun v => (v, 4)
  | 6, 4 => (fitted x.value 64).map fun v => (v, 4)
  | _, _ => none

/-- Bytes put into a list at an offset. -/
def splice (l : List Byte) (off : Nat) (b : List Byte) : List Byte := l.take off ++ b ++ l.drop (off + b.length)

/-- A 32-bit word with the bits that a relocation writes replaced (R83). -/
def patchWord (type old v : Nat) : Nat :=
  match type with
  | 4 => old / 2 ^ 14 * 2 ^ 14 + v
  | 5 => old / 64 * 64 + v
  | _ => old / 2 ^ 14 * 2 ^ 14 + v * 256 + old % 256

/-- An area patched; none where the patch lies beyond it. -/
def patchArea (l : List Byte) (off type : Nat) (v : Nat × Nat) : Option (List Byte) :=
  if off + v.2 ≤ l.length then some
    (splice l off (if v.2 == 8 then leBytes 8 v.1 else leBytes 4 (patchWord type (field l off 4) v.1))) else none

/-- One relocation applied to the pieces and blocks of its object (R83). -/
def applyReloc (p : Part) (all : List Loaded) (self : Loaded) (o : CodeObj) (r : Reloc) : Option CodeObj := do
  let (t, x) ← resolveSym all self r.sym
  let v ← relocValue p r t x
  let pc ← o.pieces[r.piece]?
  match r.area with
  | 0 => (patchArea pc.code (4 * r.at_) r.type v).map fun c => { o with pieces := setAt o.pieces r.piece { pc with code := c } }
  | 1 => (patchArea pc.data r.at_ r.type v).map fun c => { o with pieces := setAt o.pieces r.piece { pc with data := c } }
  | _ => do
    let k ← pc.block
    let b ← o.blocks[k]?
    let c ← patchArea b.bytes r.at_ r.type v
    return { o with blocks := setAt o.blocks k { b with bytes := c } }

/-- Every import resolved and every relocation of an object applied. -/
def relocate (p : Part) (all : List Loaded) (x : Loaded) : Option Loaded := do
  guard ((List.range x.obj.syms.length).all fun k => (resolveSym all x k).isSome)
  let o ← x.obj.relocs.foldlM (applyReloc p all x) x.obj
  return { x with obj := o }

/-! ### The graph object (R296 to R299) -/

/-- A graph object read, its fields as they stand. -/
structure GraphObj where
  nodes : List Node
  templates : List (List Byte)
  irq : Bool
  doneVa : W64
  digest : List Byte
  deriving DecidableEq, Repr

/-- A node record (R298). -/
def nodeOf (r : List Byte) : Node :=
  { kind := field r 0 2, npred := field r 2 2, succ0 := field r 4 2, succ1 := field r 6 2, na := BitVec.ofNat 64 (field r 8 8)
    nb := BitVec.ofNat 64 (field r 16 8), nc := BitVec.ofNat 64 (field r 24 8) }

/-- Whether a node keeps the rules of its kind (R298, R299). Whether a LOOP whose BODY lies behind its LAST is rejected no rule says. DESIGN CHOICE,
log entry 65: it is. -/
def nodeOk (nodes templates : Nat) (x : Node) : Bool :=
  let named := fun k => k == 0xFFFF || k < nodes
  let word := fun (v : W64) => v.toNat % 8 == 0
  named x.succ0 && named x.succ1 &&
  match x.kind with
  | 1 => x.na.toNat < templates && x.na.toNat < 65536 && x.nc == 0
  | 2 => word x.na && x.nb == 0 && x.nc == 0
  | 3 => word x.na && x.nb.toNat < 2 ^ 32 && x.nc.toNat < 2 ^ 32 && x.nc != 0 && x.body < nodes && x.last < nodes && x.body ≤ x.last
  | 4 => word x.na && word x.nb && word x.nc && x.nc.toNat ≤ 2 ^ 32
  | 5 => x.na == 0 && x.nb == 0 && x.nc == 0
  | _ => false

/-- The bodies of the loops, first and last node. -/
def loopBodies (l : List Node) : List (Nat × Nat) := (l.filter fun x => x.kind == 3).map fun x => (x.body, x.last)

/-- Whether a loop body keeps its successors inside it, and its LAST has none (R299). -/
def bodyOk (l : List Node) (b : Nat × Nat) : Bool :=
  let inside := fun k => k == 0xFFFF || (b.1 ≤ k && k ≤ b.2)
  ((number 0 l).all fun y => !(b.1 ≤ y.1 && y.1 ≤ b.2) || (inside y.2.succ0 && inside y.2.succ1)) &&
  (l[b.2]?).any fun x => x.succ0 == 0xFFFF && x.succ1 == 0xFFFF

/-- Whether two loop bodies lie apart or one inside the other (R299). -/
def bodiesOk (a b : Nat × Nat) : Bool :=
  a.2 < b.1 || b.2 < a.1 || (a.1 ≤ b.1 && b.2 ≤ a.2) || (b.1 ≤ a.1 && a.2 ≤ b.2)

/-- Whether the nodes of a graph keep the rules of R299. -/
def nodesOk (l : List Node) : Bool :=
  let bodies := loopBodies l
  ((number 0 l).all fun y => if y.1 == 0 then y.2.npred == 0 else y.2.npred != 0 || bodies.any fun b => b.1 == y.1) &&
  bodies.all (bodyOk l) && bodies.all fun a => bodies.all (bodiesOk a)

/-- A graph object read and checked, but for its templates' names (R296 to R299). -/
def parseGraph (b : List Byte) : Option GraphObj := do
  let n := field b 6 2
  let t := field b 8 2
  let recs := recordsAt b (field b 0x18 4) 64 n
  let nodes := recs.map nodeOf
  guard (field b 0 4 == 0x48504752 && field b 4 2 == 1 && 1 ≤ n && n ≤ 4096 && t ≤ 1024 && field b 0x0A 2 < 2 && zeros b 0x0C 4 &&
    field b 0x10 8 % 8 == 0 && zeros b 0x24 28 && within b (field b 0x18 4) (64 * n) && within b (field b 0x1C 4) (64 * t))
  guard (recs.all (fun r => zeros r 0x20 32) && nodes.all (nodeOk n t) && nodesOk nodes)
  return { nodes, templates := recordsAt b (field b 0x1C 4) 64 t, irq := field b 0x0A 2 == 1
           doneVa := BitVec.ofNat 64 (field b 0x10 8), digest := shake256 b }

/-- Whether the six widths keep the limits of R35. -/
def widwOk (w : BitVec 42) : Bool :=
  let l := (List.range 6).map fun k => w.toNat / 2 ^ (7 * k) % 128
  l.all (· ≤ 64) && l.sum ≤ 64

/-- The place word of the entry that a template names in an object, where it keeps a test. -/
def entryOf (p : Part) (o : Loaded) (k : Nat) (ok : Sym → Placed → Bool) : Option W64 := do
  let x ← o.obj.syms[k]?
  let pl := o.placed.getD x.piece {}
  guard (x.kind == 1 && ok x pl)
  return BitVec.ofNat 64 (entryPlace p pl (pl.word + x.value))

/-- A template record resolved (R297, R299). -/
def resolveTemplate (p : Part) (all : List Loaded) (r : List Byte) : Option Template := do
  let o ← all[field r 0 4]?
  let flags := field r 0x14 2
  let widw := field r 0x18 8
  let step := field r 0x20 4
  let cores := flags / 4 % 2 == 1
  guard (field r 0x10 4 != 0 && flags < 512 && zeros r 0x16 2 && widw < 2 ^ 42 && widwOk (BitVec.ofNat 42 widw) && zeros r 0x38 8 &&
    (cores || flags / 16 == 0))
  let place ← entryOf p o (field r 4 4) fun _ _ => true
  let handler ← if step == 0 then some 0 else entryOf p o (field r 0x24 4) fun x pl => x.cls == some 0 && pl.lane.isNone
  return { place, handler, widBase := BitVec.ofNat 64 (field r 8 8), count := field r 0x10 4, prio := flags % 4, cores
           pinned := flags / 8 % 2 == 1, group := flags / 16 + 1, widw := BitVec.ofNat 42 widw, step := BitVec.ofNat 32 step
           reldl := BitVec.ofNat 64 (field r 0x28 8), work := BitVec.ofNat 64 (field r 0x30 8) }

/-! ### What the load writes (step 6 of R84) -/

/-- The records of a piece's entries for each of its cells, with the class that each handles (R26, R74, R86). -/
def Loaded.entries (x : Loaded) : List (Nat × EntryRec × Option Nat) :=
  (x.obj.syms.filter fun y => y.kind == 1).flatMap fun y =>
    let pl := x.placed.getD y.piece {}
    pl.cells.map fun c =>
      (c.1, { entry := BitVec.ofNat 14 (pl.word + y.value), live := y.live, gather := y.gather, pin := y.pin, priv := x.obj.priv
              hold := true, budget := y.budget }, y.cls)

/-- The descriptor images for each cell: cell, descriptor, doublewords. -/
def Loaded.images (x : Loaded) : List (Nat × Nat × List W64) :=
  x.obj.tensors.flatMap fun t => ((x.placed.getD t.piece {}).cells).map fun c => (c.1, t.td, t.image)

/-- The descriptors of the channels that an object declares (R77, R329). -/
def Loaded.descs (x : Loaded) (p : Part) : List Desc :=
  let cellOf := fun k => p.rel (((x.placed.getD k {}).cells.headD (0, 0)).1)
  x.rings.map fun y =>
    let c := y.1
    { id := c.id, writer := cellOf c.writer, reader := cellOf c.reader, lgring := c.lgring, scope := c.scope, state := 1
      quotaM1 := c.quotaM1, ringBase := y.2, resBlk := blocksFor (c.quotaM1 + 1) (2 ^ c.lgring) 512 }

/-- Whether no two members of a list are equal. -/
def distinct [BEq α] : List α → Bool
  | [] => true
  | x :: xs => !xs.contains x && distinct xs

/-- The pieces of an object with their places. -/
def Loaded.pieces (x : Loaded) : List (PieceRec × Placed) := x.obj.pieces.zip x.placed

/-- The writes of a piece's code and scratch data to its cells, on the way that the start messages take after them (R84, R288). -/
def pieceWrites (pn : Nat) (x : PieceRec × Placed) : List Msg :=
  x.2.cells.flatMap fun c =>
    ([(cellKey c.1 (0x80000 + 4 * x.2.word), x.1.code), (cellKey c.1 c.2, x.1.data)].filter fun y => !y.2.isEmpty).map fun y =>
      { vn := .request, src := .loader pn, dst := .cell c.1, body := .codeWrite y.1 y.2 }

/-- The bytes of a block written into its pages. -/
def writePages (b : List Byte) : List Nat → Memory → Memory
  | [], m => m
  | pa :: l, m => writePages (b.drop 0x10000) l (writeBytes (clearRange m (hbmKey pa) 0x10000) (hbmKey pa) (b.take 0x10000))

/-- The HBM data blocks of an object written. -/
def Loaded.writeBlocks (x : Loaded) (m : Memory) : Memory :=
  x.pieces.foldl (fun m y => match y.1.block with
    | some k => writePages (x.obj.blocks.getD k {}).bytes y.2.pages m
    | none => m) m

/-- The HBM data of every object written. -/
def writeObjs (l : List Loaded) (m : Memory) : Memory := l.foldl (fun m x => x.writeBlocks m) m

/-- What a load writes into the tables of a cell (step 6 of R84); the records of graphs that are gone make room. -/
def loadTables (p : Part) (entries : List (Nat × EntryRec × Option Nat)) (images : List (Nat × Nat × List W64)) (n : Nat) : CellTables :=
  let new := (entries.filter fun y => y.1 == n).map (·.2)
  { kept := p.graphs.flatMap fun g => g.2.toList.flatMap fun (g : Graph) => (g.entries.filter fun y => y.1 == n).map (·.2)
    entries := new.map (·.1)
    handlers := new.filterMap fun y => y.2.map fun k => (k, 0x8000000000000000 ||| placeOf (p.rel n) y.1.entry)
    images := (images.filter fun y => y.1 == n).map (·.2) }

/-- The write of a load into a cell's tables on its way (R84, R288): as those of the code it goes the way that the start message takes. -/
def tableWrite (pn : Nat) (n : Nat) (t : CellTables) : Msg :=
  { vn := .request, src := .loader pn, dst := .cell n, body := .cellTables t }

/-- Whether a declared channel may not be replaced: an end is bound or a writer copy is held (R84). -/
def State.chanHeld (s : State) (p : Part) (id : Nat) : Bool := (s.chanDesc p id).state != 0 && s.resetBad p id

/-- The blocks that a channel's old descriptor reserves. -/
def State.oldBlocks (s : State) (p : Part) (id : Nat) : Nat :=
  let d := s.chanDesc p id
  if d.state == 0 then 0 else blocksFor (d.quotaM1 + 1) d.cap 512

/-- A channel's descriptor written, in place of an old one (R84, R329). -/
def State.declare (s : State) (pn : Nat) (d : Desc) : State :=
  let p := s.part pn
  let old := s.chanDesc p d.id
  let s :=
    if old.state == 0 then s
    else
      let cur := (s.rcopy (p.dev old.reader) d.id).desc
      let s := s.freeBlocks pn (tailBlocks s p cur.blockCount cur.headBlk)
      (s.setRcopy (p.dev old.reader) d.id none).setWcopy (p.dev old.writer) d.id none
  let s := s.setChanDesc p d
  let p := s.part pn
  s.setPart pn { p with chanQuota := tset p.chanQuota d.id d.quotaM1 }

/-- The pool lane of a placed replicated piece set up with a ring of a capacity at an address (R317, R339). The entry that R318 speaks of is the
piece's first word, whichever entries the piece has (DESIGN CHOICE, log entry 65). -/
def State.openLane (s : State) (pn : Nat) (x : Placed) (capacity ringPa : Nat) : State :=
  match x.lane with
  | none => s
  | some (d, k) =>
    let die := (s.part pn).dies.getD d 0
    s.setLane die k { part := some pn, entry := BitVec.ofNat 14 x.word, cells := x.cells.map (·.1), capacity, quota := 2 * capacity, ringPa }

/-- The start message to one cell (R86). -/
def startMessage (pn rel cell load handle : Nat) : Msg :=
  let m : Smsg := { payload := BitVec.ofNat 64 (load * 2 ^ 32 + handle * 2 ^ 24), origin := 0xFFF, part := BitVec.ofNat 6 pn, cls := 6
                    dest := (placeOf rel 0).extractLsb' 0 28 }
  { vn := .request, src := .loader pn, dst := .cell cell, body := .parcel (.msg m) }

/-! ### GRAPH_LOAD -/

/-- What earlier loads of a partition hold. -/
def State.planOf (s : State) (pn : Nat) : Plan :=
  let p := s.part pn
  let gs := p.graphs.filterMap (·.2)
  { words := gs.flatMap fun (g : Graph) => g.code.map fun y => (y.1, y.2.1, y.2.2.length)
    scratch := gs.flatMap fun (g : Graph) => g.scratch
    lanes := s.dies.flatMap fun d => (d.2.lanes.filter fun l => l.2.part.isSome).map fun l => (d.1, l.1)
    area := (gs.flatMap fun (g : Graph) => g.pages.map fun y => (y.2, 0x10000)) ++ (p.tables.map fun t => (t.1, t.2.1)) ++
      s.dies.flatMap fun d => (d.2.lanes.filter fun l => l.2.part == some pn && l.2.capacity != 0).map fun l => (l.2.ringPa, 128 * l.2.capacity)
    mem := s.mem }

/-- The objects placed with their rings, the status where something does not fit. -/
def placeAll (pick : Nat → Nat) (p : Part) (asid : BitVec 12) (objs : List CodeObj) (q : Plan) : Nat ⊕ (List Loaded × Plan) :=
  match placeObjs pick p asid objs q with
  | .inl st => .inl st
  | .inr (l, q) => match placeAllRings pick (objs.zip l) q with
    | none => .inl stNoResource
    | some (r, q) => .inr ((objs.zip (l.zip r)).map fun y => { obj := y.1, placed := y.2.1, rings := y.2.2 }, q)

/-- The pool lanes of placed pieces, each with its capacity, a power of two from 64 to 2^20, and the place of its ring in the load area
(R317; log entry 9). -/
def takeLanes (pick : Nat → Nat) (p : Part) : List Placed → Plan → Option (List (Placed × Nat × Nat) × Plan)
  | [], q => some ([], q)
  | x :: xs, q => do
    if x.lane.isNone then takeLanes pick p xs q
    else
      let cap := 2 ^ (6 + pick q.made % 15)
      let (pa, q) ← { q with made := q.made + 1 }.takeArea pick p.loadArea p.sysEnd (128 * cap)
      let (l, q) ← takeLanes pick p xs q
      return ((x, cap, pa) :: l, q)

/-- The cells of a load: those that hold a piece, and the reader cells of its channels (R395). -/
def cellsOf (p : Part) (l : List Loaded) : List Nat :=
  (l.flatMap fun x => x.placed.flatMap (fun y => y.cells.map (·.1)) ++ (x.descs p).map fun d => p.dev d.reader).eraseDups

/-- The objects placed, with their rings and pool lanes. -/
def placeLoad (pick : Nat → Nat) (p : Part) (asid : BitVec 12) (objs : List CodeObj) (q : Plan) :
    Nat ⊕ (List Loaded × List (Placed × Nat × Nat) × Plan) :=
  match placeAll pick p asid objs q with
  | .inl st => .inl st
  | .inr (l, q) => match takeLanes pick p (l.flatMap (·.placed)) q with
    | some (lanes, q) => .inr (l, lanes, q)
    | none => .inl stNoResource

/-- A load made with one way of choosing: the state after step 6, with the writes to the cells on their way, and the graph; or the status with
which it fails. Two handlers of a class on a cell are looked for among the loaded graphs too, two images for a descriptor within the load
alone, for which R74 and R76 leave it open (DESIGN CHOICE, log entry 65). -/
def State.loadWith (s : State) (pick : Nat → Nat) (pn : Nat) (asid : BitVec 12) (objs : List CodeObj) (g : GraphObj) (load : Nat) :
    Nat ⊕ (Graph × State) :=
  let p := s.part pn
  match placeLoad pick p asid objs (s.planOf pn) with
  | .inl st => .inl st
  | .inr (l, lanes, q) =>
    match l.mapM (relocate p l), g.templates.mapM (resolveTemplate p l) with
    | some l, some templates =>
      let descs := l.flatMap fun x => x.descs p
      let entries := l.flatMap (·.entries)
      let images := l.flatMap (·.images)
      let cells := cellsOf p l
      let handlers := entries.filterMap fun y => y.2.2.map fun k => (y.1, k)
      let held := p.graphs.flatMap fun x => x.2.toList.flatMap fun (x : Graph) => x.handlers
      let blocks := (descs.map (·.resBlk)).sum + (lanes.map fun y => blocksFor (2 * y.2.1) y.2.1 32).sum
      let back := (descs.map fun d => s.oldBlocks p d.id).sum
      if !distinct (descs.map (·.id)) || !distinct (handlers ++ held) || !distinct (images.map fun y => (y.1, y.2.1)) then
        .inl stBadParameter
      else if descs.any fun d => s.chanHeld p d.id then .inl stInUse
      else if p.poolB + back < p.reservedBlocks + blocks then .inl stNoResource
      else
        let whole := q.tables.map (fun y => (y.1, y.2.1)) ++
          l.flatMap fun x => x.placed.flatMap fun (y : Placed) => y.pages.map fun a => (a, 0x10000)
        let t := ({ s with mem := writeObjs l q.mem } : State).sound whole
        let t := descs.foldl (fun t d => t.declare pn d) t
        let t := lanes.foldl (fun t y => t.openLane pn y.1 y.2.1 y.2.2) t
        let tables := cells.map fun n => (n, loadTables p entries images n)
        let t := ((tables.map fun y => tableWrite pn y.1 y.2) ++ l.flatMap fun x => x.pieces.flatMap (pieceWrites pn)).foldl State.post t
        let p' := t.part pn
        let t := t.setPart pn { p' with
          tables := p'.tables ++ q.tables, reservedBlocks := p'.reservedBlocks + blocks - back, loads := load
          reported := if blocks < back then [] else p'.reported }
        let graph : Graph :=
          { nodes := g.nodes, templates, doneVa := g.doneVa, irq := g.irq, asid, cells, load, chans := descs.map (·.id)
            lanes := lanes.filterMap fun y => y.1.lane.map fun z => (p.dies.getD z.1 0, z.2)
            pages := q.pages
            code := l.flatMap fun x => x.pieces.flatMap fun y => y.2.cells.map fun c =>
              (c.1, y.2.word, (List.range (y.1.code.length / 4)).map fun k => BitVec.ofNat 32 (field y.1.code (4 * k) 4))
            scratch := q.scratch.drop (s.planOf pn).scratch.length
            entries := entries.map fun y => (y.1, y.2.1.entry), handlers
            digests := l.map (·.obj.digest) ++ [g.digest] }
        if tables.all fun y => ((s.cell y.1).withTables y.2).entries.length ≤ 128 then .inr (graph, t) else .inl stNoResource
    | _, _ => .inl stBadParameter

/-- The objects of the list that a GRAPH_LOAD names, each with its privilege; none where one fails its checks. -/
def State.loadObjs (s : State) (at_ n : Nat) : Option (List CodeObj) :=
  (List.range n).mapM fun k =>
    let r := readBytes s.mem (hostKey (at_ + 16 * k)) 16
    let v := field r 8 8
    if 2 ^ 33 ≤ v then none else parseObj (readBytes s.mem (hostKey (field r 0 8)) (v % 2 ^ 32)) (v / 2 ^ 32 % 2 == 1)

/-- A graph handle that is free: the one that Thieno picks, or else the lowest. -/
def State.freeHandle (s : State) (p : Part) : Option Nat :=
  choose (Config.thienoPick s.turn) 2 256 fun h => (p.graph h).isNone

/-- CASID written, at the load, into every cell of the graph that may take it now (R395). -/
def State.casidAtLoad (s : State) (g : Graph) : State :=
  g.cells.foldl (fun s n =>
    let c := s.cell n
    if c.casid == 0xFFF || c.casid == g.asid || c.casidFree then s.setCell n { c with casid := g.asid } else s) s

/-- Whether a GRAPH_LOAD of a partition waits for its start messages. -/
def State.loading (s : State) (pn : Nat) : Bool :=
  s.cmds.any fun f => match f.2.wait with
    | .loading q _ _ _ => q == pn
    | _ => false

/-- GRAPH_LOAD: the objects checked, placed, relocated, written and started (R84 to R86, R395). The loads of one partition are made one
at a time. -/
def execGraphLoad (fn : Fn) (cmd0 : W64) (s : State) : Out :=
  command "GRAPH_LOAD" { opcode := 0x0201, masks := [all64, all64, 0xFFFF, 0xFFF] } fn cmd0 s
    (fun s => !s.loading (cmdPart fn cmd0) || (s.inFlight (Fn.num fn)).wait != .none) fun pn s =>
    let n := Fn.num fn
    let count := (s.cmd n 3).toNat
    let at_ := (s.cmd n 1).toNat
    let asid := (s.cmd n 4).extractLsb' 0 12
    let size := readLE s.mem (hostKey (at_ + 0x20)) 4
    let load := (s.part pn).loads + 1
    if count == 0 || 64 < count || size < 64 then .fail stBadParameter
    else match s.loadObjs (s.cmd n 2).toNat count, parseGraph (readBytes s.mem (hostKey at_) size) with
    | some objs, some g =>
      let made : Nat ⊕ (Graph × State) := match s.loadWith (Config.placement s.turn) pn asid objs g load with
        | .inr x => .inr x
        | .inl _ => s.loadWith (fun _ => 0) pn asid objs g load
      match made, s.freeHandle (s.part pn) with
      | .inl st, _ => .fail st
      | .inr _, none => .fail stNoResource
      | .inr (g, s), some h =>
        let p := s.part pn
        let s := (s.setPart pn { p with graphs := tset p.graphs h (some g) }).casidAtLoad g
        if g.cells.isEmpty then .done [BitVec.ofNat 64 h] s
        else .wait (.loading pn load h g.cells)
          (g.cells.foldl (fun s c => s.post (startMessage pn (p.rel c) c load h)) s)
    | _, _ => .fail stBadParameter

/-- The command that waits for the start messages of a load, with its function. -/
def State.loadCmd (s : State) (pn load : Nat) : Option (Nat × InFlight) :=
  s.cmds.find? fun f => match f.2.wait with
    | .loading q k _ _ => q == pn && k == load
    | _ => false

/-- START_ACK: a cell has taken its start message; with the last one GRAPH_LOAD returns. A cell that sent one only takes its
acknowledgement (R86). -/
def execStartAck (i : Nat) (s : State) : Out :=
  arrived "START_ACK" i s fun m s =>
    match m.dst, m.body with
    | .loader pn, .startAck load from_ =>
      match s.loadCmd pn load.toNat with
      | some (fn, f) => match f.wait with
        | .loading q k h cells =>
          let left := cells.filter (· != from_)
          some (if left.isEmpty then s.answer fn f.tag stDone [BitVec.ofNat 64 h]
            else { s with cmds := tset s.cmds fn { f with wait := .loading q k h left } })
        | _ => some s
      | none => some s
    | _, .startAck _ _ => some s
    | _, _ => none

/-! ### GRAPH_UNLOAD -/

/-- Whether a graph has a replay that runs or a kick in a queue (R451). -/
def Part.graphBusy (p : Part) (h : Nat) : Bool :=
  p.kicks.any fun k => k.2.replay.any (fun r => r.handle == h) || k.2.queue.any fun y => (y.1.extractLsb' 56 8).toNat == h

/-- The leaves of a graph's pages removed. -/
def State.unmapPages (s : State) (p : Part) (asid : BitVec 12) : List (W64 × Nat) → State
  | [] => s
  | (va, pa) :: l =>
    let s := match s.leafOf p asid va.toNat 0 with
      | some slot => if entryAddr (s.entryAt slot) == pa || s.poisonedAt slot then s.setEntry slot 0 else s
      | none => s
    s.unmapPages p asid l

/-- The tables of loads that have become empty given back, the deepest first, with the entries that led to them. Which tables a GRAPH_UNLOAD
returns R84 does not say. DESIGN CHOICE, log entry 53: every table of the partition's loads that is empty by then, another load's or ASID's
too; one that is still in use stays. -/
def State.dropTables (s : State) (pn : Nat) : List (Nat × Nat × Nat) → State
  | [] => s
  | (pa, n, slot) :: l =>
    let s := s.dropTables pn l
    if s.mem.any fun y => hbmKey pa ≤ y.1 && y.1 < hbmKey pa + n then s
    else
      let p := s.part pn
      (s.setEntry slot 0).setPart pn { p with tables := p.tables.filter fun t => t.1 != pa }

/-- The pool lanes of a graph closed, and the blocks that they hold and reserve given back (R338, R348). -/
def State.closeLanes (s : State) (pn : Nat) : List (Nat × Nat) → State
  | [] => s
  | (d, k) :: l =>
    let x := s.lane d k
    let s := s.freeBlocks pn x.chain.blocks
    let p := s.part pn
    let n := blocksFor x.quota x.capacity 32
    ((s.setPart pn { p with reservedBlocks := p.reservedBlocks - n, reported := [] }).setDie d
      { s.die d with lanes := tdel (s.die d).lanes k }).closeLanes pn l

/-- GRAPH_UNLOAD: a graph's pages and tables returned and its mappings removed with an invalidation (R84). The command returns at once, and what
it returns can be taken again before the invalidation has completed, for R84 and R400 do not make it wait (DESIGN CHOICE, log entry 53). -/
def execGraphUnload (fn : Fn) (cmd0 : W64) (s : State) : Out :=
  command "GRAPH_UNLOAD" { opcode := 0x0202, masks := [0xFF] } fn cmd0 s anyState fun pn s =>
    let p := s.part pn
    let h := (s.cmd (Fn.num fn) 1).toNat
    match p.graph h with
    | none => .fail stBadParameter
    | some g =>
      if p.graphBusy h || s.loading pn then .fail stInUse
      else
        let s := (s.unmapPages p g.asid g.pages).dropTables pn p.tables
        let s := s.closeLanes pn g.lanes
        let q := s.part pn
        let s := s.setPart pn { q with graphs := tset q.graphs h none }
        .done [] (if g.pages.isEmpty then s else s.invalidate g.asid none .nothing)

end Sys2Proof.Machine
end

