-- ==== Sys2Proof/Machine/Pred.lean ====
section
/-! DEFINITION. Compares and predicates (R125 to R129), one meaning per instruction. -/

namespace Sys2Proof.Machine

/-- The outcome of an integer condition on two values: signed or unsigned integers of a type (R55, R125). -/
def condI (c : Cond) (sa sb : Int) (ua ub : Nat) : Bool :=
  match c with
  | .eq => ua == ub
  | .ne => ua != ub
  | .lt => sa < sb
  | .le => sa ≤ sb
  | .gt => sb < sa
  | .ge => sb ≤ sa
  | .ltn => ua < ub
  | .len => ua ≤ ub
  | .gtn => ub < ua
  | .gen => ub ≤ ua

/-- A condition on 64-bit values, or on their low 32 bits. -/
def condOf (c : Cond) (wide : Bool) (a b : W64) : Bool :=
  let t := if wide then Ty.s64 else Ty.s32
  condI c (intOf t a) (intOf t b) (lowBits64 wide a).toNat (lowBits64 wide b).toNat
where
  /-- The bits compared. -/
  lowBits64 (wide : Bool) (a : W64) : W64 := if wide then a else (a.extractLsb' 0 32).setWidth 64

/-- The outcome of a compare written into pd, its complement into pe (R61, R125). -/
def Ctx.putPreds (x : Ctx) (pd : PReg) (pe : Option PReg) (act m : W32) : Ctx :=
  let x := x.setP pd.toNat act m
  match pe with
  | some e => x.setP e.toNat act (~~~m)
  | none => x

def execCmp (h : Head) (cond : Cond) (wide : Bool) (pd : PReg) (pe : Option PReg) (a : SrcA) (b : SrcB) (s : State) :
    Out :=
  finishLen (lenOf h (litB b)) ((s.laneA a wide (s.me.active h)).then fun va s =>
    let m := maskOf fun L => condOf cond wide (va L) (s.me.laneB b wide L)
    .done (s.setMe (s.me.putPreds pd pe (s.me.active h) m)))

def execFcmp (h : Head) (cond : Cond) (t : Ty) (pd : PReg) (pe : Option PReg) (a : SrcA) (b : SrcB) (s : State) : Out :=
  finishLen (lenOf h (litB b)) ((s.laneA a false (s.me.active h)).then fun va s =>
    let act := s.me.active h
    let r := fun L => fcmpV cond (val t (va L).toNat) (val t (s.me.fb b L))
    commitF s ((lanesOf act).foldl (fun fl L => fl ||| (r L).2) 0) fun x =>
      x.putPreds pd pe act (maskOf fun L => (r L).1))

def execPand (h : Head) (pd pa pb : PReg) (s : State) : Out :=
  finishLen (lenOf h false)
    (.done (s.setMe (s.me.setP pd.toNat (s.me.active h) (s.me.p pa.toNat &&& s.me.p pb.toNat))))
def execPor (h : Head) (pd pa pb : PReg) (s : State) : Out :=
  finishLen (lenOf h false)
    (.done (s.setMe (s.me.setP pd.toNat (s.me.active h) (s.me.p pa.toNat ||| s.me.p pb.toNat))))
def execPxor (h : Head) (pd pa pb : PReg) (s : State) : Out :=
  finishLen (lenOf h false)
    (.done (s.setMe (s.me.setP pd.toNat (s.me.active h) (s.me.p pa.toNat ^^^ s.me.p pb.toNat))))
def execPnot (h : Head) (pd pa : PReg) (s : State) : Out :=
  finishLen (lenOf h false) (.done (s.setMe (s.me.setP pd.toNat (s.me.active h) (~~~(s.me.p pa.toNat)))))
/-- PMASK is lane class, and reads a queue as a scalar reader does (R128). -/
def execPmask (h : Head) (pd : PReg) (a : SrcA) (s : State) : Out :=
  finishLen (lenOf h false) ((s.scalarA a (s.me.active h != 0)).then fun v s =>
    .done (s.setMe (s.me.setP pd.toNat (s.me.active h) (v.extractLsb' 0 32))))
def execPset (h : Head) (val : Bool) (pd : PReg) (s : State) : Out :=
  finishLen (lenOf h false)
    (.done (s.setMe (s.me.setP pd.toNat (s.me.active h) (if val then 0xFFFFFFFF else 0))))

end Sys2Proof.Machine
end

