-- ==== Sys2Proof/Machine/Recovery.lean ====
section
/-! DEFINITION. Checkpoints and restores (R435 to R438), and the commands that wait for cells to stop (R410). -/

namespace Sys2Proof.Machine

/-! ### The cut (R435) -/

/-- Whether a context stands at a segment boundary. -/
def Ctx.atBoundary (x : Ctx) : Bool :=
  x.status != .running || x.wait == some .leaving ||
  (x.wait.isNone && x.held.isEmpty && x.journal.isEmpty && x.snap == x.r && x.qs.all (fun q => q.2.shadow.isEmpty) &&
    x.eps.all fun e => e.2.shadow.isEmpty)

/-- A context of a partition in a cut brought to its boundary as soon as it can be. -/
def State.cutCtx (s : State) (w : Who) : State :=
  if (s.ctx w).atBoundary || !s.boundable w then s else s.toBoundary w

/-- The contexts of a partition in a cut. -/
def State.cutPart (s : State) (pn : Nat) : State :=
  let p := s.part pn
  if !p.cutting then s else p.cells.foldl (fun s n => (whos n).foldl State.cutCtx s) s

/-- Whether a transfer does nothing, or stands at a chunk boundary. -/
def Xfer.paused (x : Xfer) : Bool :=
  !x.busy || x.state != 0 || (x.awaited == 0 && (x.todo.isEmpty || x.todo == x.chunkWords x.cur))

/-- The number of the access of a message. -/
def Body.accessId? : Body → Option Nat
  | .access a => some a.id
  | _ => none

/-- Whether nothing of a context is on its way, but for refused stores: its first released send cannot leave, and so is part of the image
(R435). -/
def State.ctxCut (s : State) (w : Who) : Bool :=
  let x := s.ctx w
  x.atBoundary && x.incsAwaited == 0 && x.out.all (fun o => s.refused.any fun m => m.1.body.accessId? == some o.id) &&
  match x.released with
  | [] => true
  | sd :: _ => (s.leave w sd).isNone

/-- Whether a cell has done its part of a cut: its contexts stand at boundaries with every send performed or kept, its engine has paused at
chunk boundaries, its refills have landed, and it keeps no subtraction back. -/
def State.cellCut (s : State) (cell : Nat) : Bool :=
  let c := s.cell cell
  (whos cell).all s.ctxCut && c.xfers.all (fun x => x.2.paused) &&
  c.rcopies.all (fun r => r.2.all fun y => y.landing == 0) && c.promenade.isNone && (!c.tripped || c.out) && c.owedSubs.isEmpty

/-- Whether steps 2 and 3 of R435 are complete: nothing of the partition is in flight. A refused message is part of the image. -/
def State.cutReady (s : State) (pn : Nat) : Bool :=
  let p := s.part pn
  p.cells.all s.cellCut && s.net.all (fun m => !(p.has pn m.src || p.has pn m.dst)) &&
  s.clusters.all fun k => k.2.station.all fun y => y.2.part != BitVec.ofNat 6 pn

/-! ### Images (R436 to R438) -/

/-- Every cell of a partition's image, and the partition record, written into a dump area (R436). The record's bytes are the device's
own. -/
def State.dumpCells (s : State) (pn dump : Nat) : State :=
  let p := s.part pn
  let s := (number 0 p.cells).foldl (fun s y => s.writeImage y.2 (dump + 0x100000 * y.1)) s
  let pa := dump + 0x100000 * p.cellCount
  ({ s with mem := writeAll (fun k => hbmKey (pa + k)) (fun k => Config.imageByte 0xFFF k s.turn) 0x100000 s.mem } : State).written pa 0x100000

/-- The digests of an image's sections, which are the slabs (R438, log entry 30). -/
def sectionDigests (p : Part) (m : Memory) : List (List Byte) :=
  p.slabs.map fun k => shake256 ((List.range (2 ^ 32)).map fun j => mread m (hbmKey (k * 2 ^ 32 + j)))

/-- The bytes that a checkpoint of a partition streams. -/
def Part.streamed (p : Part) : Nat := 2 ^ 32 * p.slabs.length

/-- The image of a partition as it stands. -/
def State.image (s : State) (pn dump : Nat) : Image :=
  let p := s.part pn
  let dies := number 0 p.dies
  let mem := s.mem.filter fun y => p.ownsPa y.1
  let digests := sectionDigests p mem
  { part := p
    cells := (number 0 p.cells).map fun y => (y.1, s.cell y.2)
    slots := dies.flatMap fun d => ((s.die d.2).slots.filter fun y => y.2.state != .free && y.2.part == pn).map fun y => (d.1, y)
    lanes := dies.flatMap fun d => ((s.die d.2).lanes.filter fun y => y.2.part == some pn).map fun y => (d.1, y)
    refused := (s.refused.filter fun m => p.has pn m.1.src || p.has pn m.1.dst).map (·.1)
    mem, dump, tbc := s.tbc, turn := s.turn, digests, signature := deviceSign digests.flatten }

/-- An image streamed to the safe tier; images that it overlaps there are lost. -/
def State.stream (s : State) (pn dump at_ : Nat) : State :=
  let n := (s.part pn).streamed
  let apart := fun (y : Nat × Option Image) => match y.2 with
    | some i => y.1 + i.part.streamed ≤ at_ || at_ + n ≤ y.1
    | none => false
  { s with images := tset (s.images.filter apart) at_ (some (s.image pn dump)) }

/-! ### Commands that wait for cells -/

/-- Whether a pre-emption of a partition waits for its command boundary. -/
def State.preemptsSoon (s : State) (pn : Nat) : Bool :=
  s.cmds.any fun f => match f.2.wait with
  | .preemptSoon k _ => k == pn
  | _ => false

/-- The partitions of a checkpoint after its cut, which go on unless the command asks them to stay (R435), or a pre-emption waits (R410). -/
def State.endCut (s : State) (pn : Nat) (stay : Bool) : State :=
  if stay then s
  else
    let p := s.part pn
    s.setPart pn { p with cut := if s.preemptsSoon pn then .closing else .none }

/-- The steps of R435 after the cut, for one partition. -/
def State.checkpointed (s : State) (stay : Bool) (y : Nat × Nat × Nat) : State :=
  ((s.dumpCells y.1 y.2.1).stream y.1 y.2.1 y.2.2).endCut y.1 stay

/-- A waiting command that has all it waits for is answered, or goes on (R367, R410, R435). -/
def State.finishCmd (s : State) (y : Nat × InFlight) : State :=
  match y.2.wait with
  | .creating pn b =>
    let p := Part.ofPcb b
    if p.startPoint ≤ s.rail p.rail then (s.createPart pn p).answer y.1 y.2.tag stDone [] else s
  | .railing pn r =>
    let p := s.part pn
    if !p.running.isEmpty then s.answer y.1 y.2.tag stInUse []
    else if p.gov.inForce ≤ s.rail r then (s.connectRail pn r).answer y.1 y.2.tag stDone []
    else s
  | .preemptSoon pn dump =>
    if s.atCmdBoundary pn then { s.preemptCells pn with cmds := tset s.cmds y.1 { y.2 with wait := .preempting pn dump } } else s
  | .preempting pn dump =>
    let p := s.part pn
    if p.cells.all fun n => (s.cell n).out then
      let s := (s.dumpCells pn dump).setPart pn { p with cut := .preempted }
      s.answer y.1 y.2.tag stDone []
    else s
  | .checkpoint l stay =>
    if l.all fun z => s.cutReady z.1 then
      let bytes := (l.map fun z => (s.part z.1).streamed).sum
      (l.foldl (fun s z => s.checkpointed stay z) s).answer y.1 y.2.tag stDone [BitVec.ofNat 64 bytes]
    else s
  | _ => s

/-- Every waiting command that has all it waits for. -/
def State.finishCmds (s : State) : State := s.cmds.foldl State.finishCmd s

/-! ### CKPT_PART and CKPT_DEVICE -/

/-- Why a partition cannot be checkpointed into a dump area, if it cannot (R410, R432, R436). -/
def State.ckptBad (s : State) (pn dump : Nat) : Option Nat :=
  let p := s.part pn
  if p.stopped then some stNotPermitted
  else if p.cut != .none then some stInUse
  else if !p.dumpOk dump then some stBadParameter
  else none

/-- A cut begun in the partitions of a list. -/
def State.beginCuts (s : State) (stay : Bool) (l : List (Nat × Nat × Nat)) : State :=
  l.foldl (fun s y => s.setPart y.1 { s.part y.1 with cut := .checkpoint stay s.tbc }) s

/-- CKPT_PART: a consistent cut of one partition (R435). -/
def execCkptPart (fn : Fn) (cmd0 : W64) (s : State) : Out :=
  command "CKPT_PART" { opcode := 0x0301, masks := [all64, all64, 1] } fn cmd0 s anyState fun pn s =>
    let n := Fn.num fn
    let dump := (s.cmd n 1).toNat
    let stay := (s.cmd n 3).getLsbD 0
    match s.ckptBad pn dump with
    | some st => .fail st
    | none =>
      let l := [(pn, dump, (s.cmd n 2).toNat)]
      .wait (.checkpoint l stay) (s.beginCuts stay l)

/-- The table of a CKPT_DEVICE: the dump area and the safe-tier offset of every partition number. -/
def State.ckptTable (s : State) (at_ : Nat) : List (Nat × Nat × Nat) :=
  (List.range 48).map fun k => (k, readLE s.mem (hostKey (at_ + 16 * k)) 8, readLE s.mem (hostKey (at_ + 16 * k + 8)) 8)

/-- CKPT_DEVICE: the cut of R435 in every partition at once (R437). -/
def execCkptDevice (fn : Fn) (cmd0 : W64) (s : State) : Out :=
  command "CKPT_DEVICE" { opcode := 0x0302, vf := false, target := false, masks := [all64] } fn cmd0 s anyState fun _ s =>
    let t := s.ckptTable (s.cmd 0 1).toNat
    let l := t.filter fun y => (s.part y.1).open_
    if t.any fun y => !(s.part y.1).open_ && (y.2.1 != 0 || y.2.2 != 0) then .fail stBadParameter
    else match l.findSome? fun y => s.ckptBad y.1 y.2.1 with
    | some st => .fail st
    | none => .wait (.checkpoint l false) (s.beginCuts false l)

/-- Whether a command waits for the cut of a partition. -/
def InFlight.cuts (f : InFlight) (pn : Nat) : Bool :=
  match f.wait with
  | .checkpoint l _ => l.any fun y => y.1 == pn
  | _ => false

/-- The partitions of a waiting checkpoint. -/
def InFlight.parts (f : InFlight) : List Nat :=
  match f.wait with
  | .checkpoint l _ => l.map (·.1)
  | _ => []

/-- CKPT_TIMEOUT: a cut that is not complete within 100 ms fails; the partitions go on and nothing is written (R435). -/
def execCkptTimeout (part : Nat) (s : State) : Out :=
  event "CKPT_TIMEOUT" (
    match (s.part part).cut, s.cmds.find? fun f => f.2.cuts part with
    | .checkpoint _ since, some (fn, f) =>
      if since + 100000000 ≤ s.tbc && !s.cutReady part then some
        ((f.parts.foldl (fun s k => s.endCut k false) s).answer fn f.tag (1 + Config.failStatus s.turn % 6) []) else none
    | _, _ => none)

/-! ### RESTORE_PART (R438) -/

/-- Where the cells and the dies of an image stand in the partition that takes it. -/
def recell (old new : Part) (cell : Nat) : Nat := new.dev (old.rel cell)
def redie (old new : Part) (die : Nat) : Nat := new.dies.getD (old.dies.idxOf die) die

/-- An endpoint of an image renumbered. -/
def reEnd (old new : Part) : Endp → Endp
  | .cell n => .cell (recell old new n)
  | .home k => if old.clusters.contains k && !old.slabs.contains k then .home (recell old new (16 * k) / 16) else .home k
  | .station k => .station (recell old new (16 * k) / 16)
  | .millwright k => .millwright (recell old new (16 * k) / 16)
  | e => e

/-- A context of an image renumbered. -/
def reWho (old new : Part) (w : Who) : Who := ⟨recell old new w.cell, w.ctx⟩

/-- A memory key renumbered: that of a byte of a cell moves with the cell. -/
def reKey (old new : Part) (key : Nat) : Nat :=
  if 2 ^ 40 ≤ key && key < 2 ^ 66 then cellKey (recell old new ((key - 2 ^ 40) / 2 ^ 20)) ((key - 2 ^ 40) % 2 ^ 20) else key

/-- An access of an image renumbered. -/
def Access.moved (old new : Part) (a : Access) : Access := { a with key := reKey old new a.key, who := reWho old new a.who }

/-- The slots of an image: where the device that takes it has put each. -/
abbrev SlotMap := List ((Nat × Nat) × (Nat × Nat))

/-- A slot of an image renumbered. -/
def SlotMap.at_ (l : SlotMap) (k : Nat × Nat) : Nat × Nat := ((l.find? fun y => y.1 == k).map (·.2)).getD k

/-- A message of an image renumbered. -/
def Body.moved (old new : Part) (l : SlotMap) : Body → Body
  | .access a => .access (a.moved old new)
  | .writeAck a bad => .writeAck (a.moved old new) bad
  | .resume t => .resume (recell old new t)
  | .elem id x who n deps => .elem id x (who.map (reWho old new)) n deps
  | .closeMark id c who n => .closeMark id c (who.map (reWho old new)) n
  | .countAck job n who fork slot bad => .countAck job n (who.map (reWho old new)) fork (slot.map l.at_) bad
  | .barArrive b cfg who id deps => .barArrive b cfg (reWho old new who) id deps
  | .barAck b who id ok => .barAck b (reWho old new who) id ok
  | .barQuery b who => .barQuery b (reWho old new who)
  | .barReply b who a ph => .barReply b (reWho old new who) a ph
  | .tlbRep who va asid kind engine stale res => .tlbRep (reWho old new who) va asid kind engine stale res
  | .reserve slot entry n size job => .reserve (l.at_ slot) entry n size job
  | .release slot job => .release (l.at_ slot) job
  | b => b

/-- A message of an image renumbered. -/
def Msg.moved (old new : Part) (l : SlotMap) (m : Msg) : Msg :=
  { m with src := reEnd old new m.src, dst := reEnd old new m.dst, body := m.body.moved old new l }

/-- A time of the timebase shifted by the difference between the TBC at a restore and the TBC at the cut, which is negative where power was removed in
between (R20, R438); a time before the start of the timebase is its start. -/
def shiftTime (now since : Nat) (t : W64) : W64 := BitVec.ofNat 64 (t.toNat + now - since)

/-- A released send of an image renumbered; the deadline of a registration is shifted by the span of the restore (R438). -/
def Send.moved (old new : Part) (d : W64 → W64) (sd : Send) : Send :=
  match sd.body with
  | .store home a => { sd with body := .store (reEnd old new home) (a.moved old new) }
  | .stepReg id deadline work h job => { sd with body := .stepReg id (d deadline) work h job }
  | _ => sd

/-- The number of a reported buffer renumbered. -/
def reCode (old new : Part) (k : Nat) : Nat :=
  match k % 4 with
  | 0 => k
  | 2 => 4 * laneKey (redie old new (k / 1024)) (k / 4 % 256) + 2
  | r => 4 * recell old new (k / 4) + r

/-- A graph renumbered. -/
def Graph.moved (old new : Part) (g : Graph) : Graph :=
  let f := recell old new
  { g with
    cells := g.cells.map f
    lanes := g.lanes.map fun y => (redie old new y.1, y.2)
    code := g.code.map fun y => (f y.1, y.2)
    scratch := g.scratch.map fun y => (f y.1, y.2)
    entries := g.entries.map fun y => (f y.1, y.2)
    handlers := g.handlers.map fun y => (f y.1, y.2) }

/-- A kick register renumbered. -/
def KickReg.moved (old new : Part) (k : KickReg) : KickReg :=
  { k with replay := k.replay.map fun (r : Replay) => { r with pins := r.pins.map (recell old new) } }

/-- n bytes of one block in place of another's. -/
def keep (b target : List Byte) (off n : Nat) : List Byte := b.take off ++ (target.drop off).take n ++ b.drop (off + n)

/-- A governor whose deadlines are shifted (R438). -/
def Governor.shifted (g : Governor) (d : W64 → W64) : Governor :=
  { g with steps := g.steps.map fun (e : StepEntry) => { e with deadline := d e.deadline } }

/-- The ASIDs of an image in the partition that takes it: those that are allocated in the image, and those that are in quarantine now, whose
invalidations are still under way (R401; log entry 30). -/
def restoredAsids (old new : Tbl (Option Asid)) : Tbl (Option Asid) :=
  let live := old.filter fun y => y.2.any fun a => !a.quarantine
  (new.filter fun y => y.2.any (·.quarantine)).foldl (fun l y => if l.any fun z => z.1 == y.1 then l else tset l y.1 y.2) live

/-- The partition record of an image in the partition that takes it: what the device gave the partition stays its own (log entry 30). -/
def Part.restored (old new : Part) (d : W64 → W64) (stopped : Bool) : Part :=
  let pcb := keep (keep (keep (keep old.pcb new.pcb 1 3) new.pcb 0x08 24) new.pcb 0x38 24) new.pcb 0x60 1
  { old with
    open_ := true, rail := new.rail, floor := new.floor, defpt := new.defpt, clusters := new.clusters, reserved := new.reserved
    reelShare := new.reelShare, pcb, bar2Drops := new.bar2Drops, asids := restoredAsids old.asids new.asids
    graphs := tmap (fun _ g => g.map (Graph.moved old new)) old.graphs
    kicks := tmap (fun _ k => k.moved old new) old.kicks
    gov := { old.gov.shifted d with
      chosen := new.gov.chosen, inForce := new.gov.inForce, raising := none, quiesce := none, cycles := new.gov.cycles
      cyclesAt := new.gov.cyclesAt, next := new.gov.next, sent := new.gov.sent }
    reported := old.reported.map (reCode old new), stopped, cut := .none, nextSluice := new.nextSluice }

/-- A transfer slot of an image: a promise is shifted by the span of the restore. -/
def Xfer.restored (old new : Part) (d : W64 → W64) (x : Xfer) : Xfer :=
  { x with promise := if x.promise == 0 || x.promise == all64 then x.promise else d x.promise
           kept := x.kept.map fun k => (reEnd old new k.1, k.2.moved old new)
           starter := reWho old new x.starter }

/-- A context of an image in the place of another, whose reads of the timebase it follows (R20). -/
def Ctx.restored (old new : Part) (d : W64 → W64) (l : SlotMap) (now x : Ctx) : Ctx :=
  { x with stopNext := false, released := x.released.map (Send.moved old new d), lastTbc := now.lastTbc
           sent := x.sent.map fun y => (y.1.moved old new l, y.2)
           out := x.out.map fun (o : Pending) => { o with home := reEnd old new o.home } }

/-- The contexts of an image, and the others with what they have last read of the timebase. -/
def Cell.clocked (now : Cell) (l : Tbl Ctx) : Tbl Ctx :=
  now.clocks.foldl (fun l y => if l.any fun z => z.1 == y.1 then l else tset l y.1 y.2) l

/-- A cell of an image in the place of another: what counts physical time and place stays, and the TLB starts empty (R21, R438). The cycles
that arrivals and the array are timed by run on, and CYC goes on from the physical cell's own count. One that has tripped stays out until it
has cooled (R371), and a move that is under way goes on (R370, R428). -/
def Cell.restored (old new : Part) (d : W64 → W64) (l : SlotMap) (now c : Cell) : Cell :=
  let re := fun n => recell old new n
  { c with
    ctxs := now.clocked (tmap (fun k x => Ctx.restored old new d l (now.ctx k) x) c.ctxs)
    displaced := c.displaced.map (Ctx.restored old new d l {})
    reservs := c.reservs.map fun (r : Reserv) => { r with slot := l.at_ r.slot }
    popOpen := c.popOpen.map fun y => (laneKey (redie old new (y.1 / 256)) (y.1 % 256), y.2)
    tlb := [], xfers := tmap (fun _ x => x.restored old new d) c.xfers
    bars := tmap (fun _ (b : Barrier) => { b with counted := b.counted.map re, deps := [], pdeps := [] }) c.bars
    refusals := { c.refusals with listed := c.refusals.listed.map (reEnd old new) }
    cycOff := (now.cyc + now.cycOff) + (2 ^ 64 - c.cyc % 2 ^ 64), temp := now.temp, issueNum := now.issueNum, issueDen := now.issueDen
    gone := now.gone, out := c.out || now.gone || now.tripped, halted := now.halted, busyCycles := now.busyCycles
    promenade := now.promenade, failing := now.failing, tripped := now.tripped, retrip := now.retrip, resumedAt := now.resumedAt }

/-- A slot of an image. -/
def Slot.restored (old new : Part) (pn : Nat) (x : Slot) : Slot :=
  { x with part := pn, toAsk := x.toAsk.map (recell old new), grants := x.grants.map fun y => (recell old new y.1, y.2) }

/-- A pool lane of an image. -/
def PoolLane.restored (old new : Part) (pn : Nat) (x : PoolLane) : PoolLane :=
  { x with part := some pn, cells := x.cells.map (recell old new), parked := x.parked.map fun y => (recell old new y.1, y.2) }

/-- The slots of an image put into the tables of their dies, with where each has gone; none where a table is full. -/
def putSlots (old new : Part) (g : Slot → Slot) : List (Nat × Nat × Slot) → State → SlotMap → Option (State × SlotMap)
  | [], s, l => some (s, l)
  | (d, k, x) :: rest, s, l => do
    let die ← new.dies[d]?
    let k' ← (s.die die).freeSlot
    putSlots old new g rest (s.setSlot die k' (g x)) (l ++ [((old.dies.getD d 0, k), (die, k'))])

/-- The pool lanes of an image put where their place words name them; none where another partition has the lane. -/
def putLanes (new : Part) (g : PoolLane → PoolLane) : List (Nat × Nat × PoolLane) → State → Option State
  | [], s => some s
  | (d, k, x) :: l, s => do
    let die ← new.dies[d]?
    guard ((s.lane die k).part.isNone)
    putLanes new g l (s.setLane die k (g x))

/-- Whether the private bytes of an image are those that the device wrote: its context areas and its partition record (R436). -/
def Image.genuine (i : Image) : Bool :=
  (number 0 i.part.cells).all (fun y => (List.range 0x40000).all fun k =>
    mread i.mem (hbmKey (i.dump + 0x100000 * y.1 + 0x91000 + k)) == Config.imageByte y.2 (0x91000 + k) i.turn) &&
  (List.range 0x100000).all fun k =>
    mread i.mem (hbmKey (i.dump + 0x100000 * i.part.cellCount + k)) == Config.imageByte 0xFFF k i.turn

/-- Whether the digests of an image are those of its sections, and this device's key verifies the signature over them (R438). A signature
that the device itself makes verifies (RFC 8032), so that it is taken without the equation. -/
def Image.signed (i : Image) : Bool :=
  let m := i.digests.flatten
  i.digests == sectionDigests i.part i.mem && (i.signature == deviceSign m || edVerify deviceKey i.signature m)

/-- Whether a partition may take an image (R436, R438). -/
def Part.takes (p : Part) (pn : Nat) (i : Image) (dump : Nat) : Bool :=
  field i.part.pcb 0 1 == pn && i.part.clusters.length == p.clusters.length && i.part.slabs == p.slabs &&
  i.part.asidBase == p.asidBase && i.part.asidCount == p.asidCount && i.dump == dump && i.genuine && i.signed

/-- The cells of an image loaded from the image and the dump area. `was` gives the cells as they were before. -/
def loadImages (i : Image) (new : Part) (d : W64 → W64) (l : SlotMap) (was : Nat → Cell) : List (Nat × Cell) → State → State
  | [], s => s
  | (k, c) :: rest, s =>
    let n := new.dev k
    loadImages i new d l was rest ((s.setCell n (Cell.restored i.part new d l (was n) c)).readImage n (i.dump + 0x100000 * k))

/-- A partition restored from an image; none where its slots or lanes find no place. -/
def State.restore (s : State) (pn : Nat) (i : Image) : Option State := do
  let p := s.part pn
  let d := shiftTime s.tbc i.tbc
  let was := s.cell
  let s := s.wipePart pn
  let s := i.mem.foldl (fun (s : State) y => { s with mem := mwrite s.mem y.1 y.2 }) s
  let s := s.setPart pn (i.part.restored p d s.machineCheck)
  let (s, l) ← putSlots i.part p (Slot.restored i.part p pn) i.slots s []
  let s := loadImages i p d l was i.cells s
  putLanes p (PoolLane.restored i.part p pn) i.lanes
    { s with refused := s.refused ++ i.refused.map fun m => (m.moved i.part p l, s.tbc) }

/-- RESTORE_PART: a partition's state from a safe-tier image. A failed check, a place that slots or lanes do not find among them, leaves
the partition unchanged (R438). -/
def execRestorePart (fn : Fn) (cmd0 : W64) (s : State) : Out :=
  command "RESTORE_PART" { opcode := 0x0303, masks := [all64, all64] } fn cmd0 s anyState fun pn s =>
    let n := Fn.num fn
    let p := s.part pn
    let waits := s.cmds.any fun f => f.2.cuts pn
    if p.cut == .closing || p.cut == .preempting || p.cut == .preempted || waits then .fail stInUse
    else match tget none s.images (s.cmd n 1).toNat with
    | none => .fail stBadParameter
    | some i =>
      if !p.takes pn i (s.cmd n 2).toNat then .fail stBadParameter
      else match s.restore pn i with
      | some s => .done [] s
      | none => .fail stBadParameter

end Sys2Proof.Machine
end

