-- ==== Sys2Proof/Machine/Scalar.lean ====
section
/-! DEFINITION. The scalar instructions (R130 to R135, R163): for each the effect, which ONCE executes too (R217), and the meaning,
which is that effect followed by the next instruction. -/

namespace Sys2Proof.Machine

def effSadd (h : Head) (d : Reg) (a : SrcA) (b : SrcB) (s : State) : Res := scalarOp s h d a fun x v => v + x.scalarB b
def effSsub (h : Head) (d : Reg) (a : SrcA) (b : SrcB) (s : State) : Res := scalarOp s h d a fun x v => v - x.scalarB b
def effSmul (h : Head) (d : Reg) (a : SrcA) (b : SrcB) (s : State) : Res := scalarOp s h d a fun x v => v * x.scalarB b
def effSmulh (h : Head) (t : Ty) (d : Reg) (a : SrcA) (b : SrcB) (s : State) : Res :=
  scalarOp s h d a fun x v => mulhOp t v (x.scalarB b)

/-- The quotient truncated toward zero, and the remainder with the dividend's sign (R131). -/
def quot (t : Ty) (a b : W64) : W64 := BitVec.ofInt 64 (Int.tdiv (intOf t a) (intOf t b))
def remd (t : Ty) (a b : W64) : W64 := BitVec.ofInt 64 (Int.tmod (intOf t a) (intOf t b))

/-- A division: a divisor of zero traps when the guard is true (R131). Which cause is raised where the entry of a queue operand traps too (R174) the
reference does not say. DESIGN CHOICE, log entry 70: the queue's. -/
def divide (h : Head) (d : Reg) (a : SrcA) (b : SrcB) (s : State) (f : W64 → W64 → W64) : Res :=
  (s.scalarA a (s.me.guard h)).then fun v s' =>
    if s'.me.guard h then
      if s'.me.scalarB b == 0 then .trap { cause := causeDivideZero } s
      else .done (s'.setMe (s'.me.setS d.toNat (f v (s'.me.scalarB b))))
    else .done s'
def effSdiv (h : Head) (t : Ty) (d : Reg) (a : SrcA) (b : SrcB) (s : State) : Res := divide h d a b s (quot t)
def effSrem (h : Head) (t : Ty) (d : Reg) (a : SrcA) (b : SrcB) (s : State) : Res := divide h d a b s (remd t)

def effSand (h : Head) (d : Reg) (a : SrcA) (b : SrcB) (s : State) : Res := scalarOp s h d a fun x v => v &&& x.scalarB b
def effSor (h : Head) (d : Reg) (a : SrcA) (b : SrcB) (s : State) : Res := scalarOp s h d a fun x v => v ||| x.scalarB b
def effSxor (h : Head) (d : Reg) (a : SrcA) (b : SrcB) (s : State) : Res := scalarOp s h d a fun x v => v ^^^ x.scalarB b
def effSshl (h : Head) (d : Reg) (a : SrcA) (b : SrcB) (s : State) : Res :=
  scalarOp s h d a fun x v => if (x.scalarB b).toNat < 64 then v <<< (x.scalarB b).toNat else 0
def effSshr (h : Head) (d : Reg) (a : SrcA) (b : SrcB) (s : State) : Res :=
  scalarOp s h d a fun x v => if (x.scalarB b).toNat < 64 then v >>> (x.scalarB b).toNat else 0
def effSsar (h : Head) (d : Reg) (a : SrcA) (b : SrcB) (s : State) : Res :=
  scalarOp s h d a fun x v => v.sshiftRight (if (x.scalarB b).toNat < 64 then (x.scalarB b).toNat else 64)
def effSmov (h : Head) (d : Reg) (b : SrcB) (s : State) : Res :=
  .done (if s.me.guard h then s.setMe (s.me.setS d.toNat (s.me.scalarB b)) else s)
def effSlea (h : Head) (scale : BitVec 2) (disp : W32) (d : Reg) (a : SrcA) (b : SrcB) (s : State) : Res :=
  scalarOp s h d a fun x v => effAddr v (x.scalarB b) scale disp
def effSmin (h : Head) (t : Ty) (d : Reg) (a : SrcA) (b : SrcB) (s : State) : Res :=
  scalarOp s h d a fun x v => minOp t v (x.scalarB b)
def effSmax (h : Head) (t : Ty) (d : Reg) (a : SrcA) (b : SrcB) (s : State) : Res :=
  scalarOp s h d a fun x v => maxOp t v (x.scalarB b)

/-- The outcome of a scalar compare written into kd, its complement into ke (R133). -/
def Ctx.putK (x : Ctx) (kd : PReg) (ke : Option PReg) (v : Bool) : Ctx :=
  let x := x.setK kd.toNat v
  match ke with
  | some e => x.setK e.toNat (!v)
  | none => x
def effScmp (h : Head) (cond : Cond) (pd : PReg) (pe : Option PReg) (a : SrcA) (b : SrcB) (s : State) : Res :=
  (s.scalarA a (s.me.guard h)).then fun v s =>
    .done (if s.me.guard h then s.setMe (s.me.putK pd pe (condOf cond true v (s.me.scalarB b))) else s)
def effSbfx (h : Head) (t : Ty) (d : Reg) (a : SrcA) (b : SrcB) (s : State) : Res :=
  scalarOp s h d a fun x v => BitVec.ofNat 64 (bfxOp 64 (isSigned t) v.toNat (x.scalarB b).toNat)
def effSbfi (h : Head) (d : Reg) (a : SrcA) (b : SrcB) (s : State) : Res :=
  scalarOp s h d a fun x v => BitVec.ofNat 64 (bfiOp 64 (x.s d.toNat).toNat v.toNat (x.scalarB b).toNat)
def effSclz (h : Head) (d : Reg) (a : SrcA) (s : State) : Res :=
  scalarOp s h d a fun _ v => BitVec.ofNat 64 (clzOp 64 v.toNat)
def effSpopc (h : Head) (d : Reg) (a : SrcA) (s : State) : Res :=
  scalarOp s h d a fun _ v => BitVec.ofNat 64 (popCount v)

/-- A scalar FP32 instruction, with the commit of R147 (R163). -/
def scalarF (h : Head) (d : Reg) (a : SrcA) (s : State) (f : Ctx → Nat → FRes) : Res :=
  (s.scalarA a (s.me.guard h)).then fun v s =>
    if s.me.guard h then
      commitF s (f s.me v.toNat).fl fun x => x.setS d.toNat (BitVec.ofNat 64 (f s.me v.toNat).bits)
    else .done s
def effSfmul (h : Head) (rnd : Rnd) (d : Reg) (a : SrcA) (b : SrcB) (s : State) : Res :=
  scalarF h d a s fun x v => fmulV fmtF (modeOf x rnd) (val .f v) (val .f (x.scale32 b))
def effSfadd (h : Head) (rnd : Rnd) (d : Reg) (a : SrcA) (b : SrcB) (s : State) : Res :=
  scalarF h d a s fun x v => faddV fmtF (modeOf x rnd) (val .f v) (val .f (x.scale32 b))
def effSfma (h : Head) (rnd : Rnd) (d : Reg) (a : SrcA) (b : SrcB) (c : Reg) (s : State) : Res :=
  scalarF h d a s fun x v =>
    fmaV fmtF (modeOf x rnd) (val .f v) (val .f (x.scale32 b)) (val .f ((x.s c.toNat).toNat % 2 ^ 32))
def effSaddi (h : Head) (d : Reg) (ra : Reg) (imm9 : BitVec 9) (s : State) : Res :=
  .done (if s.me.guard h then s.setMe (s.me.setS d.toNat (s.me.s ra.toNat + imm9.signExtend 64)) else s)

/-! ### The meanings -/

def execSadd (h : Head) (d : Reg) (a : SrcA) (b : SrcB) (s : State) : Out :=
  finishLen (lenOf h (litB b)) (effSadd h d a b s)
def execSsub (h : Head) (d : Reg) (a : SrcA) (b : SrcB) (s : State) : Out :=
  finishLen (lenOf h (litB b)) (effSsub h d a b s)
def execSmul (h : Head) (d : Reg) (a : SrcA) (b : SrcB) (s : State) : Out :=
  finishLen (lenOf h (litB b)) (effSmul h d a b s)
def execSmulh (h : Head) (t : Ty) (d : Reg) (a : SrcA) (b : SrcB) (s : State) : Out :=
  finishLen (lenOf h (litB b)) (effSmulh h t d a b s)
def execSdiv (h : Head) (t : Ty) (d : Reg) (a : SrcA) (b : SrcB) (s : State) : Out :=
  finishLen (lenOf h (litB b)) (effSdiv h t d a b s)
def execSrem (h : Head) (t : Ty) (d : Reg) (a : SrcA) (b : SrcB) (s : State) : Out :=
  finishLen (lenOf h (litB b)) (effSrem h t d a b s)
def execSand (h : Head) (d : Reg) (a : SrcA) (b : SrcB) (s : State) : Out :=
  finishLen (lenOf h (litB b)) (effSand h d a b s)
def execSor (h : Head) (d : Reg) (a : SrcA) (b : SrcB) (s : State) : Out :=
  finishLen (lenOf h (litB b)) (effSor h d a b s)
def execSxor (h : Head) (d : Reg) (a : SrcA) (b : SrcB) (s : State) : Out :=
  finishLen (lenOf h (litB b)) (effSxor h d a b s)
def execSshl (h : Head) (d : Reg) (a : SrcA) (b : SrcB) (s : State) : Out :=
  finishLen (lenOf h (litB b)) (effSshl h d a b s)
def execSshr (h : Head) (d : Reg) (a : SrcA) (b : SrcB) (s : State) : Out :=
  finishLen (lenOf h (litB b)) (effSshr h d a b s)
def execSsar (h : Head) (d : Reg) (a : SrcA) (b : SrcB) (s : State) : Out :=
  finishLen (lenOf h (litB b)) (effSsar h d a b s)
def execSmov (h : Head) (d : Reg) (b : SrcB) (s : State) : Out :=
  finishLen (lenOf h (litB b)) (effSmov h d b s)
def execSlea (h : Head) (scale : BitVec 2) (disp : W32) (d : Reg) (a : SrcA) (b : SrcB) (s : State) : Out :=
  finishLen (lenOf h (litB b)) (effSlea h scale disp d a b s)
def execSmin (h : Head) (t : Ty) (d : Reg) (a : SrcA) (b : SrcB) (s : State) : Out :=
  finishLen (lenOf h (litB b)) (effSmin h t d a b s)
def execSmax (h : Head) (t : Ty) (d : Reg) (a : SrcA) (b : SrcB) (s : State) : Out :=
  finishLen (lenOf h (litB b)) (effSmax h t d a b s)
def execScmp (h : Head) (cond : Cond) (pd : PReg) (pe : Option PReg) (a : SrcA) (b : SrcB) (s : State) : Out :=
  finishLen (lenOf h (litB b)) (effScmp h cond pd pe a b s)
def execSbfx (h : Head) (t : Ty) (d : Reg) (a : SrcA) (b : SrcB) (s : State) : Out :=
  finishLen (lenOf h (litB b)) (effSbfx h t d a b s)
def execSbfi (h : Head) (d : Reg) (a : SrcA) (b : SrcB) (s : State) : Out :=
  finishLen (lenOf h (litB b)) (effSbfi h d a b s)
def execSclz (h : Head) (d : Reg) (a : SrcA) (s : State) : Out :=
  finishLen (lenOf h false) (effSclz h d a s)
def execSpopc (h : Head) (d : Reg) (a : SrcA) (s : State) : Out :=
  finishLen (lenOf h false) (effSpopc h d a s)
def execSfmul (h : Head) (rnd : Rnd) (d : Reg) (a : SrcA) (b : SrcB) (s : State) : Out :=
  finishLen (lenOf h (litB b)) (effSfmul h rnd d a b s)
def execSfadd (h : Head) (rnd : Rnd) (d : Reg) (a : SrcA) (b : SrcB) (s : State) : Out :=
  finishLen (lenOf h (litB b)) (effSfadd h rnd d a b s)
def execSfma (h : Head) (rnd : Rnd) (d : Reg) (a : SrcA) (b : SrcB) (c : Reg) (s : State) : Out :=
  finishLen (lenOf h (litB b)) (effSfma h rnd d a b c s)
def execSaddi (h : Head) (d : Reg) (ra : Reg) (imm9 : BitVec 9) (s : State) : Out :=
  finishLen (lenOf h false) (effSaddi h d ra imm9 s)

end Sys2Proof.Machine
end

