-- ==== Sys2Proof/Machine/Strand.lean ====
section
/-! DEFINITION. Far branches, EXIT, FORK and SEND (R199 to R207, R375), one meaning per instruction. -/

namespace Sys2Proof.Machine

/-- The FAR trace record: what it was, the place of the lowest active lane, and the active lanes (R441). -/
def State.traceFar (s : State) (kind : BitVec 3) (dest : Option W64) (act : W32) : State :=
  s.trace s.cur 3 s.me.r.pc
    [kind ++ (0 : BitVec 1) ++ (dest.getD (Config.noTraceField s.turn)).extractLsb' 0 28 ++ act]

/-- After lanes have ended: the next instruction, or the end of the activation with its last lane (R39). -/
def lanesEnded (n : Nat) (r : Res) : Out :=
  finish r fun s =>
    if s.me.r.live == 0 then (s.setMe { s.me with lastPc := s.me.r.pc }).endIfDone s.cur else s.setMe (s.me.past n)

/-- The place word of the word after an instruction, on the issuing cell (R201). -/
def State.returnPlace (s : State) (n : Nat) : W64 :=
  placeOf (s.relOf s.cur.cell) (s.me.r.pc + BitVec.ofNat 14 n)

/-- The values that a lane's strand carries, ascending (R31). -/
def Ctx.carried (x : Ctx) (live : W32) (L : Nat) : List W32 := (liveRegs live).map fun r => x.vl r L

/-- The far branches (R201). -/
inductive Far where
  | jfar | cfar | rfar | yield
  deriving DecidableEq, Repr

/-- The number of a far branch in the FAR trace record (R441). -/
def Far.code : Far → BitVec 3
  | .jfar => 0
  | .cfar => 1
  | .rfar => 2
  | .yield => 3

/-- The return stack that the message carries (R201). -/
def Far.rets (k : Far) (ret : W64) (l : List (BitVec 28)) : List (BitVec 28) :=
  match k with
  | .cfar => (ret.extractLsb' 0 28 :: l).take 4
  | .rfar => l.drop 1
  | _ => l

/-- The first lane, ascending, whose place fails a check (R28, R201). -/
def farTrap (s : State) (k : Far) (place : Nat → W64) : List Nat → Option Trap
  | [] => none
  | L :: ls =>
    if k == .rfar && (s.me.hdr L).rets.isEmpty then some { cause := causeReturnEmpty }
    else match checkPlace s (s.partNo s.cur.cell) (place L) false with
      | some cause => some { cause }
      | none => farTrap s k place ls

/-- The strand of a lane that far-branches. -/
def State.farStrand (s : State) (k : Far) (ret place : W64) (live : W32) (L : Nat) : Strand :=
  let h := s.me.hdr L
  { wid := h.wid, live, dest := place.extractLsb' 0 28, rets := k.rets ret h.rets, step := s.me.step L, job := h.job
    origin := BitVec.ofNat 12 (s.relOf s.cur.cell), part := BitVec.ofNat 6 (s.partNo s.cur.cell), widw := h.widw
    vals := s.me.carried live L }

/-- The bytes that a strand message takes of the send buffer (R199). -/
def strandSpace (live : W32) : Nat := (48 + 4 * popCount live + 15) / 16 * 16

/-- JFAR, CFAR, RFAR and YIELD. Increments for lanes that are not counted are held before the strands (R375). -/
def farBranch (s : State) (h : Head) (k : Far) (n : Nat) (live : W32) (place : Nat → W64) : Out :=
  let act := s.me.active h
  let l := lanesOf act
  lanesEnded n (
    if act == 0 then .done s
    else if 16 < popCount live then .trap { cause := causeLiveSet } s
    else match farTrap s k place l with
    | some t => .trap t s
    | none =>
      let ret := s.returnPlace n
      let incs := countJobs ((l.filter fun L => !(s.me.hdr L).counted).map fun L => (s.me.hdr L).job)
      withRoom s (strandSpace live * l.length + 16 * incs.length) 0 fun s =>
        let s := s.traceFar k.code (l.head?.map place) act
        let held := (incs.map fun j => ({ bytes := 16, body := .incr j.1 j.2 } : Send)) ++
          l.map fun L => { bytes := strandSpace live
                           body := .strand (s.farStrand k ret (place L) live L) (!(s.me.hdr L).counted) }
        .done (s.setMe ((s.me.hold held).endLanes act)))

/-- The place of a lane from a pair or from a scalar register (R201). -/
def Ctx.farPlace (x : Ctx) (toS : Bool) (ra : Reg) (L : Nat) : W64 := if toS then x.s ra.toNat else x.vp ra.toNat L

def execJfar (h : Head) (toS : Bool) (ra : Reg) (live : W32) (s : State) : Out :=
  farBranch s h .jfar (lenOf h false) live (s.me.farPlace toS ra)
def execCfar (h : Head) (toS : Bool) (ra : Reg) (live : W32) (s : State) : Out :=
  farBranch s h .cfar (lenOf h false) live (s.me.farPlace toS ra)
def execRfar (h : Head) (live : W32) (s : State) : Out :=
  farBranch s h .rfar (lenOf h false) live fun L => ((s.me.hdr L).rets.headD 0).setWidth 64
def execYield (h : Head) (live : W32) (s : State) : Out :=
  farBranch s h .yield (lenOf h false) live fun _ => s.returnPlace (lenOf h false)

/-- The decrement that the segment holds for a job, if any. -/
def Ctx.heldDecr (x : Ctx) (job : W32) : Nat :=
  (x.held.map fun sd => match sd.body with
    | .decr j n => if j == job then n else 0
    | _ => 0).sum

/-- One decrement held for a job, with those that the segment held before moved behind every send held since (R203, R304). -/
def Ctx.holdDecr (x : Ctx) (j : W32 × Nat) : Ctx :=
  let n := j.2 + x.heldDecr j.1
  let held := x.held.filter fun sd => match sd.body with
    | .decr k _ => k != j.1
    | _ => true
  ({ x with held } : Ctx).hold [{ bytes := 16, body := .decr j.1 n }]

def execExit (h : Head) (s : State) : Out :=
  let act := s.me.active h
  let l := lanesOf act
  lanesEnded (lenOf h false) (
    if act == 0 then .done s
    else
      let jobs := countJobs ((l.filter fun L => (s.me.hdr L).counted).map fun L => (s.me.hdr L).job)
      withRoomOf s (fun s => (16 * (jobs.filter fun j => s.me.heldDecr j.1 == 0).length, 0)) fun s =>
        let s := s.traceFar 4 none act
        .done (s.setMe ((jobs.foldl Ctx.holdDecr s.me).endLanes act)))

/-- The children of one lane of a FORK (R204). -/
def State.forkChildren (s : State) (place : W64) (c : Reg) (live : W32) (n L : Nat) : List Strand :=
  let h := s.me.hdr L
  (List.range n).map fun i =>
    { wid := s.me.vp c.toNat L + BitVec.ofNat 64 i, live, dest := place.extractLsb' 0 28, rets := [], step := s.me.step L
      job := h.job, origin := BitVec.ofNat 12 (s.relOf s.cur.cell), part := BitVec.ofNat 6 (s.partNo s.cur.cell)
      widw := h.widw, vals := s.me.carried live L }

/-- The increments of a FORK sent to the homes of its jobs' counts. -/
def sendIncrements (w : Who) (p : Part) : List (W32 × Nat) → State → State
  | [], s => s
  | (j, n) :: l, s =>
    sendIncrements w p l (s.post
      { vn := .request, src := .cell w.cell, dst := p.jobHome j
        body := .countAdd j n (some w) true none (p.jobLine (j.toNat % 4096)) })

/-- FORK sends its increments and blocks; FORK_ACK and FORK_CHILD_INJECT finish it (R204). -/
def execFork (h : Head) (ra : Reg) (b : SrcB) (c : Reg) (live : W32) (s : State) : Out :=
  boundary (lenOf h (litB b)) s fun s =>
    let act := s.me.active h
    let l := lanesOf act
    let n := (s.me.scalarB b).toNat
    let place := s.me.s ra.toNat
    if act == 0 || n == 0 then .done s
    else if 16 < popCount live then .trap { cause := causeLiveSet } s
    else if 65535 < n then .trap { cause := causeForkCount } s
    else match checkPlace s (s.partNo s.cur.cell) place false with
    | some cause => .trap { cause } s
    | none =>
      let jobs := (countJobs (l.map fun L => (s.me.hdr L).job)).map fun j => (j.1, n * j.2)
      let children := l.flatMap fun L => s.forkChildren place c live n L
      let p := s.partAt s.cur.cell
      if jobs.any fun j => s.barred s.cur.cell (p.jobHome j.1) then .wait .quiesce s
      else
        let fork : Fork := { awaited := jobs.length, children, place, len := lenOf h (litB b) }
        let s := (s.setMe { s.me with fork := some fork }).traceFar 5 (some place) act
        .wait .forkAcks (sendIncrements s.cur p jobs s)

/-- A message of a class from the issuing context (R206). -/
def State.sendMsg (s : State) (cls : BitVec 5) (place payload : W64) : Smsg :=
  let L := s.me.low
  { payload, origin := BitVec.ofNat 12 (s.relOf s.cur.cell), part := BitVec.ofNat 6 (s.partNo s.cur.cell), cls
    dest := place.extractLsb' 0 28, step := s.me.step L, job := (s.me.hdr L).job, wid := (s.me.hdr L).wid }

/-- SEND: classes 0 to 6 are checked at decoding, whatever the guard (R52, R70, R205). The lanes of its trace record are those that the
mask stack enables, since its guard, which holds, is one for all (R6, R441). -/
def execSend (h : Head) (cls : BitVec 5) (ra : Reg) (b : SrcB) (s : State) : Out :=
  finishLen (lenOf h (litB b)) (
    let place := s.me.s ra.toNat
    let payload := s.me.scalarB b
    if cls.toNat < 7 && !s.me.priv then .trap { cause := causePrivileged } s
    else if !s.me.guard h then .done s
    else match checkPlace s (s.partNo s.cur.cell) place true with
    | some cause => .trap { cause } s
    | none => withRoom s 32 0 fun s =>
      let s := s.traceFar 6 (some place) (s.me.r.cm &&& s.me.r.live)
      .done (s.setMe (s.me.hold [{ bytes := 32, body := .msg (s.sendMsg cls place payload) }])))

end Sys2Proof.Machine
end

