-- ==== Sys2Proof/Machine/System.lean ====
section
/-! DEFINITION. The system instructions (R222, R223), one meaning per instruction. -/

namespace Sys2Proof.Machine

def execNop (h : Head) (s : State) : Out := finishLen (lenOf h false) (.done s)

def execTrap (h : Head) (code : W32) (s : State) : Out :=
  finishLen (lenOf h false)
    (if s.me.guard h then .trap { cause := causeSoftwareTrap, addr := some (code.setWidth 64) } s else .done s)

/-- BRK traps, or halts the cell when the host has armed debug; the context then stands at the next word (R222, R439). -/
def execBrk (h : Head) (code : W32) (s : State) : Out :=
  finishLen (lenOf h false) (
    if !s.me.guard h then .done s
    else if (s.partAt s.cur.cell).armed then .done (s.setMyCell { s.myCell with halted := true })
    else .trap { cause := causeDebugBreak, addr := some (code.setWidth 64) } s)

/-- CKPT commits; a rollback later returns to the word after it (R40, R45). -/
def execCkpt (h : Head) (s : State) : Out :=
  if !s.me.guard h then finishLen (lenOf h false) (.done s)
  else if s.me.commitWaits then finish (.wait .acquire s) id
  else finish (.done s) fun s => (s.setMe (s.me.past (lenOf h false))).commit s.cur 0

/-- SVC sends its request to the millwright and blocks until the reply (R222, R402). -/
def execSvc (h : Head) (code : W32) (s : State) : Out :=
  boundary (lenOf h false) s fun s =>
    if !s.me.guard h then .done s
    else .wait (.svc (lenOf h false))
      (s.post { vn := .system, src := .cell s.cur.cell, dst := .millwright (s.cur.cell / 16)
                body := .svc s.cur code ([1, 2, 3, 4, 5, 6].map s.me.s) })

/-- Whether a system register is privileged to read or to write (R223). -/
def sregPrivileged (n : BitVec 6) : Bool := n == 0x04 || n == 0x16

/-- The value of a system register that is not per lane (R223). TBC is read by readTbc. -/
def State.sreg (s : State) (n : Nat) : W64 :=
  let x := s.me
  let p := s.partAt s.cur.cell
  match n with
  | 0x01 => (x.hdr x.low).widw.setWidth 64
  | 0x02 => x.entry
  | 0x03 => BitVec.ofNat 64 (s.relOf s.cur.cell)
  | 0x04 => BitVec.ofNat 64 (s.phys s.cur.cell)
  | 0x05 => BitVec.ofNat 64 (s.partNo s.cur.cell)
  | 0x06 => BitVec.ofNat 64 s.cur.ctx
  | 0x07 => BitVec.ofNat 64 x.setSize
  | 0x09 => (x.hdr x.low).job.setWidth 64
  | 0x0A => (x.step x.low).setWidth 64
  | 0x0C => BitVec.ofNat 64 (s.myCell.cyc + s.myCell.cycOff)
  | 0x0D => x.fpctl.setWidth 64
  | 0x0E => x.fpflags.setWidth 64
  | 0x0F => BitVec.ofNat 64 x.budget
  | 0x10 => x.trap.cause.setWidth 64
  | 0x11 => x.trap.pc.setWidth 64
  | 0x12 => x.trap.addr
  | 0x13 => x.trap.msg.setWidth 64
  | 0x15 => x.qcfg.setWidth 64
  | 0x16 => s.myCell.inboxCfg.setWidth 64
  | 0x17 => p.faultSrv
  | 0x18 => x.slackNs
  | _ => 0

/-- A read of the timebase: reads in two cells differ by at most 2, and no later read of a context is less (R20). -/
def State.readTbc (s : State) : Nat × State :=
  let t := s.tbc + Config.tbcSkew s.turn % 3
  let t := if t < s.me.lastTbc then s.me.lastTbc else t
  (t, s.setMe { s.me with lastTbc := t })

/-- MFS is lane class; a register that is not per lane goes to a scalar register when any lane is active (R102, R222). -/
def execMfs (h : Head) (sreg : BitVec 6) (d : Reg) (s : State) : Out :=
  finishLen (lenOf h false) (
    let act := s.me.active h
    if sregPrivileged sreg && !s.me.priv then .trap { cause := causePrivileged } s
    else if sreg == 0x00 then .done (s.setMe (s.me.put d true act fun L => (s.me.hdr L).wid))
    else if sreg == 0x08 then .done (s.setMe (s.me.put d false act fun L => BitVec.ofNat 64 L))
    else if sreg == 0x14 then .done (s.setMe (s.me.put d false act fun L => BitVec.ofNat 64 (s.me.hdr L).rets.length))
    else if act == 0 then .done s
    else if sreg == 0x0B then
      let (t, s) := s.readTbc
      .done (s.setMe (s.me.setS d.toNat (BitVec.ofNat 64 t)))
    else .done (s.setMe (s.me.setS d.toNat (s.sreg sreg.toNat))))

/-- MTS writes one of the four writable registers (R222, R223): PZ of QCFG is cleared by ones (R176). -/
def execMts (h : Head) (sreg : BitVec 6) (ra : Reg) (s : State) : Out :=
  finishLen (lenOf h false) (
    let v := s.me.s ra.toNat
    if sregPrivileged sreg && !s.me.priv then .trap { cause := causePrivileged } s
    else if !s.me.guard h then .done s
    else match sreg.toNat with
    | 0x0D => .done (s.setMe { s.me with fpctl := v.extractLsb' 0 8 })
    | 0x0E => .done (s.setMe { s.me with fpflags := v.extractLsb' 0 6 })
    | 0x15 => .done (s.setMe { s.me with
        qcfg := (s.me.qcfg.extractLsb' 8 8 &&& ~~~(v.extractLsb' 8 8)) ++ v.extractLsb' 0 8 })
    | 0x16 => .done (s.setMyCell { s.myCell with inboxCfg := v.extractLsb' 0 8 })
    | _ => .trap { cause := causeReservedField } s)

end Sys2Proof.Machine
end

