-- ==== Sys2Proof/Machine/Dispatch.lean ====
section
/-! DEFINITION. The one dispatch: an arm for every constructor of Instr, each one call of its meaning. -/

namespace Sys2Proof.Machine

def exec (i : Instr) (s : State) : Host.Outcome State Fault Refusal :=
  match i with
  | .add h t sat d a b => Sys2Proof.Machine.execAdd h t sat d a b s
  | .sub h t sat d a b => Sys2Proof.Machine.execSub h t sat d a b s
  | .adds h t sat d a b => Sys2Proof.Machine.execAdds h t sat d a b s
  | .subs h t sat d a b => Sys2Proof.Machine.execSubs h t sat d a b s
  | .mul h t sat d a b => Sys2Proof.Machine.execMul h t sat d a b s
  | .mulh h t d a b => Sys2Proof.Machine.execMulh h t d a b s
  | .mad h t sat d a b c => Sys2Proof.Machine.execMad h t sat d a b c s
  | .min h t d a b => Sys2Proof.Machine.execMin h t d a b s
  | .max h t d a b => Sys2Proof.Machine.execMax h t d a b s
  | .abs h t sat d a => Sys2Proof.Machine.execAbs h t sat d a s
  | .neg h t sat d a => Sys2Proof.Machine.execNeg h t sat d a s
  | .and h t d a b => Sys2Proof.Machine.execAnd h t d a b s
  | .or h t d a b => Sys2Proof.Machine.execOr h t d a b s
  | .xor h t d a b => Sys2Proof.Machine.execXor h t d a b s
  | .andn h t d a b => Sys2Proof.Machine.execAndn h t d a b s
  | .not h t d a => Sys2Proof.Machine.execNot h t d a s
  | .shl h t d a b => Sys2Proof.Machine.execShl h t d a b s
  | .shr h t d a b => Sys2Proof.Machine.execShr h t d a b s
  | .sar h t d a b => Sys2Proof.Machine.execSar h t d a b s
  | .rol h t d a b => Sys2Proof.Machine.execRol h t d a b s
  | .bfx h t d a b => Sys2Proof.Machine.execBfx h t d a b s
  | .bfi h t d a b => Sys2Proof.Machine.execBfi h t d a b s
  | .popc h t d a => Sys2Proof.Machine.execPopc h t d a s
  | .clz h t d a => Sys2Proof.Machine.execClz h t d a s
  | .brev h t d a => Sys2Proof.Machine.execBrev h t d a s
  | .sel h t d a b pc => Sys2Proof.Machine.execSel h t d a b pc s
  | .mov h t d b => Sys2Proof.Machine.execMov h t d b s
  | .movs h t d a b => Sys2Proof.Machine.execMovs h t d a b s
  | .shfl h mode t d a b => Sys2Proof.Machine.execShfl h mode t d a b s
  | .vote h d pa => Sys2Proof.Machine.execVote h d pa s
  | .reds h rop t d a => Sys2Proof.Machine.execReds h rop t d a s
  | .scan h rop excl t d a => Sys2Proof.Machine.execScan h rop excl t d a s
  | .addi h d ra imm9 => Sys2Proof.Machine.execAddi h d ra imm9 s
  | .widf h lvl d => Sys2Proof.Machine.execWidf h lvl d s
  | .fadd h t rnd d a b => Sys2Proof.Machine.execFadd h t rnd d a b s
  | .fsub h t rnd d a b => Sys2Proof.Machine.execFsub h t rnd d a b s
  | .fmul h t rnd d a b => Sys2Proof.Machine.execFmul h t rnd d a b s
  | .fma h t rnd d a b c => Sys2Proof.Machine.execFma h t rnd d a b c s
  | .fmin h t d a b => Sys2Proof.Machine.execFmin h t d a b s
  | .fmax h t d a b => Sys2Proof.Machine.execFmax h t d a b s
  | .fabs h t d a => Sys2Proof.Machine.execFabs h t d a s
  | .fneg h t d a => Sys2Proof.Machine.execFneg h t d a s
  | .fdiv h t rnd d a b => Sys2Proof.Machine.execFdiv h t rnd d a b s
  | .fsqrt h t rnd d a => Sys2Proof.Machine.execFsqrt h t rnd d a s
  | .frcp h t rnd d a => Sys2Proof.Machine.execFrcp h t rnd d a s
  | .frsq h t rnd d a => Sys2Proof.Machine.execFrsq h t rnd d a s
  | .fexp2 h t rnd d a => Sys2Proof.Machine.execFexp2 h t rnd d a s
  | .flog2 h t rnd d a => Sys2Proof.Machine.execFlog2 h t rnd d a s
  | .fscale h t rnd d a b => Sys2Proof.Machine.execFscale h t rnd d a b s
  | .frnd h t rnd d a => Sys2Proof.Machine.execFrnd h t rnd d a s
  | .fclass h t d a => Sys2Proof.Machine.execFclass h t d a s
  | .cvt h t src rnd sat d a => Sys2Proof.Machine.execCvt h t src rnd sat d a s
  | .qpack h t sat d a b => Sys2Proof.Machine.execQpack h t sat d a b s
  | .qunpk h t rnd d a b => Sys2Proof.Machine.execQunpk h t rnd d a b s
  | .amax h d a => Sys2Proof.Machine.execAmax h d a s
  | .cmp h cond wide pd pe a b => Sys2Proof.Machine.execCmp h cond wide pd pe a b s
  | .fcmp h cond t pd pe a b => Sys2Proof.Machine.execFcmp h cond t pd pe a b s
  | .pand h pd pa pb => Sys2Proof.Machine.execPand h pd pa pb s
  | .por h pd pa pb => Sys2Proof.Machine.execPor h pd pa pb s
  | .pxor h pd pa pb => Sys2Proof.Machine.execPxor h pd pa pb s
  | .pnot h pd pa => Sys2Proof.Machine.execPnot h pd pa s
  | .pmask h pd a => Sys2Proof.Machine.execPmask h pd a s
  | .pset h val pd => Sys2Proof.Machine.execPset h val pd s
  | .sadd h d a b => Sys2Proof.Machine.execSadd h d a b s
  | .ssub h d a b => Sys2Proof.Machine.execSsub h d a b s
  | .smul h d a b => Sys2Proof.Machine.execSmul h d a b s
  | .smulh h t d a b => Sys2Proof.Machine.execSmulh h t d a b s
  | .sdiv h t d a b => Sys2Proof.Machine.execSdiv h t d a b s
  | .srem h t d a b => Sys2Proof.Machine.execSrem h t d a b s
  | .sand h d a b => Sys2Proof.Machine.execSand h d a b s
  | .sor h d a b => Sys2Proof.Machine.execSor h d a b s
  | .sxor h d a b => Sys2Proof.Machine.execSxor h d a b s
  | .sshl h d a b => Sys2Proof.Machine.execSshl h d a b s
  | .sshr h d a b => Sys2Proof.Machine.execSshr h d a b s
  | .ssar h d a b => Sys2Proof.Machine.execSsar h d a b s
  | .smov h d b => Sys2Proof.Machine.execSmov h d b s
  | .slea h scale disp d a b => Sys2Proof.Machine.execSlea h scale disp d a b s
  | .smin h t d a b => Sys2Proof.Machine.execSmin h t d a b s
  | .smax h t d a b => Sys2Proof.Machine.execSmax h t d a b s
  | .scmp h cond pd pe a b => Sys2Proof.Machine.execScmp h cond pd pe a b s
  | .sbfx h t d a b => Sys2Proof.Machine.execSbfx h t d a b s
  | .sbfi h d a b => Sys2Proof.Machine.execSbfi h d a b s
  | .sclz h d a => Sys2Proof.Machine.execSclz h d a s
  | .spopc h d a => Sys2Proof.Machine.execSpopc h d a s
  | .sfmul h rnd d a b => Sys2Proof.Machine.execSfmul h rnd d a b s
  | .sfadd h rnd d a b => Sys2Proof.Machine.execSfadd h rnd d a b s
  | .sfma h rnd d a b c => Sys2Proof.Machine.execSfma h rnd d a b c s
  | .saddi h d ra imm9 => Sys2Proof.Machine.execSaddi h d ra imm9 s
  | .br h off => Sys2Proof.Machine.execBr h off s
  | .brl h off => Sys2Proof.Machine.execBrl h off s
  | .brx h ra => Sys2Proof.Machine.execBrx h ra s
  | .ret h => Sys2Proof.Machine.execRet h s
  | .pushm h pa => Sys2Proof.Machine.execPushm h pa s
  | .elsem h pa => Sys2Proof.Machine.execElsem h pa s
  | .popm h => Sys2Proof.Machine.execPopm h s
  | .brany h pa off => Sys2Proof.Machine.execBrany h pa off s
  | .brall h pa off => Sys2Proof.Machine.execBrall h pa off s
  | .loop h d off => Sys2Proof.Machine.execLoop h d off s
  | .ld h t d m => Sys2Proof.Machine.execLd h t d m s
  | .st h t d m => Sys2Proof.Machine.execSt h t d m s
  | .lds h t d m => Sys2Proof.Machine.execLds h t d m s
  | .sts h t d m => Sys2Proof.Machine.execSts h t d m s
  | .ldq h t sform ord qd m => Sys2Proof.Machine.execLdq h t sform ord qd m s
  | .stx h t ord d m => Sys2Proof.Machine.execStx h t ord d m s
  | .qpop h t toS d q => Sys2Proof.Machine.execQpop h t toS d q s
  | .qpeek h t toS d q => Sys2Proof.Machine.execQpeek h t toS d q s
  | .qstat h d q => Sys2Proof.Machine.execQstat h d q s
  | .qdrop h q => Sys2Proof.Machine.execQdrop h q s
  | .tagl h d ra => Sys2Proof.Machine.execTagl h d ra s
  | .tagw h ra b => Sys2Proof.Machine.execTagw h ra b s
  | .tagi h tsub ra b => Sys2Proof.Machine.execTagi h tsub ra b s
  | .atom h aop t d m c e => Sys2Proof.Machine.execAtom h aop t d m c e s
  | .atomx h aop t ord qd m c e => Sys2Proof.Machine.execAtomx h aop t ord qd m c e s
  | .fence h scope => Sys2Proof.Machine.execFence h scope s
  | .jfar h toS ra live => Sys2Proof.Machine.execJfar h toS ra live s
  | .cfar h toS ra live => Sys2Proof.Machine.execCfar h toS ra live s
  | .rfar h live => Sys2Proof.Machine.execRfar h live s
  | .fork h ra b c live => Sys2Proof.Machine.execFork h ra b c live s
  | .exit h => Sys2Proof.Machine.execExit h s
  | .yield h live => Sys2Proof.Machine.execYield h live s
  | .send h cls ra b => Sys2Proof.Machine.execSend h cls ra b s
  | .chbind h rdr qc ra => Sys2Proof.Machine.execChbind h rdr qc ra s
  | .chw h vec qc ra => Sys2Proof.Machine.execChw h vec qc ra s
  | .chclose h qc => Sys2Proof.Machine.execChclose h qc s
  | .chstat h d qc => Sys2Proof.Machine.execChstat h d qc s
  | .chunbind h qc => Sys2Proof.Machine.execChunbind h qc s
  | .barc h bar ra => Sys2Proof.Machine.execBarc h bar ra s
  | .bara h bar ord => Sys2Proof.Machine.execBara h bar ord s
  | .barw h bar ord => Sys2Proof.Machine.execBarw h bar ord s
  | .bart h bar ord pd => Sys2Proof.Machine.execBart h bar ord pd s
  | .gang h scope => Sys2Proof.Machine.execGang h scope s
  | .step h ra b c => Sys2Proof.Machine.execStep h ra b c s
  | .stepend h => Sys2Proof.Machine.execStepend h s
  | .slack h d => Sys2Proof.Machine.execSlack h d s
  | .sleept h ra => Sys2Proof.Machine.execSleept h ra s
  | .tdset h w td ra => Sys2Proof.Machine.execTdset h w td ra s
  | .tdget h w td d => Sys2Proof.Machine.execTdget h w td d s
  | .mma h ta tb acc tda tdb => Sys2Proof.Machine.execMma h ta tb acc tda tdb s
  | .accz h acc => Sys2Proof.Machine.execAccz h acc s
  | .accld h t acc ra => Sys2Proof.Machine.execAccld h t acc ra s
  | .accst h t rnd sat acc ra => Sys2Proof.Machine.execAccst h t rnd sat acc ra s
  | .twset h fld ra => Sys2Proof.Machine.execTwset h fld ra s
  | .twgo h ord d => Sys2Proof.Machine.execTwgo h ord d s
  | .twmap h d ra b => Sys2Proof.Machine.execTwmap h d ra b s
  | .twtest h ord pd ra b => Sys2Proof.Machine.execTwtest h ord pd ra b s
  | .twwait h all ord ra b => Sys2Proof.Machine.execTwwait h all ord ra b s
  | .nop h => Sys2Proof.Machine.execNop h s
  | .trap h code => Sys2Proof.Machine.execTrap h code s
  | .svc h code => Sys2Proof.Machine.execSvc h code s
  | .mfs h sreg d => Sys2Proof.Machine.execMfs h sreg d s
  | .mts h sreg ra => Sys2Proof.Machine.execMts h sreg ra s
  | .ckpt h => Sys2Proof.Machine.execCkpt h s
  | .brk h code => Sys2Proof.Machine.execBrk h code s
  | .once cluster => Sys2Proof.Machine.execOnce cluster s
  | .inboxArrival k => Sys2Proof.Machine.execInboxArrival k s
  | .setFormation cell => Sys2Proof.Machine.execSetFormation cell s
  | .gatherWindowExpiry cell entry => Sys2Proof.Machine.execGatherWindowExpiry cell entry s
  | .startMessage k => Sys2Proof.Machine.execStartMessage k s
  | .startAck k => Sys2Proof.Machine.execStartAck k s
  | .bankWrite cell => Sys2Proof.Machine.execBankWrite cell s
  | .homeAccess k => Sys2Proof.Machine.execHomeAccess k s
  | .queueResponse k => Sys2Proof.Machine.execQueueResponse k s
  | .stxErrorResponse k => Sys2Proof.Machine.execStxErrorResponse k s
  | .sendRefused k => Sys2Proof.Machine.execSendRefused k s
  | .resumeNotification k => Sys2Proof.Machine.execResumeNotification k s
  | .targetSwitchedOut cell target => Sys2Proof.Machine.execTargetSwitchedOut cell target s
  | .countIncrement k => Sys2Proof.Machine.execCountIncrement k s
  | .forkAck k => Sys2Proof.Machine.execForkAck k s
  | .forkChildInject cell ctx => Sys2Proof.Machine.execForkChildInject cell ctx s
  | .countDecrement k => Sys2Proof.Machine.execCountDecrement k s
  | .jobDone k => Sys2Proof.Machine.execJobDone k s
  | .barrierArrival k => Sys2Proof.Machine.execBarrierArrival k s
  | .barrierStateReply k => Sys2Proof.Machine.execBarrierStateReply k s
  | .phaseUpdate k => Sys2Proof.Machine.execPhaseUpdate k s
  | .joinMatch wire => Sys2Proof.Machine.execJoinMatch wire s
  | .mmaRetire row => Sys2Proof.Machine.execMmaRetire row s
  | .twChunkComplete cell slot => Sys2Proof.Machine.execTwChunkComplete cell slot s
  | .twHandlePush cell slot => Sys2Proof.Machine.execTwHandlePush cell slot s
  | .twFault cell slot => Sys2Proof.Machine.execTwFault cell slot s
  | .twWriteRefused k => Sys2Proof.Machine.execTwWriteRefused k s
  | .channelElementArrival k => Sys2Proof.Machine.execChannelElementArrival k s
  | .channelRefill cell chan => Sys2Proof.Machine.execChannelRefill cell chan s
  | .closeMarkArrival k => Sys2Proof.Machine.execCloseMarkArrival k s
  | .roomNotification k => Sys2Proof.Machine.execRoomNotification k s
  | .inboxRefill cell => Sys2Proof.Machine.execInboxRefill cell s
  | .poolAppend k => Sys2Proof.Machine.execPoolAppend k s
  | .poolPopRequest k => Sys2Proof.Machine.execPoolPopRequest k s
  | .poolRingRefill die lane => Sys2Proof.Machine.execPoolRingRefill die lane s
  | .sluiceSample part => Sys2Proof.Machine.execSluiceSample part s
  | .kick part reg value => Sys2Proof.Machine.execKick part reg value s
  | .replayStart part reg => Sys2Proof.Machine.execReplayStart part reg s
  | .nodeStart part reg node => Sys2Proof.Machine.execNodeStart part reg node s
  | .copyComplete part reg node => Sys2Proof.Machine.execCopyComplete part reg node s
  | .replayEnd part reg => Sys2Proof.Machine.execReplayEnd part reg s
  | .slotArm die slot => Sys2Proof.Machine.execSlotArm die slot s
  | .reserveContexts k => Sys2Proof.Machine.execReserveContexts k s
  | .dispatchRelease die => Sys2Proof.Machine.execDispatchRelease die s
  | .stationInject cluster => Sys2Proof.Machine.execStationInject cluster s
  | .class0Reserve cell => Sys2Proof.Machine.execClass0Reserve cell s
  | .displacement cell => Sys2Proof.Machine.execDisplacement cell s
  | .displacedRestore cell => Sys2Proof.Machine.execDisplacedRestore cell s
  | .watchdog cell ctx => Sys2Proof.Machine.execWatchdog cell ctx s
  | .preemptRequest k => Sys2Proof.Machine.execPreemptRequest k s
  | .preemptStopped cell => Sys2Proof.Machine.execPreemptStopped cell s
  | .cellResume cell => Sys2Proof.Machine.execCellResume cell s
  | .sleeptWake cell ctx => Sys2Proof.Machine.execSleeptWake cell ctx s
  | .fenceTimeout cell ctx => Sys2Proof.Machine.execFenceTimeout cell ctx s
  | .stepRegistration k => Sys2Proof.Machine.execStepRegistration k s
  | .stepRetirement k => Sys2Proof.Machine.execStepRetirement k s
  | .workReport k => Sys2Proof.Machine.execWorkReport k s
  | .governorPeriod part => Sys2Proof.Machine.execGovernorPeriod part s
  | .clusterBid k => Sys2Proof.Machine.execClusterBid k s
  | .weirClear => Sys2Proof.Machine.execWeirClear s
  | .grantArrival k => Sys2Proof.Machine.execGrantArrival k s
  | .meterWindow cluster => Sys2Proof.Machine.execMeterWindow cluster s
  | .railStep rail => Sys2Proof.Machine.execRailStep rail s
  | .quiesceDrained part => Sys2Proof.Machine.execQuiesceDrained part s
  | .quiesceTimeout part => Sys2Proof.Machine.execQuiesceTimeout part s
  | .thermalSample phys temp => Sys2Proof.Machine.execThermalSample phys temp s
  | .promenadeCopyDone cell => Sys2Proof.Machine.execPromenadeCopyDone cell s
  | .tlbFillRequest k => Sys2Proof.Machine.execTlbFillRequest k s
  | .tlbFillReply k => Sys2Proof.Machine.execTlbFillReply k s
  | .invalidation k => Sys2Proof.Machine.execInvalidation k s
  | .invalidationComplete id => Sys2Proof.Machine.execInvalidationComplete id s
  | .svcVersion k => Sys2Proof.Machine.execSvcVersion k s
  | .svcInvalPage k => Sys2Proof.Machine.execSvcInvalPage k s
  | .svcInvalAsid k => Sys2Proof.Machine.execSvcInvalAsid k s
  | .svcMap k => Sys2Proof.Machine.execSvcMap k s
  | .svcUnmap k => Sys2Proof.Machine.execSvcUnmap k s
  | .svcQuote k => Sys2Proof.Machine.execSvcQuote k s
  | .faultRecord k => Sys2Proof.Machine.execFaultRecord k s
  | .verdict k => Sys2Proof.Machine.execVerdict k s
  | .jobDrop k => Sys2Proof.Machine.execJobDrop k s
  | .cellQuarantine cell err ctx words accs => Sys2Proof.Machine.execCellQuarantine cell err ctx words accs s
  | .hbmError pa corrected => Sys2Proof.Machine.execHbmError pa corrected s
  | .partitionStop err parts => Sys2Proof.Machine.execPartitionStop err parts s
  | .machineCheck => Sys2Proof.Machine.execMachineCheck s
  | .ckptTimeout part => Sys2Proof.Machine.execCkptTimeout part s
  | .partCreate fn cmd0 => Sys2Proof.Machine.execPartCreate fn cmd0 s
  | .partDestroy fn cmd0 => Sys2Proof.Machine.execPartDestroy fn cmd0 s
  | .partSetRail fn cmd0 => Sys2Proof.Machine.execPartSetRail fn cmd0 s
  | .partSetFaultsrv fn cmd0 => Sys2Proof.Machine.execPartSetFaultsrv fn cmd0 s
  | .partPreempt fn cmd0 => Sys2Proof.Machine.execPartPreempt fn cmd0 s
  | .partResume fn cmd0 => Sys2Proof.Machine.execPartResume fn cmd0 s
  | .asidAlloc fn cmd0 => Sys2Proof.Machine.execAsidAlloc fn cmd0 s
  | .asidRelease fn cmd0 => Sys2Proof.Machine.execAsidRelease fn cmd0 s
  | .memMap fn cmd0 => Sys2Proof.Machine.execMemMap fn cmd0 s
  | .attestQuote fn cmd0 => Sys2Proof.Machine.execAttestQuote fn cmd0 s
  | .attestPublicKey fn cmd0 => Sys2Proof.Machine.execAttestPublicKey fn cmd0 s
  | .graphLoad fn cmd0 => Sys2Proof.Machine.execGraphLoad fn cmd0 s
  | .graphUnload fn cmd0 => Sys2Proof.Machine.execGraphUnload fn cmd0 s
  | .ckptPart fn cmd0 => Sys2Proof.Machine.execCkptPart fn cmd0 s
  | .ckptDevice fn cmd0 => Sys2Proof.Machine.execCkptDevice fn cmd0 s
  | .restorePart fn cmd0 => Sys2Proof.Machine.execRestorePart fn cmd0 s
  | .debugHalt fn cmd0 => Sys2Proof.Machine.execDebugHalt fn cmd0 s
  | .debugResume fn cmd0 => Sys2Proof.Machine.execDebugResume fn cmd0 s
  | .traceConfig fn cmd0 => Sys2Proof.Machine.execTraceConfig fn cmd0 s
  | .powerCapSet fn cmd0 => Sys2Proof.Machine.execPowerCapSet fn cmd0 s
  | .queryIdentity fn cmd0 => Sys2Proof.Machine.execQueryIdentity fn cmd0 s
  | .queryPartitionStatus fn cmd0 => Sys2Proof.Machine.execQueryPartitionStatus fn cmd0 s
  | .queryViolationLog fn cmd0 => Sys2Proof.Machine.execQueryViolationLog fn cmd0 s
  | .queryReelPorts fn cmd0 => Sys2Proof.Machine.execQueryReelPorts fn cmd0 s
  | .reelBind fn cmd0 => Sys2Proof.Machine.execReelBind fn cmd0 s
  | .reelUnbind fn cmd0 => Sys2Proof.Machine.execReelUnbind fn cmd0 s
  | .verdictDoorbell part payload => Sys2Proof.Machine.execVerdictDoorbell part payload s
  | .devreset value => Sys2Proof.Machine.execDevreset value s
  | .i3cReset value => Sys2Proof.Machine.execI3cReset value s
  | .hooklen value => Sys2Proof.Machine.execHooklen value s
  | .hookWindowExpiry => Sys2Proof.Machine.execHookWindowExpiry s
  | .powerGood => Sys2Proof.Machine.execPowerGood s
  | .bar2Access fn off size write => Sys2Proof.Machine.execBar2Access fn off size write s
  | .registerWrite port off value => Sys2Proof.Machine.execRegisterWrite port off value s
  | .reelFlitReceive port flit => Sys2Proof.Machine.execReelFlitReceive port flit s
  | .reelControlFlit port ack => Sys2Proof.Machine.execReelControlFlit port ack s
  | .reelShed port => Sys2Proof.Machine.execReelShed port s
  | .reelRetrainDone port lanes => Sys2Proof.Machine.execReelRetrainDone port lanes s
  | .reelRetrainTimer port => Sys2Proof.Machine.execReelRetrainTimer port s
  | .illegalEncoding => Sys2Proof.Machine.execIllegalEncoding s
  | .unknownOpcode fn cmd0 => Sys2Proof.Machine.execUnknownOpcode fn cmd0 s
  | .writeAcknowledgement k => Sys2Proof.Machine.execWriteAcknowledgement k s
  | .tailraceReadLanded k => Sys2Proof.Machine.execTailraceReadLanded k s
  | .scratchCorrected cell => Sys2Proof.Machine.execScratchCorrected cell s
  | .walkerTimeLimit k => Sys2Proof.Machine.execWalkerTimeLimit k s
  | .entdaa => Sys2Proof.Machine.execEntdaa s
  | .powerRemoval => Sys2Proof.Machine.execPowerRemoval s

end Sys2Proof.Machine
end

