-- ==== Sys2Proof/Machine/Schedule.lean ====
section
/-! DEFINITION. What happens in a step: the work that goes on by itself (sends that leave, engines, cells that stop), the steps that
may come next, and the time that passes (R20, R21, R44 to R47, R321, R356). -/

namespace Sys2Proof.Machine

/-! ### Work that goes on by itself -/

/-- A change made for every listed context of every listed cell. -/
def State.forCtxs (f : State → Who → State) (s : State) : State :=
  s.cells.foldl (fun s c => c.2.ctxs.foldl (fun s x => f s ⟨c.1, x.1⟩) s) s

/-- A change made for every listed cell. -/
def State.forCells (f : State → Nat → State) (s : State) : State := (tkeys s.cells).foldl f s
/-- A change made for every listed partition. -/
def State.forParts (f : State → Nat → State) (s : State) : State := (tkeys s.parts).foldl f s

/-- An activation whose lanes have all ended at a commit ends (R39, R422); one that has ended frees its context as its next send enters the
network, and blocks it again where a later one cannot (R341). -/
def State.endEmpty (s : State) (w : Who) : State :=
  let x := s.ctx w
  if x.wait == some .leaving then (if (s.backPressed w).isSome then s else s.setCtx w x.freed)
  else if x.status == .free then (if (s.backPressed w).isSome then s.setCtx w (x.ended true) else s)
  else if x.status == .running && x.r.live == 0 && !x.midway then s.endIfDone w else s

/-- A ONCE that waits to commit ends when no acquire holds its sends back any more (R217, R278). -/
def State.endOnce (s : State) (w : Who) : State :=
  let x := s.ctx w
  if x.wait == some .posting && !x.commitWaits then (s.setCtx w { x with wait := none }).onceAfter w else s

/-- The messages of a context that their targets have taken leave the send buffer (R425). -/
def State.sentTaken (s : State) (w : Who) : State :=
  let x := s.ctx w
  if x.sent.isEmpty then s else s.setCtx w (x.keepSent s)

/-- The transfers of a cell go on; in a cut they go on to the end of their chunk (R240, R435). -/
def State.engines (s : State) (cell : Nat) : State :=
  let c := s.cell cell
  if c.gone then s
  else
    let cut := (s.partAt cell).cutting
    c.xfers.foldl (fun s x => if cut && x.2.paused then s else s.engineNext cell x.1) s

/-- The COPY nodes of a partition move their words (R302). -/
def State.copies (s : State) (pn : Nat) : State :=
  let p := s.part pn
  if !p.active then s else (tkeys p.kicks).foldl (fun s r => s.copyStep pn r) s

/-- The cells behind the pool lanes of a partition ask for strands (R318). -/
def State.askPools (s : State) : State :=
  s.dies.foldl (fun s d => d.2.lanes.foldl (fun s l =>
    if l.2.part.any (fun pn => (s.part pn).active) && l.2.capacity != 0 then s.askPool d.1 l.1 else s) s) s

/-- What goes on by itself before the next step. -/
def State.flow (s : State) : State :=
  let s := s.reachStations
  let s := s.forCtxs State.sentTaken
  let s := s.forCtxs State.endOnce
  let s := s.forCtxs State.pump
  let s := s.reachPorts
  let s := s.forCtxs State.endEmpty
  let s := s.forCells State.engines
  let s := s.forParts State.copies
  let s := s.askPools
  let s := s.forCells State.paySubs
  let s := s.forCells State.chooseDisplaced
  let s := s.forCells State.cellStops
  let s := s.forCells State.tripOut
  let s := s.forCells State.xwaits
  let s := s.forParts State.reportWork
  let s := s.thienoPreempts
  let s := s.forParts State.cutPart
  s.finishCmds.transmit

/-! ### The steps that may come next -/

/-- What may come next: a step of the device, the first of the inputs from outside, or an instruction of a context. -/
inductive Cand where
  | event (i : Instr)
  | input (i : Instr)
  | issue (w : Who)
  deriving DecidableEq, Repr

/-- The steps that stand for message i of the network. -/
def netSteps (i : Nat) : List Instr :=
  [ .inboxArrival i, .startMessage i, .startAck i, .homeAccess i, .queueResponse i, .stxErrorResponse i, .sendRefused i,
    .resumeNotification i, .countIncrement i, .forkAck i, .countDecrement i, .jobDone i, .barrierArrival i, .barrierStateReply i,
    .phaseUpdate i, .twWriteRefused i, .channelElementArrival i, .closeMarkArrival i, .roomNotification i, .poolAppend i,
    .poolPopRequest i, .reserveContexts i, .preemptRequest i, .stepRegistration i, .stepRetirement i, .workReport i, .clusterBid i,
    .grantArrival i, .tlbFillRequest i, .tlbFillReply i, .invalidation i, .svcVersion i, .svcInvalPage i, .svcInvalAsid i, .svcMap i,
    .svcUnmap i, .svcQuote i, .faultRecord i, .verdict i, .jobDrop i, .writeAcknowledgement i, .tailraceReadLanded i,
    .walkerTimeLimit i ]

/-- The steps of one context that no message brings. -/
def ctxSteps (w : Who) : List Instr :=
  [.watchdog w.cell w.ctx, .sleeptWake w.cell w.ctx, .fenceTimeout w.cell w.ctx, .forkChildInject w.cell w.ctx]

/-- The steps of one cell that no message brings. -/
def cellSteps (n : Nat) (c : Cell) : List Instr :=
  [.setFormation n, .bankWrite n, .inboxRefill n, .class0Reserve n, .displacement n, .displacedRestore n, .preemptStopped n,
    .cellResume n, .promenadeCopyDone n] ++
  c.bins.map (fun b => .gatherWindowExpiry n b.entry) ++ c.ctxs.flatMap (fun x => ctxSteps ⟨n, x.1⟩) ++
  c.xfers.flatMap (fun x => [.twChunkComplete n x.1, .twHandlePush n x.1, .twFault n x.1]) ++
  c.rcopies.map fun r => .channelRefill n r.1

/-- The steps of the join wires of the listed cells. -/
def joinSteps (cells : List Nat) : List Instr :=
  let rows := (cells.map rowOf).eraseDups
  rows.map (fun r => .joinMatch (.row r)) ++ rows.map Instr.mmaRetire ++
  ((cells.map (· / 16)).eraseDups).map fun k => .joinMatch (.cluster k)

/-- The steps of one kick register. -/
def kickSteps (pn reg : Nat) (k : KickReg) : List Instr :=
  [.replayStart pn reg, .replayEnd pn reg] ++
  (k.replay.toList).flatMap fun (r : Replay) => (List.range r.nodes.length).flatMap fun n => [.nodeStart pn reg n, .copyComplete pn reg n]

/-- The steps of one partition. -/
def partSteps (pn : Nat) (p : Part) : List Instr :=
  [.sluiceSample pn, .governorPeriod pn, .quiesceDrained pn, .quiesceTimeout pn, .ckptTimeout pn] ++
  p.kicks.flatMap fun k => kickSteps pn k.1 k.2

/-- The steps of one die. -/
def dieSteps (d : Nat) (x : Die) : List Instr :=
  x.slots.map (fun y => .slotArm d y.1) ++ [.dispatchRelease d] ++ x.lanes.map fun l => .poolRingRefill d l.1

/-- The step of an endpoint that keeps a refused item for a target (R426). -/
def refusedStep (src dst : Endp) : Option Instr :=
  match dst with
  | .cell n => some (.targetSwitchedOut src.code n)
  | _ => none

/-- The steps of the device as a whole. -/
def deviceSteps (s : State) : List Instr :=
  [.hookWindowExpiry, .weirClear, .railStep 0, .railStep 1, .railStep 2, .railStep 3] ++
  (tkeys s.clusters).flatMap (fun k => [.stationInject k, .meterWindow k]) ++
  (tkeys s.reels).flatMap (fun k => [.reelShed k, .reelRetrainTimer k]) ++
  s.invals.map (fun v => .invalidationComplete v.id) ++
  s.refused.filterMap (fun m => refusedStep m.1.src m.1.dst) ++
  s.cells.flatMap fun c => c.2.xfers.filterMap fun x => x.2.kept.bind fun k => refusedStep (.cell c.1) k.1

/-- Every step of the device that could come next. -/
def State.steps (s : State) : List Instr :=
  (List.range s.net.length).flatMap netSteps ++ s.cells.flatMap (fun c => cellSteps c.1 c.2) ++ joinSteps (tkeys s.cells) ++
  s.parts.flatMap (fun p => partSteps p.1 p.2) ++ s.dies.flatMap (fun d => dieSteps d.1 d.2) ++ deviceSteps s

/-- Whether a step happens in a state. -/
def State.enabled (s : State) (i : Instr) : Bool :=
  match exec i s with
  | .next _ => true
  | _ => false

/-- The first of the inputs, when its step can happen (log entry 2). -/
def State.inputCand (s : State) : List Cand :=
  match s.inputs with
  | [] => []
  | i :: _ => if s.enabled i then [.input i] else []

/-! ### Issue (R44, R46, R319) -/

/-- Whether an instruction is of the scalar class (R91 to R101). -/
def scalarClass (i : Instr) : Bool :=
  (onceWrites i).isSome || match i with
  | .br _ _ => true
  | .brl _ _ => true
  | .brx _ _ => true
  | .ret _ => true
  | .loop _ _ _ => true
  | .bara _ _ _ => true
  | .gang _ _ => true
  | .mma _ _ _ _ _ _ => true
  | .twgo _ _ _ => true
  | .svc _ _ => true
  | .once _ => true
  | _ => false

/-- Whether the next instruction of a context is of the lane class. One that stands for no instruction goes with the scalar class. -/
def State.nextLane (s : State) (w : Who) : Bool :=
  match s.fetch w with
  | .ok i _ => !scalarClass i
  | .bad _ => false

/-- The first of a list of contexts after the one that issued last, round-robin (R44). -/
def roundRobin (last : Nat) (l : List Who) : List Who :=
  match l.find? fun w => last < w.ctx with
  | some w => [w]
  | none => (l.head?).toList

/-- Whether cycle k is granted when num of every den cycles are, spread evenly (R366). -/
def evenly (num den k : Nat) : Bool := den ≤ num || (k + 1) * num / den != k * num / den

/-- Whether the present cycle of a cell is granted for issue: by its heat (R371) and by its cluster's power (R366), the lesser fraction
of the two (log entry 61). -/
def State.cycleGranted (s : State) (n : Nat) : Bool :=
  let c := s.cell n
  let k := s.cluster (n / 16)
  if k.denied && k.denyNum * c.issueDen < c.issueNum * k.denyDen then evenly k.denyNum k.denyDen c.cyc
  else evenly c.issueNum c.issueDen c.cyc

/-- The contexts of a cell that may issue now, at most one of each class. When a class-0 activation has waited for 63 lane-issue cycles,
the next one is its own, whether or not the cycle is granted (R319). -/
def State.issues (s : State) (n : Nat) : List Who :=
  let c := s.cell n
  let l := (whos n).filter fun w => s.ready w && ((s.ctx w).budget != 0 || (s.ctx w).spared)
  let lanes := l.filter s.nextLane
  let zero := lanes.filter fun w => (s.ctx w).cls == some 0
  let granted := s.cycleGranted n
  (if granted then roundRobin c.rrScalar (l.filter fun w => !s.nextLane w) else []) ++
  (if c.class0Count == 63 && s.zeroReady n then []
   else if c.class0Count == 64 && !zero.isEmpty then roundRobin c.rrZero zero
   else if granted then roundRobin c.rrLane lanes else [])

/-- Everything that may come next. -/
@[irreducible] def State.candidates (s : State) : List Cand :=
  (s.steps.filter s.enabled).map Cand.event ++ s.inputCand ++ (tkeys s.cells).flatMap fun n => (s.issues n).map Cand.issue

/-! ### Time -/

/-- Whether a cell's arithmetic cycles count (R21). A promenade copies and moves in one step, so no cycle falls into its copy. -/
def Cell.ticks (c : Cell) : Bool := !c.halted && !c.out

/-- The count of R319 after n cycles: with a lane instruction of a class-0 activation in the first of them it starts again; else it goes
on to 63, and 64 stands for a reserve that has been given. -/
def countLanes (count n : Nat) (zero : Bool) : Nat :=
  if zero then Nat.min 63 (n - 1) else if count == 64 then 64 else Nat.min 63 (count + n)

/-- A cell's clock after n cycles, its count of lane-issue cycles (R319), and the BUDGETs of its contexts that count (R21, R321). In a
cycle of the class-0 reserve only the one that issued counts; `zero` tells of a lane instruction of a class-0 activation. A cycle in which an
instruction has issued is busy, as is one of the array (R363). -/
def State.tick (s : State) (cell n : Nat) (issuer : Option Who) (reserve zero : Bool) : State :=
  let c := s.cell cell
  if !c.ticks then s
  else
    let spent := fun (k : Nat) => if reserve && issuer != some ⟨cell, k⟩ then n - 1 else n
    let ctxs := tmap (fun k (x : Ctx) => if s.counting ⟨cell, k⟩ then { x with budget := x.budget - spent k } else x) c.ctxs
    s.setCell cell { c with
      cyc := c.cyc + n, ctxs, class0Count := countLanes c.class0Count n zero
      busyCycles := c.busyCycles + (if c.mma.isSome then n else if issuer.isSome then 1 else 0) }

/-- The time that a step takes: the timebase, every cell's clock, every domain's clock (R20, R21, R357). -/
def State.elapse (s : State) (issuer : Option Who) (reserve zero : Bool) : State :=
  let t := s.turn
  let s := (tkeys s.cells).foldl (fun s n =>
    let own := issuer.any fun w => w.cell == n
    s.tick n (Config.stallCycles t n + if own then 1 else 0) (if own then issuer else none) (reserve && own) (zero && own)) s
  { s with
    turn := t + 1
    tbc := if s.boot == .off then s.tbc else s.tbc + Config.elapsed t
    parts := tmap (fun pn (p : Part) =>
      if p.open_ then { p with gov := { p.gov with cycles := p.gov.cycles + Config.domainCycles t pn } } else p) s.parts }

/-- Whether an instruction of a context has issued: it does not wait to issue again. -/
def Ctx.issued (x : Ctx) : Bool :=
  x.midway || match x.wait with
  | none => true
  | some (.join _) => true
  | some (.barReply _ _) => true
  | some (.sleep _ _) => true
  | some .leaving => true
  | _ => false

/-- The cell's record of an instruction that a context has issued: the round-robin places and the units of work (R44, R319, R356).
`steps` are the steps of the live lanes as it issued, and `zero` tells a class-0 activation. An instruction that waits to issue again
has not issued. -/
def State.issuedAt (s : State) (w : Who) (lane mma zero : Bool) (steps : List W32) : State :=
  let c := s.cell w.cell
  let reserve := c.class0Count == 64
  if !(c.ctx w.ctx).issued then s
  else
    let s := s.setCell w.cell { c with
      issuedSince := true
      rrScalar := if lane then c.rrScalar else w.ctx
      rrLane := if lane && !(reserve && zero) then w.ctx else c.rrLane
      rrZero := if lane && reserve && zero then w.ctx else c.rrZero }
    if mma then s else s.addUnits w.cell 1 steps

/-- A YIELD that has retired in the cycle in which BUDGET reached zero keeps its activation from WATCHDOG (R321). -/
def State.spare (s : State) (w : Who) (yield : Bool) : State :=
  let x := s.ctx w
  if yield && x.status == .running && x.budget == 0 then s.setCtx w { x with spared := true } else s

/-- What the step adds to an instruction that context w has tried in state s0: its record and its cycle, if it has issued, the time, and the
end of a ONCE whose instruction it was (R217). -/
def State.afterIssue (s0 : State) (w : Who) (lane mma yield : Bool) (s : State) : State :=
  let x := s0.ctx w
  let zero := x.cls == some 0
  let ran := (s.ctx w).issued
  let reserve := (s0.cell w.cell).class0Count == 64 && lane && zero && ran
  (((s.issuedAt w lane mma zero x.stepIds).elapse (if ran then some w else none) reserve (lane && zero && ran)).spare w (yield && ran)).onceAfter w

/-- Whether an instruction is MMA. -/
def isMma : Instr → Bool
  | .mma _ _ _ _ _ _ => true
  | _ => false

/-- Whether an instruction is YIELD. -/
def isYield : Instr → Bool
  | .yield _ _ => true
  | _ => false

/-- A next state carried on. -/
def thenNext (o : Out) (k : State → State) : Out :=
  match o with
  | .next s => .next (k s)
  | .fault f => .fault f
  | .refused r => .refused r

/-- The instruction at a context's program counter executed, or its decoding failure taken (R49, R70). -/
def State.runIssue (s : State) (w : Who) : Out :=
  let s0 : State := { s with cur := w }
  match s0.fetch w with
  | .ok i _ => thenNext (exec i s0) (s0.afterIssue w (!scalarClass i) (isMma i) (isYield i))
  | .bad _ => thenNext (exec .illegalEncoding s0) (s0.afterIssue w false false false)

/-- What comes next, done. -/
def State.run (s : State) (c : Cand) : Out :=
  match c with
  | .event i => thenNext (exec i s) fun t => t.elapse none false false
  | .input i => thenNext (exec i { s with inputs := s.inputs.drop 1 }) fun t => t.elapse none false false
  | .issue w => s.runIssue w

/-- One of the things that may come next: the only one, or the one that a free value picks; with none, time passes. -/
def State.next (s : State) : List Cand → Out
  | [] => .next (s.elapse none false false)
  | [c] => s.run c
  | c :: d :: l => s.run ((c :: d :: l).getD (Config.choice s.turn % (l.length + 2)) c)

end Sys2Proof.Machine
end

