-- ==== Sys2Proof/Machine/Step.lean ====
section
/-! DEFINITION. The step of the machine, and the state whose next instruction is a given one. -/

namespace Sys2Proof.Machine

/-- One step: what goes on by itself, and then one of the things that may come next (log entry 2). -/
def step (s : State) : Host.Outcome State Fault Refusal := s.flow.next s.flow.candidates

/-- The words of an instruction of nbits bits, as the hardware stores them; the bits above nbits are zero, up to the longest
instruction, five words. -/
def tableWords (nbits w : Nat) : List Nat := (List.range 5).map fun k => w % 2 ^ nbits / 2 ^ (32 * k) % 2 ^ 32

/-- s with the device booted, partition 0 open on cluster 0, and one privileged activation of one lane, in context 0 of cell 0 at
word 0, which is the only thing that can come next; the instruction stands at word 0 (log entry 4). -/
def State.withFetchWord (s : State) (nbits w : Nat) : State :=
  let regs : Regs := { cm := 1, live := 1 }
  let x : Ctx :=
    { status := .running, r := regs, snap := regs, snapBudget := 1000000, hdrs := [(0, {})], setSize := 1, priv := true
      first := false, budget := 1000000, fullBudget := 1000000 }
  { s with
    mem := ((tableWords nbits w).foldl (fun (y : Nat × Memory) v => (y.1 + 4, writeLE y.2 (cellKey 0 (0x80000 + y.1)) 4 v)) (0, s.mem)).2
    boot := .ready
    tbc := 0
    cells := [(0, { ctxs := [(0, x)] })]
    clusters := [(0, { nextMeter := 1000 })]
    parts := [(0, { open_ := true, asidCount := 2, clusters := [0], slabs := [0], nextSluice := 20000, gov := { next := 10000 } })]
    dies := [], rowMaps := [], failedPhys := [], hotPhys := [], rails := [], railNext := [], weirDone := 0, reels := [], cmds := []
    invals := [], net := [], refused := [], relDeps := [], inputs := [], cur := ⟨0, 0⟩ }

end Sys2Proof.Machine
end

