-- ==== Sys2Proof/Safety.lean ====
section
/-! DEFINITION. What counts as a safe state and a safe run, in the terms that the statements use. -/

namespace Sys2Proof.Machine

/-- Every memory of a state in its canonical form: that of the device with its package, and that of each image in the safe tier. -/
def State.memOk (s : State) : Bool := s.mem.wf && s.images.all fun x => x.2.all fun (i : Image) => i.mem.wf

/-- A step goes on: it answers a next state, neither a fault nor a refusal. -/
def Goes (o : Out) : Prop := ∃ t, o = .next t

/-- A run of n steps that goes on. -/
def GoesFor : Nat → State → Prop
  | 0, _ => True
  | n + 1, s => ∃ t, step s = .next t ∧ GoesFor n t

end Sys2Proof.Machine
end

