-- ==== Sys2Proof/Certificates/Slice0/Obligations.lean ====
section
/-! DEFINITION. The statements about the model, for the provers. The definitions of the namespace Claims say what the statements have
in common; each statement names the rules of the reference that it comes from. -/

namespace Sys2Proof.Claims

open Sys2Proof.Machine

/-! ### Frames -/

/-- From s to t only the context that issues has changed: every other context, every other field of the device and every byte of
memory is as it was. -/
def OnlyIssuer (s t : State) : Prop := t = s.setMe t.me ∧ ∀ a, mread t.mem a = mread s.mem a

/-- From s to t only the cell of the context that issues has changed. -/
def OnlyCell (s t : State) : Prop := t = s.setMyCell t.myCell ∧ ∀ a, mread t.mem a = mread s.mem a

/-- From x to y only registers of the given numbers have changed (lane, scalar, lane-predicate and scalar-predicate registers), and the
program counter; one more instruction has been executed, and the context waits for nothing. -/
def RegsOnly (x y : Ctx) (vs ss ps ks : List Nat) : Prop :=
  y = { x with
    r := { x.r with v := y.r.v, s := y.r.s, p := y.r.p, k := y.r.k, pc := y.r.pc, pastEnd := y.r.pastEnd }
    lastPc := x.r.pc, ran := x.ran + 1, wait := none } ∧
  (∀ r, r ∉ vs → y.v r = x.v r) ∧ (∀ r, r ∉ ss → y.s r = x.s r) ∧ (∀ r, r ∉ ps → y.p r = x.p r) ∧ ∀ r, r ∉ ks → y.k r = x.k r

/-- The program counter stands n words on (R49). -/
def Past (x y : Ctx) (n : Nat) : Prop :=
  y.r.pc = x.r.pc + BitVec.ofNat 14 n ∧ y.r.pastEnd = decide (0x4000 ≤ x.r.pc.toNat + n)

/-- The bits that a register, or a pair, holds of a value. -/
def low (wide : Bool) (v : W64) : W64 := if wide then v else (v.extractLsb' 0 32).setWidth 64

/-- The registers that a destination names. -/
def dest (wide : Bool) (d : Reg) : List Nat := if wide then [d.toNat, d.toNat + 1] else [d.toNat]

/-! ### Instructions that write one lane register -/

/-- What an instruction computes for each lane: guard, source A and its width, destination and its width, length, and the value for
a lane, from the context, Active, the values of source A, and the lane. -/
structure LaneRule where
  head : Head
  a : SrcA
  awide : Bool
  d : Reg
  dwide : Bool
  words : Nat
  val : Ctx → W32 → (Nat → W64) → Nat → W64

/-- An exact result narrowed (R107). -/
def narrowed (t : Ty) (sat : Bool) (x : Int) : W64 := BitVec.ofInt 64 (if sat then max (intMin t) (min x (intMax t)) else x)

/-- The shifts of R113 on w bits; n is not reduced. -/
def shiftLeft (w n : Nat) (a : Nat) : W64 := BitVec.ofNat 64 (if n < w then a * 2 ^ n else 0)
def shiftRight (w n : Nat) (a : Nat) : W64 := BitVec.ofNat 64 (if n < w then a / 2 ^ n else 0)
def shiftSigned (w n : Nat) (a : Int) : W64 := BitVec.ofInt 64 (a / 2 ^ min n w)

/-- The signed integer of a lane value. -/
def sint (t : Ty) (v : W64) : Int := if t.wide then v.toInt else (v.extractLsb' 0 32).toInt
/-- The unsigned integer of a lane value. -/
def uint (t : Ty) (v : W64) : Nat := (low t.wide v).toNat

/-- The lane that SHFL reads for lane L with index i (R121); none outside 0 to 31. -/
def shuffleFrom (m : ShflMode) (L i : Nat) : Option Nat :=
  match m with
  | .indexed => some (i % 32)
  | .up => if (L : Int) - i < 0 then none else some (L - i)
  | .down => if 31 < L + i then none else some (L + i)
  | .xor => some (L ^^^ (i % 32))

/-- What an integer instruction of the lane class with a source A computes (R109 to R116, R121, R124), and FABS, FNEG and FCLASS (R151, R153). -/
def laneInteger : Instr → Option LaneRule
  | .add h t sat d a b => some ⟨h, a, t.wide, d, t.wide, lenOf h (litB b), fun x _ va L =>
      narrowed t sat (intOf t (va L) + intOf t (x.laneB b t.wide L))⟩
  | .sub h t sat d a b => some ⟨h, a, t.wide, d, t.wide, lenOf h (litB b), fun x _ va L =>
      narrowed t sat (intOf t (va L) - intOf t (x.laneB b t.wide L))⟩
  | .adds h t sat d a b => some ⟨h, a, t.wide, d, t.wide, lenOf h (litB b), fun x _ va L =>
      narrowed t sat (intOf t (va L) + intOf t (x.scalarB b))⟩
  | .subs h t sat d a b => some ⟨h, a, t.wide, d, t.wide, lenOf h (litB b), fun x _ va L =>
      narrowed t sat (intOf t (va L) - intOf t (x.scalarB b))⟩
  | .mul h t sat d a b => some ⟨h, a, t.wide, d, t.wide, lenOf h (litB b), fun x _ va L =>
      narrowed t sat (intOf t (va L) * intOf t (x.laneB b t.wide L))⟩
  | .mad h t sat d a b c => some ⟨h, a, t.wide, d, t.wide, lenOf h (litB b), fun x _ va L =>
      narrowed t sat (intOf t (va L) * intOf t (x.laneB b t.wide L) + intOf t (x.laneR c t.wide L))⟩
  | .mulh h t d a b => some ⟨h, a, t.wide, d, t.wide, lenOf h (litB b), fun x _ va L =>
      BitVec.ofInt 64 (intOf t (va L) * intOf t (x.laneB b t.wide L) / 2 ^ width t)⟩
  | .min h t d a b => some ⟨h, a, t.wide, d, t.wide, lenOf h (litB b), fun x _ va L =>
      BitVec.ofInt 64 (min (intOf t (va L)) (intOf t (x.laneB b t.wide L)))⟩
  | .max h t d a b => some ⟨h, a, t.wide, d, t.wide, lenOf h (litB b), fun x _ va L =>
      BitVec.ofInt 64 (max (intOf t (va L)) (intOf t (x.laneB b t.wide L)))⟩
  | .abs h t sat d a => some ⟨h, a, t.wide, d, t.wide, lenOf h false, fun _ _ va L => narrowed t sat (intOf t (va L)).natAbs⟩
  | .neg h t sat d a => some ⟨h, a, t.wide, d, t.wide, lenOf h false, fun _ _ va L => narrowed t sat (-intOf t (va L))⟩
  | .and h t d a b => some ⟨h, a, t.wide, d, t.wide, lenOf h (litB b), fun x _ va L => va L &&& x.laneB b t.wide L⟩
  | .or h t d a b => some ⟨h, a, t.wide, d, t.wide, lenOf h (litB b), fun x _ va L => va L ||| x.laneB b t.wide L⟩
  | .xor h t d a b => some ⟨h, a, t.wide, d, t.wide, lenOf h (litB b), fun x _ va L => va L ^^^ x.laneB b t.wide L⟩
  | .andn h t d a b => some ⟨h, a, t.wide, d, t.wide, lenOf h (litB b), fun x _ va L => va L &&& ~~~x.laneB b t.wide L⟩
  | .not h t d a => some ⟨h, a, t.wide, d, t.wide, lenOf h false, fun _ _ va L => ~~~va L⟩
  | .shl h t d a b => some ⟨h, a, t.wide, d, t.wide, lenOf h (litB b), fun x _ va L =>
      shiftLeft (width t) (x.laneB b false L).toNat (uint t (va L))⟩
  | .shr h t d a b => some ⟨h, a, t.wide, d, t.wide, lenOf h (litB b), fun x _ va L =>
      shiftRight (width t) (x.laneB b false L).toNat (uint t (va L))⟩
  | .sar h t d a b => some ⟨h, a, t.wide, d, t.wide, lenOf h (litB b), fun x _ va L =>
      shiftSigned (width t) (x.laneB b false L).toNat (sint t (va L))⟩
  | .rol h t d a b => some ⟨h, a, t.wide, d, t.wide, lenOf h (litB b), fun x _ va L =>
      rolOp t (va L) ((x.laneB b false L).toNat % width t)⟩
  | .bfx h t d a b => some ⟨h, a, t.wide, d, t.wide, lenOf h (litB b), fun x _ va L =>
      BitVec.ofNat 64 (bfxOp (width t) (isSigned t) (uint t (va L)) (x.laneB b false L).toNat)⟩
  | .bfi h t d a b => some ⟨h, a, t.wide, d, t.wide, lenOf h (litB b), fun x _ va L =>
      BitVec.ofNat 64 (bfiOp (width t) (x.laneR d t.wide L).toNat (uint t (va L)) (x.laneB b false L).toNat)⟩
  | .popc h t d a => some ⟨h, a, t.wide, d, false, lenOf h false, fun _ _ va L =>
      BitVec.ofNat 64 ((List.range (width t)).filter fun i => (va L).getLsbD i).length⟩
  | .clz h t d a => some ⟨h, a, t.wide, d, false, lenOf h false, fun _ _ va L =>
      BitVec.ofNat 64 (if uint t (va L) = 0 then width t else width t - 1 - Nat.log2 (uint t (va L)))⟩
  | .brev h t d a => some ⟨h, a, t.wide, d, t.wide, lenOf h false, fun _ _ va L => brevOp t (va L)⟩
  | .sel h t d a b pc => some ⟨h, a, t.wide, d, t.wide, lenOf h (litB b), fun x _ va L =>
      if (x.p pc.toNat).getLsbD L then va L else x.laneB b t.wide L⟩
  | .shfl h m t d a b => some ⟨h, a, t.wide, d, t.wide, lenOf h (litB b), fun x act va L =>
      match shuffleFrom m L (x.laneB b false L).toNat with
      | some j => if act.getLsbD j then va j else va L
      | none => va L⟩
  | .scan h rop excl t d a => some ⟨h, a, t.wide, d, t.wide, lenOf h false, fun _ act va L =>
      ((List.range (if excl then L else L + 1)).filter fun j => act.getLsbD j).foldl (fun acc j => combine rop t acc (va j))
        (identity rop t)⟩
  | .fabs h t d a => some ⟨h, a, false, d, false, lenOf h false, fun _ _ va L =>
      BitVec.ofNat 64 (signOp t (va L).toNat fun _ => false)⟩
  | .fneg h t d a => some ⟨h, a, false, d, false, lenOf h false, fun _ _ va L =>
      BitVec.ofNat 64 (signOp t (va L).toNat fun n => !n)⟩
  | .fclass h t d a => some ⟨h, a, false, d, false, lenOf h false, fun _ _ va L =>
      BitVec.ofNat 64 (fclassV (fmtOf t) (val t (va L).toNat))⟩
  | _ => none

/-- What an instruction of the lane class without a source A computes (R102, R117, R119, R120, R187, R223), from the state. -/
structure MoveRule where
  head : Head
  d : Reg
  dwide : Bool
  words : Nat
  val : State → Nat → W64

/-- MOV, ADDI, WIDF, TAGL, and MFS of the registers that exist per lane. -/
def laneMove : Instr → Option MoveRule
  | .mov h t d b => some ⟨h, d, t.wide, lenOf h (litB b), fun s L => s.me.laneB b t.wide L⟩
  | .addi h d ra imm => some ⟨h, d, false, lenOf h false, fun s L => ((s.me.vl ra.toNat L) + imm.signExtend 32).setWidth 64⟩
  | .widf h lvl d => some ⟨h, d, true, lenOf h false, fun s L => widLevel (s.me.hdr L).wid (s.me.hdr L).widw lvl.toNat⟩
  | .tagl h d ra => some ⟨h, d, false, lenOf h false, fun s L =>
      match s.myCell.tags.find (s.me.vp ra.toNat L) with
      | some i => BitVec.ofNat 64 i
      | none => 0xFFFFFFFF⟩
  | .mfs h sreg d =>
    if sreg = 0x00 then some ⟨h, d, true, lenOf h false, fun s L => (s.me.hdr L).wid⟩
    else if sreg = 0x08 then some ⟨h, d, false, lenOf h false, fun _ L => BitVec.ofNat 64 L⟩
    else if sreg = 0x14 then some ⟨h, d, false, lenOf h false, fun s L => BitVec.ofNat 64 (s.me.hdr L).rets.length⟩
    else none
  | _ => none

/-- What an instruction of the lane class with a scalar destination writes there when a lane is active (R118, R122, R123). -/
def laneToScalar : Instr → Option LaneRule
  | .movs h t d a b => some ⟨h, a, t.wide, d, true, lenOf h (litB b), fun x _ va _ => toS t (va ((x.scalarB b).toNat % 32))⟩
  | .reds h rop t d a => some ⟨h, a, t.wide, d, true, lenOf h false, fun _ act va _ =>
      toS t (((List.range 32).filter fun j => act.getLsbD j).foldl (fun acc j => combine rop t acc (va j)) (identity rop t))⟩
  | .vote h d pa => some ⟨h, .reg 0, false, d, true, lenOf h false, fun x act _ _ => (act &&& x.p pa.toNat).setWidth 64⟩
  | _ => none

/-- An outcome is the next state of an instruction of n words that changes nothing but the issuing context of s1, whose new value y
has P. -/
def Completes (s1 : State) (n : Nat) (o : Out) (P : Ctx → Prop) : Prop :=
  ∃ t, o = .next t ∧ OnlyIssuer s1 t ∧ Past s1.me t.me n ∧ P t.me

/-! ### Floating point (R145, R147) -/

/-- A floating-point instruction of the lane class: as LaneRule, with each lane's encoded result and exceptions. -/
structure FloatRule where
  head : Head
  a : SrcA
  awide : Bool
  d : Reg
  dwide : Bool
  words : Nat
  res : Ctx → W64 → Nat → FRes

/-- The exceptions of the active lanes together. -/
def raised (act : W32) (r : Nat → FRes) : Fl := ((List.range 32).filter fun L => act.getLsbD L).foldl (fun fl L => fl ||| (r L).fl) 0

/-- The exceptions that FPCTL enables among those raised (R145). -/
def enabledOf (x : Ctx) (f : Fl) : Fl := f &&& x.fpctl.extractLsb' 2 6

/-- The cause of the enabled exception that comes first (R147). -/
def floatCause (f : Fl) : BitVec 7 :=
  if f &&& flNV ≠ 0 then causeFpInvalid
  else if f &&& flDZ ≠ 0 then causeFpDivzero
  else if f &&& flRG ≠ 0 then causeConvertRange
  else if f &&& flOF ≠ 0 then causeFpOverflow
  else if f &&& flUF ≠ 0 then causeFpUnderflow
  else causeFpInexact

/-- What each floating-point instruction with one source A and one lane destination computes (R148 to R150, R152, R154 to R157). -/
def laneFloat : Instr → Option FloatRule
  | .fadd h t rnd d a b => some ⟨h, a, false, d, false, lenOf h (litB b), fun x v L =>
      faddV (fmtOf t) (modeOf x rnd) (val t v.toNat) (val t (x.fb b L))⟩
  | .fsub h t rnd d a b => some ⟨h, a, false, d, false, lenOf h (litB b), fun x v L =>
      faddV (fmtOf t) (modeOf x rnd) (val t v.toNat) (val t (x.fb b L)).flip⟩
  | .fmul h t rnd d a b => some ⟨h, a, false, d, false, lenOf h (litB b), fun x v L =>
      fmulV (fmtOf t) (modeOf x rnd) (val t v.toNat) (val t (x.fb b L))⟩
  | .fma h t rnd d a b c => some ⟨h, a, false, d, false, lenOf h (litB b), fun x v L =>
      fmaV (fmtOf t) (modeOf x rnd) (val t v.toNat) (val t (x.fb b L)) (val t (x.vl c.toNat L).toNat)⟩
  | .fmin h t d a b => some ⟨h, a, false, d, false, lenOf h (litB b), fun x v L =>
      fminmaxV (fmtOf t) false (v.toNat % 2 ^ fmtBits (fmtOf t)) (x.fb b L % 2 ^ fmtBits (fmtOf t)) (val t v.toNat) (val t (x.fb b L))⟩
  | .fmax h t d a b => some ⟨h, a, false, d, false, lenOf h (litB b), fun x v L =>
      fminmaxV (fmtOf t) true (v.toNat % 2 ^ fmtBits (fmtOf t)) (x.fb b L % 2 ^ fmtBits (fmtOf t)) (val t v.toNat) (val t (x.fb b L))⟩
  | .fdiv h t rnd d a b => some ⟨h, a, false, d, false, lenOf h (litB b), fun x v L =>
      fdivV (fmtOf t) (modeOf x rnd) (val t v.toNat) (val t (x.fb b L))⟩
  | .fsqrt h t rnd d a => some ⟨h, a, false, d, false, lenOf h false, fun x v _ =>
      fsqrtV (fmtOf t) (modeOf x rnd) (val t v.toNat)⟩
  | .frcp h t rnd d a => some ⟨h, a, false, d, false, lenOf h false, fun x v _ =>
      frcpV (fmtOf t) (modeOf x rnd) (val t v.toNat)⟩
  | .frsq h t rnd d a => some ⟨h, a, false, d, false, lenOf h false, fun x v _ =>
      frsqV (fmtOf t) (modeOf x rnd) (val t v.toNat)⟩
  | .fexp2 h t rnd d a => some ⟨h, a, false, d, false, lenOf h false, fun x v _ =>
      fexp2V (fmtOf t) (modeOf x rnd) (val t v.toNat)⟩
  | .flog2 h t rnd d a => some ⟨h, a, false, d, false, lenOf h false, fun x v _ =>
      flog2V (fmtOf t) (modeOf x rnd) (val t v.toNat)⟩
  | .fscale h t rnd d a b => some ⟨h, a, false, d, false, lenOf h (litB b), fun x v L =>
      fscaleV (fmtOf t) (modeOf x rnd) (v.toNat % 2 ^ fmtBits (fmtOf t)) (val t v.toNat) ((x.laneB b false L).extractLsb' 0 32).toInt⟩
  | .frnd h t rnd d a => some ⟨h, a, false, d, false, lenOf h false, fun x v _ =>
      frndV (fmtOf t) (modeOf x rnd) (v.toNat % 2 ^ fmtBits (fmtOf t)) (val t v.toNat)⟩
  | .cvt h t src rnd sat d a => some ⟨h, a, src.wide, d, t.wide, lenOf h false, fun x v _ =>
      cvtV t src (modeOf x rnd) sat v.toNat⟩
  | _ => none

/-- The trap of an instruction that changes nothing first: the segment rolls back, and the context traps with a cause (R413, R414). -/
def Traps (s : State) (o : Out) (cause : BitVec 7) : Prop := o = .next (s.takeTrap s.cur { cause })

/-! ### Compares, predicates and the scalar class -/

/-- The outcome of a condition of R55 on signed and unsigned values. -/
def holds (c : Cond) (sa sb : Int) (ua ub : Nat) : Bool :=
  match c with
  | .eq => decide (ua = ub)
  | .ne => decide (ua ≠ ub)
  | .lt => decide (sa < sb)
  | .le => decide (sa ≤ sb)
  | .gt => decide (sa > sb)
  | .ge => decide (sa ≥ sb)
  | .ltn => decide (ua < ub)
  | .len => decide (ua ≤ ub)
  | .gtn => decide (ua > ub)
  | .gen => decide (ua ≥ ub)

/-- The bit that a predicate instruction without a queue writes in lane L (R127, R129). -/
def lanePredicate : Instr → Option (Head × PReg × (Ctx → Nat → Bool))
  | .pand h pd pa pb => some (h, pd, fun x L => (x.p pa.toNat).getLsbD L && (x.p pb.toNat).getLsbD L)
  | .por h pd pa pb => some (h, pd, fun x L => (x.p pa.toNat).getLsbD L || (x.p pb.toNat).getLsbD L)
  | .pxor h pd pa pb => some (h, pd, fun x L => (x.p pa.toNat).getLsbD L != (x.p pb.toNat).getLsbD L)
  | .pnot h pd pa => some (h, pd, fun x L => !(x.p pa.toNat).getLsbD L)
  | .pset h v pd => some (h, pd, fun _ _ => v)
  | _ => none

/-- An instruction of the scalar class that writes one scalar register: guard, source A, destination, length, value (R130, R132,
R134). -/
structure ScalarRule where
  head : Head
  a : SrcA
  d : Reg
  words : Nat
  val : Ctx → W64 → W64

/-- The scalar instructions that neither trap nor set flags. -/
def scalarInteger : Instr → Option ScalarRule
  | .sadd h d a b => some ⟨h, a, d, lenOf h (litB b), fun x v => BitVec.ofNat 64 (v.toNat + (x.scalarB b).toNat)⟩
  | .ssub h d a b => some ⟨h, a, d, lenOf h (litB b), fun x v => BitVec.ofInt 64 ((v.toNat : Int) - (x.scalarB b).toNat)⟩
  | .smul h d a b => some ⟨h, a, d, lenOf h (litB b), fun x v => BitVec.ofNat 64 (v.toNat * (x.scalarB b).toNat)⟩
  | .smulh h t d a b => some ⟨h, a, d, lenOf h (litB b), fun x v =>
      BitVec.ofInt 64 (intOf t v * intOf t (x.scalarB b) / 2 ^ width t)⟩
  | .sand h d a b => some ⟨h, a, d, lenOf h (litB b), fun x v => v &&& x.scalarB b⟩
  | .sor h d a b => some ⟨h, a, d, lenOf h (litB b), fun x v => v ||| x.scalarB b⟩
  | .sxor h d a b => some ⟨h, a, d, lenOf h (litB b), fun x v => v ^^^ x.scalarB b⟩
  | .sshl h d a b => some ⟨h, a, d, lenOf h (litB b), fun x v => shiftLeft 64 (x.scalarB b).toNat v.toNat⟩
  | .sshr h d a b => some ⟨h, a, d, lenOf h (litB b), fun x v => shiftRight 64 (x.scalarB b).toNat v.toNat⟩
  | .ssar h d a b => some ⟨h, a, d, lenOf h (litB b), fun x v => shiftSigned 64 (x.scalarB b).toNat v.toInt⟩
  | .smov h d b => some ⟨h, .reg 0, d, lenOf h (litB b), fun x _ => x.scalarB b⟩
  | .slea h scale disp d a b => some ⟨h, a, d, lenOf h (litB b), fun x v =>
      v + BitVec.ofNat 64 ((x.scalarB b).toNat * 2 ^ scale.toNat) + disp.signExtend 64⟩
  | .smin h t d a b => some ⟨h, a, d, lenOf h (litB b), fun x v => if intOf t (x.scalarB b) < intOf t v then x.scalarB b else v⟩
  | .smax h t d a b => some ⟨h, a, d, lenOf h (litB b), fun x v => if intOf t v < intOf t (x.scalarB b) then x.scalarB b else v⟩
  | .sbfx h t d a b => some ⟨h, a, d, lenOf h (litB b), fun x v =>
      BitVec.ofNat 64 (bfxOp 64 (isSigned t) v.toNat (x.scalarB b).toNat)⟩
  | .sbfi h d a b => some ⟨h, a, d, lenOf h (litB b), fun x v =>
      BitVec.ofNat 64 (bfiOp 64 (x.s d.toNat).toNat v.toNat (x.scalarB b).toNat)⟩
  | .sclz h d a => some ⟨h, a, d, lenOf h false, fun _ v =>
      BitVec.ofNat 64 (if v = 0 then 64 else 63 - Nat.log2 v.toNat)⟩
  | .spopc h d a => some ⟨h, a, d, lenOf h false, fun _ v =>
      BitVec.ofNat 64 ((List.range 64).filter fun i => v.getLsbD i).length⟩
  | .saddi h d ra imm => some ⟨h, .reg ra, d, lenOf h false, fun _ v => v + imm.signExtend 64⟩
  | _ => none

/-- The scalar FP32 instructions (R163): result and exceptions. -/
def scalarFloat : Instr → Option (ScalarRule × (Ctx → W64 → FRes))
  | .sfmul h rnd d a b =>
    let r := fun (x : Ctx) (v : W64) => fmulV fmtF (modeOf x rnd) (val .f v.toNat) (val .f ((x.scalarB b).toNat % 2 ^ 32))
    some (⟨h, a, d, lenOf h (litB b), fun x v => BitVec.ofNat 64 (r x v).bits⟩, r)
  | .sfadd h rnd d a b =>
    let r := fun (x : Ctx) (v : W64) => faddV fmtF (modeOf x rnd) (val .f v.toNat) (val .f ((x.scalarB b).toNat % 2 ^ 32))
    some (⟨h, a, d, lenOf h (litB b), fun x v => BitVec.ofNat 64 (r x v).bits⟩, r)
  | .sfma h rnd d a b c =>
    let r := fun (x : Ctx) (v : W64) => fmaV fmtF (modeOf x rnd) (val .f v.toNat) (val .f ((x.scalarB b).toNat % 2 ^ 32))
      (val .f ((x.s c.toNat).toNat % 2 ^ 32))
    some (⟨h, a, d, lenOf h (litB b), fun x v => BitVec.ofNat 64 (r x v).bits⟩, r)
  | _ => none

end Sys2Proof.Claims

section Statements
open Sys2Proof Sys2Proof.Machine Sys2Proof.Claims

/-- R106, R107, R109 to R116, R121, R124, R151, R153: an integer instruction of the lane class, or FABS, FNEG or FCLASS, whose source A can be
read writes the value of its rule into its destination in every active lane. Inactive lanes, every other register, the flags and all else are as
they were. -/
def Obligations.LaneIntegerResults : Prop :=
  ∀ (i : Instr) (k : LaneRule) (s s1 : State) (va : Nat → W64),
    laneInteger i = some k → s.laneA k.a k.awide (s.me.active k.head) = .ok va s1 →
    ∃ t, exec i s = .next t ∧ OnlyIssuer s1 t ∧ RegsOnly s1.me t.me (dest k.dwide k.d) [] [] [] ∧ Past s1.me t.me k.words ∧
      ∀ L < 32, if (s1.me.active k.head).getLsbD L
        then t.me.laneR k.d k.dwide L = low k.dwide (k.val s1.me (s1.me.active k.head) va L)
        else ∀ r, t.me.vl r L = s1.me.vl r L

/-- R102, R117, R119, R120, R187, R223: MOV, ADDI, WIDF, TAGL, and MFS of WID, LANE and RDEPTH write their value in every active lane
and change nothing else. -/
def Obligations.LaneMoveResults : Prop :=
  ∀ (i : Instr) (k : MoveRule) (s : State), laneMove i = some k →
    Completes s k.words (exec i s) fun y => RegsOnly s.me y (dest k.dwide k.d) [] [] [] ∧
      ∀ L < 32, if (s.me.active k.head).getLsbD L
        then y.laneR k.d k.dwide L = low k.dwide (k.val s L) else ∀ r, y.vl r L = s.me.vl r L

/-- R106, R118, R122, R123: MOVS, REDS and VOTE write their scalar register when a lane is active, s0 excepted, and change nothing else;
with no lane active they write nothing. -/
def Obligations.LaneToScalarResults : Prop :=
  ∀ (i : Instr) (k : LaneRule) (s s1 : State) (va : Nat → W64),
    laneToScalar i = some k → s.laneA k.a k.awide (s.me.active k.head) = .ok va s1 →
    Completes s1 k.words (exec i s) fun y => RegsOnly s1.me y [] [k.d.toNat] [] [] ∧
      y.s k.d.toNat = if k.d = 0 then 0
        else if s1.me.active k.head = 0 then s1.me.s k.d.toNat else k.val s1.me (s1.me.active k.head) va 0

/-- R145, R147 to R150, R152, R154 to R157: a floating-point instruction of the lane class with a readable source A raises the exceptions of its active
lanes. With none of them enabled it writes each active lane's result and ORs the exceptions into FPFLAGS, and nothing else changes; with
an enabled one it writes nothing and traps with the first of the order. -/
def Obligations.LaneFloatResults : Prop :=
  ∀ (i : Instr) (k : FloatRule) (s s1 : State) (va : Nat → W64),
    laneFloat i = some k → s.laneA k.a k.awide (s.me.active k.head) = .ok va s1 →
    let act := s1.me.active k.head
    let fl := raised act fun L => k.res s1.me (va L) L
    if enabledOf s1.me fl = 0 then
      Completes s1 k.words (exec i s) fun y =>
        RegsOnly { s1.me with fpflags := s1.me.fpflags ||| fl } y (dest k.dwide k.d) [] [] [] ∧
        ∀ L < 32, if act.getLsbD L
          then y.laneR k.d k.dwide L = low k.dwide (BitVec.ofNat 64 (k.res s1.me (va L) L).bits)
          else ∀ r, y.vl r L = s1.me.vl r L
    else Traps s1 (exec i s) (floatCause (enabledOf s1.me fl))

/-- R125, R126: CMP and FCMP write the outcome of their condition into pd, and its complement into pe, in every active lane. FCMP raises
its exceptions as R147 says; with an enabled one it traps with FP_INVALID and writes nothing. -/
def Obligations.CompareResults : Prop :=
  ∀ (h : Head) (c : Cond) (pd : PReg) (pe : Option PReg) (a : SrcA) (b : SrcB) (s s1 : State) (va : Nat → W64),
    (∀ wide : Bool, s.laneA a wide (s.me.active h) = .ok va s1 → secondOk pd pe →
      Completes s1 (lenOf h (litB b)) (exec (.cmp h c wide pd pe a b) s) fun y =>
        RegsOnly s1.me y [] [] (pd.toNat :: (pe.map (·.toNat)).toList) [] ∧
        ∀ L < 32,
          let t := if wide then Ty.s64 else Ty.s32
          let o := holds c (sint t (va L)) (sint t (s1.me.laneB b wide L)) (uint t (va L)) (uint t (s1.me.laneB b wide L))
          let act := (s1.me.active h).getLsbD L
          (pd ≠ 7 → (y.p pd.toNat).getLsbD L = if act then o else (s1.me.p pd.toNat).getLsbD L) ∧
          ∀ e, pe = some e → e ≠ 7 → (y.p e.toNat).getLsbD L = if act then !o else (s1.me.p e.toNat).getLsbD L) ∧
    ∀ t : Ty, s.laneA a false (s.me.active h) = .ok va s1 → secondOk pd pe →
      let r := fun L => fcmpV c (val t (va L).toNat) (val t (s1.me.fb b L))
      let act := s1.me.active h
      let fl : Fl := ((List.range 32).filter fun L => act.getLsbD L).foldl (fun fl L => fl ||| (r L).2) 0
      if enabledOf s1.me fl = 0 then
        Completes s1 (lenOf h (litB b)) (exec (.fcmp h c t pd pe a b) s) fun y =>
          RegsOnly { s1.me with fpflags := s1.me.fpflags ||| fl } y [] [] (pd.toNat :: (pe.map (·.toNat)).toList) [] ∧
          ∀ L < 32,
            (pd ≠ 7 → (y.p pd.toNat).getLsbD L = if act.getLsbD L then (r L).1 else (s1.me.p pd.toNat).getLsbD L) ∧
            ∀ e, pe = some e → e ≠ 7 → (y.p e.toNat).getLsbD L = if act.getLsbD L then !(r L).1 else (s1.me.p e.toNat).getLsbD L
      else Traps s1 (exec (.fcmp h c t pd pe a b) s) (floatCause (enabledOf s1.me fl))

/-- R53, R127 to R129: the predicate instructions, all of the lane class (R94): PAND, POR, PXOR, PNOT, PSET and PMASK write their bit of pd in every active lane, p7 excepted, and change nothing
else. -/
def Obligations.PredicateResults : Prop :=
  (∀ (i : Instr) (h : Head) (pd : PReg) (f : Ctx → Nat → Bool) (s : State), lanePredicate i = some (h, pd, f) →
    Completes s (lenOf h false) (exec i s) fun y => RegsOnly s.me y [] [] [pd.toNat] [] ∧
      ∀ L < 32, pd ≠ 7 → (y.p pd.toNat).getLsbD L =
        if (s.me.active h).getLsbD L then f s.me L else (s.me.p pd.toNat).getLsbD L) ∧
  ∀ (h : Head) (pd : PReg) (a : SrcA) (s s1 : State) (v : W64), s.scalarA a (s.me.active h != 0) = .ok v s1 →
    Completes s1 (lenOf h false) (exec (.pmask h pd a) s) fun y => RegsOnly s1.me y [] [] [pd.toNat] [] ∧
      ∀ L < 32, pd ≠ 7 → (y.p pd.toNat).getLsbD L =
        if (s1.me.active h).getLsbD L then v.getLsbD L else (s1.me.p pd.toNat).getLsbD L

/-- R53, R130, R132, R134, R135: a scalar instruction that neither traps nor sets flags, with a readable source A, writes its value into
its destination when its guard holds, s0 excepted. With a false guard it changes no register beyond what reading source A leaves (what
that is, QueueReads states). -/
def Obligations.ScalarResults : Prop :=
  ∀ (i : Instr) (k : ScalarRule) (s s1 : State) (v : W64),
    scalarInteger i = some k → s.scalarA k.a (s.me.guard k.head) = .ok v s1 →
    Completes s1 k.words (exec i s) fun y => RegsOnly s1.me y [] [k.d.toNat] [] [] ∧
      y.s k.d.toNat = if k.d = 0 then 0 else if s1.me.guard k.head then k.val s1.me v else s1.me.s k.d.toNat

/-- R131: SDIV writes the quotient truncated toward zero, and SREM the remainder with the sign of the dividend. A divisor of zero traps
with INT_DIVIDE_ZERO when the guard is true; with a false guard nothing is written and nothing raised. -/
def Obligations.ScalarDivision : Prop :=
  ∀ (h : Head) (t : Ty) (d : Reg) (a : SrcA) (b : SrcB) (s s1 : State) (v : W64),
    s.scalarA a (s.me.guard h) = .ok v s1 →
    let q := fun (i : Instr) (f : Int → Int → Int) =>
      if s1.me.guard h then
        if s1.me.scalarB b = 0 then Traps s (exec i s) causeDivideZero
        else Completes s1 (lenOf h (litB b)) (exec i s) fun y => RegsOnly s1.me y [] [d.toNat] [] [] ∧
          y.s d.toNat = if d = 0 then 0 else BitVec.ofInt 64 (f (intOf t v) (intOf t (s1.me.scalarB b)))
      else Completes s1 (lenOf h (litB b)) (exec i s) fun y => RegsOnly s1.me y [] [] [] []
    q (.sdiv h t d a b) Int.tdiv ∧ q (.srem h t d a b) Int.tmod

/-- R133: SCMP writes the outcome of its condition on 64-bit values into kd, and the complement into ke, when its guard holds. -/
def Obligations.ScalarCompare : Prop :=
  ∀ (h : Head) (c : Cond) (kd : PReg) (ke : Option PReg) (a : SrcA) (b : SrcB) (s s1 : State) (v : W64),
    s.scalarA a (s.me.guard h) = .ok v s1 → secondOk kd ke →
    Completes s1 (lenOf h (litB b)) (exec (.scmp h c kd ke a b) s) fun y =>
      RegsOnly s1.me y [] [] [] (kd.toNat :: (ke.map (·.toNat)).toList) ∧
      let w := s1.me.scalarB b
      let o := holds c v.toInt w.toInt v.toNat w.toNat
      (kd ≠ 7 → y.k kd.toNat = if s1.me.guard h then o else s1.me.k kd.toNat) ∧
      ∀ e, ke = some e → e ≠ 7 → y.k e.toNat = if s1.me.guard h then !o else s1.me.k e.toNat

/-- R135, R147, R163: SFMUL, SFADD and SFMA write the rounded FP32 result, zero-extended, and OR their exceptions into FPFLAGS when
their guard holds and no exception that they raise is enabled; with an enabled one they trap with the first of the order. -/
def Obligations.ScalarFloatResults : Prop :=
  ∀ (i : Instr) (k : ScalarRule) (r : Ctx → W64 → FRes) (s s1 : State) (v : W64),
    scalarFloat i = some (k, r) → s.scalarA k.a (s.me.guard k.head) = .ok v s1 →
    let fl := (r s1.me v).fl
    if s1.me.guard k.head then
      if enabledOf s1.me fl = 0 then
        Completes s1 k.words (exec i s) fun y =>
          RegsOnly { s1.me with fpflags := s1.me.fpflags ||| fl } y [] [k.d.toNat] [] [] ∧
          y.s k.d.toNat = if k.d = 0 then 0 else BitVec.ofNat 64 (r s1.me v).bits
      else Traps s1 (exec i s) (floatCause (enabledOf s1.me fl))
    else Completes s1 k.words (exec i s) fun y => RegsOnly s1.me y [] [] [] []
end Statements

namespace Sys2Proof.Claims
open Sys2Proof.Machine

/-! ### The scratchpad (R166, R168 to R171) -/

/-- A byte of memory as it is once the queued stores of the issuing cell are performed. -/
def byteOf (s : State) (a : Nat) : Byte := mread (s.settle s.cur.cell).mem a

/-- n bytes of the issuing cell's scratchpad, once its queued stores are performed. -/
def scratchOf (s : State) (off n : Nat) : Nat := readLE (s.settle s.cur.cell).mem (cellKey s.cur.cell off) n

/-- Once the queued stores of the issuing cell are performed in both, from s to t only the issuing context and memory have changed. -/
def OnlyIssuerAndMemory (s t : State) : Prop :=
  t.settle s.cur.cell = ({ s.settle s.cur.cell with mem := (t.settle s.cur.cell).mem } : State).setMe t.me

/-- The bytes of an access of a type (R165). -/
def bytesOf : Ty → Nat
  | .s8 | .n8 => 1
  | .s16 | .n16 => 2
  | .b64 | .s64 | .n64 => 8
  | _ => 4

/-- The active lanes. -/
def lanes (m : W32) : List Nat := (List.range 32).filter fun L => m.getLsbD L

/-- An address of a local access names n aligned bytes of the issuing cell's scratchpad (R166). -/
def LocalOk (s : State) (ea : W64) (n : Nat) : Prop := s.localOffset ea n ≠ none ∧ ea.toNat % n = 0

/-- The scratch offset of such an address. -/
def offsetOf (s : State) (ea : W64) (n : Nat) : Nat := (s.localOffset ea n).getD 0

/-- Whether two accesses of n bytes meet. -/
def meet (a b n : Nat) : Prop := a < b + n ∧ b < a + n

/-- The counts that QSTAT writes: RDY in [4:0], HELD in [12:8], and zero in the bits that have no field (R185). -/
def Counts (v : W64) (ready held : Nat) : Prop :=
  v.extractLsb' 0 5 = BitVec.ofNat 5 ready ∧ v.extractLsb' 8 5 = BitVec.ofNat 5 held ∧
  v.extractLsb' 5 3 = 0 ∧ v.extractLsb' 13 3 = 0 ∧ v.extractLsb' 21 3 = 0 ∧ v.extractLsb' 27 37 = 0

/-- In the issuing cell only the issuing context and the tag table have changed. -/
def OnlyTags (s t : State) : Prop := t.myCell = { s.myCell.setCtx s.cur.ctx t.me with tags := t.myCell.tags }

/-- The new value of an atomic over m (R191). -/
def atomicValue (op : AtomOp) (t : Ty) (m c e : W64) : W64 :=
  match op with
  | .add => m + c
  | .and => m &&& c
  | .or => m ||| c
  | .xor => m ^^^ c
  | .min => if intOf t c < intOf t m then c else m
  | .max => if intOf t m < intOf t c then c else m
  | .swap => c
  | .cas => if low t.wide m = low t.wide e then c else m

/-- A message is the request of the issuing context for a lane, whose home and key its address check has found: it fills the entries of queue q
whose first has an id, and what it asks for is as said (R172, R177, R193). -/
def Asks (s : State) (m : Msg) (y : Nat × Endp × Nat) (q id : Nat) (P : Access → Prop) : Prop :=
  m.src = .cell s.cur.cell ∧ m.dst = y.2.1 ∧
  ∃ a, m.body = .access a ∧ a.lane = y.1 ∧ a.key = y.2.2 ∧ a.who = s.cur ∧ a.act = s.me.act ∧ a.q = q ∧ a.id = id ∧ P a

/-- From s to t the issuing context holds further sends, and nothing else of the device has changed. -/
def Holds (x y : Ctx) (n : Nat) (l : List SendBody) : Prop :=
  RegsOnly { x with held := y.held } y [] [] [] [] ∧ Past x y n ∧
  ∃ new, y.held = x.held ++ new ∧ new.map (·.body) = l

/-- A boundary instruction has done its work in u, passed its n words, and committed (R42). -/
def CompletesBoundary (n : Nat) (o : Out) (P : State → Prop) : Prop :=
  ∃ u, o = .next ((u.setMe (u.me.past n)).commit u.cur 3) ∧ P u

/-- A wait or a test has passed that may acquire: beside what RegsOnly names, only what the context has acquired has changed, which the
sends held behind an earlier acquire take up too (R276, R279). -/
def AcquiresOnly (x y : Ctx) (ks : List Nat) : Prop :=
  RegsOnly { x with deps := y.deps, held := y.held } y [] [] [] ks ∧
  y.held.map (fun sd => { sd with deps := [] }) = x.held.map fun sd => { sd with deps := [] }

/-- A context has gone to wait for something, and nothing else has changed (R44). -/
def Waits (s : State) (o : Out) (w : Wait) : Prop := o = .next (s.setMe { s.me with wait := some w })

end Sys2Proof.Claims

section Statements2
open Sys2Proof Sys2Proof.Machine Sys2Proof.Claims

/-- R165, R166, R168, R171: LD reads the bytes of each active lane's address into the lane, and LDS those of its one address into its
scalar register, extended as their type says, as the scratchpad is once the cell's queued stores are performed. Memory and all else are
as they were. -/
def Obligations.LocalLoads : Prop :=
  ∀ (h : Head) (t : Ty) (d : Reg) (m : Addr) (s : State), s.me.acquiring = false → s.me.ownPending s.cur.cell = false →
    ((∀ L ∈ lanes (s.me.active h), LocalOk s (s.me.laneAddr m L) (bytesOf t)) →
      ∃ u, exec (.ld h t d m) s = .next u ∧ OnlyIssuerAndMemory s u ∧ (∀ a, byteOf u a = byteOf s a) ∧
        RegsOnly s.me u.me (dest t.wide d) [] [] [] ∧ Past s.me u.me (lenOf h (litB m.idx)) ∧
        ∀ L < 32, if (s.me.active h).getLsbD L
          then u.me.laneR d t.wide L =
            low t.wide (extendTo t (scratchOf s (offsetOf s (s.me.laneAddr m L) (bytesOf t)) (bytesOf t)))
          else ∀ r, u.me.vl r L = s.me.vl r L) ∧
    (LocalOk s (s.me.scalarAddr m) (bytesOf t) → s.me.guard h = true →
      ∃ u, exec (.lds h t d m) s = .next u ∧ OnlyIssuerAndMemory s u ∧ (∀ a, byteOf u a = byteOf s a) ∧
        RegsOnly s.me u.me [] [d.toNat] [] [] ∧ Past s.me u.me (lenOf h (litB m.idx)) ∧
        u.me.s d.toNat =
          if d = 0 then 0 else extendTo t (scratchOf s (offsetOf s (s.me.scalarAddr m) (bytesOf t)) (bytesOf t)))

/-- R166, R168, R170, R171: ST stores the low bytes of each active lane's register at the lane's address, the highest lane last, and
STS those of its scalar register; the aligned words are journalled. Every other byte of memory, every register and all else are as
they were. -/
def Obligations.LocalStores : Prop :=
  ∀ (h : Head) (t : Ty) (d : Reg) (m : Addr) (s : State), s.me.acquiring = false → s.me.ownPending s.cur.cell = false →
    ((∀ L ∈ lanes (s.me.active h), LocalOk s (s.me.laneAddr m L) (bytesOf t)) →
      s.me.fits 0 (s.newWords (s.me.laneAddr m) (bytesOf t) (lanes (s.me.active h))) = true →
      ∃ u, exec (.st h t d m) s = .next u ∧ OnlyIssuerAndMemory s u ∧
        RegsOnly { s.me with journal := u.me.journal } u.me [] [] [] [] ∧ Past s.me u.me (lenOf h (litB m.idx)) ∧
        (∀ L ∈ lanes (s.me.active h),
          let off := offsetOf s (s.me.laneAddr m L) (bytesOf t)
          u.me.journalled (off / 8 * 8) = true ∧
          ((∀ j ∈ lanes (s.me.active h), L < j → ¬ meet off (offsetOf s (s.me.laneAddr m j) (bytesOf t)) (bytesOf t)) →
            scratchOf u off (bytesOf t) = (s.me.laneR d t.wide L).toNat % 256 ^ bytesOf t)) ∧
        ∀ a, (∀ L ∈ lanes (s.me.active h),
            let k := cellKey s.cur.cell (offsetOf s (s.me.laneAddr m L) (bytesOf t))
            a < k ∨ k + bytesOf t ≤ a) → byteOf u a = byteOf s a) ∧
    (LocalOk s (s.me.scalarAddr m) (bytesOf t) → s.me.guard h = true →
      s.me.fits 0 (s.newWords (fun _ => s.me.scalarAddr m) (bytesOf t) [0]) = true →
      ∃ u, exec (.sts h t d m) s = .next u ∧ OnlyIssuerAndMemory s u ∧
        RegsOnly { s.me with journal := u.me.journal } u.me [] [] [] [] ∧ Past s.me u.me (lenOf h (litB m.idx)) ∧
        let off := offsetOf s (s.me.scalarAddr m) (bytesOf t)
        u.me.journalled (off / 8 * 8) = true ∧ scratchOf u off (bytesOf t) = (s.me.s d.toNat).toNat % 256 ^ bytesOf t ∧
        ∀ a, a < cellKey s.cur.cell off ∨ cellKey s.cur.cell off + bytesOf t ≤ a → byteOf u a = byteOf s a)

/-- R166, R167, R168, R191: LD, ST and ATOM with an active lane, and LDS and STS with a true guard, trap when an address does not name bytes of
the own scratchpad, or is not aligned; the lowest lane that fails decides, its bounds before its alignment, and nothing is stored. The alignment
cause of ATOM is ATOMIC_MISALIGNED. -/
def Obligations.LocalAccessTraps : Prop :=
  ∀ (h : Head) (op : AtomOp) (t : Ty) (d : Reg) (m : Addr) (c e : Reg) (s : State), s.me.acquiring = false →
    s.me.ownPending s.cur.cell = false →
    let traps := fun (i : Instr) (ea : W64) (misaligned : BitVec 7) => exec i s = .next (s.takeTrap s.cur
      { cause := if s.localOffset ea (bytesOf t) = none then causeScratchBounds else misaligned, addr := some ea })
    (∀ L, L ∈ lanes (s.me.active h) → (∀ j ∈ lanes (s.me.active h), j < L → LocalOk s (s.me.laneAddr m j) (bytesOf t)) →
      let ea := s.me.laneAddr m L
      ¬ LocalOk s ea (bytesOf t) → traps (.ld h t d m) ea causeMisaligned ∧ traps (.st h t d m) ea causeMisaligned ∧
        traps (.atom h op t d m c e) ea causeAtomicMisaligned) ∧
    let ea := s.me.scalarAddr m
    s.me.guard h = true → ¬ LocalOk s ea (bytesOf t) → traps (.lds h t d m) ea causeMisaligned ∧ traps (.sts h t d m) ea causeMisaligned

/-- R191, R192: ATOM reads the old value of each active lane's word into the lane, and writes the new value of R191 over it, lanes in
ascending order. A lane whose word no other active lane names has the plain result; every other byte, every other register and all
else are as they were. -/
def Obligations.LocalAtomics : Prop :=
  ∀ (h : Head) (op : AtomOp) (t : Ty) (d : Reg) (m : Addr) (c e : Reg) (s : State), s.me.acquiring = false →
    s.me.ownPending s.cur.cell = false →
    (∀ L ∈ lanes (s.me.active h), LocalOk s (s.me.laneAddr m L) (bytesOf t)) →
    s.me.fits 0 (s.newWords (s.me.laneAddr m) (bytesOf t) (lanes (s.me.active h))) = true →
    ∃ u, exec (.atom h op t d m c e) s = .next u ∧ OnlyIssuerAndMemory s u ∧
      RegsOnly { s.me with journal := u.me.journal } u.me (dest t.wide d) [] [] [] ∧ Past s.me u.me (lenOf h (litB m.idx)) ∧
      (∀ L ∈ lanes (s.me.active h),
        let off := offsetOf s (s.me.laneAddr m L) (bytesOf t)
        let old := BitVec.ofNat 64 (scratchOf s off (bytesOf t))
        u.me.journalled (off / 8 * 8) = true ∧
        ((∀ j ∈ lanes (s.me.active h), j ≠ L → ¬ meet off (offsetOf s (s.me.laneAddr m j) (bytesOf t)) (bytesOf t)) →
          u.me.laneR d t.wide L = low t.wide old ∧
          scratchOf u off (bytesOf t) =
            (atomicValue op t old (s.me.laneR c t.wide L) (s.me.laneR e t.wide L)).toNat % 256 ^ bytesOf t)) ∧
      ∀ a, (∀ L ∈ lanes (s.me.active h),
          let k := cellKey s.cur.cell (offsetOf s (s.me.laneAddr m L) (bytesOf t))
          a < k ∨ k + bytesOf t ≤ a) → byteOf u a = byteOf s a

/-- R167, R173, R177, R178: an LDQ whose addresses pass their checks and whose queue has room reserves its entries at the tail, a NULL
one ready at once where no lane is active, and sends one read of the access size for each lane, or one in the scalar form, to the home of its
address, in ascending order of the lanes. It changes no register and no memory.
R42, R191, R193, R194: an ATOMX is a boundary instruction. After the commit before it, with its addresses checked, room in its queue, and
its earlier stores gone, it reserves its entries, sends one request for each active lane to the home of its address, with its operation, the
operand and the comparand of the lane, and commits again. -/
def Obligations.RemoteReserves : Prop :=
  (∀ (h : Head) (t : Ty) (sform : Bool) (ord : Order) (q : PReg) (m : Addr) (s : State) (l : List (Nat × Endp × Nat)),
    let x := s.me
    let acq := if ord.acq then some ord.scope else none
    let who := if x.active h = 0 then [] else if sform then [0] else lanes (x.active h)
    let addr := if sform then fun _ => x.scalarAddr m else x.laneAddr m
    let k := if t.wide && !sform then 2 else 1
    x.acquiring = false → checkLanes s .load addr (bytesOf t) who = .ok l s →
    (l.all fun y => !s.barred s.cur.cell y.2.1) = true → k ≤ (x.queue q.toNat).free →
    ∃ u, exec (.ldq h t sform ord q m) s = .next u ∧
      RegsOnly { x with qs := u.me.qs, out := u.me.out, acquires := u.me.acquires } u.me [] [] [] [] ∧
      Past x u.me (lenOf h (litB m.idx)) ∧ (∀ a, byteOf u a = byteOf s a) ∧
      (∀ j, j ≠ q.toNat → u.me.queue j = x.queue j) ∧
      ∃ id new msgs, (u.me.queue q.toNat).entries = (x.queue q.toNat).entries ++ new ∧ new.map (·.id) = (List.range k).map (id + ·) ∧
        (∀ e ∈ new, e.scalar = sform ∧ e.awaited = l.length ∧ e.tag = if l = [] then .null else .valid) ∧
        u.net = s.net ++ msgs ∧ List.Forall₂ (fun y msg => Asks s msg y q.toNat id fun a =>
          a.op = .read ∧ a.ea = addr y.1 ∧ a.size = bytesOf t ∧ a.ty = t ∧ a.acq = acq) l msgs) ∧
  (∀ (h : Head) (op : AtomOp) (t : Ty) (ord : Order) (q : PReg) (m : Addr) (c e : Reg) (s0 : State) (l : List (Nat × Endp × Nat)),
    let s := s0.commitBefore
    let x := s.me
    let k := if t.wide then 2 else 1
    s0.me.commitWaits = false → x.r.live ≠ 0 → x.acquiring = false →
    checkLanes s .atomic (x.laneAddr m) (bytesOf t) (lanes (x.active h)) = .ok l s →
    (l.all fun y => !s.barred s.cur.cell y.2.1 && !s.owes s.cur.cell y.2.1) = true → k ≤ (x.queue q.toNat).free →
    (l = [] ∨ (s.storesLeft s.cur .system = true ∧ (ord.rel = true → s.relClear s.cur ord.scope = true))) →
    CompletesBoundary (lenOf h (litB m.idx)) (exec (.atomx h op t ord q m c e) s0) fun u =>
      (∀ a, byteOf u a = byteOf s a) ∧
      ∃ id new msgs, (u.me.queue q.toNat).entries = (x.queue q.toNat).entries ++ new ∧ new.map (·.id) = (List.range k).map (id + ·) ∧
        (∀ y ∈ new, y.scalar = false ∧ y.awaited = l.length ∧ y.tag = if l = [] then .null else .valid) ∧
        u.net = s.net ++ msgs ∧ List.Forall₂ (fun y msg => Asks s msg y q.toNat id fun a =>
          a.op = .atomic op t ∧ a.ea = x.laneAddr m y.1 ∧ a.size = bytesOf t ∧ a.data = x.laneR c t.wide y.1 ∧
          a.cmp = x.laneR e t.wide y.1 ∧ a.ty = t ∧ a.acq = (if ord.acq then some ord.scope else none) ∧
          a.rel = if ord.rel then some ord.scope else none) l msgs)

/-- R167, R181, R182: an STX whose addresses pass their checks and whose sends fit holds one store for each active lane, ascending,
with the low bytes of its register; it changes no register, no memory and nothing else. -/
def Obligations.RemoteStoreHolds : Prop :=
  ∀ (h : Head) (t : Ty) (ord : Order) (d : Reg) (m : Addr) (s : State) (l : List (Nat × Endp × Nat)),
    s.me.acquiring = false → checkLanes s (.store (t == .b32)) (s.me.laneAddr m) (bytesOf t) (lanes (s.me.active h)) = .ok l s →
    s.me.fits (16 * l.length) 0 = true →
    ∃ u, exec (.stx h t ord d m) s = .next u ∧ OnlyIssuer s u ∧
      RegsOnly { s.me with held := u.me.held } u.me [] [] [] [] ∧ Past s.me u.me (lenOf h (litB m.idx)) ∧
      ∃ new, u.me.held = s.me.held ++ new ∧
        new.map (fun sd => match sd.body with
          | .store home a => (a.lane, home, a.key, a.ea, a.size, a.data)
          | _ => (0, .root, 0, 0, 0, 0)) =
        l.map fun y => (y.1, y.2.1, y.2.2, s.me.laneAddr m y.1, bytesOf t, s.me.laneR d t.wide y.1)

/-- R172 to R174, R184, R185: with its entry ready, QPOP delivers the head of a data queue to the active lanes, or to a scalar register,
and takes it away, kept in the pop shadow; QPEEK delivers it and leaves it. QDROP takes the head away. `.B64` with a lane destination reads two
lane-vector entries together. QSTAT writes the counts and the kind of the head of a data queue, and those of a channel endpoint, and
zero for a writer or unbound endpoint; it takes nothing away.
R62, R63: source A as a register is its value, for a lane reader and for a scalar reader, and changes nothing.
R63, R135, R172 to R174, R210: source A as a data queue takes the head entry when it is ready, moves it to the pop shadow, and delivers it as the
table says: a lane vector lane by lane to the active lanes, a scalar entry to every lane or to a scalar reader, a NULL entry as zero. With no
active lane, or a false guard, the entry is taken all the same and raises nothing. A lane vector at a scalar reader traps with QUEUE_INDEX; a
POISON entry traps with QUEUE_POISON, unless QCFG makes its failed lanes zero. A trap takes nothing. An entry that is not ready, or an empty queue, makes the
context wait and changes nothing. A reader endpoint takes its elements behind the stores of its cell (R273), and delivers the
first of them as a scalar entry; an empty one waits while the channel is open, and traps with CHANNEL_CLOSED once it is closed and consumed. An
unbound endpoint traps with CHANNEL_NOT_BOUND, a writer endpoint with CHANNEL_WRONG_END. -/
def Obligations.QueueReads : Prop :=
  (∀ (h : Head) (t : Ty) (d : Reg) (q : QReg) (s : State) (e : QEntry) (es : List QEntry), q.toNat < 8 →
    (s.me.queue q.toNat).entries = e :: es → e.awaited = 0 → e.tag ≠ .poison →
    (t.wide = false →
      (∃ u, exec (.qpop h t false d q) s = .next u ∧ OnlyIssuer s u ∧ Past s.me u.me (lenOf h false) ∧
        RegsOnly { s.me with qs := u.me.qs } u.me [d.toNat] [] [] [] ∧
        u.me.queue q.toNat = { entries := es, shadow := (s.me.queue q.toNat).shadow ++ [e] } ∧
        ∀ L < 32, u.me.vl d.toNat L = if (s.me.active h).getLsbD L then
          (if e.tag = .null then 0 else if e.scalar then e.value.extractLsb' 0 32
           else if e.badLanes.getLsbD L then 0 else lane e.lanes L) else s.me.vl d.toNat L) ∧
      ∃ u, exec (.qpeek h t false d q) s = .next u ∧ OnlyIssuer s u ∧ Past s.me u.me (lenOf h false) ∧
        RegsOnly s.me u.me [d.toNat] [] [] [] ∧
        ∀ L < 32, u.me.vl d.toNat L = if (s.me.active h).getLsbD L then
          (if e.tag = .null then 0 else if e.scalar then e.value.extractLsb' 0 32
           else if e.badLanes.getLsbD L then 0 else lane e.lanes L) else s.me.vl d.toNat L) ∧
    (e.scalar = true → s.me.active h ≠ 0 →
      ∃ u, exec (.qpop h t true d q) s = .next u ∧ OnlyIssuer s u ∧ Past s.me u.me (lenOf h false) ∧
        RegsOnly { s.me with qs := u.me.qs } u.me [] [d.toNat] [] [] ∧
        u.me.queue q.toNat = { entries := es, shadow := (s.me.queue q.toNat).shadow ++ [e] } ∧
        u.me.s d.toNat = if d = 0 then 0 else low t.wide (if e.tag = .valid then e.value else 0)) ∧
    (s.me.guard h = true →
      ∃ u, exec (.qdrop h q) s = .next u ∧ OnlyIssuer s u ∧ Past s.me u.me (lenOf h false) ∧
        RegsOnly { s.me with qs := u.me.qs } u.me [] [] [] [] ∧
        u.me.queue q.toNat = { entries := es, shadow := (s.me.queue q.toNat).shadow ++ [e] }) ∧
    (∀ (e2 : QEntry) (rest : List QEntry), t.wide = true → es = e2 :: rest → e.scalar = false → e2.scalar = false → e2.awaited = 0 →
      e2.tag ≠ .poison → s.me.active h ≠ 0 →
      let word := fun (e : QEntry) (L : Nat) => if e.tag = .null ∨ e.badLanes.getLsbD L = true then (0 : W32) else lane e.lanes L
      let reads := fun (y : Ctx) => ∀ L < 32, if (s.me.active h).getLsbD L then y.vp d.toNat L = (word e2 L ++ word e L : BitVec 64)
        else ∀ r, y.vl r L = s.me.vl r L
      (∃ u, exec (.qpop h t false d q) s = .next u ∧ OnlyIssuer s u ∧ Past s.me u.me (lenOf h false) ∧
        RegsOnly { s.me with qs := u.me.qs } u.me [d.toNat, d.toNat + 1] [] [] [] ∧
        u.me.queue q.toNat = { entries := rest, shadow := (s.me.queue q.toNat).shadow ++ [e, e2] } ∧ reads u.me) ∧
      ∃ u, exec (.qpeek h t false d q) s = .next u ∧ OnlyIssuer s u ∧ Past s.me u.me (lenOf h false) ∧
        RegsOnly s.me u.me [d.toNat, d.toNat + 1] [] [] [] ∧ reads u.me)) ∧
  (∀ (h : Head) (d : Reg) (q : QReg) (s : State), s.me.guard h = true →
    let o := exec (.qstat h d q) s
    let n := lenOf h false
    (q.toNat < 8 → Completes s n o fun y => RegsOnly s.me y [] [d.toNat] [] [] ∧ (d ≠ 0 →
      let l := (s.me.queue q.toNat).entries
      let head := fun (P : QEntry → Bool) => (l.head?).any fun e => e.awaited == 0 && P e
      Counts (y.s d.toNat) (l.takeWhile fun e => e.awaited == 0).length l.length ∧
      (y.s d.toNat).extractLsb' 16 5 = BitVec.ofNat 5 (s.me.queue q.toNat).shadow.length ∧
      (y.s d.toNat).getLsbD 24 = head (fun e => e.scalar) ∧ (y.s d.toNat).getLsbD 25 = head (fun e => e.tag == .null) ∧
      (y.s d.toNat).getLsbD 26 = head fun e => e.tag == .poison)) ∧
    (∀ id, 8 ≤ q.toNat → tget none s.me.r.binds q.toNat = some ⟨id, true⟩ →
      let m := (s.settleNear s.cur []).takeElems s.cur q.toNat
      let e := tget {} m.me.eps q.toNat
      Completes m n o fun y => RegsOnly m.me y [] [d.toNat] [] [] ∧ (d ≠ 0 → Counts (y.s d.toNat) e.taken.length e.taken.length ∧
        (e.shadow.length < 32 → (y.s d.toNat).extractLsb' 16 5 = BitVec.ofNat 5 e.shadow.length) ∧
        (y.s d.toNat).getLsbD 24 = decide (e.taken ≠ []) ∧ (y.s d.toNat).extractLsb' 25 2 = 0)) ∧
    (8 ≤ q.toNat → (∀ id, tget none s.me.r.binds q.toNat ≠ some ⟨id, true⟩) →
      Completes s n o fun y => RegsOnly s.me y [] [d.toNat] [] [] ∧ y.s d.toNat = 0)) ∧
  (∀ (s : State) (r : Reg) (wide use : Bool) (act : W32),
    (∃ va, s.laneA (.reg r) wide act = .ok va s ∧
      ∀ L, va L = if wide then s.me.vp r.toNat L else (s.me.vl r.toNat L).setWidth 64) ∧
    s.scalarA (.reg r) use = .ok (s.me.s r.toNat) s) ∧
  (∀ (s : State) (q : QReg) (wide use : Bool) (act : W32), 8 ≤ q.toNat → s.me.acquiring = false →
    let reads := s.laneA (.queue q) wide act
    let reads1 := s.scalarA (.queue q) use
    (tget none s.me.r.binds q.toNat = none →
      reads = .trap { cause := causeChannelNotBound } s ∧ reads1 = .trap { cause := causeChannelNotBound } s) ∧
    (∀ id, tget none s.me.r.binds q.toNat = some ⟨id, false⟩ →
      reads = .trap { cause := causeChannelWrongEnd } s ∧ reads1 = .trap { cause := causeChannelWrongEnd } s) ∧
    ∀ id, tget none s.me.r.binds q.toNat = some ⟨id, true⟩ →
      let m := (s.settleNear s.cur []).takeElems s.cur q.toNat
      let e := tget {} m.me.eps q.toNat
      match e.taken with
      | v :: vs =>
          let takes := fun (u : State) => OnlyIssuer m u ∧
            u.me = { m.me with eps := tset m.me.eps q.toNat { taken := vs, shadow := e.shadow ++ [(id, v)] } }
          (∃ va u, reads = .ok va u ∧ takes u ∧ (act ≠ 0 → ∀ L, va L = low wide v)) ∧
          ∃ w u, reads1 = .ok w u ∧ takes u ∧ (use = true → w = v)
      | [] => if (m.rcopy s.cur.cell id).consumed (m.nextSeq s.cur.cell id + m.me.takenOf id)
          then reads = .trap { cause := causeChannelClosed } m ∧ reads1 = .trap { cause := causeChannelClosed } m
          else reads = .wait (.chan q.toNat) m ∧ reads1 = .wait (.chan q.toNat) m) ∧
  (∀ (s : State) (q : QReg) (wide use : Bool) (act : W32), q.toNat < 8 →
    let takes := fun (e : QEntry) (es : List QEntry) (x : Ctx) (u : State) =>
      OnlyIssuer s u ∧ u.me = { x with qs := u.me.qs } ∧
      u.me.queue q.toNat = { entries := es, shadow := (s.me.queue q.toNat).shadow ++ [e] } ∧
      ∀ j, j ≠ q.toNat → u.me.queue j = s.me.queue j
    (∀ e es, (s.me.queue q.toNat).entries = e :: es → e.awaited = 0 →
      (act = 0 → ∃ va u, s.laneA (.queue q) wide act = .ok va u ∧ takes e es s.me u) ∧
      (use = false → ∃ w u, s.scalarA (.queue q) use = .ok w u ∧ takes e es s.me u) ∧
      (e.tag ≠ .poison →
        (∃ va u, s.laneA (.queue q) wide act = .ok va u ∧ takes e es s.me u ∧
          (act ≠ 0 → ∀ L, act.getLsbD L = true ∨ e.scalar = true ∨ e.tag = .null → va L = if e.tag = .null then 0 else if e.scalar then low wide e.value
            else if e.badLanes.getLsbD L then 0 else (lane e.lanes L).setWidth 64)) ∧
        (use = true → e.scalar = false → s.scalarA (.queue q) use = .trap { cause := causeQueueIndex } s) ∧
        (use = true → e.scalar = true → ∃ u, s.scalarA (.queue q) use = .ok (if e.tag = .null then 0 else e.value) u ∧ takes e es s.me u)) ∧
      (e.tag = .poison →
        if s.me.qcfg.getLsbD q.toNat then
          let x := { s.me with qcfg := s.me.qcfg ||| BitVec.ofNat 16 (2 ^ (8 + q.toNat)) }
          (act ≠ 0 → ∃ va u, s.laneA (.queue q) wide act = .ok va u ∧ takes e es x u ∧
            ∀ L, act.getLsbD L = true → va L = if e.scalar = true ∨ e.badLanes.getLsbD L = true then 0 else (lane e.lanes L).setWidth 64) ∧
          (use = true → ∃ u, s.scalarA (.queue q) use = .ok 0 u ∧ takes e es x u)
        else
          let t : Trap := { cause := causeQueuePoison, addr := e.badAddr, sub := e.badCause }
          (act ≠ 0 → s.laneA (.queue q) wide act = .trap t s) ∧ (use = true → s.scalarA (.queue q) use = .trap t s))) ∧
    ((s.me.queue q.toNat).entries = [] ∨ (∃ e es, (s.me.queue q.toNat).entries = e :: es ∧ e.awaited ≠ 0) →
      (∃ w, s.laneA (.queue q) wide act = .wait w s) ∧ ∃ w, s.scalarA (.queue q) use = .wait w s))

/-- R186, R188, R189, R190: TAGW of a usable slot writes its tag and makes it valid, clearing the valid bit of another slot with the same
tag; TAGI.ONE clears the valid bit of its slot, and TAGI.ALL those of all slots. The old state is journalled, and nothing else changes.
A slot that is not usable traps with TAG_INDEX. -/
def Obligations.TagTableWrites : Prop :=
  ∀ (h : Head) (ra : Reg) (b : SrcB) (s : State), s.me.guard h = true →
    let i := s.me.s ra.toNat
    let T := s.myCell.tags
    (T.usable i = true → s.me.fits 0 2 = true →
      (∃ u, exec (.tagw h ra b) s = .next u ∧ OnlyCell s u ∧ OnlyTags s u ∧
        RegsOnly { s.me with journal := u.me.journal } u.me [] [] [] [] ∧ Past s.me u.me (lenOf h (litB b)) ∧
        tget 0 u.myCell.tags.tags i.toNat = s.me.scalarB b ∧ tget false u.myCell.tags.valid i.toNat = true ∧
        u.myCell.tags.base = T.base ∧ u.myCell.tags.lg = T.lg ∧
        ∀ j, j ≠ i.toNat → tget 0 u.myCell.tags.tags j = tget 0 T.tags j ∧
          tget false u.myCell.tags.valid j =
            (tget false T.valid j && !decide ((T.find (s.me.scalarB b)).filter (· != i.toNat) = some j))) ∧
      ∃ u, exec (.tagi h .one ra b) s = .next u ∧ OnlyCell s u ∧ OnlyTags s u ∧
        RegsOnly { s.me with journal := u.me.journal } u.me [] [] [] [] ∧ Past s.me u.me (lenOf h (litB b)) ∧
        u.myCell.tags = { T with valid := tset T.valid i.toNat false }) ∧
    (T.usable i = false → Traps s (exec (.tagw h ra b) s) causeTagIndex ∧ Traps s (exec (.tagi h .one ra b) s) causeTagIndex) ∧
    (s.me.fits 0 17 = true →
      (∃ u, exec (.tagi h .all ra b) s = .next u ∧ OnlyCell s u ∧ OnlyTags s u ∧
        RegsOnly { s.me with journal := u.me.journal } u.me [] [] [] [] ∧ Past s.me u.me (lenOf h (litB b)) ∧
        (∀ j, tget false u.myCell.tags.valid j = false) ∧ u.myCell.tags = { T with valid := u.myCell.tags.valid }) ∧
      let lg := (s.me.scalarB b).toNat
      (8 ≤ lg → lg ≤ 12 → i.toNat % 2 ^ lg = 0 → i.toNat < 0x80000 →
        ∃ u, exec (.tagi h .region ra b) s = .next u ∧ OnlyCell s u ∧ OnlyTags s u ∧
          RegsOnly { s.me with journal := u.me.journal } u.me [] [] [] [] ∧ Past s.me u.me (lenOf h (litB b)) ∧
          (∀ j, tget false u.myCell.tags.valid j = false) ∧
          u.myCell.tags = { T with valid := u.myCell.tags.valid, base := i, lg := lg }))

/-- R171, R195 to R197: a FENCE whose scope has nothing left to perform once the context's own queued stores are performed, in a context with no
latched error, completes and only puts its marker into the send buffer; one with work left waits. A latched error is raised as the trap of
the FENCE and is latched no more. -/
def Obligations.FenceCompletes : Prop :=
  ∀ (h : Head) (sc : Scope) (s : State), s.me.guard h = true → s.me.wait = none → s.me.acquiring = false →
    let m := (s.settleNear s.cur []).setMe (s.me.hold [{ body := .marker sc }])
    (s.me.latched = none → m.fenceDone s.cur sc = true →
      ∃ u, exec (.fence h sc) s = .next u ∧ OnlyIssuerAndMemory s u ∧ (∀ a, byteOf u a = byteOf s a) ∧
        Holds s.me u.me (lenOf h false) [.marker sc]) ∧
    (s.me.latched = none → m.fenceDone s.cur sc = false → Waits m (exec (.fence h sc) s) (.fence sc s.tbc)) ∧
    (∀ c a, s.me.latched = some (c, a) →
      exec (.fence h sc) s = .next ((s.setMe { s.me with latched := none, latchCount := 0 }).takeTrap s.cur
        { cause := c, addr := some a, count := count32 s.me.latchCount, logged := true }))
end Statements2

namespace Sys2Proof.Claims
open Sys2Proof.Machine

/-! ### Control, strands, channels, barriers, time -/

/-- From s to t the trace unit has written some records, and only the issuing context has changed beside that; without a trace buffer
only the context has (R440). -/
def Traced (s t : State) : Prop :=
  (∃ (x : Ctx) (l : List (Nat × PC × List W64)),
    t = (l.foldl (fun s y => s.trace s.cur y.1 y.2.1 y.2.2) (s.setMe x)).setMe t.me) ∧
  (s.myCell.trace.bytes = 0 → OnlyIssuer s t)

/-- Element 4L + j of a vector (R159): register j after the first, whose place the entry of a queue takes. -/
def element (x : Ctx) (a : SrcA) (va : Nat → W64) (j L : Nat) : Nat :=
  if j = 0 then (va L).toNat
  else (x.vl ((match a with
    | .reg r => r.toNat
    | .queue _ => 0) + j) L).toNat

/-- The exceptions of the four elements of each active lane. -/
def raisedFour (act : W32) (r : Nat → Nat → FRes) : Fl :=
  raised act fun L => { bits := 0, fl := (r 0 L).fl ||| (r 1 L).fl ||| (r 2 L).fl ||| (r 3 L).fl }

/-- A local branch: whether it is taken, its target, and the scalar register that it writes (R136, R139). -/
def localBranch : Instr → Option (Head × (Ctx → Bool) × (Ctx → PC) × List Nat)
  | .br h off => some (h, fun x => x.guard h, fun x => x.r.pc + off, [])
  | .brl h off => some (h, fun x => x.guard h, fun x => x.r.pc + off, [31])
  | .brx h ra => some (h, fun x => x.guard h, fun x => (x.s ra.toNat).extractLsb' 0 14, [])
  | .ret h => some (h, fun x => x.guard h, fun x => (x.s 31).extractLsb' 0 14, [])
  | .brany h pa off =>
    some (h, fun x => (List.range 32).any fun L => (x.active h).getLsbD L && (x.p pa.toNat).getLsbD L, fun x => x.r.pc + off, [])
  | .brall h pa off =>
    some (h, fun x => (List.range 32).all fun L => !(x.active h).getLsbD L || (x.p pa.toNat).getLsbD L, fun x => x.r.pc + off, [])
  | _ => none

/-- The far branches (R201): guard, live mask, place of a lane, and the return stack that its message carries. -/
structure FarRule where
  head : Head
  live : W32
  words : Nat
  pops : Bool
  place : State → Nat → W64
  rets : State → Nat → List (BitVec 28)

/-- The return place (R201). -/
def returnTo (s : State) (n : Nat) : W64 := placeOf (s.relOf s.cur.cell) (s.me.r.pc + BitVec.ofNat 14 n)

/-- What each far branch does. -/
def farRule : Instr → Option FarRule
  | .jfar h toS ra live =>
    some ⟨h, live, lenOf h false, false, fun s L => if toS then s.me.s ra.toNat else s.me.vp ra.toNat L, fun s L => (s.me.hdr L).rets⟩
  | .cfar h toS ra live =>
    some ⟨h, live, lenOf h false, false, fun s L => if toS then s.me.s ra.toNat else s.me.vp ra.toNat L,
      fun s L => ((returnTo s (lenOf h false)).extractLsb' 0 28 :: (s.me.hdr L).rets).take 4⟩
  | .rfar h live =>
    some ⟨h, live, lenOf h false, true, fun s L => ((s.me.hdr L).rets.headD 0).setWidth 64, fun s L => (s.me.hdr L).rets.drop 1⟩
  | .yield h live =>
    some ⟨h, live, lenOf h false, false, fun s _ => returnTo s (lenOf h false), fun s L => (s.me.hdr L).rets⟩
  | _ => none

/-- The strand that a lane becomes (R31, R201). -/
def strandOf (s : State) (k : FarRule) (L : Nat) : Strand :=
  { wid := (s.me.hdr L).wid, live := k.live, dest := (k.place s L).extractLsb' 0 28, rets := k.rets s L, step := s.me.step L
    job := (s.me.hdr L).job, origin := BitVec.ofNat 12 (s.relOf s.cur.cell), part := BitVec.ofNat 6 (s.partNo s.cur.cell)
    widw := (s.me.hdr L).widw, vals := (lanes k.live).map fun r => s.me.vl r L }

/-- Why a lane cannot far-branch, if it cannot (R28, R201). -/
def farFails (s : State) (k : FarRule) (L : Nat) : Option (BitVec 7) :=
  if k.pops && (s.me.hdr L).rets.isEmpty then some causeReturnEmpty else checkPlace s (s.partNo s.cur.cell) (k.place s L) false

/-- The lanes of a mask have ended (R137). -/
def LanesEnd (x y : Ctx) (m : W32) : Prop :=
  y = { x with r := { x.r with live := x.r.live &&& ~~~m, cm := x.r.cm &&& ~~~m, masks := x.r.masks.map fun z => z &&& ~~~m }
               held := y.held }

/-- The outcome once lanes have ended in u: the next instruction, or, with no lane left, a commit and the end of the activation, once the
commit need not wait for an acquire (R39, R278). -/
def afterLanes (n : Nat) (u : State) : State :=
  let v := u.setMe { u.me with lastPc := u.me.r.pc }
  if u.me.r.live ≠ 0 then u.setMe (u.me.past n)
  else if u.me.commitWaits then v.setMe { v.me with wait := some .acquire }
  else (v.commit v.cur 1).endActivation v.cur

/-- The decrements of a job among sends. -/
def decrements (l : List Send) (job : W32) : List Nat :=
  l.filterMap fun sd => match sd.body with
    | .decr j n => if j = job then some n else none
    | _ => none

/-- Whether a send is a decrement. -/
def isDecr (sd : Send) : Bool :=
  match sd.body with
  | .decr _ _ => true
  | _ => false

/-- The value that MFS reads of a register that is not per lane, TBC apart (R223). -/
def systemRegister (s : State) (n : BitVec 6) : W64 :=
  let x := s.me
  let h := x.hdr x.low
  if n = 0x01 then h.widw.setWidth 64
  else if n = 0x02 then x.entry
  else if n = 0x03 then BitVec.ofNat 64 (s.relOf s.cur.cell)
  else if n = 0x04 then BitVec.ofNat 64 (s.phys s.cur.cell)
  else if n = 0x05 then BitVec.ofNat 64 (s.partNo s.cur.cell)
  else if n = 0x06 then BitVec.ofNat 64 s.cur.ctx
  else if n = 0x07 then BitVec.ofNat 64 x.setSize
  else if n = 0x09 then h.job.setWidth 64
  else if n = 0x0A then (x.step x.low).setWidth 64
  else if n = 0x0C then BitVec.ofNat 64 (s.myCell.cyc + s.myCell.cycOff)
  else if n = 0x0D then x.fpctl.setWidth 64
  else if n = 0x0E then x.fpflags.setWidth 64
  else if n = 0x0F then BitVec.ofNat 64 x.budget
  else if n = 0x10 then x.trap.cause.setWidth 64
  else if n = 0x11 then x.trap.pc.setWidth 64
  else if n = 0x12 then x.trap.addr
  else if n = 0x13 then x.trap.msg.setWidth 64
  else if n = 0x15 then x.qcfg.setWidth 64
  else if n = 0x16 then s.myCell.inboxCfg.setWidth 64
  else if n = 0x17 then (s.partAt s.cur.cell).faultSrv
  else if n = 0x18 then x.slackNs
  else 0

/-- Two contexts with the same registers but for bindings of endpoints, and the program counter. -/
def BindsOnly (x y : Ctx) : Prop :=
  y = { x with
    r := { x.r with binds := y.r.binds, pc := y.r.pc, pastEnd := y.r.pastEnd }, eps := y.eps
    lastPc := x.r.pc, ran := x.ran + 1, wait := none }

/-- The barrier checks that hold before a barrier instruction acts (R214). -/
def BarrierOk (s : State) (b : Nat) (sc : Scope) : Prop :=
  (s.myCell.bar b).parties ≠ 0 ∧ ((s.myCell.bar b).span = 0 ∨ sc ≠ .cell) ∧ ∀ c a, s.me.latched = some (c, a) → c ≠ causeBarrierConfig

/-- A join of the issuing context has been presented on a wire, and the context waits for its match (R215): it is in the place that its
activation kept, or in one that nobody keeps, or behind the others. -/
def Presents (s : State) (o : Out) (kind : JoinKind) (w : Wire) (n : Nat) : Prop :=
  ∃ l, o = .next ((s.setMyCell (s.myCell.setJoins w l)).setMe { s.me with wait := some (.join w) }) ∧
    ({ kind, ctx := s.cur.ctx, act := s.me.act, len := n } : Join) ∈ l ∧
    ((∀ j ∈ s.myCell.joins w, j.owned = true ∧ (j.present = true ∨ j.act ≠ s.me.act)) →
      l = s.myCell.joins w ++ [{ kind, ctx := s.cur.ctx, act := s.me.act, len := n }])

end Sys2Proof.Claims

section Statements3
open Sys2Proof Sys2Proof.Machine Sys2Proof.Claims

/-- R147, R159 to R162: QPACK forms the four bytes of each active lane from its four elements, QUNPK the four registers from its four
bytes, each product exact and rounded once, and AMAX writes the largest magnitude of the active lanes. Each follows the commit of R147. -/
def Obligations.VectorResults : Prop :=
  ∀ (h : Head) (t : Ty) (d : Reg) (a : SrcA) (b : SrcB) (s s1 : State) (va : Nat → W64),
    s.laneA a false (s.me.active h) = .ok va s1 →
    let x := s1.me
    let act := x.active h
    let scale := val .f ((x.scalarB b).toNat % 2 ^ 32)
    (∀ sat : Bool,
      let r := fun j L => mulTo (fmtOf t) .rne sat (val .f (element x a va j L)) scale
      let fl := raisedFour act r
      if enabledOf x fl = 0 then
        Completes s1 (lenOf h (litB b)) (exec (.qpack h t sat d a b) s) fun y =>
          RegsOnly { x with fpflags := x.fpflags ||| fl } y [d.toNat] [] [] [] ∧
          ∀ L < 32, if act.getLsbD L
            then y.vl d.toNat L = BitVec.ofNat 32 ((r 0 L).bits % 256 + 2 ^ 8 * ((r 1 L).bits % 256) + 2 ^ 16 * ((r 2 L).bits % 256) +
              2 ^ 24 * ((r 3 L).bits % 256))
            else y.vl d.toNat L = x.vl d.toNat L
      else Traps s1 (exec (.qpack h t sat d a b) s) (floatCause (enabledOf x fl))) ∧
    (∀ rnd : Rnd,
      let r := fun j L => mulTo fmtF (modeOf x rnd) false (val t ((va L).toNat / 2 ^ (8 * j) % 256)) scale
      let fl := raisedFour act r
      if enabledOf x fl = 0 then
        Completes s1 (lenOf h (litB b)) (exec (.qunpk h t rnd d a b) s) fun y =>
          RegsOnly { x with fpflags := x.fpflags ||| fl } y [d.toNat, d.toNat + 1, d.toNat + 2, d.toNat + 3] [] [] [] ∧
          ∀ L < 32, ∀ j < 4, y.vl (d.toNat + j) L =
            if act.getLsbD L then BitVec.ofNat 32 (r j L).bits else x.vl (d.toNat + j) L
      else Traps s1 (exec (.qunpk h t rnd d a b) s) (floatCause (enabledOf x fl))) ∧
    let els := (lanes act).flatMap fun L => (List.range 4).map fun j => element x a va j L
    let fl : Fl := if els.any fun v => (val .f v).snan then flNV else 0
    if act = 0 then Completes s1 (lenOf h false) (exec (.amax h d a) s) fun y => RegsOnly x y [] [] [] []
    else if enabledOf x fl = 0 then
      Completes s1 (lenOf h false) (exec (.amax h d a) s) fun y =>
        RegsOnly { x with fpflags := x.fpflags ||| fl } y [] [d.toNat] [] [] ∧
        y.s d.toNat = if d = 0 then 0
          else BitVec.ofNat 64 (if els.any fun v => (val .f v).isNan then fmtF.nanBits else (els.map (· % 2 ^ 31)).foldl max 0)
    else Traps s1 (exec (.amax h d a) s) (floatCause (enabledOf x fl))

/-- R136, R139: a taken local branch sets the program counter to its target, and one that is not taken passes the instruction. BRL
writes the address of the next word into s31 when it is taken. Nothing else changes. The model's choice, log entry 23: at the end of the
instruction store BRL writes 0x4000, the address unwrapped, since R136 says nothing of it. -/
def Obligations.LocalBranches : Prop :=
  ∀ (i : Instr) (h : Head) (taken : Ctx → Bool) (target : Ctx → PC) (ss : List Nat) (s : State),
    localBranch i = some (h, taken, target, ss) →
    ∃ t, exec i s = .next t ∧ Traced s t ∧ RegsOnly s.me t.me [] ss [] [] ∧
      if taken s.me then
        t.me.r.pc = target s.me ∧ t.me.r.pastEnd = false ∧
        ∀ r ∈ ss, t.me.s r = BitVec.ofNat 64 (s.me.r.pc.toNat + lenOf h false)
      else OnlyIssuer s t ∧ Past s.me t.me (lenOf h false) ∧ ∀ r, t.me.s r = s.me.s r

/-- R137, R138: PUSHM pushes the current mask and narrows it by p_a, ELSEM takes the top without p_a, POPM pops; a full stack traps with
MASK_STACK_OVERFLOW, an empty one with MASK_STACK_UNDERFLOW, and then nothing has changed. -/
def Obligations.MaskStack : Prop :=
  ∀ (h : Head) (pa : PReg) (s : State),
    let x := s.me
    let n := lenOf h false
    let becomes := fun (cm : W32) (masks : List W32) (y : Ctx) =>
      y = { x with r := { x.r with cm, masks, pc := y.r.pc, pastEnd := y.r.pastEnd }
                   lastPc := x.r.pc, ran := x.ran + 1, wait := none }
    (if x.r.masks.length < 16 then
        Completes s n (exec (.pushm h pa) s) (becomes (x.r.cm &&& x.p pa.toNat) (x.r.cm :: x.r.masks))
      else Traps s (exec (.pushm h pa) s) causeMaskOverflow) ∧
    (s.endActivation s.cur).me.r.masks = [] ∧
    match x.r.masks with
    | [] => Traps s (exec (.elsem h pa) s) causeMaskUnderflow ∧ Traps s (exec (.popm h) s) causeMaskUnderflow
    | m :: ms =>
      Completes s n (exec (.elsem h pa) s) (becomes (m &&& ~~~(x.p pa.toNat)) (m :: ms)) ∧
      Completes s n (exec (.popm h) s) (becomes m ms)

/-- R140: a LOOP that names a register opens: with zero in it the body is skipped, else its value is pushed on a stack of four. LOOP with
s0 closes: it counts the top down, and branches back until it reaches zero, when it pops. A fifth open, and a close of an empty stack,
trap with LOOP_NEST. With a false guard it has no effect. -/
def Obligations.LoopStack : Prop :=
  ∀ (h : Head) (d : Reg) (off : BitVec 14) (s : State),
    let x := s.me
    let o := exec (.loop h d off) s
    let stays := fun (loops : List W64) => Completes s (lenOf h false) o fun y =>
      y = { x with r := { x.r with loops, pc := y.r.pc, pastEnd := y.r.pastEnd }
                   lastPc := x.r.pc, ran := x.ran + 1, wait := none }
    let goes := fun (loops : List W64) => ∃ t, o = .next t ∧ Traced s t ∧ t.me.r.pc = x.r.pc + off ∧ t.me.r.pastEnd = false ∧
      t.me = { x with r := { x.r with loops, pc := t.me.r.pc, pastEnd := t.me.r.pastEnd }
                      lastPc := x.r.pc, ran := x.ran + 1, wait := none }
    (s.endActivation s.cur).me.r.loops = [] ∧
    if x.guard h = false then stays x.r.loops
    else if d ≠ 0 then
      if x.s d.toNat = 0 then goes x.r.loops
      else if x.r.loops.length < 4 then stays (x.s d.toNat :: x.r.loops)
      else Traps s o causeLoopNest
    else match x.r.loops with
      | [] => Traps s o causeLoopNest
      | c :: cs => if c - 1 = 0 then stays cs else goes ((c - 1) :: cs)

/-- R31, R39, R137, R199 to R202, R375: JFAR, CFAR, RFAR and YIELD hold one strand for each active lane, ascending, behind one increment
for each job of lanes that are not counted, and end those lanes. The first active lane that fails a check decides the trap, and a live
mask of more than 16 registers traps first. With no active lane nothing happens. -/
def Obligations.FarBranches : Prop :=
  ∀ (i : Instr) (k : FarRule) (s : State), farRule i = some k →
    let act := s.me.active k.head
    let jobs := countJobs (((lanes act).filter fun L => !(s.me.hdr L).counted).map fun L => (s.me.hdr L).job)
    (act = 0 → s.me.r.live ≠ 0 → Completes s k.words (exec i s) fun y => RegsOnly s.me y [] [] [] []) ∧
    (act ≠ 0 → 16 < popCount k.live → Traps s (exec i s) causeLiveSet) ∧
    (∀ L ∈ lanes act, ∀ cause, popCount k.live ≤ 16 → (∀ j ∈ lanes act, j < L → farFails s k j = none) → farFails s k L = some cause →
      Traps s (exec i s) cause) ∧
    (act ≠ 0 → popCount k.live ≤ 16 → (∀ L ∈ lanes act, farFails s k L = none) →
      s.me.fits ((48 + 4 * popCount k.live + 15) / 16 * 16 * (lanes act).length + 16 * jobs.length) 0 = true →
      ∃ u, exec i s = .next (afterLanes k.words u) ∧ Traced s u ∧ LanesEnd s.me u.me act ∧
        ∃ new, u.me.held = s.me.held ++ new ∧
          new.map (·.body) = (jobs.map fun j => SendBody.incr j.1 j.2) ++
            (lanes act).map fun L => SendBody.strand (strandOf s k L) (!(s.me.hdr L).counted))

/-- R39, R137, R199, R203: EXIT ends every active lane, and holds one decrement for each job with counted lanes among the exits of the
segment, by their number. No other held send changes. -/
def Obligations.ExitEnds : Prop :=
  ∀ (h : Head) (s : State),
    let act := s.me.active h
    let jobs := ((lanes act).filter fun L => (s.me.hdr L).counted).map fun L => (s.me.hdr L).job
    (act = 0 → s.me.r.live ≠ 0 → Completes s (lenOf h false) (exec (.exit h) s) fun y => RegsOnly s.me y [] [] [] []) ∧
    (act ≠ 0 →
      s.me.fits (16 * ((countJobs jobs).filter fun j => (decrements s.me.held j.1).sum == 0).length) 0 = true →
      ∃ u, exec (.exit h) s = .next (afterLanes (lenOf h false) u) ∧ Traced s u ∧ LanesEnd s.me u.me act ∧
        u.me.held.filter (fun sd => !isDecr sd) = s.me.held.filter (fun sd => !isDecr sd) ∧
        ∀ j, decrements u.me.held j =
          if j ∈ jobs then [jobs.count j + (decrements s.me.held j).sum] else decrements s.me.held j)

/-- R42, R204: FORK commits; with no active lane, or with no child asked for, it commits again and passes. Else, with its checks passed,
it asks the home of each job's count for the children, and blocks until the answers come; FORK_ACK and FORK_CHILD_INJECT do the rest. -/
def Obligations.ForkAsks : Prop :=
  ∀ (h : Head) (ra : Reg) (b : SrcB) (c : Reg) (live : W32) (s0 : State),
    let s := s0.commitBefore
    let x := s.me
    let act := x.active h
    let n := (x.scalarB b).toNat
    let place := x.s ra.toNat
    let p := s.partAt s.cur.cell
    let jobs := (countJobs ((lanes act).map fun L => (x.hdr L).job)).map fun j => (j.1, n * j.2)
    s0.me.commitWaits = false → x.r.live ≠ 0 →
    (act = 0 ∨ n = 0 → CompletesBoundary (lenOf h (litB b)) (exec (.fork h ra b c live) s0) fun u => u = s) ∧
    (act ≠ 0 → n ≠ 0 → popCount live ≤ 16 → n ≤ 65535 → checkPlace s (s.partNo s.cur.cell) place false = none →
      (jobs.any fun j => s.barred s.cur.cell (p.jobHome j.1)) = false →
      ∃ t, exec (.fork h ra b c live) s0 = .next t ∧ t.me = { x with fork := t.me.fork, wait := some .forkAcks } ∧
        (∃ f, t.me.fork = some f ∧ f.awaited = jobs.length ∧ f.place = place ∧ f.len = lenOf h (litB b) ∧
          f.children = (lanes act).flatMap fun L => (List.range n).map fun i =>
            { wid := x.vp c.toNat L + BitVec.ofNat 64 i, live, dest := place.extractLsb' 0 28, rets := [], step := x.step L
              job := (x.hdr L).job, origin := BitVec.ofNat 12 (s.relOf s.cur.cell), part := BitVec.ofNat 6 (s.partNo s.cur.cell)
              widw := (x.hdr L).widw, vals := (lanes live).map fun r => x.vl r L }) ∧
        ∃ l, (s.myCell.trace.bytes = 0 → l = []) ∧ t.net = s.net ++ l ++ jobs.map fun j =>
          { vn := .request, src := .cell s.cur.cell, dst := p.jobHome j.1
            body := .countAdd j.1 j.2 (some s.cur) true none (p.jobLine (j.1.toNat % 4096)) })

/-- R52, R70, R205, R206: a SEND with a true guard and a good place holds the 32-byte message of R206, with the step, job and WID of the
lowest live lane. A class below 7 in unprivileged code traps with PRIVILEGED whatever the guard; with a false guard it does nothing
else; a place that fails its check traps. -/
def Obligations.SendHolds : Prop :=
  ∀ (h : Head) (cls : BitVec 5) (ra : Reg) (b : SrcB) (s : State),
    let x := s.me
    let place := x.s ra.toNat
    let n := lenOf h (litB b)
    let o := exec (.send h cls ra b) s
    if cls.toNat < 7 ∧ x.priv = false then Traps s o causePrivileged
    else if x.guard h = false then Completes s n o fun y => RegsOnly x y [] [] [] []
    else match checkPlace s (s.partNo s.cur.cell) place true with
      | some cause => Traps s o cause
      | none => x.fits 32 0 = true → ∃ u, o = .next u ∧ Traced s u ∧ Holds x u.me n
          [.msg { payload := x.scalarB b, origin := BitVec.ofNat 12 (s.relOf s.cur.cell), part := BitVec.ofNat 6 (s.partNo s.cur.cell), cls
                  dest := place.extractLsb' 0 28, step := x.step x.low, job := (x.hdr x.low).job, wid := (x.hdr x.low).wid }]

/-- R208, R211, R212: CHBIND of a valid channel whose end lies on this cell and is held by no other activation binds the endpoint to it;
an end that lies elsewhere, or that another activation holds, traps with CHANNEL_WRONG_END. CHUNBIND releases an endpoint, and does
nothing to one that is not bound; CHSTAT writes the word of R212. No other register changes. -/
def Obligations.ChannelBindings : Prop :=
  ∀ (h : Head) (rdr : Bool) (q : QReg) (ra d : Reg) (s : State), s.me.guard h = true → s.me.acquiring = false →
    let id := (s.me.s ra.toNat).toNat
    let desc := s.chanDesc (s.partAt s.cur.cell) id
    let n := lenOf h false
    (id < 65536 → desc.state ≠ 0 → desc.id = id → s.endCell desc rdr = s.cur.cell →
      s.myCell.heldByOther s.cur.ctx id rdr = false →
      ∃ u, exec (.chbind h rdr q ra) s = .next u ∧ BindsOnly s.me u.me ∧ Past s.me u.me n ∧
        u.me.hasEnd id rdr = true ∧ u.myCell.heldByOther s.cur.ctx id rdr = false ∧
        (if rdr then (tget none u.myCell.rcopies id).isSome else (tget none u.myCell.wcopies id).isSome) = true ∧
        ∀ j, tget none u.me.r.binds j = if j = q.toNat then some ⟨id, rdr⟩ else tget none s.me.r.binds j) ∧
    (id < 65536 → desc.state ≠ 0 → desc.id = id → s.endCell desc rdr ≠ s.cur.cell ∨ s.myCell.heldByOther s.cur.ctx id rdr = true →
      Traps s (exec (.chbind h rdr q ra) s) causeChannelWrongEnd) ∧
    (65536 ≤ id ∨ desc.state = 0 ∨ desc.id ≠ id → Traps s (exec (.chbind h rdr q ra) s) causeChannelTable) ∧
    (∃ u, exec (.chunbind h q) s = .next u ∧ BindsOnly s.me u.me ∧ Past s.me u.me n ∧
      (tget none s.me.r.binds q.toNat = none → OnlyIssuer s u ∧ RegsOnly s.me u.me [] [] [] []) ∧
      ∀ j, tget none u.me.r.binds j = if j = q.toNat then none else tget none s.me.r.binds j) ∧
    Completes s n (exec (.chstat h d q) s) fun y => RegsOnly s.me y [] [d.toNat] [] [] ∧
      let word := fun (count chan rd : Nat) (e : Desc) => BitVec.ofNat 64 (min count 0xFFFFFFFF * 2 ^ 32 + chan * 2 ^ 16 +
        (if e.trLen = 0 then 0 else 2 ^ 4) + (if e.state = 2 then 2 ^ 3 else 0) + rd * 2 ^ 2 + 1)
      y.s d.toNat = if d = 0 then 0 else match tget none s.me.r.binds q.toNat with
        | none => 0
        | some ⟨c, true⟩ => let e := (s.rcopy s.cur.cell c).desc; word (e.wcount - e.rcount) c 1 e
        | some ⟨c, false⟩ => let w := s.wcopy s.cur.cell c; word w.credits c 0 w.desc

/-- R199, R209, R211: through a writer endpoint of an open channel, CHW holds one element, or one for each active lane in ascending
order, and takes as many credits; with too few it waits, and changes nothing. CHCLOSE holds the close mark. An unbound endpoint traps
with CHANNEL_NOT_BOUND, a reader endpoint with CHANNEL_WRONG_END, and a closed channel with CHANNEL_CLOSED. With no active lane CHW does
nothing. -/
def Obligations.ChannelWrites : Prop :=
  ∀ (h : Head) (vec : Bool) (q : QReg) (ra : Reg) (s : State), s.me.acquiring = false →
    let n := lenOf h false
    let act := s.me.active h
    let xs := if vec then (lanes act).map (s.me.vp ra.toNat) else [s.me.s ra.toNat]
    let chw := exec (.chw h vec q ra) s
    let chclose := exec (.chclose h q) s
    (act = 0 → Completes s n chw fun y => RegsOnly s.me y [] [] [] []) ∧
    (tget none s.me.r.binds q.toNat = none →
      (act ≠ 0 → Traps s chw causeChannelNotBound) ∧ (s.me.guard h = true → Traps s chclose causeChannelNotBound)) ∧
    ∀ id,
      (tget none s.me.r.binds q.toNat = some ⟨id, true⟩ →
        (act ≠ 0 → Traps s chw causeChannelWrongEnd) ∧ (s.me.guard h = true → Traps s chclose causeChannelWrongEnd)) ∧
      (tget none s.me.r.binds q.toNat = some ⟨id, false⟩ → s.chanClosed id = true →
        (act ≠ 0 → Traps s chw causeChannelClosed) ∧ (s.me.guard h = true → Traps s chclose causeChannelClosed)) ∧
      (tget none s.me.r.binds q.toNat = some ⟨id, false⟩ → s.chanClosed id = false →
        let w := s.wcopy s.cur.cell id
        (act ≠ 0 → xs.length ≤ w.desc.quota → w.credits < xs.length → Waits s chw (.credits id xs.length)) ∧
        (act ≠ 0 → xs.length ≤ w.desc.quota → xs.length ≤ w.credits → s.me.fits (16 * xs.length) 0 = true →
          ∃ u, chw = .next u ∧ OnlyIssuer (s.setWcopy s.cur.cell id (some { w with credits := w.credits - xs.length })) u ∧
            Holds s.me u.me n (xs.map (SendBody.elem id))) ∧
        (s.me.guard h = true → s.me.fits 16 0 = true →
          ∃ u, chclose = .next u ∧ OnlyIssuer s u ∧ Holds s.me u.me n [.close id]))

/-- R213: BARC with a good word on its own cell or at the master writes the configuration with both counters zero, and the master sends
its phase to every other member; at another member it writes the configuration, asks the master, and waits for the answer. A reserved
bit, a reserved span, no party, or arrivals already counted trap with BARRIER_CONFIG. That a member that is not the master tests only
the arrivals of its own cell is the model's choice, log entry 69. -/
def Obligations.BarrierConfiguration : Prop :=
  ∀ (h : Head) (bar : BitVec 6) (ra : Reg) (s : State), s.me.guard h = true →
    let w := s.me.s ra.toNat
    let b := bar.toNat
    let span := (w.extractLsb' 32 2).toNat
    let parties := w.extractLsb' 0 32
    let master := spanMaster s.cur.cell span
    let o := exec (.barc h bar ra) s
    if w.extractLsb' 34 30 ≠ 0 ∨ span = 3 ∨ parties = 0 ∨ (s.myCell.bar b).arrivals ≠ 0 then
      Traps s o causeBarrierConfig
    else s.me.fits 0 2 = true →
      ∃ u, o = .next u ∧ (∀ a, mread u.mem a = mread s.mem a) ∧
        (∀ j, u.myCell.bar j = if j = b then { span, parties, phase := if master = s.cur.cell then 0 else (s.myCell.bar b).phase }
          else s.myCell.bar j) ∧
        if master = s.cur.cell then
          RegsOnly { s.me with journal := u.me.journal } u.me [] [] [] [] ∧ Past s.me u.me (lenOf h false) ∧
          u.net = s.net ++ ((spanMembers master span).filter (· != master)).map fun m =>
            { vn := .system, src := .cell master, dst := .cell m, body := .phase b span 0 [] }
        else
          u.me = { s.me with journal := u.me.journal, wait := some (.barReply b (lenOf h false)) } ∧
          u.net = s.net ++ [{ vn := .system, src := .cell s.cur.cell, dst := .cell master, body := .barQuery b s.cur }]

/-- R42, R199, R214, R273, R277: an arrival at CELL scope is counted and recorded at issue, behind the queued stores of its context; one that
does not complete its phase is journalled, and one that completes it clears the arrivals, advances the phase, and commits. One above CELL scope is a boundary instruction that holds the
arrival. A second arrival in one phase traps with BARRIER_OVERRUN. With release it waits until the
earlier writes of its context in the cell are performed. The model's reading, log entry 67: where the context still holds one of them, it commits
first. -/
def Obligations.BarrierArrivals : Prop :=
  ∀ (h : Head) (bar : BitVec 6) (ord : Order) (s : State),
    let b := bar.toNat
    let n := lenOf h false
    let x := s.myCell.bar b
    (ord.scope = .cell → s.me.guard h = true → s.me.acquiring = false → x.parties ≠ 0 → x.span = 0 →
      (s.me.arrival b = some x.phase → Traps s (exec (.bara h bar ord) s) causeBarrierOverrun) ∧
      (s.me.arrival b ≠ some x.phase → ord.rel = true →
        (s.holdsOwn s.cur = true → Waits (s.commit s.cur 1) (exec (.bara h bar ord) s) (.releases (some .cell))) ∧
        (s.holdsOwn s.cur = false → s.relClear s.cur .cell = false → Waits s (exec (.bara h bar ord) s) (.releases (some .cell)))) ∧
      (s.me.arrival b ≠ some x.phase → (ord.rel = true → s.holdsOwn s.cur = false ∧ s.relClear s.cur .cell = true) →
        (x.arrivals + 1 ≠ x.parties → s.me.fits 0 2 = true →
          ∃ u, exec (.bara h bar ord) s = .next u ∧ OnlyCell (s.settleNear s.cur []) u ∧ Past s.me u.me n ∧ u.me.arrival b = some x.phase ∧
            (u.myCell.bar b).arrivals = x.arrivals + 1 ∧ (u.myCell.bar b).phase = x.phase ∧
            (∀ j, j ≠ b → u.myCell.bar j = s.myCell.bar j ∧ u.me.arrival j = s.me.arrival j) ∧
            u.me = { s.me with r := { s.me.r with arrs := u.me.r.arrs, pc := u.me.r.pc, pastEnd := u.me.r.pastEnd }
                               journal := s.me.journal ++ [.arrival b x.phase]
                               lastPc := s.me.r.pc, ran := s.me.ran + 1, wait := none }) ∧
        (x.arrivals + 1 = x.parties →
          ∃ u, exec (.bara h bar ord) s = .next ((u.setMe (u.me.past n)).commit u.cur 1) ∧
            OnlyCell (s.settleNear s.cur []) u ∧ u.me.arrival b = some x.phase ∧ (u.myCell.bar b).arrivals = 0 ∧ (u.myCell.bar b).phase = x.phase + 1 ∧
            ∀ j, j ≠ b → u.myCell.bar j = s.myCell.bar j ∧ u.me.arrival j = s.me.arrival j))) ∧
    (ord.scope ≠ .cell →
      let c := s.commitBefore
      let y := c.myCell.bar b
      s.me.commitWaits = false → c.me.r.live ≠ 0 → c.me.guard h = true → c.me.acquiring = false → y.parties ≠ 0 →
      (c.me.arrival b = some y.phase → Traps c (exec (.bara h bar ord) s) causeBarrierOverrun) ∧
      (c.me.arrival b ≠ some y.phase → c.me.fits 16 0 = true →
      CompletesBoundary n (exec (.bara h bar ord) s) fun u => OnlyIssuer c u ∧ u.me.arrival b = some y.phase ∧
        ∃ sd, u.me.held = c.me.held ++ [sd] ∧ sd.rel = (if ord.rel then some ord.scope else none) ∧
          sd.body = .arrive b (BitVec.ofNat 64 (y.span * 2 ^ 32 + y.parties.toNat))))

/-- R214, R273: BARW of a phase that has completed passes, and of one that has not waits; BART writes whether it has, and never waits. The
phase is that of the arrival record, and without a record BARW waits for the next completion and BART writes false. One that passes comes behind
the queued stores of its context. -/
def Obligations.BarrierWaits : Prop :=
  ∀ (h : Head) (bar : BitVec 6) (ord : Order) (pd : PReg) (s : State), s.me.guard h = true → s.me.acquiring = false →
    BarrierOk s bar.toNat ord.scope →
    let b := bar.toNat
    let n := lenOf h false
    let phase := (s.myCell.bar b).phase
    let done := (s.me.arrival b).any fun p => p != phase
    (s.me.wait = none →
      if done then Completes (s.settleNear s.cur []) n (exec (.barw h bar ord) s) fun y => AcquiresOnly s.me y []
      else Waits s (exec (.barw h bar ord) s) (.barrier b phase)) ∧
    (∀ p, s.me.wait = some (.barrier b p) →
      if phase ≠ p then Completes (s.settleNear s.cur []) n (exec (.barw h bar ord) s) fun y => AcquiresOnly s.me y []
      else Waits s (exec (.barw h bar ord) s) (.barrier b p)) ∧
    Completes (s.settleNear s.cur []) n (exec (.bart h bar ord pd) s) fun y => AcquiresOnly s.me y [pd.toNat] ∧
      (pd ≠ 7 → y.k pd.toNat = done)

/-- R42, R67, R215 to R217, R229, R232: GANG, MMA and ONCE commit, present their join on the wire of their quadrille or cluster, and
wait for its match. An MMA waits first while another MMA of its cell has not retired. A ONCE whose following instruction may not follow
it traps. -/
def Obligations.JoinsPresent : Prop :=
  ∀ (h : Head) (s0 : State),
    let s := s0.commitBefore
    let row : Wire := .row (rowOf s.cur.cell)
    s0.me.commitWaits = false → s.me.r.live ≠ 0 →
    (s.me.guard h = true →
      (∀ sc, Presents s (exec (.gang h sc) s0) .gang (if sc = .cluster then .cluster (s.cur.cell / 16) else row) (lenOf h false)) ∧
      ∀ (ta : Ty) (tb : BitVec 2) (acc : AReg) (tda tdb : BitVec 6),
        let o := exec (.mma h ta tb acc tda tdb) s0
        s.me.acquiring = false →
        (s.myCell.mma = none → (s.myCell.rowJoins.any fun j => j.isMma none) = false →
          Presents (s.settle s.cur.cell) o (.mma { ta, tb, acc, tda, tdb }) row (lenOf h false)) ∧
        (s.myCell.mma ≠ none → Waits s o .mmaTurn)) ∧
    ∀ cl : Bool, match s0.follower s0.cur with
      | .inl f => Presents s (exec (.once cl) s0) .once (if cl then .cluster (s.cur.cell / 16) else row) (1 + f.2)
      | .inr cause => cause ≠ causePartitionViolation → Traps s0 (exec (.once cl) s0) cause

/-- R218, R219: STEP of a good id writes it into every live lane and holds its registration, with the handler place of class 0 and the
job of the lowest live lane; STEPEND clears the steps and holds one retirement for each distinct id.
R220, R221: SLACK writes the slack that the governor holds for the step of the lowest live lane, and the largest number for no step.
SLEEPT of a time that has come passes, of one to come waits; with a promised transfer of the activation that is late it traps. -/
def Obligations.StepsAndTime : Prop :=
  (∀ (h : Head) (ra : Reg) (b : SrcB) (c : Reg) (s : State), s.me.guard h = true →
    let x := s.me
    let id := x.s ra.toNat
    (x.r.live ≠ 0 →
      (id ≠ 0 → id.toNat < 2 ^ 32 → (∀ L ∈ lanes x.r.live, x.step L = 0) → s.myCell.hasHandler 0 = true → x.fits 16 0 = true →
        ∃ u, exec (.step h ra b c) s = .next u ∧ OnlyIssuer s u ∧
          Holds { x with r := { x.r with steps := u.me.r.steps } } u.me (lenOf h (litB b))
            [.stepReg (id.extractLsb' 0 32) (x.scalarB b) (x.s c.toNat) ((s.myCell.handler 0).extractLsb' 0 28) (x.hdr x.low).job] ∧
          ∀ L ∈ lanes x.r.live, u.me.step L = id.extractLsb' 0 32) ∧
      (id = 0 ∨ 2 ^ 32 ≤ id.toNat ∨ (∃ L ∈ lanes x.r.live, x.step L ≠ 0) → Traps s (exec (.step h ra b c) s) causeStepNesting)) ∧
    let ids := (((lanes x.r.live).map x.step).filter (· != 0)).eraseDups
    (ids = [] → Traps s (exec (.stepend h) s) causeStepNesting) ∧
    (ids ≠ [] → x.fits (16 * ids.length) 0 = true →
      ∃ u, exec (.stepend h) s = .next u ∧ OnlyIssuer s u ∧
        Holds { x with r := { x.r with steps := u.me.r.steps } } u.me (lenOf h false) (ids.map SendBody.stepEnd) ∧
        ∀ L, u.me.step L = 0)) ∧
  (∀ (h : Head) (d ra : Reg) (s : State), s.me.guard h = true →
    let x := s.me
    let n := lenOf h false
    let id := x.step x.low
    let t := x.s ra.toNat
    (Completes s n (exec (.slack h d) s) fun y => RegsOnly x y [] [d.toNat] [] [] ∧
      (d ≠ 0 → (id = 0 → y.s d.toNat = 0x7FFFFFFFFFFFFFFF) ∧
        ∀ e, (s.part (s.partNo s.cur.cell)).gov.steps.find? (fun e => e.id == id && !e.ended) = some e → id ≠ 0 →
          y.s d.toNat = BitVec.ofInt 64 e.slack)) ∧
    (s.tbc < t.toNat → Waits s (exec (.sleept h ra) s) (.sleep t n)) ∧
    (t.toNat ≤ s.tbc → s.missedPromise s.cur t = none →
      Completes s n (exec (.sleept h ra) s) fun y => RegsOnly x y [] [] [] []) ∧
    ∀ slot, t.toNat ≤ s.tbc → s.missedPromise s.cur t = some slot →
      exec (.sleept h ra) s = .next (s.takeTrap s.cur { cause := causeTwPromise, xid := (s.myCell.xfer slot).idOf slot }))

/-- R228, R229: TDSET writes one doubleword of a descriptor and journals the old one; TDGET reads one; ACCZ clears an accumulator and its
tag, and waits while an MMA of the cell that has not retired targets it. Nothing else changes. -/
def Obligations.DescriptorsAndAccumulators : Prop :=
  ∀ (h : Head) (w : BitVec 2) (td : BitVec 6) (r : Reg) (acc : AReg) (s : State), s.me.guard h = true →
    let n := lenOf h false
    let k := 4 * td.toNat + w.toNat
    (s.me.fits 0 1 = true →
      ∃ u, exec (.tdset h w td r) s = .next u ∧ OnlyCell s u ∧
        u.me = ({ s.me with journal := s.me.journal ++ [.desc k (tget 0 s.myCell.td k)] } : Ctx).past n ∧
        u.myCell = { s.myCell.setCtx s.cur.ctx u.me with td := u.myCell.td } ∧
        ∀ j, tget 0 u.myCell.td j = if j = k then s.me.s r.toNat else tget 0 s.myCell.td j) ∧
    (Completes s n (exec (.tdget h w td r) s) fun y => RegsOnly s.me y [] [r.toNat] [] [] ∧
      y.s r.toNat = if r = 0 then 0 else tget 0 s.myCell.td k) ∧
    (s.myCell.accBusy acc.toNat = true → Waits s (exec (.accz h acc) s) (.accBusy acc.toNat)) ∧
    (s.myCell.accBusy acc.toNat = false →
      ∃ u, exec (.accz h acc) s = .next u ∧ OnlyCell s u ∧ RegsOnly s.me u.me [] [] [] [] ∧ Past s.me u.me n ∧
        u.myCell = { s.myCell.setCtx s.cur.ctx u.me with accs := u.myCell.accs } ∧
        ∀ j, u.myCell.acc j = if j = acc.toNat then { tag := .none, elems := [] } else s.myCell.acc j)

/-- R230: ACCLD copies 1,024 aligned words of the scratchpad into an accumulator and sets its tag; ACCST writes its elements converted to
the stored type, raising their exceptions together, journals the words that it overwrites, and leaves every other byte. -/
def Obligations.AccumulatorTransfers : Prop :=
  ∀ (h : Head) (t : Ty) (acc : AReg) (ra : Reg) (s : State), s.me.guard h = true → s.me.acquiring = false →
    s.me.ownPending s.cur.cell = false → s.myCell.accBusy acc.toNat = false →
    let n := lenOf h false
    let ea := s.me.s ra.toNat
    (s.localOffset ea 4096 ≠ none → ea.toNat % 4 = 0 →
      ∃ u, exec (.accld h t acc ra) s = .next u ∧ (∀ a, byteOf u a = byteOf s a) ∧ RegsOnly s.me u.me [] [] [] [] ∧ Past s.me u.me n ∧
        (u.myCell.acc acc.toNat).tag = (if t = .f then .f else .s32) ∧
        (∀ i < 1024, tget 0 (u.myCell.acc acc.toNat).elems i = BitVec.ofNat 32 (scratchOf s (offsetOf s ea 4096 + 4 * i) 4)) ∧
        ∀ j, j ≠ acc.toNat → u.myCell.acc j = s.myCell.acc j) ∧
    ∀ (rnd : Rnd) (sat : Bool),
      let z := if t = .f ∨ t = .s32 then 4 else 2
      let a := s.myCell.acc acc.toNat
      let r := fun i => accConv a.tag t (modeOf s.me rnd) sat (tget 0 a.elems i)
      let fl : Fl := (List.range 1024).foldl (fun fl i => fl ||| (r i).fl) 0
      let off := offsetOf s ea (1024 * z)
      let words := (List.range ((off + 1024 * z + 7) / 8 - off / 8)).map fun i => off / 8 * 8 + 8 * i
      s.localOffset ea (1024 * z) ≠ none → ea.toNat % z = 0 →
      if enabledOf s.me fl = 0 then
        s.me.fits 0 (words.filter fun w => !s.me.journalled w).length = true →
        ∃ u, exec (.accst h t rnd sat acc ra) s = .next u ∧ OnlyIssuerAndMemory s u ∧
          RegsOnly { s.me with fpflags := s.me.fpflags ||| fl, journal := u.me.journal } u.me [] [] [] [] ∧ Past s.me u.me n ∧
          (∀ i < 1024, scratchOf u (off + z * i) z = (r i).bits % 256 ^ z) ∧ (∀ w ∈ words, u.me.journalled w = true) ∧
          ∀ b, b < cellKey s.cur.cell off ∨ cellKey s.cur.cell off + 1024 * z ≤ b → byteOf u b = byteOf s b
      else Traps s (exec (.accst h t rnd sat acc ra) s) (floatCause (enabledOf s.me fl))

/-- R42, R238 to R242: TWSET writes a shadow field. A TWGO that passes its checks, with a slot free and its releases performed, starts the
transfer of the shadow fields in the next free slot of its round and writes its id; one that resubmits a faulted transfer restarts it and writes the
same id. With no free slot it waits. Which slot a TWGO takes is the model's choice, log entry 63: R240 names none. -/
def Obligations.TransfersStart : Prop :=
  ∀ (h : Head) (f : PReg) (ra : Reg) (ord : Order) (d : Reg) (s0 : State),
    (s0.me.guard h = true → Completes s0 (lenOf h false) (exec (.twset h f ra) s0) fun y =>
      RegsOnly { s0.me with tw := y.tw } y [] [] [] [] ∧
      ∀ j, y.shadow j = if j = f.toNat then s0.me.s ra.toNat else s0.me.shadow j) ∧
    let s := s0.commitBefore
    let x := s.me
    let ctl := x.shadow 6
    let rid := x.shadow 7
    let o := exec (.twgo h ord d) s0
    s0.me.commitWaits = false → x.r.live ≠ 0 → x.guard h = true → x.acquiring = false → ctl.extractLsb' 3 61 = 0 → rid.extractLsb' 16 48 = 0 →
    (ctl.getLsbD 2 = false → rid = 0 → s.twDescBad x.transfer (x.shadow 2) = false →
      (∀ r ∈ x.transfer.checkRows, rowForeign (s.partAt s.cur.cell).cellCount r.1 = false ∧ rowOut x.transfer.rowBytes r.1 r.2 = false) →
      (s.myCell.freeSlot = none → Waits s o .slot) ∧
      ∀ slot, s.myCell.freeSlot = some slot → (ord.rel = true → s.relClear s.cur ord.scope = true) →
        CompletesBoundary (lenOf h false) o fun u =>
          let y := u.myCell.xfer slot
          RegsOnly x (u.me.past 0) [] [d.toNat] [] [] ∧
          (d ≠ 0 → u.me.s d.toNat = (y.idOf slot).setWidth 64) ∧ y.busy = true ∧ y.state = 0 ∧
          y.uses = (s.myCell.xfer slot).uses + 1 ∧ y.src = x.shadow 0 ∧ y.dst = x.shadow 1 ∧
          y.rows = ((x.shadow 2).extractLsb' 32 16).toNat ∧ y.rowBytes = ((x.shadow 2).extractLsb' 0 24).toNat ∧
          y.sstride = x.shadow 3 ∧ y.dstride = x.shadow 4 ∧ y.notify = x.shadow 5 ∧ y.zero = ctl.getLsbD 0 ∧ y.done = [] ∧
          (ctl.getLsbD 1 = true → y.promise = 0xFFFFFFFFFFFFFFFF) ∧ y.rel = ord.rel ∧ y.scope = ord.scope ∧ y.starter = s.cur) ∧
    (ctl.getLsbD 2 = true → ∀ y, s.myCell.live? (rid.extractLsb' 0 16) = some y → y.state = 2 →
      (ord.rel = true → s.relClear s.cur ord.scope = true) →
      CompletesBoundary (lenOf h false) o fun u =>
        let z := u.myCell.xfer (rid.toNat % 16)
        (d ≠ 0 → u.me.s d.toNat = rid) ∧ z.busy = true ∧ z.state ≠ 2 ∧ z.uses = y.uses ∧ z.done = y.done ∧ z.src = y.src ∧ z.dst = y.dst)

/-- R240, R243, R244: TWMAP reads a word of a transfer's map, TWTEST the bit of a chunk, and TWWAIT waits for a bit or for all of them. A
retired id reads as complete; a chunk or an index that the rules do not allow traps with TW_DESCRIPTOR. TWTEST never waits, and a TWWAIT.ACQ waits
for an earlier acquire first. -/
def Obligations.TransferState : Prop :=
  ∀ (h : Head) (d : Reg) (pd : PReg) (all : Bool) (ord : Order) (ra : Reg) (b : SrcB) (s : State), s.me.guard h = true →
    let held := ord.acq = true ∧ s.me.acquiring = true
    let n := lenOf h (litB b)
    let v := s.me.s ra.toNat
    let j := (s.me.scalarB b).toNat
    let id := v.extractLsb' 0 16
    let live := if v.toNat < 65536 then s.myCell.live? id else none
    let mapped := fun (w : W64) => Completes s n (exec (.twmap h d ra b) s) fun y => RegsOnly s.me y [] [d.toNat] [] [] ∧
      y.s d.toNat = if d = 0 then 0 else w
    let tested := fun (bit : Bool) => Completes s n (exec (.twtest h ord pd ra b) s) fun y =>
      AcquiresOnly s.me y [pd.toNat] ∧ (pd ≠ 7 → y.k pd.toNat = bit)
    let passed := ¬ held → Completes s n (exec (.twwait h all ord ra b) s) fun y => AcquiresOnly s.me y []
    (held → Waits s (exec (.twwait h all ord ra b) s) .acquire) ∧
    (68 ≤ j → Traps s (exec (.twmap h d ra b) s) causeTwDescriptor) ∧
    match live with
    | none =>
      (j < 68 → mapped (if j < 64 then 0xFFFFFFFFFFFFFFFF else if j = 64 then BitVec.ofNat 64 (id.toNat * 2 ^ 48 + 4) else 0)) ∧
      tested true ∧ passed
    | some x =>
      (j = 64 → mapped (BitVec.ofNat 64 (id.toNat * 2 ^ 48 + x.chunks * 2 ^ 32 + x.complete * 2 ^ 16 + x.state))) ∧
      (j = 65 → mapped x.promise) ∧
      (j = 66 → mapped (if x.state = 2 then x.faultAddr else 0)) ∧
      (j = 67 → mapped (if x.state = 2 then x.faultCause.setWidth 64 else 0)) ∧
      (j < 64 → ∃ w : W64, mapped w ∧ ∀ k < 64, w.getLsbD k = (decide (64 * j + k < x.chunks) && x.bit (64 * j + k))) ∧
      (j < x.chunks → tested (x.bit j)) ∧
      (x.chunks ≤ j → Traps s (exec (.twtest h ord pd ra b) s) causeTwDescriptor) ∧
      (if (if all then x.complete = x.chunks else j < x.chunks ∧ x.bit j = true) then passed
       else ¬ held → all = true ∨ j < x.chunks →
         Waits s (exec (.twwait h all ord ra b) s) (.chunk id (if all then none else some j)))

/-- R20, R102, R145, R176, R222, R223: NOP changes nothing. MFS of a register that is not per lane writes it into a scalar register when a lane
is active; TBC within 2 of the timebase and never less than the context has read. MTS writes FPCTL, FPFLAGS, QCFG (whose upper half is
cleared by ones) or INBOXCFG. PHYS and INBOXCFG trap with PRIVILEGED in unprivileged code. What TBC reads, within 2 of the timebase, is the model's
reading of R20, log entry 22. -/
def Obligations.SystemRegisters : Prop :=
  ∀ (h : Head) (n : BitVec 6) (d ra : Reg) (s : State),
    let len := lenOf h false
    let x := s.me
    let mfs := exec (.mfs h n d) s
    let mts := exec (.mts h n ra) s
    let v := x.s ra.toNat
    (Completes s len (exec (.nop h) s) fun y => RegsOnly x y [] [] [] []) ∧
    ((n = 0x04 ∨ n = 0x16) ∧ x.priv = false → Traps s mfs causePrivileged ∧ Traps s mts causePrivileged) ∧
    (¬ ((n = 0x04 ∨ n = 0x16) ∧ x.priv = false) →
      (n ≠ 0x00 → n ≠ 0x08 → n ≠ 0x14 →
        (x.active h = 0 → Completes s len mfs fun y => RegsOnly x y [] [] [] []) ∧
        (x.active h ≠ 0 → n ≠ 0x0B → Completes s len mfs fun y => RegsOnly x y [] [d.toNat] [] [] ∧
          y.s d.toNat = if d = 0 then 0 else systemRegister s n) ∧
        (x.active h ≠ 0 → n = 0x0B → ∃ t, s.tbc ≤ t ∧ x.lastTbc ≤ t ∧ (x.lastTbc ≤ s.tbc + 2 → t ≤ s.tbc + 2) ∧
          Completes s len mfs fun y => RegsOnly { x with lastTbc := t } y [] [d.toNat] [] [] ∧
            y.s d.toNat = if d = 0 then 0 else BitVec.ofNat 64 t)) ∧
      (x.guard h = false → Completes s len mts fun y => RegsOnly x y [] [] [] []) ∧
      (x.guard h = true →
        (n = 0x0D → Completes s len mts fun y => RegsOnly { x with fpctl := v.extractLsb' 0 8 } y [] [] [] []) ∧
        (n = 0x0E → Completes s len mts fun y => RegsOnly { x with fpflags := v.extractLsb' 0 6 } y [] [] [] []) ∧
        (n = 0x15 → Completes s len mts fun y => RegsOnly { x with qcfg := y.qcfg } y [] [] [] [] ∧
          ∀ k < 16, y.qcfg.getLsbD k = if k < 8 then v.getLsbD k else x.qcfg.getLsbD k && !v.getLsbD k) ∧
        (n = 0x16 → ∃ u, mts = .next u ∧ OnlyCell s u ∧ RegsOnly x u.me [] [] [] [] ∧ Past x u.me len ∧
          u.myCell = { s.myCell.setCtx s.cur.ctx u.me with inboxCfg := v.extractLsb' 0 8 })))

/-- R40, R42, R45, R52, R222, R402: CKPT commits with the program counter at the next word. SVC commits, sends its request with s1 to s6 to
the cluster's millwright and blocks; SVC_VERSION and the other service steps answer. With a false guard CKPT does nothing, and SVC only
commits.
R222, R439: TRAP and BRK take their trap, with the code as its address, and with a false guard do nothing. Where the host has armed
debug, BRK halts the cell instead, with the context at the next word. -/
def Obligations.BoundariesAndTraps : Prop :=
  (∀ (h : Head) (n : W32) (s : State),
    let len := lenOf h false
    (s.me.guard h = true → s.me.commitWaits = false → exec (.ckpt h) s = .next ((s.setMe (s.me.past len)).commit s.cur 0)) ∧
    (s.me.guard h = false → Completes s len (exec (.ckpt h) s) fun y => RegsOnly s.me y [] [] [] []) ∧
    let c := s.commitBefore
    s.me.commitWaits = false → c.me.r.live ≠ 0 →
    (c.me.guard h = true → exec (.svc h n) s = .next ((c.post
      { vn := .system, src := .cell c.cur.cell, dst := .millwright (c.cur.cell / 16)
        body := .svc c.cur n [c.me.s 1, c.me.s 2, c.me.s 3, c.me.s 4, c.me.s 5, c.me.s 6] }).setMe { c.me with wait := some (.svc len) })) ∧
    (c.me.guard h = false → CompletesBoundary len (exec (.svc h n) s) fun u => u = c)) ∧
  (∀ (h : Head) (code : W32) (s : State),
    (s.me.guard h = true →
      exec (.trap h code) s = .next (s.takeTrap s.cur { cause := causeSoftwareTrap, addr := some (code.setWidth 64) }) ∧
      ((s.partAt s.cur.cell).armed = false →
        exec (.brk h code) s = .next (s.takeTrap s.cur { cause := causeDebugBreak, addr := some (code.setWidth 64) })) ∧
      ((s.partAt s.cur.cell).armed = true →
        ∃ u, exec (.brk h code) s = .next u ∧ OnlyCell s u ∧ RegsOnly s.me u.me [] [] [] [] ∧ Past s.me u.me (lenOf h false) ∧
          u.myCell = { s.myCell.setCtx s.cur.ctx u.me with halted := true })) ∧
    (s.me.guard h = false →
      (Completes s (lenOf h false) (exec (.trap h code) s) fun y => RegsOnly s.me y [] [] [] []) ∧
      Completes s (lenOf h false) (exec (.brk h code) s) fun y => RegsOnly s.me y [] [] [] []))

end Statements3

namespace Sys2Proof.Claims
open Sys2Proof.Machine

/-! ### The steps of the device -/

/-- Message i of the network may be delivered, and goes from src to dst with a body, to a target that does not refuse it. -/
def Arrives (s : State) (i : Nat) (src dst : Endp) (b : Body) : Prop :=
  s.deliverable i = true ∧ ∃ vn, s.net[i]? = some { vn, src, dst, body := b } ∧ s.refuses { vn, src, dst, body := b } = false

/-- The same of a message that its target, a cell that is switched out, refuses (R342). -/
def TurnedAway (s : State) (i : Nat) (src dst : Endp) (b : Body) : Prop :=
  s.deliverable i = true ∧ ∃ vn, s.net[i]? = some { vn, src, dst, body := b } ∧ s.refuses { vn, src, dst, body := b } = true

/-- A step happens, and leaves a state with a property. -/
def Happens (o : Out) (P : State → Prop) : Prop := ∃ t, o = .next t ∧ P t

/-- From u to t one fault record has been sent, with a cause, and what is said of it holds (R417, R418). -/
def Reports (u t : State) (cause : BitVec 7) (P : Frec → Prop) : Prop :=
  ∃ (r : Frec) (d : W64) (src dst : Endp),
    t.net = u.net ++ [{ vn := .system, src, dst, body := .parcel (.record r d) }] ∧ r.cause = cause ∧ P r

/-- A node of a replay has completed and has selected nodes (R302), where no running LOOP has it as LAST: each node selected has one more
arrival, and one that has reached its NPRED, is no BODY, and neither runs nor has yet to start, may start; no other node has changed. A number that
names no node selects none. -/
def Selects (r r' : Replay) (node : Nat) (l : List Nat) : Prop :=
  (∀ (m : Nat) (z : Node), r.nodes[m]? = some z → z.kind = 3 → z.last = node → r.node m ≠ .running) → r.nodes.length < 0xFFFF →
  r'.nodes = r.nodes ∧ r'.templates = r.templates ∧ r'.faulted = r.faulted ∧
  (node ∉ l → node ∉ r.again → r'.node node = .done) ∧
  ∀ (j : Nat) (y : Node), r.nodes[j]? = some y → tget 0 r'.arrivals j = tget 0 r.arrivals j + (if j ∈ l then 1 else 0) ∧
    (j ≠ node → r'.node j =
      if j ∈ l ∧ tget 0 r.arrivals j + 1 = y.npred ∧ r.isBody j = false ∧ (r.node j = .idle ∨ r.node j = .done) then .waiting else r.node j)

/-- Nothing has changed from s to t outside cell n, and memory is as it was; the messages of the network apart. -/
def InCell (s t : State) (n : Nat) : Prop := t.mem = s.mem ∧ ∀ k, k ≠ n → t.cell k = s.cell k

/-- An arrival stands in a cell's inbox: in its tailrace, its bin, its overflow list, or with a reservation (R36, R316, R340). -/
def InInbox (c : Cell) (a : Arrival) : Prop :=
  a ∈ c.tail ∨ (∃ b ∈ c.bins, b.entry = plEntry a.place ∧ a ∈ b.msgs) ∨ (plEntry a.place, a) ∈ c.overflow ∨
  ∃ r ∈ c.reservs, r.entry = plEntry a.place ∧ a ∈ r.waiting

/-- A lane of a context holds an arrival of its set: a strand's header and carried registers (R34), or what a message (R206) or a record (R419)
puts there; its other registers are zero. -/
def Lands (x : Ctx) (L : Nat) (a : Arrival) : Prop :=
  let h := x.hdr L
  match a.parcel with
  | .strand m => h.wid = m.wid ∧ x.step L = m.step ∧ h.job = m.job ∧ h.widw = m.widw ∧ h.rets = m.rets ∧
      ∀ r < 32, x.vl r L = if m.live.getLsbD r then m.vals.getD (popCount (m.live &&& lowMask r)) 0 else 0
  | .msg m => h.wid = m.wid ∧ x.step L = m.step ∧ h.job = m.job ∧ h.rets = [] ∧
      ∀ r < 32, x.vl r L = if r < 2 then m.payload.extractLsb' (32 * r) 32 else if r = 2 then m.origin.setWidth 32
        else if r = 3 then m.cls.setWidth 32 else 0
  | .record f _ => h.wid = f.wid ∧ x.step L = f.step ∧ h.job = f.job ∧ h.rets = [] ∧
      ∀ r < 32, x.vl r L = if r < 16 then (f.words.getD (r / 2) 0).extractLsb' (32 * (r % 2)) 32 else 0

/-- A context has begun an activation of a set (R11, R34, R39): lanes 0 to n - 1 with their arrivals, at the entry, with empty stacks, zero
scalars, no predicate true and nothing in its queues. -/
def Begun (x : Ctx) (l : List Arrival) : Prop :=
  x.status = .running ∧ x.setSize = l.length ∧ x.r.live = lowMask l.length ∧ x.r.cm = lowMask l.length ∧ x.trigger = l ∧
  x.first = true ∧ x.r.pc = plEntry ((l.head?.map (·.place)).getD 0) ∧ x.r.masks = [] ∧ x.r.loops = [] ∧ (∀ r, x.s r = 0) ∧
  x.wait = none ∧ x.held = [] ∧ x.journal = [] ∧ x.r.binds = [] ∧ x.fpctl = 0 ∧ x.fpflags = 0 ∧ (∀ r < 7, x.p r = 0 ∧ x.k r = false) ∧
  (∀ q < 8, (x.queue q).entries = []) ∧ ∀ L < 32, ∀ a, l[L]? = some a → Lands x L a

end Sys2Proof.Claims

section Statements4
open Sys2Proof Sys2Proof.Machine Sys2Proof.Claims

/-- R11, R32, R34, R36, R37, R86, R171, R182, R246, R340, R342, R425, R426: the steps of the inbox, of the bank write queue and of a
switched-out cell happen in the states named, and do what is said. A set that forms puts each arrival into its lane: header, step and carried
registers, the other registers zero. -/
def Obligations.ArrivalSteps : Prop :=
  ∀ (s : State) (i n : Nat) (src : Endp),
    let u := s.take i
    let c := s.cell n
    (∀ p : Parcel, Arrives s i src (.cell n) (.parcel p) → p.special = false → c.canAccept p = true →
      Happens (exec (.inboxArrival i) s) fun t => (∀ k, k ≠ n → t.cell k = s.cell k) ∧ (t.cell n).msgId = c.msgId + 1 ∧
        ((p.onStrandNet && c.mustSpill p) = false → t.mem = s.mem) ∧
        ((∀ m, p = .msg m → c.hasHandler m.cls.toNat = true) → (∀ m, p = .strand m → c.dropping.contains m.job = false) →
          t.net = u.net ∧ InInbox (t.cell n) { id := c.msgId, place := c.placeFor p, parcel := p, cyc := c.cyc, seq := c.accepted }) ∧
        (t.cell n).accepted = c.accepted + 1) ∧
    (∀ (k : Nat) (b : Bin), s.sample n = some (.bin k b) → Happens (exec (.setFormation n) s) fun t =>
      Begun (t.ctx ⟨n, k⟩) (b.msgs.take 32) ∧ (∀ j, j ≠ k → t.ctx ⟨n, j⟩ = s.ctx ⟨n, j⟩) ∧
      (∃ b' ∈ (t.cell n).bins, b'.entry = b.entry ∧ b'.msgs = b.msgs.drop 32) ∧
      (c.trace.bytes = 0 → t.net = s.net)) ∧
    (∀ (j k : Nat) (r : Reserv), s.sample n = some (.group j k r) → Happens (exec (.setFormation n) s) fun t =>
      Begun (t.ctx ⟨n, k⟩) (r.waiting.take (min r.strands r.size)) ∧ (t.ctx ⟨n, k⟩).cores = true ∧
      (c.trace.bytes = 0 → t.net = s.net)) ∧
    (∀ (e : PC) (b : Bin) (a : Arrival), c.bin? e = some b → c.binOpen b = true → b.due = false → b.msgs.head? = some a →
      (c.entryRec b.entry).gather.toNat ≤ c.cyc - a.cyc →
      exec (.gatherWindowExpiry n e) s = .next (s.setCell n (c.setBin { b with due := true }))) ∧
    (c.out = false → 2 * c.occupancy < c.threshold → refillCount (c.threshold - c.occupancy) c.tail ≠ 0 → s.refilling n = false →
      let home := Endp.home ((s.partAt n).blockAt (c.tailChain.blocks.headD 0) 0 / 2 ^ 32)
      s.barred n home = false → exec (.inboxRefill n) s = .next (s.post
        { vn := .response, src := home, dst := .cell n
          body := .tailRead none [] [] (c.tail.take (refillCount (c.threshold - c.occupancy) c.tail)) })) ∧
    (∀ p : Smsg, Arrives s i src (.cell n) (.parcel (.msg p)) → p.cls = 6 → c.canAccept (.msg p) = true →
      Happens (exec (.startMessage i) s) fun t => InCell s t n ∧ (∀ r ∈ (t.cell n).entries, r.hold = false) ∧
        t.net = u.net ++ [{ vn := .response, src := .cell n, dst := src, body := .startAck (p.payload.extractLsb' 32 32) n }]) ∧
    (∀ (b : BankWrite) (bs : List BankWrite), c.bankQ = b :: bs →
      exec (.bankWrite n) s = .next ({ s.setCell n { c with bankQ := bs } with
        mem := writeLE s.mem (cellKey n b.off) b.size b.data.toNat } : State)) ∧
    (∀ b : Body, TurnedAway s i src (.cell n) b → b.engineWord? = none →
      Happens (exec (.sendRefused i) s) fun t => InCell s t n ∧ t.net = u.net ∧
        (∃ vn, t.refused = s.refused ++ [({ vn, src, dst := .cell n, body := b }, s.tbc)]) ∧
        (src ∈ (t.cell n).refusals.listed ∨ (t.cell n).refusals.overflow = true)) ∧
    (∀ (k slot : Nat) (a : Access) (word : Nat), TurnedAway s i (.cell k) (.cell n) (.access a) → a.op = .engineWrite slot word →
      ((s.cell k).xfer slot).busy = true → ((s.cell k).xfer slot).state = 0 →
      Happens (exec (.twWriteRefused i) s) fun t => t.mem = s.mem ∧ t.net = u.net ∧
        let y := (t.cell k).xfer slot
        y.busy = true ∧ y.state = 1 ∧ y.kept = some (.cell n, a) ∧ y.todo = ((s.cell k).xfer slot).todo) ∧
    (∀ (dst : Endp), Arrives s i src dst (.resume n) → Happens (exec (.resumeNotification i) s) fun t => t.mem = s.mem ∧
      (∀ y ∈ t.refused, ¬ (y.1.src = dst ∧ y.1.dst = .cell n)) ∧
      ∀ y ∈ s.refused, if y.1.src = dst ∧ y.1.dst = .cell n then y.1 ∈ t.net else y ∈ t.refused) ∧
    ∀ target : Nat, s.targetOut n target = true → Happens (exec (.targetSwitchedOut n target) s) fun t =>
      t.mem = s.mem ∧ t.cells = s.cells ∧ t.refused = s.refused ∧ Reports s t causeTargetSwitchedOut fun r =>
        r.tbc = BitVec.ofNat 64 s.tbc ∧ r.addr = BitVec.ofNat 64 ((s.part (s.partNo target)).rel target)

/-- R172, R175, R180, R183, R195, R270, R276, R288, R390, R391, R400, R431: the steps of the homes and of the responses happen in the states
named, and do what is said. A response goes to the cell, or to the peer (R457), that has made the request. A read and an atomic come behind the
stores that their context had queued by then (R273), and an atomic behind the queued ATOMs of its word (R192); the acknowledgement of its write goes
ahead of the old value (R195). What a load writes into a cell's tables is performed at the cell (R84). -/
def Obligations.HomeSteps : Prop :=
  ∀ (s : State) (i : Nat) (src dst : Endp) (a : Access),
    let u := s.take i
    let behind := if a.op = .write then s else s.settleAsker a
    let w := behind.settleWord dst a
    let reply := fun (b : Body) => ({ vn := .response, src := dst, dst := a.asker.getD (.cell a.who.cell), body := b } : Msg)
    (Arrives s i src dst (.access a) → ((∀ d, dst ≠ .peer d) ∨ ∃ d, dst = .peer d ∧ s.portDown d = true) →
      (∃ t, exec (.homeAccess i) s = .next t) ∧
      ((∀ e, a.asker = some e → ∃ d, e = .peer d) →
      (∀ c, a.gone = some c → a.op = .read ∨ a.op = .write → Happens (exec (.homeAccess i) s) fun t => t.mem = behind.mem ∧
        ∃ b, t.net = u.net ++ [reply b] ∧ (b = .writeAck a (some c) ∨ ∃ d, b = .readReply a 0 (some c) d)) ∧
      (a.gone = none → s.homeOwned dst a.key a.part = false → a.op = .read ∨ a.op = .write →
        Happens (exec (.homeAccess i) s) fun t =>
        t.mem = behind.mem ∧ (∃ v, t.violations.getLast? = some v ∧ v.addr = a.ea ∧ v.part = a.part) ∧
        (∃ r d e, ({ vn := .system, src := dst, dst := e, body := .parcel (.record r d) } : Msg) ∈ t.net ∧
          r.cause = causePartitionViolation) ∧
        ∃ b, t.net.getLast? = some (reply b) ∧ (b = .writeAck a (some causePartitionViolation) ∨
          ∃ d, b = .readReply a 0 (some causePartitionViolation) d)) ∧
      ((∀ d, dst ≠ .peer d) → a.gone = none → s.homeOwned dst a.key a.part = true →
        (a.op = .read → s.poison dst a.key = none → Happens (exec (.homeAccess i) s) fun t => t.mem = behind.mem ∧
          ∃ deps, t.net = u.net ++ [reply (.readReply a (behind.homeRead dst a.key a.size) none deps)]) ∧
        (a.op = .write → Happens (exec (.homeAccess i) s) fun t => t.net = u.net ++ [reply (.writeAck a none)] ∧
          t.mem = (s.homeWrite dst a.key a.size a.data).mem) ∧
        (∀ op t', a.op = .atomic op t' → s.poison dst a.key = none → Happens (exec (.homeAccess i) s) fun t =>
          t.mem = (w.homeWrite dst a.key a.size
            (atomicValue op t' (w.homeRead dst a.key a.size) a.data a.cmp)).mem ∧
          ∃ deps, t.net = u.net ++
            (if a.asker = none then [reply (.writeAck a none)] else []) ++ [reply (.readReply a (w.homeRead dst a.key a.size) none deps)])))) ∧
    (∀ (n key : Nat) (b : List Byte), Arrives s i src (.cell n) (.codeWrite key b) → Happens (exec (.homeAccess i) s) fun t =>
      t.mem = writeBytes (s.settleAtoms n (key % 2 ^ 20) b.length).mem key b ∧ t.net = u.net) ∧
    (∀ (n : Nat) (z : CellTables), Arrives s i src (.cell n) (.cellTables z) → Happens (exec (.homeAccess i) s) fun t => InCell s t n ∧
      t.net = u.net ∧ (∀ r, r ∈ (t.cell n).entries ↔ r ∈ z.entries ∨ r ∈ (s.cell n).entries ∧ r.entry ∈ z.kept) ∧
      ∀ k, (∀ y ∈ z.handlers, y.1 ≠ k) → (t.cell n).handler k = (s.cell n).handler k) ∧
    (∀ (c : Nat) (v : W64) (bad : Option (BitVec 7)) (deps : List Nat), Arrives s i src (.cell c) (.readReply a v bad deps) →
      Happens (exec (.queueResponse i) s) fun t => t.mem = s.mem ∧ t.net = u.net ∧
        let x := s.ctx a.who
        if x.act = a.act ∧ x.status ≠ .free then
          ∀ e ∈ (tget {} x.qs a.q).entries, e.id = a.id → e.awaited ≠ 0 →
            ∃ e' ∈ (tget {} (t.ctx a.who).qs a.q).entries, e'.id = a.id ∧ e'.awaited = e.awaited - 1 ∧
              match bad with
              | none => if e.scalar then e'.value = extendTo a.ty v.toNat
                else a.lane < 32 → lane e'.lanes a.lane = (extendTo a.ty v.toNat).extractLsb' 0 32
              | some _ => e'.tag = .poison ∧ ∀ L < 32, e'.badLanes.getLsbD L = (e.badLanes.getLsbD L || decide (L = a.lane))
        else t = u) ∧
    (∀ (c : Nat) (cause : BitVec 7) (k : Nat), Arrives s i src (.cell c) (.writeAck a (some cause)) →
      (s.ctx ⟨a.who.cell, k⟩).act = a.act → (s.ctx ⟨a.who.cell, k⟩).status ≠ .free →
      Happens (exec (.stxErrorResponse i) s) fun t => t.mem = s.mem ∧ t.net = u.net ∧
        match (s.ctx ⟨a.who.cell, k⟩).latched with
        | none => (t.ctx ⟨a.who.cell, k⟩).latched = some (cause, a.ea) ∧ (t.ctx ⟨a.who.cell, k⟩).latchCount = 0
        | some l => (t.ctx ⟨a.who.cell, k⟩).latched = some l ∧
            (t.ctx ⟨a.who.cell, k⟩).latchCount = (s.ctx ⟨a.who.cell, k⟩).latchCount + 1) ∧
    (∀ c, Arrives s i src (.cell c) (.writeAck a none) → (∀ slot k, a.op ≠ .engineWrite slot k) →
      Happens (exec (.writeAcknowledgement i) s) fun t => t.mem = s.mem ∧ t.net = u.net ∧
        ∀ (k : Nat) (l1 l2 : List Pending) (o : Pending), (s.ctx ⟨a.who.cell, k⟩).out = l1 ++ o :: l2 → o.id = a.id → o.home = src →
          (∀ y ∈ l1, ¬ (y.id = a.id ∧ y.home = src)) → (t.ctx ⟨a.who.cell, k⟩).out = l1 ++ l2) ∧
    (∀ c slot k, Arrives s i src (.cell c) (.writeAck a none) → a.op = .engineWrite slot k →
      exec (.writeAcknowledgement i) s = .next (u.engineDone a.who.cell slot k)) ∧
    (∀ pa : Nat, s.boot = .ready → pa < 192 * 2 ^ 32 →
      (Happens (exec (.hbmError pa true) s) fun t => t.mem = s.mem ∧ t.clusters = s.clusters ∧ t.cells = s.cells) ∧
      Happens (exec (.hbmError pa false) s) fun t => t.mem = s.mem ∧ t.cells = s.cells ∧ t.poison (.home (pa / 2 ^ 32)) pa = some 0) ∧
    ∀ (n pn : Nat), s.partOf n = some pn →
      Happens (exec (.scratchCorrected n) s) fun t => t.mem = s.mem ∧ t.cells = s.cells ∧
        (tget 0 s.sentAt (64 * (128 * n + 0x50) + pn) = 0 → Reports s t causeScratchCorrected fun r => r.tbc = BitVec.ofNat 64 s.tbc)

/-- R203, R204, R213 to R217, R233 to R237, R302, R305, R308, R310 to R312, R375, R422: the steps of strand counts, of barriers and of
joins happen in the states named, and do what is said. The model's readings: a decrement greater than the count leaves zero and sends JOB_DONE (log
entry 34), and the node of a killed job faults as its JOB_DONE comes (log entry 49). -/
def Obligations.CountAndJoinSteps : Prop :=
  ∀ (s : State) (i : Nat) (src dst : Endp) (job : W32) (n line : Nat) (w : Who),
    let u := s.take i
    (∀ (who : Option Who) (fork : Bool) (slot : Option (Nat × Nat)),
      Arrives s i src dst (.countAdd job n who fork slot line) → Happens (exec (.countIncrement i) s) fun t =>
        ∃ bad, t.net.getLast? = some { vn := .response, src := dst, dst := src, body := .countAck job n who fork slot bad } ∧
          if s.poison dst line = none ∧ (s.countLine line).1 = job ∧ (s.countLine line).2 + n < 2 ^ 32 then
            bad = none ∧ t.countLine line = (job, (s.countLine line).2 + n)
          else bad ≠ none ∧ t.mem = s.mem) ∧
    (∀ (who : Option Who) (id : Nat), Arrives s i src dst (.countSub job n line who id) →
      Happens (exec (.countDecrement i) s) fun t =>
      let ack : List Msg := match who with
        | none => []
        | some w => [{ vn := .response, src := dst, dst := .cell w.cell, body := .writeAck { op := .write, who := w, id } none }]
      if s.poison dst line = none ∧ (s.countLine line).1 = job then
        t.countLine line = (job, (s.countLine line).2 - n) ∧
        ((s.countLine line).2 ≠ 0 → (s.countLine line).2 ≤ n →
          ∃ m ∈ t.net, m.body = .jobDone job line (BitVec.ofNat 64 s.tbc)) ∧
        (n < (s.countLine line).2 → t.net = u.net ++ ack)
      else t.mem = s.mem) ∧
    (∀ (slot : Option (Nat × Nat)) (bad : Option (BitVec 7)) (f : Fork) (c : Nat),
      Arrives s i src (.cell c) (.countAck job n (some w) true slot bad) → (s.ctx w).fork = some f →
      Happens (exec (.forkAck i) s) fun t =>
        (1 < f.awaited → t.net = u.net ∧ t.ctx w = { s.ctx w with fork := some (f.ack job n bad) }) ∧
        (f.awaited = 1 → f.refused = none → bad = none → t.net = u.net ∧ (t.ctx w).wait = some .forkInject ∧
          (t.ctx w).r = (s.ctx w).r) ∧
        (f.awaited = 1 → ∀ cause, (f.refused <|> bad) = some cause → ∃ v, t = State.takeTrap v w { cause } ∧ ∀ k, v.ctx k = s.ctx k)) ∧
    (∀ (slot : Option (Nat × Nat)) (c : Nat), Arrives s i src (.cell c) (.countAck job n (some w) false slot none) →
      exec (.forkAck i) s = .next (u.setCtx w { s.ctx w with incsAwaited := (s.ctx w).incsAwaited - 1 })) ∧
    (∀ (who : Option Who) (fork : Bool) (slot : Nat × Nat) (d : Nat),
      Arrives s i src (.dispatch d) (.countAck job n who fork (some slot) none) →
      Happens (exec (.forkAck i) s) fun t => ((t.die slot.1).slot slot.2).state = .injecting ∧
        ((t.die slot.1).slot slot.2).bindRec = ((s.die slot.1).slot slot.2).bindRec) ∧
    (∀ (f : Fork) (c : Strand) (cs : List Strand), (s.ctx w).wait = some .forkInject → (s.ctx w).fork = some f →
      f.children = c :: cs → s.roomFor (s.partNo w.cell) (c.dest.setWidth 64) (.strand c) = true →
      let e := (s.partAt w.cell).endpOf (c.dest.setWidth 64)
      s.barred w.cell e = false → s.owes w.cell e = false → (e = .cell w.cell → s.gate w.cell = []) →
      let v := s.sendParcel w.cell (c.dest.setWidth 64) (.strand c)
      (e ≠ .cell w.cell → v = s.post { vn := .strand, src := .cell w.cell, dst := e, body := .parcel (.strand c) }) ∧
      (e = .cell w.cell → v = s.inboxTakes w.cell (.strand c)) ∧
      exec (.forkChildInject w.cell w.ctx) s = .next (
        if cs = [] then (v.setCtx w (({ s.ctx w with fork := none } : Ctx).past f.len)).commit w 3
        else v.setCtx w { s.ctx w with fork := some { f with children := cs } })) ∧
    (∀ (tbc : W64) (pn reg node : Nat) (r : Replay) (g : Graph), Arrives s i src dst (.jobDone job line tbc) →
      s.slabPart (line / 2 ^ 32) = some pn → (s.part pn).running.find? (fun y => y.1 == job) = some (job, reg, node) →
      ((s.part pn).kick reg).replay = some r → (s.part pn).graph r.handle = some g →
      s.writesFor (s.part pn) job = false → Happens (exec (.jobDone i) s) fun t => t.mem = s.mem ∧ (∀ y ∈ (t.part pn).running, y.1 ≠ job) ∧
        ∃ r', ((t.part pn).kick reg).replay = some r' ∧ (job ∈ (s.part pn).killed → r' = r.fault node)) ∧
    (∀ (bar c act : Nat) (cfg : W64) (deps : List Nat), Arrives s i src (.cell c) (.barArrive bar cfg w act deps) →
      (s.cell c).out = false →
      let x := (s.cell c).bar bar
      Happens (exec (.barrierArrival i) s) fun t => InCell s t c ∧
        if x.parties ≠ 0 ∧ cfg = x.config then
          let y := (t.cell c).bar bar
          y.parties = x.parties ∧ y.span = x.span ∧
          if x.arrivals + 1 = x.parties then y.arrivals = 0 ∧ y.phase = x.phase + 1
          else y.arrivals = x.arrivals + 1 ∧ y.phase = x.phase ∧ t.net = u.net
        else t = u.post { vn := .response, src := .cell c, dst := .cell w.cell, body := .barAck bar w act false }) ∧
    (∀ bar c : Nat, Arrives s i src (.cell c) (.barQuery bar w) → (s.cell c).out = false →
      exec (.barrierStateReply i) s = .next (u.post
        { vn := .system, src := .cell c, dst := .cell w.cell
          body := .barReply bar w ((s.cell c).bar bar).arrivals ((s.cell c).bar bar).phase })) ∧
    (∀ (bar c len : Nat) (phase : W32), Arrives s i src (.cell c) (.barReply bar w 0 phase) →
      (s.ctx w).wait = some (.barReply bar len) → (s.ctx w).once = none →
      Happens (exec (.barrierStateReply i) s) fun t => Past (s.ctx w) (t.ctx w) len ∧ (t.ctx w).wait = none ∧
        (t.cell w.cell).bar bar = { (s.cell w.cell).bar bar with phase }) ∧
    (∀ (bar c span : Nat) (phase : W32) (deps : List (W32 × List Nat)), Arrives s i src (.cell c) (.phase bar span phase deps) →
      (s.cell c).out = false → Happens (exec (.phaseUpdate i) s) fun t => InCell s t c ∧ t.net = u.net ∧
        (t.cell c).bar bar = { (s.cell c).bar bar with phase, pdeps := deps } ∧
        ∀ b, b ≠ bar → (t.cell c).bar b = (s.cell c).bar b) ∧
    (∀ (wire : Wire) (c : Nat) (j : Join) (l : List (Nat × Join)), s.heads wire = some ((c, j) :: l) →
      let all := (c, j) :: l
      Happens (exec (.joinMatch wire) s) fun t =>
        ((∃ y ∈ l, y.2.kind.tag ≠ j.kind.tag) → t = trapMembers (fun _ => { cause := causeGangMismatch }) all s) ∧
        ((∀ y ∈ l, y.2.kind.tag = j.kind.tag) →
          match j.kind with
          | .gang => t = gangMembers wire all s
          | .once => t = s.onceStart ⟨c, j.ctx⟩ wire (all.map fun y => (⟨y.1, y.2.ctx⟩, y.2.act, y.2.len))
          | .mma op =>
            if ∃ y ∈ l, y.2.op?.map (mmaKey s y.1) ≠ some (mmaKey s c op) then
              t = trapMembers (fun _ => { cause := causeGangMismatch }) all s
            else (∀ y ∈ all, ∀ op', y.2.op? = some op' → mmaCheck s y.1 op' = none) → t = mmaMembers s wire all s)) ∧
    ∀ row : Nat, (∀ c ∈ rowCells row, ∃ r, (s.cell c).mma = some r ∧ r.due ≤ (s.cell c).cyc) →
      exec (.mmaRetire row) s = .next (retireMembers s (rowCells row) s)

/-- R207, R240, R241, R245, R246, R317, R318, R330 to R338, R340, R343 to R347, R424: the steps of transfers, of channels, of pools and of
the Sluice happen in the states named, and do what is said. -/
def Obligations.TransferAndChannelSteps : Prop :=
  ∀ (s : State) (i n k : Nat) (src : Endp),
    let u := s.take i
    let x := (s.cell n).xfer k
    (x.chunkDone = true → Happens (exec (.twChunkComplete n k) s) fun t => t.mem = s.mem ∧ t.net = s.net ∧
      let y := (t.cell n).xfer k
      y.bit x.cur = true ∧ (∀ j, j ≠ x.cur → y.bit j = x.bit j) ∧
      ((∃ j < x.chunks, j ≠ x.cur ∧ x.bit j = false) → y.busy = true ∧ y.state = 0 ∧ y.bit y.cur = false ∧ y.todo = x.chunkWords y.cur) ∧
      ((∀ j < x.chunks, j ≠ x.cur → x.bit j = true) →
        if x.notify.getLsbD 16 then y.busy = true ∧ y.state = 3 else y.busy = false ∧ y.state = 4)) ∧
    (∀ id : Nat, x.busy = true → x.state = 3 → x.chan? = some id → (s.cell n).earlierPush k id = false →
      (s.cell n).queuedChan id = false → (∀ j ∈ x.deps, s.flying n (s.wcopy n id).desc.scopeOf j = false) →
      (s.wcopy n id).credits ≠ 0 → (s.wcopy n id).desc.state = 1 →
      Happens (exec (.twHandlePush n k) s) fun t => ((t.cell n).xfer k).busy = false ∧
        t.net = s.net ++ [{ vn := .request, src := .cell n, dst := .cell ((s.partAt n).dev (s.wcopy n id).desc.reader)
                            body := .elem id (x.handle k) none 0 x.deps }]) ∧
    (x.busy = true → x.failing = true → x.awaited = 0 → x.state ≠ 2 → Happens (exec (.twFault n k) s) fun t =>
      let y := (t.cell n).xfer k
      t.mem = s.mem ∧ y.busy = true ∧ y.state = 2 ∧ y.faultCause = x.faultCause ∧ y.faultAddr = x.faultAddr ∧ y.done = x.done ∧
      ∃ m : Smsg, m.cls = 3 ∧
        m.payload = (x.idOf k ++ BitVec.ofNat 16 x.firstOpen ++ (0 : BitVec 25) ++ x.faultCause : BitVec 64) ∧
        Reports (s.post { vn := .system, src := .cell n, dst := .cell n, body := .parcel (.msg m) }) t x.faultCause fun r =>
          r.addr = x.faultAddr ∧ r.xid = x.idOf k) ∧
    (∀ (c : Nat) (v : W64) (who : Option Who) (n' : Nat) (deps : List Nat), Arrives s i (.cell c) (.cell n) (.elem k v who n' deps) →
      let d := (s.rcopy n k).desc
      Happens (exec (.channelElementArrival i) s) fun t =>
        (t.rcopy n k).desc.wcount = d.wcount + 1 ∧
        ((s.cell n).out = false → d.trLen = 0 → d.wcount - d.rcount < d.cap → (s.cell n).hasEnd k true = true → (s.cell n).bankQ = [] →
          t.mem = writeLE s.mem (cellKey n (d.slot d.wcount)) 8 v.toNat) ∧
        (who = none → t.net = u.net) ∧
        ∀ w, who = some w → t.net = u.net ++ [{ vn := .response, src := .cell n, dst := .cell w.cell
                                                body := .writeAck { op := .write, who := w, id := n' } none }]) ∧
    (s.refillDue n k = true → Happens (exec (.channelRefill n k) s) fun t => t.mem = s.mem ∧
      let r := s.rcopy n k
      let m := min r.desc.trLen (r.desc.cap - r.desc.ringLen)
      (t.rcopy n k).landing = m ∧ (t.rcopy n k).desc.trLen = r.desc.trLen - m ∧
      ∃ l blocks, t.net = s.net ++ [{ vn := .response, src := .home ((s.partAt n).blockAt r.desc.headBlk r.desc.headIdx / 2 ^ 32)
                                      dst := .cell n, body := .tailRead (some k) l blocks [] }] ∧
        l.map (·.1) = (List.range m).map fun j => r.desc.wcount - r.desc.trLen + j) ∧
    (∀ (l : List (Nat × W64)) (blocks : List Nat) (l' : List Arrival), Arrives s i src (.cell n) (.tailRead (some k) l blocks l') →
      Happens (exec (.tailraceReadLanded i) s) fun t => t.net = u.net ∧ (t.rcopy n k).landing = 0 ∧ (t.rcopy n k).missing = [] ∧
        (t.part (s.partNo n)).freeBlocks = (s.part (s.partNo n)).freeBlocks ++ blocks) ∧
    (∀ l : List Arrival, Arrives s i src (.cell n) (.tailRead none [] [] l) →
      exec (.tailraceReadLanded i) s = .next (u.landInbox n l)) ∧
    (∀ (v : W64) (who : Option Who) (n' : Nat), Arrives s i src (.cell n) (.closeMark k v who n') →
      Happens (exec (.closeMarkArrival i) s) fun t =>
        (t.rcopy n k).desc.state = 2 ∧ (t.rcopy n k).desc.closeAt = v.toNat ∧ (who = none → t.net = u.net) ∧
        ∀ w, who = some w → t.net = u.net ++ [{ vn := .response, src := .cell n, dst := .cell w.cell
                                                body := .writeAck { op := .write, who := w, id := n' } none }]) ∧
    (∀ (m : Nat) (w : WCopy), Arrives s i src (.cell n) (.room k m) → tget none (s.cell n).wcopies k = some w →
      Happens (exec (.roomNotification i) s) fun t => InCell s t n ∧ t.net = u.net ∧
        tget none (t.cell n).wcopies k = some { w with credits := w.credits + m }) ∧
    (∀ p : Parcel, Arrives s i src (.poolRoot n) (.parcel p) → plLane p.dest = k → (s.lane n k).gateway = none →
      (s.lane n k).ring.length + (s.lane n k).tail.length < (s.lane n k).quota → (s.lane n k).parked = [] →
      let l := s.lane n k
      Happens (exec (.poolAppend i) s) fun t => t.net = u.net ∧ t.cells = s.cells ∧
        if l.tail = [] ∧ l.ring.length < l.capacity then
          (t.lane n k).ring = l.ring ++ [p] ∧ (t.lane n k).tail = l.tail ∧
          t.mem = (u.hbmBytes (l.ringPa + 128 * ((l.first + l.ring.length) % l.capacity)) p.image).mem
        else (t.lane n k).ring = l.ring ∧ (t.lane n k).tail = l.tail ++ [p]) ∧
    (∀ c want : Nat, Arrives s i src (.poolRoot n) (.popReq k c want) → (s.lane n k).parked = [] → 0 < want →
      let l := s.lane n k
      Happens (exec (.poolPopRequest i) s) fun t => t.mem = s.mem ∧ t.cells = s.cells ∧
        (t.lane n k).ring = l.ring.drop want ∧ (t.lane n k).parked = (if want ≤ l.ring.length then [] else [(c, want - l.ring.length)]) ∧
        t.net = u.net ++ (l.ring.take want).map fun p => { vn := .strand, src := .poolRoot n, dst := .cell c, body := .parcel p }) ∧
    (2 * (s.lane n k).ring.length < (s.lane n k).capacity → (s.lane n k).tail ≠ [] → (s.lane n k).parked = [] →
      let l := s.lane n k
      Happens (exec (.poolRingRefill n k) s) fun t => t.net = s.net ∧ (t.lane n k).ring ++ (t.lane n k).tail = l.ring ++ l.tail ∧
        (t.lane n k).ring.length = min l.capacity (l.ring.length + l.tail.length)) ∧
    ((s.part n).open_ = true → (s.part n).nextSluice ≤ s.tbc → Happens (exec (.sluiceSample n) s) fun t =>
      (t.part n).nextSluice = (s.tbc / 20000 + 1) * 20000 ∧ ∀ c ∈ (s.part n).cells, (t.cell c).issuedSince = false)

/-- R298, R300 to R302, R305 to R309, R315, R320: the steps of kick registers, replays, nodes, slots and reservations happen in the
states named, and do what is said. A KICK waits for the host's earlier writes through BAR2 (R449). A COND selects SUCC0 for a nonzero predicate and
SUCC1 for zero, a JOIN and a COPY select both, and each selected node has one more arrival, and may start when that is its NPRED. The model's
choices: what a node that has yet to start or still runs does with another start (log entry 60), and the one context that a cell keeps for its
displaced activation. -/
def Obligations.LaunchSteps : Prop :=
  ∀ (s : State) (i pn reg node die slot n : Nat) (src : Endp) (v : W64),
    let u := s.take i
    let p := s.part pn
    let k := p.kick reg
    let x := (s.die die).slot slot
    (p.open_ = true → reg < 16 → s.hostWrites pn = false → Happens (exec (.kick pn reg v) s) fun t => t.mem = s.mem ∧ t.cells = s.cells ∧
      if 4 ≤ k.queue.length then t = s.setPart pn { p with kickOverflow := p.kickOverflow + 1 }
      else if v.extractLsb' 0 3 = 0 ∧ p.graph (v.extractLsb' 56 8).toNat ≠ none then
        t.net = s.net ∧ ((t.part pn).kick reg).queue = k.queue ++ [(v, k.next)] ∧ ((t.part pn).kick reg).next = k.next + 1
      else ((t.part pn).kick reg) = k) ∧
    (∀ (num : Nat) (rest : List (W64 × Nat)) (g : Graph), p.active = true → k.queue = (v, num) :: rest → k.replay = none →
      p.graph (v.extractLsb' 56 8).toNat = some g →
      Happens (exec (.replayStart pn reg) s) fun t => t.mem = s.mem ∧ ((t.part pn).kick reg).queue = rest ∧
        ∃ r, ((t.part pn).kick reg).replay = some r ∧ r.number = num ∧ r.handle = (v.extractLsb' 56 8).toNat ∧
          match s.patched pn g v with
          | .inl (ns, ts) => r.nodes = ns ∧ r.templates = ts ∧ r.node 0 = .waiting ∧ (∀ j, j ≠ 0 → r.node j = .idle) ∧ r.faulted = false
          | .inr _ => r.faulted = true ∧ r.noStart = true) ∧
    (∀ (r : Replay) (g : Graph) (y : Node) (w : Template), p.active = true → k.replay = some r → p.graph r.handle = some g →
      r.faulted = false → r.node node = .waiting → r.nodes[node]? = some y → r.templates[node]? = some w →
      (y.kind = 2 ∨ y.kind = 3 ∨ y.kind = 4 ∨ y.kind = 5 → Happens (exec (.nodeStart pn reg node) s) fun t => t.mem = s.mem ∧
        ∃ r', ((t.part pn).kick reg).replay = some r' ∧
          (y.kind = 5 → Selects r r' node [y.succ0, y.succ1]) ∧
          (∀ v, y.kind = 2 → s.execRead pn g.asid y.na = some v → Selects r r' node [if v ≠ 0 then y.succ0 else y.succ1]) ∧
          (y.kind = 2 → s.execRead pn g.asid y.na = none → r'.faulted = true ∧ r'.node node = .done) ∧
          (y.kind = 4 → r'.node node = .running ∧ tget 0 r'.copied node = 0) ∧
          (y.kind = 3 → r'.node y.body = (if y.body = node then .running else if r.node y.body = .running then .running else .waiting) ∧
            tget 0 r'.loopsRun node = 1 ∧ (y.body ≠ node → r'.node node = .running) ∧
            (∀ j, y.body ≤ j → j ≤ y.last → tget 0 r'.arrivals j = 0) ∧
            ∀ j, j < y.body ∨ y.last < j → tget 0 r'.arrivals j = tget 0 r.arrivals j)) ∧
      (∀ (job : W32) (j : Nat), y.kind = 1 → (∀ c ∈ y.chans, s.resetBad p c = false ∧ s.landing p c = false) → s.freeJob p = some job →
        (s.die (p.dieOfPlace w.place)).freeSlot = some j → s.casidsReady g = true →
        Happens (exec (.nodeStart pn reg node) s) fun t =>
          let z := (t.die (p.dieOfPlace w.place)).slot j
          z.state = .armed ∧ z.part = pn ∧ z.bindRec = w.bind pn job (p.jobLine (job.toNat % 4096)) ∧
          (job, reg, node) ∈ (t.part pn).running ∧
          ∃ r', ((t.part pn).kick reg).replay = some r' ∧ r'.node node = .running ∧ tget 0 r'.jobs node = job)) ∧
    (∀ (r : Replay) (g : Graph) (y : Node), k.replay = some r → p.graph r.handle = some g → r.nodes[node]? = some y → y.kind = 4 →
      r.node node = .running → y.nc.toNat ≤ 8 * tget 0 r.copied node →
      Happens (exec (.copyComplete pn reg node) s) fun t => t.mem = s.mem ∧ t = s.nodeDone pn reg node true true r g ∧
        ∃ r', ((t.part pn).kick reg).replay = some r' ∧ Selects r r' node [y.succ0, y.succ1]) ∧
    (∀ (r : Replay) (g : Graph), p.active = true → k.replay = some r → p.graph r.handle = some g → r.over = true →
      Happens (exec (.replayEnd pn reg) s) fun t => ((t.part pn).kick reg).replay = none ∧ ((t.part pn).kick reg).queue = k.queue ∧
        t.irqs = s.irqs ++ (if g.irq then [(pn + 1, 2)] else []) ∧ (g.doneVa = 0 → t.mem = s.mem)) ∧
    (x.state = .armed → (s.part x.part).active = true →
      (∀ reason, s.bindBad x.part x.bindRec = some reason →
        Happens (exec (.slotArm die slot) s) fun t => (t.die die).slot slot = {} ∧ t.mem = s.mem ∧
          brJob x.bindRec ∈ (t.part x.part).killed) ∧
      (s.bindBad x.part x.bindRec = none → brCores x.bindRec = false → Happens (exec (.slotArm die slot) s) fun t => t.mem = s.mem ∧
        (t.die die).slot slot = { x with state := .counting } ∧
        t.net = s.net ++ [{ vn := .request, src := .dispatch die, dst := .home (brLine x.bindRec / 2 ^ 32)
                            body := .countAdd (brJob x.bindRec) (brCount x.bindRec) none false (some (die, slot)) (brLine x.bindRec) }])) ∧
    (∀ (q : Nat × Nat) (entry : PC) (strands size : Nat) (job : W32),
      Arrives s i src (.cell n) (.reserve q entry strands size job) → (s.cell n).out = false → (s.cell n).preempting = false →
      (∀ r ∈ (s.cell n).reservs, r.entry ≠ entry) →
      let g := min ((strands + size - 1) / size) ((s.cell n).freeCtxs.length - if (s.cell n).displaced = none then 0 else 1)
      Happens (exec (.reserveContexts i) s) fun t => InCell s t n ∧ (t.cell n).freeCtxs.length = (s.cell n).freeCtxs.length - g ∧
        t.net = u.net ++ [{ vn := .system, src := .cell n, dst := src, body := .reserveAns q n g }] ∧
        (g ≠ 0 → ∃ r ∈ (t.cell n).reservs, r.slot = q ∧ r.entry = entry ∧ r.groups = g ∧ r.strands = min strands (g * size) ∧ r.job = job)) ∧
    (∀ (l : List (Endp × Strand)) (m : Strand) (dst : Endp), (s.cluster n).station = (dst, m) :: l → s.roomAt dst (.strand m) = true →
      exec (.stationInject n) s = .next ((s.setCluster n { s.cluster n with station := l }).post
        { vn := .strand, src := .station n, dst, body := .parcel (.strand m) })) ∧
    (∀ (dst : Endp) (m : Strand), (s.die die).slots = [(slot, x)] → s.slotNext x = some (dst, m) → brCount x.bindRec = x.next + 1 →
      exec (.dispatchRelease die) s = .next ((s.setCluster (stationOf dst)
        { s.cluster (stationOf dst) with station := (s.cluster (stationOf dst)).station ++ [(dst, m)] }).setSlot die slot {}))

/-- R197, R206, R221, R319 to R324, R414, R422, R425, R427, R434: the steps that stop, move and wake contexts happen in the states named,
and do what is said. -/
def Obligations.CellSteps : Prop :=
  ∀ (s : State) (i n : Nat) (w : Who) (src : Endp),
    let u := s.take i
    let c := s.cell n
    let x := s.ctx w
    (c.class0Count = 63 → s.zeroReady n = true → exec (.class0Reserve n) s = .next (s.setCell n { c with class0Count := 64 })) ∧
    (s.displaces n = some w → Happens (exec (.displacement n) s) fun t =>
      (t.cell n).displaced =
        some { ((s.rollback w).consumeFirst w).ctx w with released := [], out := [], sent := [], incsAwaited := 0 }) ∧
    (∀ (y : Ctx) (k : Nat), c.displaced = some y → c.freeCtxs.head? = some k → c.up = true → c.preempting = false →
      (s.partAt n).forms = true → c.incsLeft y.act = false → Happens (exec (.displacedRestore n) s) fun t => t.mem = s.mem ∧ t.net = s.net ∧
        (t.cell n).displaced = none ∧ (t.ctx ⟨n, k⟩).r = y.r ∧ (t.ctx ⟨n, k⟩).status = y.status ∧ (t.ctx ⟨n, k⟩).act = y.act ∧
        (t.ctx ⟨n, k⟩).wait = y.wait ∧ (t.ctx ⟨n, k⟩).qs = y.qs ∧ ∀ j, j ≠ k → t.ctx ⟨n, j⟩ = (s.ctx ⟨n, j⟩).without y.act) ∧
    (x.status = .running → x.budget = 0 → x.spared = false → x.midway = false ∨ x.inOnce = true → (s.cell w.cell).displacing ≠ some w.ctx → (s.cell w.cell).preempting = false → (s.cell w.cell).tripped = false →
      (s.cell w.cell).out = false → exec (.watchdog w.cell w.ctx) s = .next (s.takeTrap w { cause := causeWatchdog })) ∧
    (∀ p : Smsg, Arrives s i src (.cell n) (.parcel (.msg p)) → p.cls = 1 → c.out = false → c.canAccept (.msg p) = true →
      (s.refusesPreempt n = true →
        exec (.preemptRequest i) s = .next ((u.setCell n { c.popped src (.msg p) with msgId := c.msgId + 1, accepted := c.accepted + 1 }).post { vn := .system, src := .cell n, dst := src, body := .preemptAns n false })) ∧
      (s.refusesPreempt n = false → Happens (exec (.preemptRequest i) s) fun t => InCell s t n ∧ t.net = u.net ∧
        (t.cell n).preempting = true ∧ (t.cell n).msgId = c.msgId + 1)) ∧
    (c.preempting = true → c.out = false → (∀ k ∈ ctxNums, (s.ctx ⟨n, k⟩).status ≠ .running) → s.refillsLand n = false →
      c.promenade = none →
      let q := s.partAt n
      let placed := decide (¬ (q.cut = .none ∨ q.cut = .closing)) || q.swapRoom
      Happens (exec (.preemptStopped n) s) fun t => (t.cell n).preempting = false ∧ (t.cell n).out = placed ∧
        t.net = s.net ++ [{ vn := .system, src := .cell n, dst := .dmc q.die0, body := .preemptAns n placed }] ∧
        (placed = true → ∀ k, t.ctx ⟨n, k⟩ = s.ctx ⟨n, k⟩)) ∧
    (c.out = true → c.gone = false → (s.partAt n).active = true → c.tripped = false ∨ c.temp < degC 90 →
      Happens (exec (.cellResume n) s) fun t => (c.swap = [] → t.mem = s.mem) ∧ (t.cell n).out = false ∧ (t.cell n).tripped = false ∧
        (t.cell n).refusals = {} ∧
        (c.refusals.overflow = false → ∀ e ∈ c.refusals.listed,
          ({ vn := .system, src := .cell n, dst := e, body := .resume n } : Msg) ∈ t.net) ∧
        ∀ k, t.ctx ⟨n, k⟩ =
          if (s.ctx ⟨n, k⟩).status = .stopped then { s.ctx ⟨n, k⟩ with status := .running } else s.ctx ⟨n, k⟩) ∧
    (∀ (z : W64) (len : Nat), x.wait = some (.sleep z len) → z.toNat ≤ s.tbc → s.awake w = true → x.once = none →
      match s.missedPromise w z with
      | none => exec (.sleeptWake w.cell w.ctx) s = .next (s.setCtx w (x.past len))
      | some slot => exec (.sleeptWake w.cell w.ctx) s =
          .next (s.takeTrap w { cause := causeTwPromise, xid := ((s.cell w.cell).xfer slot).idOf slot })) ∧
    (∀ (sc : Scope) (since : Nat), x.wait = some (.fence sc since) → since + 1000000 ≤ s.tbc → s.awake w = true →
      s.fenceDone w sc = false → exec (.fenceTimeout w.cell w.ctx) s = .next (s.takeTrap w { cause := causeFenceTimeout })) ∧
    (∀ job : W32, Arrives s i src (.cell n) (.drop job) → c.out = false → Happens (exec (.jobDrop i) s) fun t =>
      job ∈ (t.cell n).dropping ∧ (∀ b ∈ (t.cell n).bins, ∀ a ∈ b.msgs, a.parcel.job? ≠ some job) ∧
      (∀ a ∈ (t.cell n).tail, a.parcel.job? ≠ some job) ∧ ∀ y ∈ (t.cell n).overflow, y.2.parcel.job? ≠ some job) ∧
    ∀ (job : W32) (d : Nat), Arrives s i (.cell n) (.dmc d) (.drop job) → Happens (exec (.jobDrop i) s) fun t => t.mem = s.mem ∧
      t.cells = s.cells ∧ t.net = u.net ++ (s.partAt n).cells.map fun k =>
        { vn := .system, src := .dmc d, dst := .cell k, body := .drop job }

/-- R352 to R354, R356 to R361, R363 to R372, R428, R429: the steps of the governors, of the Weir, of the meters and rails, and of the
thermal moves happen in the states named, and do what is said. -/
def Obligations.GovernorSteps : Prop :=
  ∀ (s : State) (i pn n : Nat) (src : Endp) (id job : W32),
    let u := s.take i
    let p := s.part pn
    let g := p.gov
    let c := s.cell n
    let k := s.cluster n
    (∀ (d work : W64) (h : BitVec 28), Arrives s i src (.governor pn) (.stepReg id d work h job) →
      Happens (exec (.stepRegistration i) s) fun t => t.mem = s.mem ∧ t.cells = s.cells ∧
        if (∀ e ∈ g.steps, e.id ≠ id ∨ e.ended = true) ∧ 256 ≤ (g.steps.filter fun e => e.id != id).length then
          (t.part pn).gov = g ∧ ∃ m : Smsg, m.cls = 0 ∧ m.step = id ∧ m.job = job ∧ m.dest = h ∧ m.payload = 0x4000000000000000 ∧
            t.net = u.net ++ [{ vn := .system, src := .governor pn, dst := p.endpOf (h.setWidth 64), body := .parcel (.msg m) }]
        else t.net = u.net ∧ ∃ e ∈ (t.part pn).gov.steps, e.id = id ∧ e.deadline = d ∧ e.work = work.toNat ∧ e.handler = h ∧ e.job = job ∧
          e.ended = false ∧ job ∈ e.jobsLeft) ∧
    (Arrives s i src (.governor pn) (.stepEnd id) → Happens (exec (.stepRetirement i) s) fun t => t.mem = s.mem ∧ t.cells = s.cells ∧
      t.net = u.net ∧ (t.part pn).gov.steps.length = g.steps.length ∧
      ∀ (j : Nat) (e : StepEntry), g.steps[j]? = some e → ∃ e', (t.part pn).gov.steps[j]? = some e' ∧ e'.id = e.id ∧
        (e.id ≠ id → e' = e) ∧
        (e.id = id → e.replacedAt = none → e' = { e with ended := true }) ∧
        (e.id = id → e.replacedAt ≠ none → e'.ended = false ∧ e'.deadline = e.deadline ∧ e'.work = e.work ∧ e'.done = 0)) ∧
    (∀ (counts : Tbl Nat) (from_ : Nat), Arrives s i src (.governor pn) (.work counts from_) →
      Happens (exec (.workReport i) s) fun t => t.mem = s.mem ∧ t.cells = s.cells ∧ t.net = u.net ∧
        (t.part pn).gov.steps.map (·.fresh) =
          g.steps.map fun e => if e.ended then e.fresh else e.fresh + tget 0 counts e.id.toNat) ∧
    (p.open_ = true → g.next ≤ s.tbc → g.sent = g.next → Happens (exec (.governorPeriod pn) s) fun t =>
      let z := (t.part pn).gov
      t.mem = s.mem ∧ z.next = g.next + 10000 ∧ z.cyclesAt = g.cycles ∧ z.inForce = g.inForce ∧ (∀ e ∈ z.steps, e.fresh = 0) ∧
      z.steps.map (·.id) = (g.steps.filter fun e => !e.ended).map (·.id) ∧
      ((∀ e ∈ g.steps, e.ended = true) → z.chosen = p.defpt) ∧
      ∀ b ∈ p.clusters, ∃ ask weight, ({ vn := .system, src := .governor pn, dst := .weir
                                         body := .bid b ask weight (g.next / 10000) } : Msg) ∈ t.net) ∧
    (∀ b ask weight period : Nat, Arrives s i src .weir (.bid b ask weight period) →
      exec (.clusterBid i) s = .next (if period < s.weirDone then u
        else u.setCluster b { s.cluster b with bids := tset (s.cluster b).bids period (ask, weight) })) ∧
    (s.boot = .ready → s.weirDone * 10000 + 2000 ≤ s.tbc → s.decided s.weirDone = true → Happens (exec .weirClear s) fun t =>
      t.mem = s.mem ∧ t.cells = s.cells ∧ t.weirDone = s.weirDone + 1 ∧
      t.net = s.net ++ (s.market s.weirDone).map fun y =>
        { vn := .system, src := .weir, dst := .station y.1, body := .grant y.1 y.2 s.weirDone }) ∧
    (∀ b tokens period : Nat, Arrives s i src (.station b) (.grant b tokens period) → Happens (exec (.grantArrival i) s) fun t =>
      t.mem = s.mem ∧ t.cells = s.cells ∧ t.net = u.net ∧ (t.cluster b).grant = tokens ∧ (t.cluster b).granted = period + 1) ∧
    (s.clusterPart n = some pn → p.open_ = true → k.nextMeter ≤ s.tbc → Happens (exec (.meterWindow n) s) fun t =>
      let busy := s.clusterBusy n
      (t.cluster n).nextMeter = (s.tbc / 1000 + 1) * 1000 ∧ (t.cluster n).meterBusy = busy ∧
      let cost := s.cost p (activity (busy - k.meterBusy) (g.cycles - k.meterCycles)) g.inForce
      (t.cluster n).denied = (decide (k.grant < cost) && !k.denyEnds) ∧ (t.cluster n).denyNum = k.grant ∧ (t.cluster n).denyDen = cost) ∧
    (s.boot = .ready → s.railNeeds n ≠ s.rail n → tget 0 s.railNext n ≤ s.tbc → Happens (exec (.railStep n) s) fun t =>
      t.mem = s.mem ∧ t.cells = s.cells ∧ t.net = s.net ∧
      t.rail n = (if s.rail n < s.railNeeds n then s.rail n + 1 else s.rail n - 1) ∧ tget 0 t.railNext n = s.tbc + 5000) ∧
    (∀ point start : Nat, g.quiesce = some (point, start) → p.open_ = true →
      (s.drained pn = true → point ≤ s.rail p.rail → (∀ m ∈ p.cells, (s.cell m).promenade = Option.none) →
        exec (.quiesceDrained pn) s = .next (s.setPart pn { p with gov := { g with inForce := point, quiesce := none } })) ∧
      (start + 20000 ≤ s.tbc → Happens (exec (.quiesceTimeout pn) s) fun t => t.mem = s.mem ∧ t.cells = s.cells ∧
        (t.part pn).gov = { g with quiesce := none, raising := none })) ∧
    (∀ phys temp : Nat, s.boot = .ready → phys < 3840 → s.logicalOf phys = some n → Happens (exec (.thermalSample phys temp) s) fun t =>
      t.mem = s.mem ∧ (temp < degC 115 ∨ c.out = false → t.net = s.net) ∧ (t.cell n).temp = temp ∧ tget 0 t.physTemp phys = temp ∧
      (degC 115 ≤ temp → (t.cell n).tripped = true) ∧
      (temp ≤ degC 100 → (t.cell n).issueNum = 1 ∧ (t.cell n).issueDen = 1) ∧
      (degC 100 < temp → temp < degC 115 → s.spareFree (rowOf n) = false ∨ s.rowMoving n = true →
        (t.cell n).issueNum = 1 ∧ (t.cell n).issueDen = (if temp ≤ degC 108 then 2 else 4)) ∧
      (degC 100 < temp → temp < degC 115 → s.spareFree (rowOf n) = true → s.rowMoving n = false → c.out = false → c.halted = false →
        c.tripped = false → (t.cell n).promenade = some (s.spareCol (rowOf n)))) ∧
    ∀ col : Nat, c.promenade = some col → s.moveReady n = true → Happens (exec (.promenadeCopyDone n) s) fun t =>
      (t.cell n).promenade = Option.none ∧ (t.cell n).tlb = [] ∧ t.rowMap (rowOf n) = setAt (s.rowMap (rowOf n)) (n % 4) col ∧
      (t.cell n).gone = decide (col = 5)

/-- R396 to R404, R431: the steps of the millwrights, of invalidations and of the service-call gate happen in the states named, and do what is
said. The model's readings: SVC_INVAL_PAGE denies a page size above 2 (log entry 39), the bits of a virtual address above 55 are cut (log entry
60), SVC_QUOTE denies a nonce in a poisoned line (log entry 68), and a service whose routine the hook table redirects (R453) denies the request or
returns two values that nothing fixes (log entry 57). -/
def Obligations.TranslationSteps : Prop :=
  ∀ (s : State) (i n : Nat) (w : Who) (src : Endp) (va : W64) (asid : BitVec 12) (kind : AccKind) (engine : Option Nat),
    let u := s.take i
    let p := s.partAt w.cell
    let denied := fun (code : W32) => u.takeTrap w { cause := causeServiceDenied, addr := some (code.setWidth 64) }
    let asks := fun (code : W32) (args : List W64) (len : Nat) =>
      Arrives s i src (.millwright n) (.svc w code args) ∧ (s.ctx w).wait = some (.svc len) ∧ s.hooked code.toNat = false
    let names := fun (a : W64) => p.asidBase ≤ a.toNat ∧ a.toNat < p.asidBase + p.asidCount ∧ p.asidOk (a.extractLsb' 0 12) = true
    let invalidates := fun (t : State) (a : BitVec 12) (page : Option (W64 × Nat)) (after : After) =>
      ∃ v : Inval, t.invals = s.invals ++ [v] ∧ v.asid = a ∧ v.page = page ∧ v.after = after ∧ v.waiting = invalParties ∧
        t.net = u.net ++ invalParties.map fun e => { vn := .system, src := .root, dst := e, body := .inval v.id a page }
    (∀ stale : Bool, Arrives s i src (.millwright n) (.tlbReq w va asid kind engine stale) →
      (Happens (exec (.tlbFillRequest i) s) fun t => t.mem = s.mem ∧ t.cells = s.cells ∧
        t.net = u.net ++ [{ vn := .system, src := .millwright n, dst := src
                            body := .tlbRep w va asid kind engine stale (s.fillAnswer n w va asid kind engine.isSome).1 }]) ∧
      (∀ a, p.asidOk asid = true → tget none p.asids asid.toNat = some a → a.supplied = true →
        exec (.walkerTimeLimit i) s = .next (u.post { vn := .system, src := .millwright n, dst := src
                                                      body := .tlbRep w va asid kind engine stale (.inr causePageNotPresent) }))) ∧
    (∀ (e : TlbEntry), Arrives s i src (.cell w.cell) (.tlbRep w va asid kind none false (.inl e)) → (s.ctx w).wait = some (.tlb va) →
      Happens (exec (.tlbFillReply i) s) fun t => t.mem = s.mem ∧ t.net = u.net ∧ (t.cell w.cell).tlb.getLast? = some e ∧
        t.ctx w = { s.ctx w with wait := none }) ∧
    (∀ (cause : BitVec 7), Arrives s i src (.cell w.cell) (.tlbRep w va asid kind none false (.inr cause)) →
      (s.ctx w).wait = some (.tlb va) → exec (.tlbFillReply i) s = .next (u.takeTrap w { cause, addr := some va })) ∧
    (∀ res, Arrives s i src (.cell n) (.tlbRep w va asid kind engine true res) →
      exec (.tlbFillReply i) s = .next (u.post { vn := .system, src := .cell n, dst := src
                                                 body := .tlbReq w va (s.cell n).casid kind engine false })) ∧
    (∀ (id : Nat) (page : Option (W64 × Nat)), Arrives s i src (.cell n) (.inval id asid page) → u.walksOld n id = false →
      Happens (exec (.invalidation i) s) fun t => InCell s t n ∧
        t.net.getLast? = some { vn := .system, src := .cell n, dst := .root, body := .invalAck id (.cell n) } ∧
        ∀ e, e ∈ (t.cell n).tlb ↔ e ∈ (s.cell n).tlb ∧ ¬ (e.asid = asid ∧ meets page e.vbase (pageBytes e.size) = true)) ∧
    (∀ (id : Nat) (page : Option (W64 × Nat)), Arrives s i src (.millwright n) (.inval id asid page) →
      Happens (exec (.invalidation i) s) fun t => t.mem = s.mem ∧ t.cells = s.cells ∧
        t.net = u.net ++ [{ vn := .system, src := .millwright n, dst := .root, body := .invalAck id (.millwright n) }]) ∧
    (∀ (id : Nat) (page : Option (W64 × Nat)), Arrives s i src (.spare n) (.inval id asid page) →
      exec (.invalidation i) s = .next (u.post { vn := .system, src := .spare n, dst := .root, body := .invalAck id (.spare n) })) ∧
    (∀ (id : Nat) (e : Endp), Arrives s i src .root (.invalAck id e) → Happens (exec (.invalidation i) s) fun t => t.mem = s.mem ∧
      t.cells = s.cells ∧ t.net = u.net ∧ ∀ v ∈ t.invals, v.id = id → e ∉ v.waiting) ∧
    (∀ (id len : Nat) (page : Option (W64 × Nat)) (s1 s2 : W64),
      s.invals.find? (fun v => v.id == id) = some { id, asid, page, waiting := [], after := .svcReply w s1 s2 } →
      s.awaitsAccess asid page = false →
      let v := ({ s with invals := s.invals.filter fun v => v.id != id } : State).rehome asid page
      (v.ctx w).wait = some (.svc len) →
      exec (.invalidationComplete id) s = .next ((v.setCtx w ((((v.ctx w).setS 1 s1).setS 2 s2).past len)).commit w 3)) ∧
    (∀ (args : List W64) (len : Nat), asks 0 args len →
      exec (.svcVersion i) s = .next ((u.setCtx w ((((s.ctx w).setS 1 0).setS 2 0x30000).past len)).commit w 3)) ∧
    (∀ (code : W32) (args : List W64) (len : Nat), 5 < code.toNat → Arrives s i src (.millwright n) (.svc w code args) →
      (s.ctx w).wait = some (.svc len) → exec (.svcVersion i) s = .next (denied code)) ∧
    (∀ (code : W32) (args : List W64) (len : Nat), Arrives s i src (.millwright n) (.svc w code args) → (s.ctx w).wait = some (.svc len) →
      s.hooked code.toNat = true →
      let answers := fun (o : Out) => o = .next (denied code) ∨
        ∃ s1 s2 : W64, o = .next ((u.setCtx w ((((s.ctx w).setS 1 s1).setS 2 s2).past len)).commit w 3)
      (code = 0 → answers (exec (.svcVersion i) s)) ∧ (code = 1 → answers (exec (.svcInvalPage i) s)) ∧
      (code = 2 → answers (exec (.svcInvalAsid i) s)) ∧ (code = 3 → answers (exec (.svcMap i) s)) ∧
      (code = 4 → answers (exec (.svcUnmap i) s)) ∧ (code = 5 → answers (exec (.svcQuote i) s))) ∧
    (∀ (a1 a2 a3 : W64) (rest : List W64) (len : Nat), asks 1 (a1 :: a2 :: a3 :: rest) len →
      if names a1 ∧ a3.toNat ≤ 2 then Happens (exec (.svcInvalPage i) s) fun t => t.mem = s.mem ∧ t.cells = s.cells ∧
        invalidates t (a1.extractLsb' 0 12) (some (a2, a3.toNat)) (.svcReply w 0 0)
      else exec (.svcInvalPage i) s = .next (denied 1)) ∧
    (∀ (a1 : W64) (rest : List W64) (len : Nat), asks 2 (a1 :: rest) len →
      if names a1 then Happens (exec (.svcInvalAsid i) s) fun t => t.mem = s.mem ∧ t.cells = s.cells ∧
        invalidates t (a1.extractLsb' 0 12) none (.svcReply w 0 0)
      else exec (.svcInvalAsid i) s = .next (denied 2)) ∧
    (∀ (a1 a2 e a4 : W64) (rest : List W64) (len pa : Nat), asks 3 (a1 :: a2 :: e :: a4 :: rest) len → names a1 →
      p.romAsid (a1.extractLsb' 0 12) = true → a4.toNat ≤ 2 →
      if e.getLsbD 7 = true ∨ p.ownsPa (entryAddr e) = true then
        s.leafOf p (a1.extractLsb' 0 12) a2.toNat a4.toNat = some pa →
        Happens (exec (.svcMap i) s) fun t => t.mem = writeLE s.mem pa 8 e.toNat ∧ t.cells = s.cells ∧
          invalidates t (a1.extractLsb' 0 12) (some (a2, a4.toNat)) (.svcReply w 0 (s.entryAt pa))
      else exec (.svcMap i) s = .next (denied 3)) ∧
    (∀ (a1 a2 a3 : W64) (rest : List W64) (len pa : Nat), asks 4 (a1 :: a2 :: a3 :: rest) len → names a1 →
      p.romAsid (a1.extractLsb' 0 12) = true → a3.toNat ≤ 2 → s.leafOf p (a1.extractLsb' 0 12) a2.toNat a3.toNat = some pa →
      (s.entryAt pa).getLsbD 0 = true → (s.entryAt pa).getLsbD 4 = true →
      Happens (exec (.svcUnmap i) s) fun t => t.mem = writeLE s.mem pa 8 0 ∧ t.cells = s.cells ∧
        invalidates t (a1.extractLsb' 0 12) (some (a2, a3.toNat)) (.svcReply w 0 (s.entryAt pa))) ∧
    ∀ (a1 a2 : W64) (rest : List W64) (len : Nat), asks 5 (a1 :: a2 :: rest) len →
      if p.ownsRange a1.toNat 384 = true ∧ p.ownsRange a2.toNat 32 = true ∧ s.poisonedAt a2.toNat = false ∧
          s.poisonedAt (a2.toNat + 31) = false then
        exec (.svcQuote i) s = .next (((u.hbmBytes a1.toNat (u.quote (s.partNo w.cell) (readBytes s.mem a2.toNat 32))).setCtx w
            ((((s.ctx w).setS 1 0).setS 2 384).past len)).commit w 3)
      else exec (.svcQuote i) s = .next (denied 5)

/-- R13, R391, R410, R416 to R418, R420 to R422, R428, R429, R432, R433, R435: the steps of fault records and verdicts, of quarantines, stops
and checkpoint timeouts, and of a word that stands for no instruction, happen in the states named, and do what is said. -/
def Obligations.FaultSteps : Prop :=
  ∀ (s : State) (i pn n : Nat) (src : Endp),
    let u := s.take i
    let p := s.part pn
    let c := s.cell n
    (∀ (r : Frec) (d : Nat) (server : W64), Arrives s i src (.dmc d) (.parcel (.record r server)) → r.part.toNat = pn →
      (p.open_ = false → exec (.faultRecord i) s = .next u) ∧
      (p.open_ = true → serverKind server = 1 → Happens (exec (.faultRecord i) s) fun t =>
        t.cells = s.cells ∧ t.net = u.net ∧ (t.part pn).seq = p.seq + 1 ∧ t.irqs = s.irqs ++ [(pn + 1, 1)] ∧
        t.mem = writeBytes s.mem (hostKey ((server.extractLsb' 0 62).toNat + 64 * ((p.seq + 1).toNat % 64)))
          (({ r with seq := p.seq + 1 } : Frec).words.flatMap fun w => leBytes 8 w.toNat)) ∧
      (p.open_ = true → serverKind server ≠ 1 → Happens (exec (.faultRecord i) s) fun t => t.mem = s.mem ∧ t.cells = s.cells ∧
        (r.vreq = false → t = u) ∧
        (r.vreq = true → r.cause ≠ causeGangAbort → verdictOf r.cause r.subcause = .kill ∨ verdictOf r.cause r.subcause = .resume →
          ∃ m : Smsg, m.cls = 2 ∧ m.payload = (BitVec.ofNat 4 (if verdictOf r.cause r.subcause = .kill then 3 else 1) ++
              (0 : BitVec 25) ++ r.ctx ++ r.msgid : BitVec 64) ∧
            ({ vn := .system, src := .dmc p.die0, dst := .cell (p.dev r.cell.toNat), body := .parcel (.msg m) } : Msg) ∈ t.net))) ∧
    (∀ (d : Nat) (m : Smsg), Arrives s i (.dmc d) (.cell n) (.parcel (.msg m)) → m.cls = 2 → c.out = false →
      c.canAccept (.msg m) = true →
      (∃ t, exec (.verdict i) s = .next t) ∧
      ∀ z : PendTrap, c.trapOf m.payload = some z → z.bin = Option.none → m.payload.getLsbD 59 = false →
        Happens (exec (.verdict i) s) fun t => z ∉ (t.cell n).pending ∧
          ((m.payload.extractLsb' 60 4).toNat = 1 → (t.ctx ⟨n, z.ctx.toNat⟩).status = .running ∧
            (t.ctx ⟨n, z.ctx.toNat⟩).wait = Option.none ∧ (t.ctx ⟨n, z.ctx.toNat⟩).r = (s.ctx ⟨n, z.ctx.toNat⟩).r ∧
            (t.ctx ⟨n, z.ctx.toNat⟩).trap = (s.ctx ⟨n, z.ctx.toNat⟩).trap) ∧
          ((m.payload.extractLsb' 60 4).toNat ≠ 1 → (t.ctx ⟨n, z.ctx.toNat⟩).status = .free)) ∧
    (∀ v : W64, p.open_ = true → Happens (exec (.verdictDoorbell pn v) s) fun t => t.mem = s.mem ∧ t.cells = s.cells ∧
      let rel := ((s.bar (pn + 1) 0x200).extractLsb' 0 12).toNat
      if serverKind p.faultSrv = 1 ∧ rel < p.cellCount then ∃ m : Smsg, m.cls = 2 ∧ m.payload = v ∧
        t.net = s.net ++ [{ vn := .system, src := .dmc p.die0, dst := .cell (p.dev rel), body := .parcel (.msg m) }]
      else t.net = s.net) ∧
    (∀ (err : CellError) (words accs : List Nat), s.boot = .ready → s.partOf n ≠ Option.none → c.gone = false → c.failing = Option.none →
      c.promenade = Option.none → s.spareFree (rowOf n) = true → s.rowMoving n = false →
      Happens (exec (.cellQuarantine n err Option.none words accs) s) fun t =>
        (t.cell n).failing = some (BitVec.ofNat 32 words.length) ∧
        (t.cell n).promenade = some ((s.rowMap (rowOf n) ++ [s.spareCol (rowOf n)]).getD (n % 4 + 1) 5) ∧
        (∀ w ∈ words, readLE t.mem (cellKey n (8 * (w % 65536))) 8 = 0) ∧ ∀ a ∈ accs, (t.cell n).acc (a % 4) = {}) ∧
    (∀ (err : CellError) (words accs : List Nat), s.boot = .ready → s.partOf n ≠ Option.none → c.gone = false → c.failing = Option.none →
      c.promenade = Option.none → s.spareFree (rowOf n) = false → exec (.cellQuarantine n err Option.none words accs) s =
        .next (s.setCell n { c with failing := some 0xFFFFFFFF, promenade := some 5 })) ∧
    (s.boot = .ready → (∀ (err : StopError) (parts : List Nat), Happens (exec (.partitionStop err parts) s) fun t =>
        t.mem = s.mem ∧ t.cells = s.cells ∧ (pn ∈ parts → p.open_ = true → (t.part pn).stopped = true) ∧
        (pn ∉ parts → (t.part pn).stopped = p.stopped)) ∧
      Happens (exec .machineCheck s) fun t => t.mem = s.mem ∧ t.cells = s.cells ∧ (p.open_ = true → (t.part pn).stopped = true) ∧
        t.machineCheck = true ∧ t.irqs = s.irqs ++ [(0, Config.machineCheckVector)] ∧ t.i3cStatus = s.i3cStatus ||| 1) ∧
    (∀ (stay stay' : Bool) (since fn : Nat) (tag : W32) (l : List (Nat × Nat × Nat)), p.cut = .checkpoint stay since →
      s.cmds.find? (fun f => f.2.cuts pn) = some (fn, { tag, wait := .checkpoint l stay' }) → since + 100000000 ≤ s.tbc →
      s.cutReady pn = false → Happens (exec (.ckptTimeout pn) s) fun t => t.mem = s.mem ∧ t.cells = s.cells ∧
        (∀ y ∈ l, (t.part y.1).cut = if s.preemptsSoon y.1 then .closing else .none) ∧ t.irqs = s.irqs ++ [(fn, 0)] ∧ t.inFlight fn = {} ∧
        (t.bar fn 0x40).extractLsb' 32 32 = tag ∧ 1 ≤ ((t.bar fn 0x40).extractLsb' 0 32).toNat) ∧
    ∀ e : DecodeError, s.fetch s.cur = .bad e → exec .illegalEncoding s = .next (s.takeTrap s.cur { cause := decodeCause e })

/-- R20, R292, R429, R448 to R450, R453 to R458, R460: the steps of power, boot and reset, of the hook window, of the host's BARs and the
sideband, and of the Reel ports happen in the states named, and do what is said. The model's choices: every byte reads zero when the power comes up
(log entry 1), registers hold the values of log entry 5, and DEVRESET zeroes the scratchpads and instruction stores too (log entry 55), of which
R454 scrubs the slabs. -/
def Obligations.PlatformSteps : Prop :=
  ∀ (s : State) (fn : Fn) (pn off size port : Nat) (v : W64),
    let r := s.reel port
    let up := s.boot = .ready ∧ port < 18 ∧ 2 ≤ r.lanes ∧ r.retraining = false
    let cold := fun (t : State) => t.tbc = 0 ∧ t.cells = [] ∧ t.parts = [] ∧ t.net = [] ∧ t.bars = [] ∧ (∀ a < 2 ^ 64, mread t.mem a = 0)
    (s.boot = .off → Happens (exec .powerGood s) fun t => t.tbc = 0 ∧ t.parts = [] ∧ t.net = [] ∧ (∀ a < 2 ^ 64, mread t.mem a = 0) ∧
      t.boot = .hookWindow 2000000000) ∧
    (s.boot ≠ .off → (Happens (exec .powerRemoval s) fun t => cold t ∧ t.boot = .off) ∧
      (Happens (exec (.devreset 0x5A5A) s) fun t => t.tbc = s.tbc ∧ t.parts = [] ∧ t.net = [] ∧
        (∀ a < 2 ^ 64, mread t.mem a = 0) ∧ t.boot = .hookWindow (s.tbc + 2000000000)) ∧
      (∀ w : W32, w ≠ 0x5A5A → exec (.devreset w) s = .next s) ∧
      (Happens (exec .entdaa s) fun t => t = { s with i3cAddr := some 0x3A }) ∧
      (s.i3cAddr ≠ Option.none → exec (.i3cReset 0x5A5A) s = exec (.devreset 0x5A5A) s ∧
        (∃ t, exec (.i3cReset 0x5A5A) s = .next t) ∧ ∀ w : W32, w ≠ 0x5A5A → exec (.i3cReset w) s = .next s)) ∧
    (∀ ends : Nat, s.boot = .hookWindow ends →
      let opens := fun (t : State) (table : List Byte) =>
        t.boot = .ready ∧ t.hookStage = [] ∧ t.hookTable = table ∧ t.mem = s.mem ∧ t.parts = s.parts ∧ t.tbc = s.tbc
      (ends ≤ s.tbc → Happens (exec .hookWindowExpiry s) fun t => opens t []) ∧
      ∀ w : W32, Happens (exec (.hooklen w) s) fun t =>
        let b := (List.range w.toNat).map fun k => tget 0 s.hookStage k
        opens t (if 64 ≤ w.toNat ∧ w.toNat ≤ 0x200000 ∧ hookTableOk b = true then b else [])) ∧
    (s.boot = .ready → ∀ w : W32, exec (.hooklen w) s = .next s) ∧
    (s.fnUp fn = true → off < 0x10000 → ownWrite fn off = false → 0x40 ≤ off ∨ s.hostSettled fn = true → Happens (exec (.registerWrite (.bar0 fn) off v) s) fun t =>
      t.mem = s.mem ∧ t.cells = s.cells ∧ t.net = s.net ∧ (∀ f o, f ≠ Fn.num fn ∨ o ≠ off → t.bar f o = s.bar f o) ∧
      (off % 8 = 0 → 8 ≤ off → off < 0x40 → t.bar (Fn.num fn) off = v)) ∧
    (s.boot ≠ .off → s.i3cAddr ≠ Option.none → Happens (exec (.registerWrite .i3c 0x14 v) s) fun t =>
      t = { s with i3cStatus := t.i3cStatus } ∧ ∀ k < 4, t.i3cStatus.getLsbD k = (s.i3cStatus.getLsbD k && !v.getLsbD k)) ∧
    (s.fnUp fn = true → 1 ≤ size → size ≤ 8 → (∃ t, exec (.bar2Access fn off size none) s = .next t) ∧
      (s.hostSettled fn = true → ∃ t, exec (.bar2Access fn off size (some v)) s = .next t)) ∧
    (s.boot = .ready → s.fnUp .pf = true → 1 ≤ size → size ≤ 8 →
      exec (.bar2Access .pf off size none) s = .next { s with bar2Data := BitVec.ofNat 64 (2 ^ (8 * size) - 1) }) ∧
    (∀ (ends : Nat), s.boot = .hookWindow ends → s.fnUp .pf = true → 1 ≤ size → size ≤ 8 → off + size ≤ 0x200000 →
      Happens (exec (.bar2Access .pf off size (some v)) s) fun t => t = { s with hookStage := t.hookStage } ∧
        ∀ k, tget 0 t.hookStage k = if off ≤ k ∧ k < off + size then v.extractLsb' (8 * (k - off)) 8 else tget 0 s.hookStage k) ∧
    (∀ (e : W64) (l : Nat), s.fnUp (.vf pn) = true → s.hostWrites pn = false → 1 ≤ size → size ≤ 8 → off + size ≤ 2 ^ 32 →
      let w := s.bar (pn + 1) 0x300
      let va := (w.extractLsb' 32 24).toNat * 2 ^ 32 + off
      s.bar2Walk pn (w.extractLsb' 0 12) va = .leaf e l → va % levelBytes l + size ≤ levelBytes l →
      e.getLsbD 7 = false → e.getLsbD 2 = true → s.bar2Walk pn (w.extractLsb' 0 12) (va + size - 1) = .leaf e l →
      Happens (exec (.bar2Access (.vf pn) off size (some v)) s) fun t => t.cells = s.cells ∧ t.net = s.net ∧
        t.mem = writeLE s.mem (entryAddr e + va % levelBytes l) size v.toNat) ∧
    (∀ flit : List Byte, up → flit.length = 64 →
      let good := (crc64 (flit.take 56)).toNat = field flit 56 8
      let seq := flitSeq flit
      (∃ t, exec (.reelFlitReceive port flit) s = .next t) ∧
      (¬ good → exec (.reelFlitReceive port flit) s = .next (s.setReel port { r with out := r.out ++
        [makeFlit r.rxLast.toNat r.txSeq.toNat 4 0 0 (ownReel port) []] })) ∧
      (good → flitField flit 39 36 = 0 → seq = (r.rxLast.toNat + 1) % 4096 → Happens (exec (.reelFlitReceive port flit) s) fun t =>
        t.mem = s.mem ∧ t.net = s.net ∧ (t.reel port).rxLast = BitVec.ofNat 12 seq) ∧
      (good → flitField flit 39 36 = 0 → seq = r.rxLast.toNat → exec (.reelFlitReceive port flit) s = .next s)) ∧
    (∀ ack : BitVec 12, up → Happens (exec (.reelControlFlit port ack) s) fun t =>
      let b := r.replayBuf.filter fun f => !seqUpTo ack.toNat (flitSeq f)
      t = s.setReel port (t.reel port) ∧ (t.reel port).replayBuf = b ∧ (t.reel port).out = r.out ++ b ∧
      (r.replays.length < 16 → (t.reel port).replays = (r.replays.filter fun t => s.tbc ≤ t + 1000) ++ [s.tbc])) ∧
    (port < 18 → 16 ≤ r.replays.length → 4 ≤ r.lanes → r.retraining = false → Happens (exec (.reelShed port) s) fun t =>
      t.mem = s.mem ∧ t.reel port = { r with lanes := r.lanes / 2, replays := [], retraining := true }) ∧
    (∀ lanes : Nat, port < 18 → r.retraining = true → Happens (exec (.reelRetrainDone port lanes) s) fun t => t.mem = s.mem ∧
      (t.reel port).retraining = false ∧
      (lanes < 2 → (t.reel port).lanes = 0 ∧ (r.lanes ≠ 0 → t.i3cStatus = s.i3cStatus ||| 4)) ∧
      (2 ≤ lanes → lanes = r.lanes ∨ r.lanes = 0 → lanes = 2 ∨ lanes = 4 ∨ lanes = 8 →
        (t.reel port).lanes = lanes ∧ (t.reel port).out = r.out ++ r.replayBuf)) ∧
    (s.boot = .ready → port < 18 → r.lanes = 0 → r.retraining = false → r.nextTry ≤ s.tbc →
      exec (.reelRetrainTimer port) s = .next (s.setReel port { r with retraining := true }))

end Statements4

namespace Sys2Proof.Claims
open Sys2Proof.Machine

/-! ### Host commands (R405) -/

/-- A command that a function may give now, with its parameters: `vf` tells that a virtual function may give it, `target` that it names
a partition that must be open. The host's earlier writes through BAR2 are performed (R449). -/
def Taken (s : State) (fn : Fn) (cmd0 : W64) (opcode : Nat) (masks : List W64) (vf target : Bool) : Prop :=
  let n := Fn.num fn
  s.boot = .ready ∧ s.accepts fn = true ∧ (cmd0.extractLsb' 0 16).toNat = opcode ∧ cmd0.extractLsb' 24 8 = 0 ∧
  (s.inFlight n).wait = .none ∧ (∀ k < 7, s.cmd n (k + 1) &&& ~~~(masks.getD k 0) = 0) ∧
  (fn ≠ .pf → vf = true ∧ cmd0.extractLsb' 16 8 = 0) ∧
  (target = true → cmdPart fn cmd0 < 48 ∧ (s.part (cmdPart fn cmd0)).open_ = true)

/-- A command has returned: TAG and STATUS in RSP0, its results after it, the interrupt of vector 0, and none in flight. -/
def Answered (s t : State) (fn : Fn) (cmd0 : W64) (status : Nat) (results : List W64) : Prop :=
  let n := Fn.num fn
  t.irqs = s.irqs ++ [(n, 0)] ∧ t.inFlight n = {} ∧ t.bar n 0x40 = (cmd0.extractLsb' 32 32 ++ BitVec.ofNat 32 status : BitVec 64) ∧
  ∀ k v, results[k]? = some v → t.bar n (0x48 + 8 * k) = v

/-- A load as GRAPH_LOAD makes it: with the loader's free choices, or with the lowest ones where those do not fit (R84, log entry 9). -/
def loadMade (s : State) (pn : Nat) (asid : BitVec 12) (objs : List CodeObj) (g : GraphObj) (load : Nat) : Nat ⊕ (Graph × State) :=
  match s.loadWith (Config.placement s.turn) pn asid objs g load with
  | .inr y => .inr y
  | .inl _ => s.loadWith (fun _ => 0) pn asid objs g load

/-- A command has been accepted, and waits for something. -/
def Accepted (s t : State) (fn : Fn) (cmd0 : W64) (w : CmdWait) : Prop :=
  let n := Fn.num fn
  t.irqs = s.irqs ∧ t.inFlight n = { tag := cmd0.extractLsb' 32 32, wait := w } ∧
  t.bar n 0x40 = (cmd0.extractLsb' 32 32 ++ (0xFFFF : BitVec 32) : BitVec 64)

end Sys2Proof.Claims

section Statements5
open Sys2Proof Sys2Proof.Machine Sys2Proof.Claims

/-- R84 to R86, R398 to R401, R404 to R410, R423: the host commands on partitions, ASIDs, mappings, attestation and graphs, given as R405
asks, return or wait with the effects said. The model's choices: the governor of a new partition starts at DEFPT, or at the floor where that
is higher (log entry 29), and a GRAPH_UNLOAD answers DONE in the step that takes it (log entry 53). -/
def Obligations.PartitionCommands : Prop :=
  ∀ (s : State) (fn : Fn) (cmd0 : W64),
    let n := Fn.num fn
    let c := s.cmd n
    let pn := cmdPart fn cmd0
    let p := s.part pn
    let v := s.setBar n 0 (cmd0Kept cmd0)
    (Taken s fn cmd0 0x0001 [all64] false false →
      let b := readBytes s.mem (hostKey (c 1).toNat) 256
      let q := Part.ofPcb b
      pcbOk pn b q = true → s.inUse pn q = false → s.fits q = true → q.startPoint ≤ s.rail q.rail → Happens (exec (.partCreate fn cmd0) s) fun t =>
        Answered s t fn cmd0 0 [] ∧ t.net = s.net ∧ (t.part pn).open_ = true ∧ (t.part pn).clusters = q.clusters ∧
        (t.part pn).slabs = q.slabs ∧ (t.part pn).faultSrv = q.faultSrv ∧ (t.part pn).freeBlocks = List.range q.poolB ∧
        (t.part pn).gov.chosen = max q.defpt q.floor ∧ tget none (t.part pn).asids q.asidBase = some { root := q.tableArea } ∧
        (∀ m ∈ q.cells, (t.cell m).tailQuota = q.inboxQ) ∧ ∀ j, j ≠ pn → t.part j = s.part j) ∧
    (Taken s fn cmd0 0x0002 [] false true → Happens (exec (.partDestroy fn cmd0) s) fun t =>
      Answered s t fn cmd0 0 [BitVec.ofNat 64 p.slabs.length] ∧ (t.part pn).open_ = false ∧
      (∀ k ∈ p.slabs, ∀ a, k * 2 ^ 32 ≤ a → a < k * 2 ^ 32 + 2 ^ 32 → mread t.mem a = 0) ∧
      (∀ m ∈ p.cells, ∀ off < 0x90000, mread t.mem (cellKey m off) = 0) ∧
      (∀ k < p.asidCount, tget none (t.part pn).asids (p.asidBase + k) = some { quarantine := true }) ∧
      ∀ j, j ≠ pn → t.part j = s.part j) ∧
    (Taken s fn cmd0 0x0003 [3] false true → p.running = [] → p.gov.inForce ≤ s.rail (c 1).toNat → Happens (exec (.partSetRail fn cmd0) s) fun t =>
      Answered s t fn cmd0 0 [] ∧ t.mem = s.mem ∧ t.cells = s.cells ∧ (t.part pn).rail = (c 1).toNat) ∧
    (Taken s fn cmd0 0x0004 [all64] true true → Happens (exec (.partSetFaultsrv fn cmd0) s) fun t =>
      Answered s t fn cmd0 0 [p.faultSrv] ∧ t.mem = s.mem ∧ t.cells = s.cells ∧ (t.part pn).faultSrv = c 1) ∧
    (Taken s fn cmd0 0x0005 [1, all64] false true → p.dumpOk (c 2).toNat = true →
      ((c 1).getLsbD 0 = false → p.cut = .none → Happens (exec (.partPreempt fn cmd0) s) fun t =>
        Accepted s t fn cmd0 (.preemptSoon pn (c 2).toNat) ∧ t.mem = s.mem ∧ t.cells = s.cells ∧ (t.part pn).cut = .closing) ∧
      ((c 1).getLsbD 0 = false → p.cutting = true → Happens (exec (.partPreempt fn cmd0) s) fun t =>
        Accepted s t fn cmd0 (.preemptSoon pn (c 2).toNat) ∧ t.mem = s.mem ∧ t.cells = s.cells ∧ (t.part pn).cut = p.cut) ∧
      ((c 1).getLsbD 0 = true → p.cut = .preempted → Happens (exec (.partResume fn cmd0) s) fun t =>
        Answered s t fn cmd0 0 [] ∧ (t.part pn).cut = .none ∧
        ∀ m ∈ p.cells, (s.cell m).out = true → (s.cell m).gone = false → (s.cell m).tripped = false → (t.cell m).out = false)) ∧
    (∀ a : Nat, Taken s fn cmd0 0x0101 [all64, 1, all64] true true → (c 1).toNat % 0x10000 = 0 →
      p.ownsRange (c 1).toNat 0x10000 = true → ((c 2).getLsbD 0 = true → p.ownsPa (c 3).toNat = true) → s.freeAsid p = some a →
      Happens (exec (.asidAlloc fn cmd0) s) fun t => Answered s t fn cmd0 0 [BitVec.ofNat 64 a] ∧ t.mem = s.mem ∧ t.cells = s.cells ∧
        tget none (t.part pn).asids a =
          some { root := (c 1).toNat, supplied := (c 2).getLsbD 0, walker := (c 3).toNat, quarantine := false }) ∧
    (∀ x : Asid, Taken s fn cmd0 0x0102 [0xFFF] true true → tget none p.asids (c 1).toNat = some x → x.quarantine = false →
      (c 1).toNat ≠ p.asidBase → (∀ m ∈ p.cells, (s.cell m).casid.toNat ≠ (c 1).toNat) →
      Happens (exec (.asidRelease fn cmd0) s) fun t => Answered s t fn cmd0 0 [] ∧ t.mem = s.mem ∧ t.cells = s.cells ∧
        tget none (t.part pn).asids (c 1).toNat = some { x with quarantine := true } ∧
        ∃ z ∈ t.invals, z.asid = (c 1).extractLsb' 0 12 ∧ z.after = .asidFree (c 1).toNat ∧ z.waiting = invalParties) ∧
    (∀ pa : Nat, Taken s fn cmd0 0x0103 [0xFFF, all64, all64, 0x3FFFFFFFF] true true → (c 4).extractLsb' 0 32 = 1 →
      let asid := (c 1).extractLsb' 0 12
      let size := ((c 4).extractLsb' 32 2).toNat
      p.asidOk asid = true → p.romAsid asid = true → size ≤ 2 → s.leafOf p asid (c 2).toNat size = some pa →
      p.mayMap (leafAt (c 3) size 0) = true → Happens (exec (.memMap fn cmd0) s) fun t =>
        Accepted s t fn cmd0 (.mapping 1 1) ∧ t.cells = s.cells ∧ t.mem = writeLE s.mem pa 8 (leafAt (c 3) size 0).toNat ∧
        ∃ z ∈ t.invals, z.asid = asid ∧ z.page = some (c 2, size) ∧ z.after = .memMapDone n ∧ z.waiting = invalParties) ∧
    (Taken s fn cmd0 0x0401 [all64, all64, all64, all64, all64, 1] true true →
      ((c 6).getLsbD 0 = false → Happens (exec (.attestQuote fn cmd0) s) fun t => Answered s t fn cmd0 0 [384] ∧ t.cells = s.cells ∧
        t.mem = writeBytes s.mem (hostKey (c 1).toNat) (s.quote pn ([2, 3, 4, 5].flatMap fun k => leBytes 8 (c k).toNat))) ∧
      ((c 6).getLsbD 0 = true → Happens (exec (.attestPublicKey fn cmd0) s) fun t => Answered s t fn cmd0 0 [57] ∧ t.cells = s.cells ∧
        t.mem = writeBytes s.mem (hostKey (c 1).toNat) deviceKey)) ∧
    (∀ (objs : List CodeObj) (z : GraphObj) (g : Graph) (x : State) (h : Nat), Taken s fn cmd0 0x0201 [all64, all64, 0xFFFF, 0xFFF] true true →
      s.loading pn = false → c 3 ≠ 0 → (c 3).toNat ≤ 64 →
      let size := readLE s.mem (hostKey ((c 1).toNat + 0x20)) 4
      64 ≤ size → v.loadObjs (c 2).toNat (c 3).toNat = some objs → parseGraph (readBytes s.mem (hostKey (c 1).toNat) size) = some z →
      loadMade v pn ((c 4).extractLsb' 0 12) objs z (p.loads + 1) = .inr (g, x) →
      v.freeHandle p = some h → Happens (exec (.graphLoad fn cmd0) s) fun t => t.mem = x.mem ∧ (t.part pn).graph h = some g ∧
        if g.cells = [] then Answered s t fn cmd0 0 [BitVec.ofNat 64 h]
        else (t.inFlight n).wait = .loading pn (p.loads + 1) h g.cells ∧
          ∀ m ∈ g.cells, startMessage pn ((x.part pn).rel m) m (p.loads + 1) h ∈ t.net) ∧
    (∀ (i q load from_ fn' h : Nat) (src : Endp) (l : W32) (tag : W32) (cells : List Nat), Arrives s i src (.loader q) (.startAck l from_) →
      s.loadCmd q l.toNat = some (fn', { tag, wait := .loading q load h cells }) → Happens (exec (.startAck i) s) fun t => t.mem = s.mem ∧
        t.cells = s.cells ∧
        if ∀ m ∈ cells, m = from_ then t.inFlight fn' = {} ∧ t.irqs = s.irqs ++ [(fn', 0)] ∧ t.bar fn' 0x48 = BitVec.ofNat 64 h
        else t.inFlight fn' = { tag, wait := .loading q load h (cells.filter (· != from_)) } ∧ t.irqs = s.irqs) ∧
    ∀ g : Graph, Taken s fn cmd0 0x0202 [0xFF] true true → p.graph (c 1).toNat = some g → p.graphBusy (c 1).toNat = false →
      s.loading pn = false → Happens (exec (.graphUnload fn cmd0) s) fun t => Answered s t fn cmd0 0 [] ∧ t.cells = s.cells ∧
        (t.part pn).graph (c 1).toNat = Option.none ∧ ∀ j, j ≠ (c 1).toNat → (t.part pn).graph j = p.graph j

/-- R207, R365, R391, R405, R435, R437 to R440, R451, R452, R461: the host commands for checkpoints, debug, trace, power, status and
gateways, given as R405 asks, return or wait with the effects said; an opcode that names no command returns with UNKNOWN. The model's reading, log
entry 42: DEBUG_HALT sets the armed mark to bit 0 of its second parameter, both ways. -/
def Obligations.DeviceCommands : Prop :=
  ∀ (s : State) (fn : Fn) (cmd0 : W64),
    let n := Fn.num fn
    let c := s.cmd n
    let pn := cmdPart fn cmd0
    let p := s.part pn
    let v := s.setBar n 0 (cmd0Kept cmd0)
    (Taken s fn cmd0 0x0301 [all64, all64, 1] true true → p.stopped = false → p.cut = .none → p.dumpOk (c 1).toNat = true →
      Happens (exec (.ckptPart fn cmd0) s) fun t => t.mem = s.mem ∧ t.cells = s.cells ∧
        Accepted s t fn cmd0 (.checkpoint [(pn, (c 1).toNat, (c 2).toNat)] ((c 3).getLsbD 0)) ∧
        (t.part pn).cut = .checkpoint ((c 3).getLsbD 0) s.tbc) ∧
    (∀ l : List (Nat × Nat × Nat), l = (s.ckptTable (c 1).toNat).filter (fun y => (s.part y.1).open_) → Taken s fn cmd0 0x0302 [all64] false false →
      (∀ y ∈ s.ckptTable (c 1).toNat, (s.part y.1).open_ = false → y.2.1 = 0 ∧ y.2.2 = 0) →
      (∀ y ∈ l, s.ckptBad y.1 y.2.1 = Option.none) → Happens (exec (.ckptDevice fn cmd0) s) fun t => t.mem = s.mem ∧ t.cells = s.cells ∧
        Accepted s t fn cmd0 (.checkpoint l false) ∧ ∀ y ∈ l, (t.part y.1).cut = .checkpoint false s.tbc) ∧
    (∀ (z : Image) (x : State), Taken s fn cmd0 0x0303 [all64, all64] true true → p.cut = .none →
      (∀ f ∈ s.cmds, f.2.cuts pn = false) → tget none s.images (c 1).toNat = some z → p.takes pn z (c 2).toNat = true →
      v.restore pn z = some x → Happens (exec (.restorePart fn cmd0) s) fun t => Answered s t fn cmd0 0 [] ∧ t.mem = x.mem ∧
        t.cells = x.cells ∧ t.parts = x.parts ∧ t.dies = x.dies) ∧
    (∀ l : List Nat, p.named (c 1) = some l →
      (Taken s fn cmd0 0x0501 [0xFFF, 1] true true → p.cut = .none → Happens (exec (.debugHalt fn cmd0) s) fun t =>
        Answered s t fn cmd0 0 [] ∧ t.mem = s.mem ∧ (t.part pn).armed = (c 2).getLsbD 0 ∧ (∀ m ∈ l, (t.cell m).halted = true) ∧
        ∀ m, m ∉ l → t.cell m = s.cell m) ∧
      (Taken s fn cmd0 0x0502 [0xFFF] true true → p.stopped = false → Happens (exec (.debugResume fn cmd0) s) fun t =>
        Answered s t fn cmd0 0 [] ∧ t.mem = s.mem ∧ (∀ m ∈ l, (t.cell m).halted = false) ∧ ∀ m, m ∉ l → t.cell m = s.cell m) ∧
      (Taken s fn cmd0 0x0503 [0xFFF, all64, all64, 0x7E] true true → (c 2).toNat % 4096 = 0 →
        c 3 = 0 ∨ (isPow2 (c 3).toNat = true ∧ 4096 ≤ (c 3).toNat ∧ (c 3).toNat ≤ 2 ^ 30) →
        Happens (exec (.traceConfig fn cmd0) s) fun t => Answered s t fn cmd0 0 [] ∧ t.mem = s.mem ∧
          (∀ m ∈ l, (t.cell m).trace = { va := c 2, bytes := (c 3).toNat, mask := (c 4).extractLsb' 1 6, wr := 0 }) ∧
          ∀ m, m ∉ l → t.cell m = s.cell m)) ∧
    (Taken s fn cmd0 0x0601 [0xFFFFFFFF] false false → (c 1).toNat ≤ 2600 → 2920 + s.floors ≤ 4 * (c 1).toNat →
      Happens (exec (.powerCapSet fn cmd0) s) fun t => Answered s t fn cmd0 0 [c 1] ∧ t.mem = s.mem ∧ t.cells = s.cells ∧
        t.capTokens = 4 * (c 1).toNat) ∧
    (Taken s fn cmd0 0x0701 [all64, all64] true false →
      (c 1 = 0 → Happens (exec (.queryIdentity fn cmd0) s) fun t => Answered s t fn cmd0 0 [0x30720021, 0x30000] ∧ t.mem = s.mem ∧
        t.cells = s.cells) ∧
      (c 1 = 1 → pn < 48 → p.open_ = true → Happens (exec (.queryPartitionStatus fn cmd0) s) fun t => t.mem = s.mem ∧ t.cells = s.cells ∧
        ∃ l, Answered s t fn cmd0 0 l ∧ l.length = 7 ∧ l[0]? = some (BitVec.ofNat 64 p.kickOverflow) ∧
          ∃ w, l[1]? = some w ∧ w.getLsbD 0 = p.stopped ∧ w.getLsbD 1 = p.armed ∧ w.getLsbD 2 = decide (p.cut = .preempted)) ∧
      (c 1 = 2 → fn = .pf → Happens (exec (.queryViolationLog fn cmd0) s) fun t => t.cells = s.cells ∧
        Answered s t fn cmd0 0 [BitVec.ofNat 64 s.violations.length, BitVec.ofNat 64 s.violationOverwrites] ∧
        t.mem = writeBytes s.mem (hostKey (c 2).toNat) (s.violations.flatMap (·.bytes))) ∧
      (c 1 = 3 → Happens (exec (.queryReelPorts fn cmd0) s) fun t => t.mem = s.mem ∧ t.cells = s.cells ∧
        ∃ w, Answered s t fn cmd0 0 [w] ∧ ∀ k < 18, (w.toNat / 8 ^ k) % 8 = laneCode (s.reel k).lanes)) ∧
    (∀ d : Nat, Taken s fn cmd0 0x0801 [0x3FF, 0xFFFF, 0xFFFFFFF, 1] false true → p.dies[((c 1).extractLsb' 8 2).toNat]? = some d →
      let k := ((c 1).extractLsb' 0 8).toNat
      ((s.lane d k).part = Option.none ∨ (s.lane d k).part = some pn) →
      ((c 4).getLsbD 0 = false → Happens (exec (.reelBind fn cmd0) s) fun t => Answered s t fn cmd0 0 [] ∧ t.mem = s.mem ∧
        t.cells = s.cells ∧ t.lane d k = { s.lane d k with part := some pn, gateway := some ((c 2).extractLsb' 0 16, c 3) }) ∧
      ((c 4).getLsbD 0 = true → (s.lane d k).gateway ≠ Option.none → Happens (exec (.reelUnbind fn cmd0) s) fun t =>
        Answered s t fn cmd0 0 [] ∧ t.mem = s.mem ∧ t.cells = s.cells ∧ (t.lane d k).gateway = Option.none)) ∧
    (s.accepts fn = true → (cmd0.extractLsb' 0 16).toNat ∉ opcodes → (s.inFlight n).wait = .none →
      Happens (exec (.unknownOpcode fn cmd0) s) fun t => Answered s t fn cmd0 2 [] ∧ t.mem = s.mem ∧ t.cells = s.cells ∧ t.net = s.net) ∧
    (Taken s fn cmd0 0x0701 [all64, all64] true false → c 1 = 0 → ∀ x : InFlight, x.wait ≠ .none →
      Happens (exec (.queryIdentity fn cmd0) { s with cmds := tset s.cmds n x }) fun t =>
        t.bar n 0x40 = (cmd0.extractLsb' 32 32 ++ (1 : BitVec 32) : BitVec 64) ∧ t.inFlight n = x ∧ t.irqs = s.irqs)


/-! ### The machine as a whole -/

/-- R49, R70 and log entry 2: where the one thing that may come next is the issue of a context, and the words at its program counter decode to an
instruction, the step is that instruction executed at that state, and then what issuing adds (State.afterIssue). A step of the device and
an input are likewise exec of that row, and then the time that it takes; with several candidates one of them is done. -/
def Obligations.StepRunsDecoded : Prop :=
  ∀ s : State,
    let u := s.flow
    (∀ (w : Who) (i : Instr) (n : Nat), u.candidates = [.issue w] → ({ u with cur := w } : State).fetch w = .ok i n →
      step s = thenNext (exec i { u with cur := w }) (State.afterIssue { u with cur := w } w (!scalarClass i) (isMma i) (isYield i))) ∧
    (∀ i : Instr, u.candidates = [.event i] → step s = thenNext (exec i u) fun t => t.elapse none false false) ∧
    (∀ i : Instr, u.candidates = [.input i] →
      step s = thenNext (exec i { u with inputs := u.inputs.drop 1 }) fun t => t.elapse none false false) ∧
    (u.candidates = [] → step s = .next (u.elapse none false false)) ∧
    (u.candidates ≠ [] → ∃ c ∈ u.candidates, step s = u.run c)

/-- R11, R20, R454 and log entries 1, 4, 5, 6: what the machine is as its power comes up: no power-good yet, TBC zero, no partition, no
message, no memory listed, every context free, and every register the zero that the log names. -/
def Obligations.ResetMachine : Prop :=
  State.reset.boot = .off ∧ State.reset.tbc = 0 ∧ State.reset.inputs = [.powerGood] ∧ State.reset.net = [] ∧ State.reset.memOk = true ∧
  (∀ a, mread State.reset.mem a = 0) ∧ (∀ pn, (State.reset.part pn).open_ = false) ∧
  ∀ w : Who, (State.reset.ctx w).status = .free ∧ (∀ r L, (State.reset.ctx w).vl r L = 0) ∧ (∀ r, (State.reset.ctx w).s r = 0) ∧
    (∀ r < 7, (State.reset.ctx w).p r = 0 ∧ (State.reset.ctx w).k r = false) ∧ (State.reset.ctx w).r.pc = 0 ∧
    (State.reset.ctx w).r.cm = 0 ∧ (State.reset.ctx w).r.live = 0 ∧ (State.reset.ctx w).r.masks = [] ∧ (State.reset.ctx w).r.loops = []

/-- R48, R50 and the words that the reference writes beside its sources: these words decode to these instructions. -/
def Obligations.SpecWordsDecode : Prop :=
  let always : Head := { neg := false, idx := 7, ext := false }
  decode [0x000C189C] = .ok (.pushm always 3) 1 ∧
  decode [0x0084285C] = .ok (.addi always 1 1 1) 1 ∧
  decode [0x1090805C] = .ok (.add always .s32 false 4 (.reg 4) (.reg 1)) 1 ∧
  decode [0x0188445C] = .ok (.shl always .b32 2 (.reg 2) (.reg 3)) 1 ∧
  decode [0x1018A05E, 0x1234, 0] = .ok (.add always .s32 false 5 (.reg 6) (.lit 0x1234)) 3 ∧
  decode [0x0098D71C] = .ok (.saddi always 6 6 1) 1 ∧
  decode [0x00001F9C] = .ok (.nop always) 1 ∧
  decode [0x50001F9C] = .ok (.ckpt always) 1

/-- R48, R50 to R55, R65: no bit of an encoding is dropped. A well-formed instruction that has words is what the decoder reads from its
words, whatever follows them; and words that the decoder takes are the words of the well-formed instruction that it answers. -/
def Obligations.DecodeOfEncode : Prop :=
  (∀ (i : Instr) (rest : List W32), i.wf = true → i.hasWord = true → decode (encode i ++ rest) = .ok i (encode i).length) ∧
  ∀ (ws : List W32) (i : Instr) (n : Nat), decode ws = .ok i n → i.wf = true ∧ i.hasWord = true ∧ encode i = ws.take n

/-- Log entry 1: every step keeps every memory of the state in its canonical form. -/
def Obligations.MemoryStaysCanonical : Prop :=
  ∀ s t : State, s.memOk = true → step s = .next t → t.memOk = true

/-- R53: s0 reads zero and p7 and k7 read true; a write to them is discarded, and the instruction's other effects still happen. -/
def Obligations.HardWiredRegisters : Prop :=
  (∀ (x : Ctx) (v : W64) (act m : W32) (b : Bool), x.s 0 = 0 ∧ x.p 7 = 0xFFFFFFFF ∧ x.k 7 = true ∧
    x.setS 0 v = x ∧ x.setP 7 act m = x ∧ x.setK 7 b = x) ∧
  ∀ (h : Head) (a : SrcB) (pa pb : PReg) (s : State),
    (Completes s (lenOf h (litB a)) (exec (.smov h 0 a) s) fun y => RegsOnly s.me y [] [] [] []) ∧
    (Completes s (lenOf h false) (exec (.pand h 7 pa pb) s) fun y => RegsOnly s.me y [] [] [] [])

/-- R29, R36, R40, R45: a commit releases the held sends behind those released before; they leave in order, but that a strand to the own cell
does not wait for others; it empties the journal and the pop shadows of the
data queues, and takes a new snapshot; the first one of an activation consumes its messages. Registers and other contexts keep theirs. -/
def Obligations.CommitEffects : Prop :=
  ∀ (s : State) (w : Who) (why : Nat), (s.cell w.cell).dropping = [] →
    let x := s.ctx w
    let y := (s.commit w why).ctx w
    y.r = x.r ∧ y.snap = x.r ∧ y.budget = x.budget ∧ y.snapBudget = x.budget ∧ y.held = [] ∧ y.journal = [] ∧
    y.first = false ∧ y.trigger = [] ∧ y.status = x.status ∧ y.wait = x.wait ∧
    (∃ order gone rest, x.released ++ x.held.map (fun sd => { sd with order }) = gone ++ rest ∧ y.released.Sublist rest ∧
      y.released.filter (fun sd => !s.ownStrand w sd) = rest.filter fun sd => !s.ownStrand w sd) ∧ (∀ q, (y.queue q).shadow = []) ∧
    ∀ k, k ≠ w.ctx → ((s.commit w why).ctx ⟨w.cell, k⟩).r = (s.ctx ⟨w.cell, k⟩).r

/-- R36, R45, R223, R413, R414, R422: a trap rolls its segment back and fills the trap registers, with the program counter of the instruction. A
context in its first segment is freed and its bin held, with its messages back in their places in arrival order, but for the strands of jobs
that are being dropped (R422); one in a later segment is parked. The context is in no match of a join. The record goes to the fault server last, and asks for a verdict. The cell's other contexts are as they were, but that one which has bound an end that
this context let go in its segment loses it again (log entry 21). -/
def Obligations.TrapsAreTaken : Prop :=
  ∀ (s : State) (w : Who) (t : Trap),
    let x := s.ctx w
    let u := s.takeTrap w t
    let msgs := x.trigger.filter fun a => !(a.parcel.job?.any fun j => (s.cell w.cell).dropping.contains j)
    x.once = Option.none → x.wait ≠ some .mma → x.inOnce = false →
    (∃ (l : List Msg) (r : Frec) (d : W64),
      u.net = l ++ [{ vn := .system, src := .cell w.cell, dst := s.serverOf (s.partNo w.cell), body := .parcel (.record r d) }] ∧
      r.cause = t.cause ∧ r.vreq = true ∧ r.first = x.first ∧ r.pc = x.r.pc ∧ r.ctx = BitVec.ofNat 3 w.ctx ∧
      r.xid = t.xid ∧ r.subcause = t.sub ∧ ∀ a, t.addr = some a → r.addr = a) ∧
    (∃ p : PendTrap, (u.cell w.cell).pending = (s.cell w.cell).pending ++ [p] ∧ p.ctx = BitVec.ofNat 3 w.ctx ∧
      p.regs.cause = t.cause ∧ p.regs.pc = x.r.pc ∧ (∀ a, t.addr = some a → p.regs.addr = a) ∧
      (x.first = true → p.bin = some (plEntry x.entry) ∧ p.msgs = msgs) ∧
      (x.first = false → p.bin = Option.none ∧ (u.ctx w).trap = p.regs)) ∧
    (x.first = true → (u.ctx w).status = .free ∧
      ((s.cell w.cell).bin? (plEntry x.entry) ≠ Option.none ∨ (s.cell w.cell).bins.length < 16 →
        ∃ b l, (u.cell w.cell).bin? (plEntry x.entry) = some b ∧ b.msgs.Perm (msgs ++ l) ∧ 0 < b.held ∧
          (∀ z, (s.cell w.cell).bin? (plEntry x.entry) = some z → l = z.msgs) ∧
          (l.Pairwise (fun a a' => a.seq ≤ a'.seq) → b.msgs.Pairwise fun a a' => a.seq ≤ a'.seq))) ∧
    (x.first = false → (u.ctx w).status = .parked ∧ (u.ctx w).r = x.snap ∧ (u.ctx w).budget = x.snapBudget ∧ (u.ctx w).held = [] ∧
      (u.ctx w).journal = [] ∧ (u.ctx w).wait = Option.none ∧ (u.ctx w).fpflags = x.fpflags ∧
      ∀ off old js, x.r.binds = x.snap.binds → (s.cell w.cell).trace.bytes = 0 → x.journal = .word off old :: js →
        readLE u.mem (cellKey w.cell off) 8 = old.toNat) ∧
    ∀ k, k ≠ w.ctx →
      let z := u.ctx ⟨w.cell, k⟩
      let y := s.ctx ⟨w.cell, k⟩
      z = { y with r := { y.r with binds := z.r.binds }, eps := z.eps } ∧
      (x.r.binds = x.snap.binds ∨
        (∀ b ∈ x.snap.binds, ∀ e, b.2 = some e → (s.cell w.cell).heldByOther w.ctx e.chan e.reader = false) → z = y)

end Statements5
end

