-- ==== Sys2Proof/Laws/Tables.lean ====
section
/-! SUPPORT. Laws of sparse tables and of memory: reading after writing, and the canonical form of memory, which every operation
of Tables.lean on a memory keeps. -/

namespace Sys2Proof.Machine

/-! ### Tables -/

@[simp] theorem tget_nil {α : Type} (d : α) (k : Nat) : tget d [] k = d := rfl

@[simp] theorem tget_tset {α : Type} (d : α) (t : Tbl α) (k : Nat) (v : α) : tget d (tset t k v) k = v := by
  induction t with
  | nil => simp [tset, tget]
  | cons x t ih =>
    obtain ⟨j, y⟩ := x
    simp only [tset]
    split
    · simp [tget]
    · split
      · simp [tget]
      · rename_i h1 h2
        simp [tget, Ne.symm h2, ih]

@[simp] theorem tget_tset_ne {α : Type} (d : α) (t : Tbl α) {k j : Nat} (v : α) (h : j ≠ k) :
    tget d (tset t k v) j = tget d t j := by
  induction t with
  | nil => simp [tset, tget, Ne.symm h]
  | cons x t ih =>
    obtain ⟨i, y⟩ := x
    simp only [tset]
    split
    · simp [tget, Ne.symm h]
    · split
      · rename_i h1 h2
        subst h2
        simp [tget, Ne.symm h]
      · simp [tget, ih]

@[simp] theorem tset_tset {α : Type} (t : Tbl α) (k : Nat) (u v : α) : tset (tset t k u) k v = tset t k v := by
  induction t with
  | nil => simp [tset]
  | cons x t ih =>
    obtain ⟨i, y⟩ := x
    by_cases h1 : k < i
    · simp [tset, h1]
    · by_cases h2 : k = i
      · simp [tset, h2]
      · simp [tset, h1, h2, ih]

/-! ### Memory in canonical form -/

/-- The canonical form, said of every place of the list. -/
theorem rising_cons {a : Nat} {b : Byte} {m : Memory} :
    rising ((a, b) :: m) = true ↔ (∀ x ∈ m, a < x.1) ∧ rising m = true := by
  induction m generalizing a b with
  | nil => simp [rising]
  | cons x m ih =>
    obtain ⟨c, y⟩ := x
    simp only [rising, Bool.and_eq_true, decide_eq_true_eq, ih, List.mem_cons, forall_eq_or_imp]
    constructor
    · rintro ⟨h1, h2, h3⟩
      exact ⟨⟨h1, fun x hx => Nat.lt_trans h1 (h2 x hx)⟩, h2, h3⟩
    · rintro ⟨⟨h1, _⟩, h2, h3⟩
      exact ⟨h1, h2, h3⟩

theorem wf_nil : Memory.wf [] = true := rfl

theorem wf_cons {a : Nat} {b : Byte} {m : Memory} :
    Memory.wf ((a, b) :: m) = true ↔ (∀ x ∈ m, a < x.1) ∧ b ≠ 0 ∧ Memory.wf m = true := by
  simp only [Memory.wf, Bool.and_eq_true, rising_cons, List.all_cons, bne_iff_ne, ne_eq]
  tauto

theorem wf_filter (p : Nat × Byte → Bool) {m : Memory} (h : Memory.wf m = true) : Memory.wf (m.filter p) = true := by
  induction m with
  | nil => rfl
  | cons x m ih =>
    obtain ⟨a, b⟩ := x
    obtain ⟨h1, h2, h3⟩ := wf_cons.mp h
    by_cases hp : p (a, b) = true
    · rw [List.filter_cons_of_pos hp]
      exact wf_cons.mpr ⟨fun x hx => h1 x (List.mem_filter.mp hx).1, h2, ih h3⟩
    · rw [List.filter_cons_of_neg hp]
      exact ih h3

theorem mem_minsert {m : Memory} {a : Nat} {b : Byte} {x : Nat × Byte} (h : x ∈ minsert m a b) : x = (a, b) ∨ x ∈ m := by
  induction m with
  | nil => simpa [minsert] using h
  | cons y m ih =>
    obtain ⟨j, z⟩ := y
    simp only [minsert] at h
    split at h
    · simpa using h
    · rcases List.mem_cons.mp h with h | h
      · exact .inr (by simp [h])
      · exact (ih h).imp id (List.mem_cons_of_mem _)

theorem wf_minsert {m : Memory} {a : Nat} {b : Byte} (h : Memory.wf m = true) (hb : b ≠ 0) (ha : ∀ x ∈ m, x.1 ≠ a) :
    Memory.wf (minsert m a b) = true := by
  induction m with
  | nil => simpa [minsert, Memory.wf, rising] using hb
  | cons y m ih =>
    obtain ⟨j, z⟩ := y
    obtain ⟨h1, h2, h3⟩ := wf_cons.mp h
    simp only [minsert]
    split
    · rename_i hj
      refine wf_cons.mpr ⟨fun x hx => ?_, hb, h⟩
      rcases List.mem_cons.mp hx with hx | hx
      · simpa [hx] using hj
      · exact Nat.lt_trans hj (h1 x hx)
    · rename_i hj
      have hja : j ≠ a := ha (j, z) (by simp)
      refine wf_cons.mpr ⟨fun x hx => ?_, h2, ih h3 fun x hx => ha x (List.mem_cons_of_mem _ hx)⟩
      rcases mem_minsert hx with hx | hx
      · subst hx
        show j < a
        omega
      · exact h1 x hx

/-- Writing a byte keeps the canonical form. -/
theorem wf_mwrite {m : Memory} (a : Nat) (b : Byte) (h : Memory.wf m = true) : Memory.wf (mwrite m a b) = true := by
  unfold mwrite
  split
  · exact wf_filter _ h
  · rename_i hb
    exact wf_minsert (wf_filter _ h) hb fun x hx => by simpa using (List.mem_filter.mp hx).2

theorem wf_writeLE {m : Memory} (a n v : Nat) (h : Memory.wf m = true) : Memory.wf (writeLE m a n v) = true := by
  induction n generalizing m a v with
  | zero => exact h
  | succ n ih => exact ih _ _ (wf_mwrite _ _ h)

theorem wf_writeBytes {m : Memory} (a : Nat) (l : List Byte) (h : Memory.wf m = true) : Memory.wf (writeBytes m a l) = true := by
  induction l generalizing m a with
  | nil => exact h
  | cons b l ih => exact ih _ (wf_mwrite _ _ h)

theorem wf_clearRange {m : Memory} (a n : Nat) (h : Memory.wf m = true) : Memory.wf (clearRange m a n) = true := wf_filter _ h

theorem wf_foldl_mwrite {α : Type} (f : α → Nat) (g : α → Byte) (l : List α) {m : Memory} (h : Memory.wf m = true) :
    Memory.wf (l.foldl (fun m x => mwrite m (f x) (g x)) m) = true := by
  induction l generalizing m with
  | nil => exact h
  | cons x l ih => exact ih (wf_mwrite _ _ h)

theorem wf_copyRange {m : Memory} (src dst n : Nat) (h : Memory.wf m = true) : Memory.wf (copyRange m src dst n) = true :=
  wf_foldl_mwrite _ _ _ (wf_clearRange _ _ h)

/-! ### Reading after writing -/

theorem mread_filter_of_neg {m : Memory} {p : Nat × Byte → Bool} {a : Nat} (h : ∀ b, p (a, b) = false) :
    mread (m.filter p) a = 0 := by
  induction m with
  | nil => rfl
  | cons x m ih =>
    obtain ⟨j, y⟩ := x
    by_cases hp : p (j, y) = true
    · rw [List.filter_cons_of_pos hp]
      have hj : j ≠ a := by rintro rfl; simp [h] at hp
      simpa [mread, tget, hj] using ih
    · rw [List.filter_cons_of_neg hp]; exact ih

theorem mread_filter_of_pos {m : Memory} {p : Nat × Byte → Bool} {a : Nat} (h : ∀ b, p (a, b) = true) :
    mread (m.filter p) a = mread m a := by
  induction m with
  | nil => rfl
  | cons x m ih =>
    obtain ⟨j, y⟩ := x
    by_cases hj : j = a
    · subst hj
      rw [List.filter_cons_of_pos (h y)]
      simp [mread, tget]
    · by_cases hp : p (j, y) = true
      · rw [List.filter_cons_of_pos hp]
        simpa [mread, tget, hj] using ih
      · rw [List.filter_cons_of_neg hp]
        simpa [mread, tget, hj] using ih

theorem mread_minsert_ne {m : Memory} {a c : Nat} {b : Byte} (h : c ≠ a) : mread (minsert m a b) c = mread m c := by
  induction m with
  | nil => simp [minsert, mread, tget, Ne.symm h]
  | cons x m ih =>
    obtain ⟨j, y⟩ := x
    simp only [minsert]
    split
    · simp [mread, tget, Ne.symm h]
    · by_cases hj : j = c
      · simp [mread, tget, hj]
      · simpa [mread, tget, hj] using ih

theorem mread_minsert_self {m : Memory} {a : Nat} {b : Byte} (h : ∀ x ∈ m, x.1 ≠ a) : mread (minsert m a b) a = b := by
  induction m with
  | nil => simp [minsert, mread, tget]
  | cons x m ih =>
    obtain ⟨j, y⟩ := x
    simp only [minsert]
    split
    · simp [mread, tget]
    · have hj : j ≠ a := h (j, y) (by simp)
      simpa [mread, tget, hj] using ih fun x hx => h x (List.mem_cons_of_mem _ hx)

/-- A byte written is read back, at every address and in every memory. -/
@[simp] theorem mread_mwrite (m : Memory) (a : Nat) (b : Byte) : mread (mwrite m a b) a = b := by
  unfold mwrite
  split
  · rename_i hb
    rw [hb]
    exact mread_filter_of_neg fun _ => by simp
  · exact mread_minsert_self fun x hx => by simpa using (List.mem_filter.mp hx).2

/-- Every other byte is as before. -/
@[simp] theorem mread_mwrite_ne (m : Memory) {a c : Nat} (b : Byte) (h : c ≠ a) : mread (mwrite m a b) c = mread m c := by
  have hp : ∀ y : Byte, (fun x : Nat × Byte => x.1 != a) (c, y) = true := fun y => by simpa using h
  unfold mwrite
  split
  · exact mread_filter_of_pos hp
  · rw [mread_minsert_ne h]
    exact mread_filter_of_pos hp

theorem mread_writeLE_outside (m : Memory) {a n c : Nat} (v : Nat) (h : c < a ∨ a + n ≤ c) :
    mread (writeLE m a n v) c = mread m c := by
  induction n generalizing m a v with
  | zero => rfl
  | succ n ih =>
    rw [writeLE, ih _ _ (by omega), mread_mwrite_ne _ _ (by omega)]

theorem readLE_writeLE_outside (m : Memory) {a n c k : Nat} (v : Nat) (h : c + k ≤ a ∨ a + n ≤ c) :
    readLE (writeLE m a n v) c k = readLE m c k := by
  induction k generalizing c with
  | zero => rfl
  | succ k ih =>
    rw [readLE, readLE, ih (by omega), mread_writeLE_outside _ _ (by omega)]

/-- Bytes written are read back, lowest byte first. -/
theorem readLE_writeLE (m : Memory) (a n v : Nat) : readLE (writeLE m a n v) a n = v % 256 ^ n := by
  induction n generalizing m a v with
  | zero => simp [readLE, Nat.mod_one]
  | succ n ih =>
    rw [readLE, writeLE, ih, mread_writeLE_outside _ _ (by omega), mread_mwrite]
    have h : (BitVec.ofNat 8 v).toNat = v % 256 := by simp
    rw [h, Nat.pow_succ', Nat.mod_mul]

theorem readLE_lt (m : Memory) (a n : Nat) : readLE m a n < 256 ^ n := by
  induction n generalizing a with
  | zero => simp [readLE]
  | succ n ih =>
    have h1 := ih (a + 1)
    have h2 : (mread m a).toNat < 256 := (mread m a).isLt
    have h3 : 256 ^ (n + 1) = 256 * 256 ^ n := Nat.pow_succ'
    rw [readLE, h3]
    omega

theorem mread_writeBytes_outside (m : Memory) {a c : Nat} (l : List Byte) (h : c < a ∨ a + l.length ≤ c) :
    mread (writeBytes m a l) c = mread m c := by
  induction l generalizing m a with
  | nil => rfl
  | cons b l ih =>
    simp only [List.length_cons] at h
    rw [writeBytes, ih _ (by omega), mread_mwrite_ne _ _ (by omega)]

theorem mread_clearRange_outside (m : Memory) {a n c : Nat} (h : c < a ∨ a + n ≤ c) :
    mread (clearRange m a n) c = mread m c :=
  mread_filter_of_pos fun _ => by simpa using h

theorem mread_clearRange (m : Memory) {a n c : Nat} (h1 : a ≤ c) (h2 : c < a + n) : mread (clearRange m a n) c = 0 :=
  mread_filter_of_neg fun _ => by simp; omega

theorem mread_foldl_mwrite_ne (at_ : Nat → Nat) (f : Nat → Byte) (l : List Nat) (m : Memory) {c : Nat} (h : ∀ k ∈ l, c ≠ at_ k) :
    mread (l.foldl (fun m k => mwrite m (at_ k) (f k)) m) c = mread m c := by
  induction l generalizing m with
  | nil => rfl
  | cons k l ih => rw [List.foldl_cons, ih _ fun j hj => h j (by simp [hj]), mread_mwrite_ne _ _ (h k (by simp))]

/-- What writeAll leaves: at an address that it gives, its byte, and at every other one what was there. -/
theorem mread_writeAll_ne (at_ : Nat → Nat) (f : Nat → Byte) (n : Nat) (m : Memory) {c : Nat} (h : ∀ k < n, c ≠ at_ k) :
    mread (writeAll at_ f n m) c = mread m c :=
  mread_foldl_mwrite_ne at_ f _ m fun k hk => h k (by simpa using hk)

theorem mread_writeAll (at_ : Nat → Nat) (f : Nat → Byte) (n : Nat) (m : Memory) (inj : ∀ j k, at_ j = at_ k → j = k) {k : Nat}
    (h : k < n) : mread (writeAll at_ f n m) (at_ k) = f k := by
  induction n with
  | zero => omega
  | succ n ih =>
    rw [writeAll, List.range_succ, List.foldl_append]
    by_cases e : k = n
    · subst e; exact mread_mwrite ..
    · simp only [List.foldl_cons, List.foldl_nil]
      rw [mread_mwrite_ne _ _ fun g => e (inj _ _ g)]
      exact ih (by omega)

end Sys2Proof.Machine
end

