-- ==== Sys2Proof/Laws/State.lean ====
section
/-! SUPPORT. What each update of the state leaves as it was, field by field, and what is read where it wrote. -/

namespace Sys2Proof.Machine

/-! ### setCell -/

@[simp] theorem State.setCell_mem (s : State) (n : Nat) (c : Cell) : (s.setCell n c).mem = s.mem := rfl
@[simp] theorem State.setCell_boot (s : State) (n : Nat) (c : Cell) : (s.setCell n c).boot = s.boot := rfl
@[simp] theorem State.setCell_tbc (s : State) (n : Nat) (c : Cell) : (s.setCell n c).tbc = s.tbc := rfl
@[simp] theorem State.setCell_clusters (s : State) (n : Nat) (c : Cell) : (s.setCell n c).clusters = s.clusters := rfl
@[simp] theorem State.setCell_dies (s : State) (n : Nat) (c : Cell) : (s.setCell n c).dies = s.dies := rfl
@[simp] theorem State.setCell_parts (s : State) (n : Nat) (c : Cell) : (s.setCell n c).parts = s.parts := rfl
@[simp] theorem State.setCell_rowMaps (s : State) (n : Nat) (c : Cell) : (s.setCell n c).rowMaps = s.rowMaps := rfl
@[simp] theorem State.setCell_failedPhys (s : State) (n : Nat) (c : Cell) : (s.setCell n c).failedPhys = s.failedPhys := rfl
@[simp] theorem State.setCell_hotPhys (s : State) (n : Nat) (c : Cell) : (s.setCell n c).hotPhys = s.hotPhys := rfl
@[simp] theorem State.setCell_physTemp (s : State) (n : Nat) (c : Cell) : (s.setCell n c).physTemp = s.physTemp := rfl
@[simp] theorem State.setCell_spareCyc (s : State) (n : Nat) (c : Cell) : (s.setCell n c).spareCyc = s.spareCyc := rfl
@[simp] theorem State.setCell_machineCheck (s : State) (n : Nat) (c : Cell) : (s.setCell n c).machineCheck = s.machineCheck := rfl
@[simp] theorem State.setCell_rails (s : State) (n : Nat) (c : Cell) : (s.setCell n c).rails = s.rails := rfl
@[simp] theorem State.setCell_railNext (s : State) (n : Nat) (c : Cell) : (s.setCell n c).railNext = s.railNext := rfl
@[simp] theorem State.setCell_capTokens (s : State) (n : Nat) (c : Cell) : (s.setCell n c).capTokens = s.capTokens := rfl
@[simp] theorem State.setCell_weirDone (s : State) (n : Nat) (c : Cell) : (s.setCell n c).weirDone = s.weirDone := rfl
@[simp] theorem State.setCell_violations (s : State) (n : Nat) (c : Cell) : (s.setCell n c).violations = s.violations := rfl
@[simp] theorem State.setCell_violationOverwrites (s : State) (n : Nat) (c : Cell) : (s.setCell n c).violationOverwrites = s.violationOverwrites := rfl
@[simp] theorem State.setCell_reels (s : State) (n : Nat) (c : Cell) : (s.setCell n c).reels = s.reels := rfl
@[simp] theorem State.setCell_bars (s : State) (n : Nat) (c : Cell) : (s.setCell n c).bars = s.bars := rfl
@[simp] theorem State.setCell_cmds (s : State) (n : Nat) (c : Cell) : (s.setCell n c).cmds = s.cmds := rfl
@[simp] theorem State.setCell_images (s : State) (n : Nat) (c : Cell) : (s.setCell n c).images = s.images := rfl
@[simp] theorem State.setCell_hookStage (s : State) (n : Nat) (c : Cell) : (s.setCell n c).hookStage = s.hookStage := rfl
@[simp] theorem State.setCell_hookTable (s : State) (n : Nat) (c : Cell) : (s.setCell n c).hookTable = s.hookTable := rfl
@[simp] theorem State.setCell_fwDigest (s : State) (n : Nat) (c : Cell) : (s.setCell n c).fwDigest = s.fwDigest := rfl
@[simp] theorem State.setCell_irqs (s : State) (n : Nat) (c : Cell) : (s.setCell n c).irqs = s.irqs := rfl
@[simp] theorem State.setCell_sentAt (s : State) (n : Nat) (c : Cell) : (s.setCell n c).sentAt = s.sentAt := rfl
@[simp] theorem State.setCell_heldBack (s : State) (n : Nat) (c : Cell) : (s.setCell n c).heldBack = s.heldBack := rfl
@[simp] theorem State.setCell_invals (s : State) (n : Nat) (c : Cell) : (s.setCell n c).invals = s.invals := rfl
@[simp] theorem State.setCell_net (s : State) (n : Nat) (c : Cell) : (s.setCell n c).net = s.net := rfl
@[simp] theorem State.setCell_refused (s : State) (n : Nat) (c : Cell) : (s.setCell n c).refused = s.refused := rfl
@[simp] theorem State.setCell_arbiters (s : State) (n : Nat) (c : Cell) : (s.setCell n c).arbiters = s.arbiters := rfl
@[simp] theorem State.setCell_gates (s : State) (n : Nat) (c : Cell) : (s.setCell n c).gates = s.gates := rfl
@[simp] theorem State.setCell_relDeps (s : State) (n : Nat) (c : Cell) : (s.setCell n c).relDeps = s.relDeps := rfl
@[simp] theorem State.setCell_inputs (s : State) (n : Nat) (c : Cell) : (s.setCell n c).inputs = s.inputs := rfl
@[simp] theorem State.setCell_cur (s : State) (n : Nat) (c : Cell) : (s.setCell n c).cur = s.cur := rfl
@[simp] theorem State.setCell_nextId (s : State) (n : Nat) (c : Cell) : (s.setCell n c).nextId = s.nextId := rfl
@[simp] theorem State.setCell_turn (s : State) (n : Nat) (c : Cell) : (s.setCell n c).turn = s.turn := rfl

/-! ### setCtx -/

@[simp] theorem State.setCtx_mem (s : State) (w : Who) (x : Ctx) : (s.setCtx w x).mem = s.mem := rfl
@[simp] theorem State.setCtx_boot (s : State) (w : Who) (x : Ctx) : (s.setCtx w x).boot = s.boot := rfl
@[simp] theorem State.setCtx_tbc (s : State) (w : Who) (x : Ctx) : (s.setCtx w x).tbc = s.tbc := rfl
@[simp] theorem State.setCtx_clusters (s : State) (w : Who) (x : Ctx) : (s.setCtx w x).clusters = s.clusters := rfl
@[simp] theorem State.setCtx_dies (s : State) (w : Who) (x : Ctx) : (s.setCtx w x).dies = s.dies := rfl
@[simp] theorem State.setCtx_parts (s : State) (w : Who) (x : Ctx) : (s.setCtx w x).parts = s.parts := rfl
@[simp] theorem State.setCtx_rowMaps (s : State) (w : Who) (x : Ctx) : (s.setCtx w x).rowMaps = s.rowMaps := rfl
@[simp] theorem State.setCtx_failedPhys (s : State) (w : Who) (x : Ctx) : (s.setCtx w x).failedPhys = s.failedPhys := rfl
@[simp] theorem State.setCtx_hotPhys (s : State) (w : Who) (x : Ctx) : (s.setCtx w x).hotPhys = s.hotPhys := rfl
@[simp] theorem State.setCtx_physTemp (s : State) (w : Who) (x : Ctx) : (s.setCtx w x).physTemp = s.physTemp := rfl
@[simp] theorem State.setCtx_spareCyc (s : State) (w : Who) (x : Ctx) : (s.setCtx w x).spareCyc = s.spareCyc := rfl
@[simp] theorem State.setCtx_machineCheck (s : State) (w : Who) (x : Ctx) : (s.setCtx w x).machineCheck = s.machineCheck := rfl
@[simp] theorem State.setCtx_rails (s : State) (w : Who) (x : Ctx) : (s.setCtx w x).rails = s.rails := rfl
@[simp] theorem State.setCtx_railNext (s : State) (w : Who) (x : Ctx) : (s.setCtx w x).railNext = s.railNext := rfl
@[simp] theorem State.setCtx_capTokens (s : State) (w : Who) (x : Ctx) : (s.setCtx w x).capTokens = s.capTokens := rfl
@[simp] theorem State.setCtx_weirDone (s : State) (w : Who) (x : Ctx) : (s.setCtx w x).weirDone = s.weirDone := rfl
@[simp] theorem State.setCtx_violations (s : State) (w : Who) (x : Ctx) : (s.setCtx w x).violations = s.violations := rfl
@[simp] theorem State.setCtx_violationOverwrites (s : State) (w : Who) (x : Ctx) : (s.setCtx w x).violationOverwrites = s.violationOverwrites := rfl
@[simp] theorem State.setCtx_reels (s : State) (w : Who) (x : Ctx) : (s.setCtx w x).reels = s.reels := rfl
@[simp] theorem State.setCtx_bars (s : State) (w : Who) (x : Ctx) : (s.setCtx w x).bars = s.bars := rfl
@[simp] theorem State.setCtx_cmds (s : State) (w : Who) (x : Ctx) : (s.setCtx w x).cmds = s.cmds := rfl
@[simp] theorem State.setCtx_images (s : State) (w : Who) (x : Ctx) : (s.setCtx w x).images = s.images := rfl
@[simp] theorem State.setCtx_hookStage (s : State) (w : Who) (x : Ctx) : (s.setCtx w x).hookStage = s.hookStage := rfl
@[simp] theorem State.setCtx_hookTable (s : State) (w : Who) (x : Ctx) : (s.setCtx w x).hookTable = s.hookTable := rfl
@[simp] theorem State.setCtx_fwDigest (s : State) (w : Who) (x : Ctx) : (s.setCtx w x).fwDigest = s.fwDigest := rfl
@[simp] theorem State.setCtx_irqs (s : State) (w : Who) (x : Ctx) : (s.setCtx w x).irqs = s.irqs := rfl
@[simp] theorem State.setCtx_sentAt (s : State) (w : Who) (x : Ctx) : (s.setCtx w x).sentAt = s.sentAt := rfl
@[simp] theorem State.setCtx_heldBack (s : State) (w : Who) (x : Ctx) : (s.setCtx w x).heldBack = s.heldBack := rfl
@[simp] theorem State.setCtx_invals (s : State) (w : Who) (x : Ctx) : (s.setCtx w x).invals = s.invals := rfl
@[simp] theorem State.setCtx_net (s : State) (w : Who) (x : Ctx) : (s.setCtx w x).net = s.net := rfl
@[simp] theorem State.setCtx_refused (s : State) (w : Who) (x : Ctx) : (s.setCtx w x).refused = s.refused := rfl
@[simp] theorem State.setCtx_arbiters (s : State) (w : Who) (x : Ctx) : (s.setCtx w x).arbiters = s.arbiters := rfl
@[simp] theorem State.setCtx_gates (s : State) (w : Who) (x : Ctx) : (s.setCtx w x).gates = s.gates := rfl
@[simp] theorem State.setCtx_relDeps (s : State) (w : Who) (x : Ctx) : (s.setCtx w x).relDeps = s.relDeps := rfl
@[simp] theorem State.setCtx_inputs (s : State) (w : Who) (x : Ctx) : (s.setCtx w x).inputs = s.inputs := rfl
@[simp] theorem State.setCtx_cur (s : State) (w : Who) (x : Ctx) : (s.setCtx w x).cur = s.cur := rfl
@[simp] theorem State.setCtx_nextId (s : State) (w : Who) (x : Ctx) : (s.setCtx w x).nextId = s.nextId := rfl
@[simp] theorem State.setCtx_turn (s : State) (w : Who) (x : Ctx) : (s.setCtx w x).turn = s.turn := rfl

/-! ### setMe -/

@[simp] theorem State.setMe_mem (s : State) (x : Ctx) : (s.setMe x).mem = s.mem := rfl
@[simp] theorem State.setMe_boot (s : State) (x : Ctx) : (s.setMe x).boot = s.boot := rfl
@[simp] theorem State.setMe_tbc (s : State) (x : Ctx) : (s.setMe x).tbc = s.tbc := rfl
@[simp] theorem State.setMe_clusters (s : State) (x : Ctx) : (s.setMe x).clusters = s.clusters := rfl
@[simp] theorem State.setMe_dies (s : State) (x : Ctx) : (s.setMe x).dies = s.dies := rfl
@[simp] theorem State.setMe_parts (s : State) (x : Ctx) : (s.setMe x).parts = s.parts := rfl
@[simp] theorem State.setMe_rowMaps (s : State) (x : Ctx) : (s.setMe x).rowMaps = s.rowMaps := rfl
@[simp] theorem State.setMe_failedPhys (s : State) (x : Ctx) : (s.setMe x).failedPhys = s.failedPhys := rfl
@[simp] theorem State.setMe_hotPhys (s : State) (x : Ctx) : (s.setMe x).hotPhys = s.hotPhys := rfl
@[simp] theorem State.setMe_physTemp (s : State) (x : Ctx) : (s.setMe x).physTemp = s.physTemp := rfl
@[simp] theorem State.setMe_spareCyc (s : State) (x : Ctx) : (s.setMe x).spareCyc = s.spareCyc := rfl
@[simp] theorem State.setMe_machineCheck (s : State) (x : Ctx) : (s.setMe x).machineCheck = s.machineCheck := rfl
@[simp] theorem State.setMe_rails (s : State) (x : Ctx) : (s.setMe x).rails = s.rails := rfl
@[simp] theorem State.setMe_railNext (s : State) (x : Ctx) : (s.setMe x).railNext = s.railNext := rfl
@[simp] theorem State.setMe_capTokens (s : State) (x : Ctx) : (s.setMe x).capTokens = s.capTokens := rfl
@[simp] theorem State.setMe_weirDone (s : State) (x : Ctx) : (s.setMe x).weirDone = s.weirDone := rfl
@[simp] theorem State.setMe_violations (s : State) (x : Ctx) : (s.setMe x).violations = s.violations := rfl
@[simp] theorem State.setMe_violationOverwrites (s : State) (x : Ctx) : (s.setMe x).violationOverwrites = s.violationOverwrites := rfl
@[simp] theorem State.setMe_reels (s : State) (x : Ctx) : (s.setMe x).reels = s.reels := rfl
@[simp] theorem State.setMe_bars (s : State) (x : Ctx) : (s.setMe x).bars = s.bars := rfl
@[simp] theorem State.setMe_cmds (s : State) (x : Ctx) : (s.setMe x).cmds = s.cmds := rfl
@[simp] theorem State.setMe_images (s : State) (x : Ctx) : (s.setMe x).images = s.images := rfl
@[simp] theorem State.setMe_hookStage (s : State) (x : Ctx) : (s.setMe x).hookStage = s.hookStage := rfl
@[simp] theorem State.setMe_hookTable (s : State) (x : Ctx) : (s.setMe x).hookTable = s.hookTable := rfl
@[simp] theorem State.setMe_fwDigest (s : State) (x : Ctx) : (s.setMe x).fwDigest = s.fwDigest := rfl
@[simp] theorem State.setMe_irqs (s : State) (x : Ctx) : (s.setMe x).irqs = s.irqs := rfl
@[simp] theorem State.setMe_sentAt (s : State) (x : Ctx) : (s.setMe x).sentAt = s.sentAt := rfl
@[simp] theorem State.setMe_heldBack (s : State) (x : Ctx) : (s.setMe x).heldBack = s.heldBack := rfl
@[simp] theorem State.setMe_invals (s : State) (x : Ctx) : (s.setMe x).invals = s.invals := rfl
@[simp] theorem State.setMe_net (s : State) (x : Ctx) : (s.setMe x).net = s.net := rfl
@[simp] theorem State.setMe_refused (s : State) (x : Ctx) : (s.setMe x).refused = s.refused := rfl
@[simp] theorem State.setMe_arbiters (s : State) (x : Ctx) : (s.setMe x).arbiters = s.arbiters := rfl
@[simp] theorem State.setMe_gates (s : State) (x : Ctx) : (s.setMe x).gates = s.gates := rfl
@[simp] theorem State.setMe_relDeps (s : State) (x : Ctx) : (s.setMe x).relDeps = s.relDeps := rfl
@[simp] theorem State.setMe_inputs (s : State) (x : Ctx) : (s.setMe x).inputs = s.inputs := rfl
@[simp] theorem State.setMe_cur (s : State) (x : Ctx) : (s.setMe x).cur = s.cur := rfl
@[simp] theorem State.setMe_nextId (s : State) (x : Ctx) : (s.setMe x).nextId = s.nextId := rfl
@[simp] theorem State.setMe_turn (s : State) (x : Ctx) : (s.setMe x).turn = s.turn := rfl

/-! ### setMyCell -/

@[simp] theorem State.setMyCell_mem (s : State) (c : Cell) : (s.setMyCell c).mem = s.mem := rfl
@[simp] theorem State.setMyCell_boot (s : State) (c : Cell) : (s.setMyCell c).boot = s.boot := rfl
@[simp] theorem State.setMyCell_tbc (s : State) (c : Cell) : (s.setMyCell c).tbc = s.tbc := rfl
@[simp] theorem State.setMyCell_clusters (s : State) (c : Cell) : (s.setMyCell c).clusters = s.clusters := rfl
@[simp] theorem State.setMyCell_dies (s : State) (c : Cell) : (s.setMyCell c).dies = s.dies := rfl
@[simp] theorem State.setMyCell_parts (s : State) (c : Cell) : (s.setMyCell c).parts = s.parts := rfl
@[simp] theorem State.setMyCell_rowMaps (s : State) (c : Cell) : (s.setMyCell c).rowMaps = s.rowMaps := rfl
@[simp] theorem State.setMyCell_failedPhys (s : State) (c : Cell) : (s.setMyCell c).failedPhys = s.failedPhys := rfl
@[simp] theorem State.setMyCell_hotPhys (s : State) (c : Cell) : (s.setMyCell c).hotPhys = s.hotPhys := rfl
@[simp] theorem State.setMyCell_physTemp (s : State) (c : Cell) : (s.setMyCell c).physTemp = s.physTemp := rfl
@[simp] theorem State.setMyCell_spareCyc (s : State) (c : Cell) : (s.setMyCell c).spareCyc = s.spareCyc := rfl
@[simp] theorem State.setMyCell_machineCheck (s : State) (c : Cell) : (s.setMyCell c).machineCheck = s.machineCheck := rfl
@[simp] theorem State.setMyCell_rails (s : State) (c : Cell) : (s.setMyCell c).rails = s.rails := rfl
@[simp] theorem State.setMyCell_railNext (s : State) (c : Cell) : (s.setMyCell c).railNext = s.railNext := rfl
@[simp] theorem State.setMyCell_capTokens (s : State) (c : Cell) : (s.setMyCell c).capTokens = s.capTokens := rfl
@[simp] theorem State.setMyCell_weirDone (s : State) (c : Cell) : (s.setMyCell c).weirDone = s.weirDone := rfl
@[simp] theorem State.setMyCell_violations (s : State) (c : Cell) : (s.setMyCell c).violations = s.violations := rfl
@[simp] theorem State.setMyCell_violationOverwrites (s : State) (c : Cell) : (s.setMyCell c).violationOverwrites = s.violationOverwrites := rfl
@[simp] theorem State.setMyCell_reels (s : State) (c : Cell) : (s.setMyCell c).reels = s.reels := rfl
@[simp] theorem State.setMyCell_bars (s : State) (c : Cell) : (s.setMyCell c).bars = s.bars := rfl
@[simp] theorem State.setMyCell_cmds (s : State) (c : Cell) : (s.setMyCell c).cmds = s.cmds := rfl
@[simp] theorem State.setMyCell_images (s : State) (c : Cell) : (s.setMyCell c).images = s.images := rfl
@[simp] theorem State.setMyCell_hookStage (s : State) (c : Cell) : (s.setMyCell c).hookStage = s.hookStage := rfl
@[simp] theorem State.setMyCell_hookTable (s : State) (c : Cell) : (s.setMyCell c).hookTable = s.hookTable := rfl
@[simp] theorem State.setMyCell_fwDigest (s : State) (c : Cell) : (s.setMyCell c).fwDigest = s.fwDigest := rfl
@[simp] theorem State.setMyCell_irqs (s : State) (c : Cell) : (s.setMyCell c).irqs = s.irqs := rfl
@[simp] theorem State.setMyCell_sentAt (s : State) (c : Cell) : (s.setMyCell c).sentAt = s.sentAt := rfl
@[simp] theorem State.setMyCell_heldBack (s : State) (c : Cell) : (s.setMyCell c).heldBack = s.heldBack := rfl
@[simp] theorem State.setMyCell_invals (s : State) (c : Cell) : (s.setMyCell c).invals = s.invals := rfl
@[simp] theorem State.setMyCell_net (s : State) (c : Cell) : (s.setMyCell c).net = s.net := rfl
@[simp] theorem State.setMyCell_refused (s : State) (c : Cell) : (s.setMyCell c).refused = s.refused := rfl
@[simp] theorem State.setMyCell_arbiters (s : State) (c : Cell) : (s.setMyCell c).arbiters = s.arbiters := rfl
@[simp] theorem State.setMyCell_gates (s : State) (c : Cell) : (s.setMyCell c).gates = s.gates := rfl
@[simp] theorem State.setMyCell_relDeps (s : State) (c : Cell) : (s.setMyCell c).relDeps = s.relDeps := rfl
@[simp] theorem State.setMyCell_inputs (s : State) (c : Cell) : (s.setMyCell c).inputs = s.inputs := rfl
@[simp] theorem State.setMyCell_cur (s : State) (c : Cell) : (s.setMyCell c).cur = s.cur := rfl
@[simp] theorem State.setMyCell_nextId (s : State) (c : Cell) : (s.setMyCell c).nextId = s.nextId := rfl
@[simp] theorem State.setMyCell_turn (s : State) (c : Cell) : (s.setMyCell c).turn = s.turn := rfl

/-! ### setCluster -/

@[simp] theorem State.setCluster_mem (s : State) (k : Nat) (c : Cluster) : (s.setCluster k c).mem = s.mem := rfl
@[simp] theorem State.setCluster_boot (s : State) (k : Nat) (c : Cluster) : (s.setCluster k c).boot = s.boot := rfl
@[simp] theorem State.setCluster_tbc (s : State) (k : Nat) (c : Cluster) : (s.setCluster k c).tbc = s.tbc := rfl
@[simp] theorem State.setCluster_cells (s : State) (k : Nat) (c : Cluster) : (s.setCluster k c).cells = s.cells := rfl
@[simp] theorem State.setCluster_dies (s : State) (k : Nat) (c : Cluster) : (s.setCluster k c).dies = s.dies := rfl
@[simp] theorem State.setCluster_parts (s : State) (k : Nat) (c : Cluster) : (s.setCluster k c).parts = s.parts := rfl
@[simp] theorem State.setCluster_rowMaps (s : State) (k : Nat) (c : Cluster) : (s.setCluster k c).rowMaps = s.rowMaps := rfl
@[simp] theorem State.setCluster_failedPhys (s : State) (k : Nat) (c : Cluster) : (s.setCluster k c).failedPhys = s.failedPhys := rfl
@[simp] theorem State.setCluster_hotPhys (s : State) (k : Nat) (c : Cluster) : (s.setCluster k c).hotPhys = s.hotPhys := rfl
@[simp] theorem State.setCluster_physTemp (s : State) (k : Nat) (c : Cluster) : (s.setCluster k c).physTemp = s.physTemp := rfl
@[simp] theorem State.setCluster_spareCyc (s : State) (k : Nat) (c : Cluster) : (s.setCluster k c).spareCyc = s.spareCyc := rfl
@[simp] theorem State.setCluster_machineCheck (s : State) (k : Nat) (c : Cluster) : (s.setCluster k c).machineCheck = s.machineCheck := rfl
@[simp] theorem State.setCluster_rails (s : State) (k : Nat) (c : Cluster) : (s.setCluster k c).rails = s.rails := rfl
@[simp] theorem State.setCluster_railNext (s : State) (k : Nat) (c : Cluster) : (s.setCluster k c).railNext = s.railNext := rfl
@[simp] theorem State.setCluster_capTokens (s : State) (k : Nat) (c : Cluster) : (s.setCluster k c).capTokens = s.capTokens := rfl
@[simp] theorem State.setCluster_weirDone (s : State) (k : Nat) (c : Cluster) : (s.setCluster k c).weirDone = s.weirDone := rfl
@[simp] theorem State.setCluster_violations (s : State) (k : Nat) (c : Cluster) : (s.setCluster k c).violations = s.violations := rfl
@[simp] theorem State.setCluster_violationOverwrites (s : State) (k : Nat) (c : Cluster) : (s.setCluster k c).violationOverwrites = s.violationOverwrites := rfl
@[simp] theorem State.setCluster_reels (s : State) (k : Nat) (c : Cluster) : (s.setCluster k c).reels = s.reels := rfl
@[simp] theorem State.setCluster_bars (s : State) (k : Nat) (c : Cluster) : (s.setCluster k c).bars = s.bars := rfl
@[simp] theorem State.setCluster_cmds (s : State) (k : Nat) (c : Cluster) : (s.setCluster k c).cmds = s.cmds := rfl
@[simp] theorem State.setCluster_images (s : State) (k : Nat) (c : Cluster) : (s.setCluster k c).images = s.images := rfl
@[simp] theorem State.setCluster_hookStage (s : State) (k : Nat) (c : Cluster) : (s.setCluster k c).hookStage = s.hookStage := rfl
@[simp] theorem State.setCluster_hookTable (s : State) (k : Nat) (c : Cluster) : (s.setCluster k c).hookTable = s.hookTable := rfl
@[simp] theorem State.setCluster_fwDigest (s : State) (k : Nat) (c : Cluster) : (s.setCluster k c).fwDigest = s.fwDigest := rfl
@[simp] theorem State.setCluster_irqs (s : State) (k : Nat) (c : Cluster) : (s.setCluster k c).irqs = s.irqs := rfl
@[simp] theorem State.setCluster_sentAt (s : State) (k : Nat) (c : Cluster) : (s.setCluster k c).sentAt = s.sentAt := rfl
@[simp] theorem State.setCluster_heldBack (s : State) (k : Nat) (c : Cluster) : (s.setCluster k c).heldBack = s.heldBack := rfl
@[simp] theorem State.setCluster_invals (s : State) (k : Nat) (c : Cluster) : (s.setCluster k c).invals = s.invals := rfl
@[simp] theorem State.setCluster_net (s : State) (k : Nat) (c : Cluster) : (s.setCluster k c).net = s.net := rfl
@[simp] theorem State.setCluster_refused (s : State) (k : Nat) (c : Cluster) : (s.setCluster k c).refused = s.refused := rfl
@[simp] theorem State.setCluster_arbiters (s : State) (k : Nat) (c : Cluster) : (s.setCluster k c).arbiters = s.arbiters := rfl
@[simp] theorem State.setCluster_gates (s : State) (k : Nat) (c : Cluster) : (s.setCluster k c).gates = s.gates := rfl
@[simp] theorem State.setCluster_relDeps (s : State) (k : Nat) (c : Cluster) : (s.setCluster k c).relDeps = s.relDeps := rfl
@[simp] theorem State.setCluster_inputs (s : State) (k : Nat) (c : Cluster) : (s.setCluster k c).inputs = s.inputs := rfl
@[simp] theorem State.setCluster_cur (s : State) (k : Nat) (c : Cluster) : (s.setCluster k c).cur = s.cur := rfl
@[simp] theorem State.setCluster_nextId (s : State) (k : Nat) (c : Cluster) : (s.setCluster k c).nextId = s.nextId := rfl
@[simp] theorem State.setCluster_turn (s : State) (k : Nat) (c : Cluster) : (s.setCluster k c).turn = s.turn := rfl

/-! ### setDie -/

@[simp] theorem State.setDie_mem (s : State) (d : Nat) (x : Die) : (s.setDie d x).mem = s.mem := rfl
@[simp] theorem State.setDie_boot (s : State) (d : Nat) (x : Die) : (s.setDie d x).boot = s.boot := rfl
@[simp] theorem State.setDie_tbc (s : State) (d : Nat) (x : Die) : (s.setDie d x).tbc = s.tbc := rfl
@[simp] theorem State.setDie_cells (s : State) (d : Nat) (x : Die) : (s.setDie d x).cells = s.cells := rfl
@[simp] theorem State.setDie_clusters (s : State) (d : Nat) (x : Die) : (s.setDie d x).clusters = s.clusters := rfl
@[simp] theorem State.setDie_parts (s : State) (d : Nat) (x : Die) : (s.setDie d x).parts = s.parts := rfl
@[simp] theorem State.setDie_rowMaps (s : State) (d : Nat) (x : Die) : (s.setDie d x).rowMaps = s.rowMaps := rfl
@[simp] theorem State.setDie_failedPhys (s : State) (d : Nat) (x : Die) : (s.setDie d x).failedPhys = s.failedPhys := rfl
@[simp] theorem State.setDie_hotPhys (s : State) (d : Nat) (x : Die) : (s.setDie d x).hotPhys = s.hotPhys := rfl
@[simp] theorem State.setDie_physTemp (s : State) (d : Nat) (x : Die) : (s.setDie d x).physTemp = s.physTemp := rfl
@[simp] theorem State.setDie_spareCyc (s : State) (d : Nat) (x : Die) : (s.setDie d x).spareCyc = s.spareCyc := rfl
@[simp] theorem State.setDie_machineCheck (s : State) (d : Nat) (x : Die) : (s.setDie d x).machineCheck = s.machineCheck := rfl
@[simp] theorem State.setDie_rails (s : State) (d : Nat) (x : Die) : (s.setDie d x).rails = s.rails := rfl
@[simp] theorem State.setDie_railNext (s : State) (d : Nat) (x : Die) : (s.setDie d x).railNext = s.railNext := rfl
@[simp] theorem State.setDie_capTokens (s : State) (d : Nat) (x : Die) : (s.setDie d x).capTokens = s.capTokens := rfl
@[simp] theorem State.setDie_weirDone (s : State) (d : Nat) (x : Die) : (s.setDie d x).weirDone = s.weirDone := rfl
@[simp] theorem State.setDie_violations (s : State) (d : Nat) (x : Die) : (s.setDie d x).violations = s.violations := rfl
@[simp] theorem State.setDie_violationOverwrites (s : State) (d : Nat) (x : Die) : (s.setDie d x).violationOverwrites = s.violationOverwrites := rfl
@[simp] theorem State.setDie_reels (s : State) (d : Nat) (x : Die) : (s.setDie d x).reels = s.reels := rfl
@[simp] theorem State.setDie_bars (s : State) (d : Nat) (x : Die) : (s.setDie d x).bars = s.bars := rfl
@[simp] theorem State.setDie_cmds (s : State) (d : Nat) (x : Die) : (s.setDie d x).cmds = s.cmds := rfl
@[simp] theorem State.setDie_images (s : State) (d : Nat) (x : Die) : (s.setDie d x).images = s.images := rfl
@[simp] theorem State.setDie_hookStage (s : State) (d : Nat) (x : Die) : (s.setDie d x).hookStage = s.hookStage := rfl
@[simp] theorem State.setDie_hookTable (s : State) (d : Nat) (x : Die) : (s.setDie d x).hookTable = s.hookTable := rfl
@[simp] theorem State.setDie_fwDigest (s : State) (d : Nat) (x : Die) : (s.setDie d x).fwDigest = s.fwDigest := rfl
@[simp] theorem State.setDie_irqs (s : State) (d : Nat) (x : Die) : (s.setDie d x).irqs = s.irqs := rfl
@[simp] theorem State.setDie_sentAt (s : State) (d : Nat) (x : Die) : (s.setDie d x).sentAt = s.sentAt := rfl
@[simp] theorem State.setDie_heldBack (s : State) (d : Nat) (x : Die) : (s.setDie d x).heldBack = s.heldBack := rfl
@[simp] theorem State.setDie_invals (s : State) (d : Nat) (x : Die) : (s.setDie d x).invals = s.invals := rfl
@[simp] theorem State.setDie_net (s : State) (d : Nat) (x : Die) : (s.setDie d x).net = s.net := rfl
@[simp] theorem State.setDie_refused (s : State) (d : Nat) (x : Die) : (s.setDie d x).refused = s.refused := rfl
@[simp] theorem State.setDie_arbiters (s : State) (d : Nat) (x : Die) : (s.setDie d x).arbiters = s.arbiters := rfl
@[simp] theorem State.setDie_gates (s : State) (d : Nat) (x : Die) : (s.setDie d x).gates = s.gates := rfl
@[simp] theorem State.setDie_relDeps (s : State) (d : Nat) (x : Die) : (s.setDie d x).relDeps = s.relDeps := rfl
@[simp] theorem State.setDie_inputs (s : State) (d : Nat) (x : Die) : (s.setDie d x).inputs = s.inputs := rfl
@[simp] theorem State.setDie_cur (s : State) (d : Nat) (x : Die) : (s.setDie d x).cur = s.cur := rfl
@[simp] theorem State.setDie_nextId (s : State) (d : Nat) (x : Die) : (s.setDie d x).nextId = s.nextId := rfl
@[simp] theorem State.setDie_turn (s : State) (d : Nat) (x : Die) : (s.setDie d x).turn = s.turn := rfl

/-! ### setPart -/

@[simp] theorem State.setPart_mem (s : State) (p : Nat) (x : Part) : (s.setPart p x).mem = s.mem := rfl
@[simp] theorem State.setPart_boot (s : State) (p : Nat) (x : Part) : (s.setPart p x).boot = s.boot := rfl
@[simp] theorem State.setPart_tbc (s : State) (p : Nat) (x : Part) : (s.setPart p x).tbc = s.tbc := rfl
@[simp] theorem State.setPart_cells (s : State) (p : Nat) (x : Part) : (s.setPart p x).cells = s.cells := rfl
@[simp] theorem State.setPart_clusters (s : State) (p : Nat) (x : Part) : (s.setPart p x).clusters = s.clusters := rfl
@[simp] theorem State.setPart_dies (s : State) (p : Nat) (x : Part) : (s.setPart p x).dies = s.dies := rfl
@[simp] theorem State.setPart_rowMaps (s : State) (p : Nat) (x : Part) : (s.setPart p x).rowMaps = s.rowMaps := rfl
@[simp] theorem State.setPart_failedPhys (s : State) (p : Nat) (x : Part) : (s.setPart p x).failedPhys = s.failedPhys := rfl
@[simp] theorem State.setPart_hotPhys (s : State) (p : Nat) (x : Part) : (s.setPart p x).hotPhys = s.hotPhys := rfl
@[simp] theorem State.setPart_physTemp (s : State) (p : Nat) (x : Part) : (s.setPart p x).physTemp = s.physTemp := rfl
@[simp] theorem State.setPart_spareCyc (s : State) (p : Nat) (x : Part) : (s.setPart p x).spareCyc = s.spareCyc := rfl
@[simp] theorem State.setPart_machineCheck (s : State) (p : Nat) (x : Part) : (s.setPart p x).machineCheck = s.machineCheck := rfl
@[simp] theorem State.setPart_rails (s : State) (p : Nat) (x : Part) : (s.setPart p x).rails = s.rails := rfl
@[simp] theorem State.setPart_railNext (s : State) (p : Nat) (x : Part) : (s.setPart p x).railNext = s.railNext := rfl
@[simp] theorem State.setPart_capTokens (s : State) (p : Nat) (x : Part) : (s.setPart p x).capTokens = s.capTokens := rfl
@[simp] theorem State.setPart_weirDone (s : State) (p : Nat) (x : Part) : (s.setPart p x).weirDone = s.weirDone := rfl
@[simp] theorem State.setPart_violations (s : State) (p : Nat) (x : Part) : (s.setPart p x).violations = s.violations := rfl
@[simp] theorem State.setPart_violationOverwrites (s : State) (p : Nat) (x : Part) : (s.setPart p x).violationOverwrites = s.violationOverwrites := rfl
@[simp] theorem State.setPart_reels (s : State) (p : Nat) (x : Part) : (s.setPart p x).reels = s.reels := rfl
@[simp] theorem State.setPart_bars (s : State) (p : Nat) (x : Part) : (s.setPart p x).bars = s.bars := rfl
@[simp] theorem State.setPart_cmds (s : State) (p : Nat) (x : Part) : (s.setPart p x).cmds = s.cmds := rfl
@[simp] theorem State.setPart_images (s : State) (p : Nat) (x : Part) : (s.setPart p x).images = s.images := rfl
@[simp] theorem State.setPart_hookStage (s : State) (p : Nat) (x : Part) : (s.setPart p x).hookStage = s.hookStage := rfl
@[simp] theorem State.setPart_hookTable (s : State) (p : Nat) (x : Part) : (s.setPart p x).hookTable = s.hookTable := rfl
@[simp] theorem State.setPart_fwDigest (s : State) (p : Nat) (x : Part) : (s.setPart p x).fwDigest = s.fwDigest := rfl
@[simp] theorem State.setPart_irqs (s : State) (p : Nat) (x : Part) : (s.setPart p x).irqs = s.irqs := rfl
@[simp] theorem State.setPart_sentAt (s : State) (p : Nat) (x : Part) : (s.setPart p x).sentAt = s.sentAt := rfl
@[simp] theorem State.setPart_heldBack (s : State) (p : Nat) (x : Part) : (s.setPart p x).heldBack = s.heldBack := rfl
@[simp] theorem State.setPart_invals (s : State) (p : Nat) (x : Part) : (s.setPart p x).invals = s.invals := rfl
@[simp] theorem State.setPart_net (s : State) (p : Nat) (x : Part) : (s.setPart p x).net = s.net := rfl
@[simp] theorem State.setPart_refused (s : State) (p : Nat) (x : Part) : (s.setPart p x).refused = s.refused := rfl
@[simp] theorem State.setPart_arbiters (s : State) (p : Nat) (x : Part) : (s.setPart p x).arbiters = s.arbiters := rfl
@[simp] theorem State.setPart_gates (s : State) (p : Nat) (x : Part) : (s.setPart p x).gates = s.gates := rfl
@[simp] theorem State.setPart_relDeps (s : State) (p : Nat) (x : Part) : (s.setPart p x).relDeps = s.relDeps := rfl
@[simp] theorem State.setPart_inputs (s : State) (p : Nat) (x : Part) : (s.setPart p x).inputs = s.inputs := rfl
@[simp] theorem State.setPart_cur (s : State) (p : Nat) (x : Part) : (s.setPart p x).cur = s.cur := rfl
@[simp] theorem State.setPart_nextId (s : State) (p : Nat) (x : Part) : (s.setPart p x).nextId = s.nextId := rfl
@[simp] theorem State.setPart_turn (s : State) (p : Nat) (x : Part) : (s.setPart p x).turn = s.turn := rfl

/-! ### setReel -/

@[simp] theorem State.setReel_mem (s : State) (k : Nat) (x : Reel) : (s.setReel k x).mem = s.mem := rfl
@[simp] theorem State.setReel_boot (s : State) (k : Nat) (x : Reel) : (s.setReel k x).boot = s.boot := rfl
@[simp] theorem State.setReel_tbc (s : State) (k : Nat) (x : Reel) : (s.setReel k x).tbc = s.tbc := rfl
@[simp] theorem State.setReel_cells (s : State) (k : Nat) (x : Reel) : (s.setReel k x).cells = s.cells := rfl
@[simp] theorem State.setReel_clusters (s : State) (k : Nat) (x : Reel) : (s.setReel k x).clusters = s.clusters := rfl
@[simp] theorem State.setReel_dies (s : State) (k : Nat) (x : Reel) : (s.setReel k x).dies = s.dies := rfl
@[simp] theorem State.setReel_parts (s : State) (k : Nat) (x : Reel) : (s.setReel k x).parts = s.parts := rfl
@[simp] theorem State.setReel_rowMaps (s : State) (k : Nat) (x : Reel) : (s.setReel k x).rowMaps = s.rowMaps := rfl
@[simp] theorem State.setReel_failedPhys (s : State) (k : Nat) (x : Reel) : (s.setReel k x).failedPhys = s.failedPhys := rfl
@[simp] theorem State.setReel_hotPhys (s : State) (k : Nat) (x : Reel) : (s.setReel k x).hotPhys = s.hotPhys := rfl
@[simp] theorem State.setReel_physTemp (s : State) (k : Nat) (x : Reel) : (s.setReel k x).physTemp = s.physTemp := rfl
@[simp] theorem State.setReel_spareCyc (s : State) (k : Nat) (x : Reel) : (s.setReel k x).spareCyc = s.spareCyc := rfl
@[simp] theorem State.setReel_machineCheck (s : State) (k : Nat) (x : Reel) : (s.setReel k x).machineCheck = s.machineCheck := rfl
@[simp] theorem State.setReel_rails (s : State) (k : Nat) (x : Reel) : (s.setReel k x).rails = s.rails := rfl
@[simp] theorem State.setReel_railNext (s : State) (k : Nat) (x : Reel) : (s.setReel k x).railNext = s.railNext := rfl
@[simp] theorem State.setReel_capTokens (s : State) (k : Nat) (x : Reel) : (s.setReel k x).capTokens = s.capTokens := rfl
@[simp] theorem State.setReel_weirDone (s : State) (k : Nat) (x : Reel) : (s.setReel k x).weirDone = s.weirDone := rfl
@[simp] theorem State.setReel_violations (s : State) (k : Nat) (x : Reel) : (s.setReel k x).violations = s.violations := rfl
@[simp] theorem State.setReel_violationOverwrites (s : State) (k : Nat) (x : Reel) : (s.setReel k x).violationOverwrites = s.violationOverwrites := rfl
@[simp] theorem State.setReel_bars (s : State) (k : Nat) (x : Reel) : (s.setReel k x).bars = s.bars := rfl
@[simp] theorem State.setReel_cmds (s : State) (k : Nat) (x : Reel) : (s.setReel k x).cmds = s.cmds := rfl
@[simp] theorem State.setReel_images (s : State) (k : Nat) (x : Reel) : (s.setReel k x).images = s.images := rfl
@[simp] theorem State.setReel_hookStage (s : State) (k : Nat) (x : Reel) : (s.setReel k x).hookStage = s.hookStage := rfl
@[simp] theorem State.setReel_hookTable (s : State) (k : Nat) (x : Reel) : (s.setReel k x).hookTable = s.hookTable := rfl
@[simp] theorem State.setReel_fwDigest (s : State) (k : Nat) (x : Reel) : (s.setReel k x).fwDigest = s.fwDigest := rfl
@[simp] theorem State.setReel_irqs (s : State) (k : Nat) (x : Reel) : (s.setReel k x).irqs = s.irqs := rfl
@[simp] theorem State.setReel_sentAt (s : State) (k : Nat) (x : Reel) : (s.setReel k x).sentAt = s.sentAt := rfl
@[simp] theorem State.setReel_heldBack (s : State) (k : Nat) (x : Reel) : (s.setReel k x).heldBack = s.heldBack := rfl
@[simp] theorem State.setReel_invals (s : State) (k : Nat) (x : Reel) : (s.setReel k x).invals = s.invals := rfl
@[simp] theorem State.setReel_net (s : State) (k : Nat) (x : Reel) : (s.setReel k x).net = s.net := rfl
@[simp] theorem State.setReel_refused (s : State) (k : Nat) (x : Reel) : (s.setReel k x).refused = s.refused := rfl
@[simp] theorem State.setReel_arbiters (s : State) (k : Nat) (x : Reel) : (s.setReel k x).arbiters = s.arbiters := rfl
@[simp] theorem State.setReel_gates (s : State) (k : Nat) (x : Reel) : (s.setReel k x).gates = s.gates := rfl
@[simp] theorem State.setReel_relDeps (s : State) (k : Nat) (x : Reel) : (s.setReel k x).relDeps = s.relDeps := rfl
@[simp] theorem State.setReel_inputs (s : State) (k : Nat) (x : Reel) : (s.setReel k x).inputs = s.inputs := rfl
@[simp] theorem State.setReel_cur (s : State) (k : Nat) (x : Reel) : (s.setReel k x).cur = s.cur := rfl
@[simp] theorem State.setReel_nextId (s : State) (k : Nat) (x : Reel) : (s.setReel k x).nextId = s.nextId := rfl
@[simp] theorem State.setReel_turn (s : State) (k : Nat) (x : Reel) : (s.setReel k x).turn = s.turn := rfl

/-! ### post -/

@[simp] theorem State.post_mem (s : State) (m : Msg) : (s.post m).mem = s.mem := rfl
@[simp] theorem State.post_boot (s : State) (m : Msg) : (s.post m).boot = s.boot := rfl
@[simp] theorem State.post_tbc (s : State) (m : Msg) : (s.post m).tbc = s.tbc := rfl
@[simp] theorem State.post_cells (s : State) (m : Msg) : (s.post m).cells = s.cells := rfl
@[simp] theorem State.post_clusters (s : State) (m : Msg) : (s.post m).clusters = s.clusters := rfl
@[simp] theorem State.post_dies (s : State) (m : Msg) : (s.post m).dies = s.dies := rfl
@[simp] theorem State.post_parts (s : State) (m : Msg) : (s.post m).parts = s.parts := rfl
@[simp] theorem State.post_rowMaps (s : State) (m : Msg) : (s.post m).rowMaps = s.rowMaps := rfl
@[simp] theorem State.post_failedPhys (s : State) (m : Msg) : (s.post m).failedPhys = s.failedPhys := rfl
@[simp] theorem State.post_hotPhys (s : State) (m : Msg) : (s.post m).hotPhys = s.hotPhys := rfl
@[simp] theorem State.post_physTemp (s : State) (m : Msg) : (s.post m).physTemp = s.physTemp := rfl
@[simp] theorem State.post_spareCyc (s : State) (m : Msg) : (s.post m).spareCyc = s.spareCyc := rfl
@[simp] theorem State.post_machineCheck (s : State) (m : Msg) : (s.post m).machineCheck = s.machineCheck := rfl
@[simp] theorem State.post_rails (s : State) (m : Msg) : (s.post m).rails = s.rails := rfl
@[simp] theorem State.post_railNext (s : State) (m : Msg) : (s.post m).railNext = s.railNext := rfl
@[simp] theorem State.post_capTokens (s : State) (m : Msg) : (s.post m).capTokens = s.capTokens := rfl
@[simp] theorem State.post_weirDone (s : State) (m : Msg) : (s.post m).weirDone = s.weirDone := rfl
@[simp] theorem State.post_violations (s : State) (m : Msg) : (s.post m).violations = s.violations := rfl
@[simp] theorem State.post_violationOverwrites (s : State) (m : Msg) : (s.post m).violationOverwrites = s.violationOverwrites := rfl
@[simp] theorem State.post_reels (s : State) (m : Msg) : (s.post m).reels = s.reels := rfl
@[simp] theorem State.post_bars (s : State) (m : Msg) : (s.post m).bars = s.bars := rfl
@[simp] theorem State.post_cmds (s : State) (m : Msg) : (s.post m).cmds = s.cmds := rfl
@[simp] theorem State.post_images (s : State) (m : Msg) : (s.post m).images = s.images := rfl
@[simp] theorem State.post_hookStage (s : State) (m : Msg) : (s.post m).hookStage = s.hookStage := rfl
@[simp] theorem State.post_hookTable (s : State) (m : Msg) : (s.post m).hookTable = s.hookTable := rfl
@[simp] theorem State.post_fwDigest (s : State) (m : Msg) : (s.post m).fwDigest = s.fwDigest := rfl
@[simp] theorem State.post_irqs (s : State) (m : Msg) : (s.post m).irqs = s.irqs := rfl
@[simp] theorem State.post_sentAt (s : State) (m : Msg) : (s.post m).sentAt = s.sentAt := rfl
@[simp] theorem State.post_heldBack (s : State) (m : Msg) : (s.post m).heldBack = s.heldBack := rfl
@[simp] theorem State.post_invals (s : State) (m : Msg) : (s.post m).invals = s.invals := rfl
@[simp] theorem State.post_refused (s : State) (m : Msg) : (s.post m).refused = s.refused := rfl
@[simp] theorem State.post_arbiters (s : State) (m : Msg) : (s.post m).arbiters = s.arbiters := rfl
@[simp] theorem State.post_gates (s : State) (m : Msg) : (s.post m).gates = s.gates := rfl
@[simp] theorem State.post_relDeps (s : State) (m : Msg) : (s.post m).relDeps = s.relDeps := rfl
@[simp] theorem State.post_inputs (s : State) (m : Msg) : (s.post m).inputs = s.inputs := rfl
@[simp] theorem State.post_cur (s : State) (m : Msg) : (s.post m).cur = s.cur := rfl
@[simp] theorem State.post_nextId (s : State) (m : Msg) : (s.post m).nextId = s.nextId := rfl
@[simp] theorem State.post_turn (s : State) (m : Msg) : (s.post m).turn = s.turn := rfl

/-! ### take -/

@[simp] theorem State.take_mem (s : State) (i : Nat) : (s.take i).mem = s.mem := rfl
@[simp] theorem State.take_boot (s : State) (i : Nat) : (s.take i).boot = s.boot := rfl
@[simp] theorem State.take_tbc (s : State) (i : Nat) : (s.take i).tbc = s.tbc := rfl
@[simp] theorem State.take_cells (s : State) (i : Nat) : (s.take i).cells = s.cells := rfl
@[simp] theorem State.take_clusters (s : State) (i : Nat) : (s.take i).clusters = s.clusters := rfl
@[simp] theorem State.take_dies (s : State) (i : Nat) : (s.take i).dies = s.dies := rfl
@[simp] theorem State.take_parts (s : State) (i : Nat) : (s.take i).parts = s.parts := rfl
@[simp] theorem State.take_rowMaps (s : State) (i : Nat) : (s.take i).rowMaps = s.rowMaps := rfl
@[simp] theorem State.take_failedPhys (s : State) (i : Nat) : (s.take i).failedPhys = s.failedPhys := rfl
@[simp] theorem State.take_hotPhys (s : State) (i : Nat) : (s.take i).hotPhys = s.hotPhys := rfl
@[simp] theorem State.take_physTemp (s : State) (i : Nat) : (s.take i).physTemp = s.physTemp := rfl
@[simp] theorem State.take_spareCyc (s : State) (i : Nat) : (s.take i).spareCyc = s.spareCyc := rfl
@[simp] theorem State.take_machineCheck (s : State) (i : Nat) : (s.take i).machineCheck = s.machineCheck := rfl
@[simp] theorem State.take_rails (s : State) (i : Nat) : (s.take i).rails = s.rails := rfl
@[simp] theorem State.take_railNext (s : State) (i : Nat) : (s.take i).railNext = s.railNext := rfl
@[simp] theorem State.take_capTokens (s : State) (i : Nat) : (s.take i).capTokens = s.capTokens := rfl
@[simp] theorem State.take_weirDone (s : State) (i : Nat) : (s.take i).weirDone = s.weirDone := rfl
@[simp] theorem State.take_violations (s : State) (i : Nat) : (s.take i).violations = s.violations := rfl
@[simp] theorem State.take_violationOverwrites (s : State) (i : Nat) : (s.take i).violationOverwrites = s.violationOverwrites := rfl
@[simp] theorem State.take_reels (s : State) (i : Nat) : (s.take i).reels = s.reels := rfl
@[simp] theorem State.take_bars (s : State) (i : Nat) : (s.take i).bars = s.bars := rfl
@[simp] theorem State.take_cmds (s : State) (i : Nat) : (s.take i).cmds = s.cmds := rfl
@[simp] theorem State.take_images (s : State) (i : Nat) : (s.take i).images = s.images := rfl
@[simp] theorem State.take_hookStage (s : State) (i : Nat) : (s.take i).hookStage = s.hookStage := rfl
@[simp] theorem State.take_hookTable (s : State) (i : Nat) : (s.take i).hookTable = s.hookTable := rfl
@[simp] theorem State.take_fwDigest (s : State) (i : Nat) : (s.take i).fwDigest = s.fwDigest := rfl
@[simp] theorem State.take_irqs (s : State) (i : Nat) : (s.take i).irqs = s.irqs := rfl
@[simp] theorem State.take_sentAt (s : State) (i : Nat) : (s.take i).sentAt = s.sentAt := rfl
@[simp] theorem State.take_heldBack (s : State) (i : Nat) : (s.take i).heldBack = s.heldBack := rfl
@[simp] theorem State.take_invals (s : State) (i : Nat) : (s.take i).invals = s.invals := rfl
@[simp] theorem State.take_refused (s : State) (i : Nat) : (s.take i).refused = s.refused := rfl
@[simp] theorem State.take_relDeps (s : State) (i : Nat) : (s.take i).relDeps = s.relDeps := rfl
@[simp] theorem State.take_inputs (s : State) (i : Nat) : (s.take i).inputs = s.inputs := rfl
@[simp] theorem State.take_cur (s : State) (i : Nat) : (s.take i).cur = s.cur := rfl
@[simp] theorem State.take_nextId (s : State) (i : Nat) : (s.take i).nextId = s.nextId := rfl
@[simp] theorem State.take_turn (s : State) (i : Nat) : (s.take i).turn = s.turn := rfl

/-! ### A cell with a context replaced -/

@[simp] theorem Cell.setCtx_accs (c : Cell) (k : Nat) (x : Ctx) : (c.setCtx k x).accs = c.accs := rfl
@[simp] theorem Cell.setCtx_td (c : Cell) (k : Nat) (x : Ctx) : (c.setCtx k x).td = c.td := rfl
@[simp] theorem Cell.setCtx_tags (c : Cell) (k : Nat) (x : Ctx) : (c.setCtx k x).tags = c.tags := rfl
@[simp] theorem Cell.setCtx_tlb (c : Cell) (k : Nat) (x : Ctx) : (c.setCtx k x).tlb = c.tlb := rfl
@[simp] theorem Cell.setCtx_bars (c : Cell) (k : Nat) (x : Ctx) : (c.setCtx k x).bars = c.bars := rfl
@[simp] theorem Cell.setCtx_handlers (c : Cell) (k : Nat) (x : Ctx) : (c.setCtx k x).handlers = c.handlers := rfl
@[simp] theorem Cell.setCtx_entries (c : Cell) (k : Nat) (x : Ctx) : (c.setCtx k x).entries = c.entries := rfl
@[simp] theorem Cell.setCtx_inboxCfg (c : Cell) (k : Nat) (x : Ctx) : (c.setCtx k x).inboxCfg = c.inboxCfg := rfl
@[simp] theorem Cell.setCtx_casid (c : Cell) (k : Nat) (x : Ctx) : (c.setCtx k x).casid = c.casid := rfl
@[simp] theorem Cell.setCtx_msgId (c : Cell) (k : Nat) (x : Ctx) : (c.setCtx k x).msgId = c.msgId := rfl
@[simp] theorem Cell.setCtx_accepted (c : Cell) (k : Nat) (x : Ctx) : (c.setCtx k x).accepted = c.accepted := rfl
@[simp] theorem Cell.setCtx_owedSubs (c : Cell) (k : Nat) (x : Ctx) : (c.setCtx k x).owedSubs = c.owedSubs := rfl
@[simp] theorem Cell.setCtx_bins (c : Cell) (k : Nat) (x : Ctx) : (c.setCtx k x).bins = c.bins := rfl
@[simp] theorem Cell.setCtx_overflow (c : Cell) (k : Nat) (x : Ctx) : (c.setCtx k x).overflow = c.overflow := rfl
@[simp] theorem Cell.setCtx_tail (c : Cell) (k : Nat) (x : Ctx) : (c.setCtx k x).tail = c.tail := rfl
@[simp] theorem Cell.setCtx_tailQuota (c : Cell) (k : Nat) (x : Ctx) : (c.setCtx k x).tailQuota = c.tailQuota := rfl
@[simp] theorem Cell.setCtx_tailChain (c : Cell) (k : Nat) (x : Ctx) : (c.setCtx k x).tailChain = c.tailChain := rfl
@[simp] theorem Cell.setCtx_xfers (c : Cell) (k : Nat) (x : Ctx) : (c.setCtx k x).xfers = c.xfers := rfl
@[simp] theorem Cell.setCtx_xferOrder (c : Cell) (k : Nat) (x : Ctx) : (c.setCtx k x).xferOrder = c.xferOrder := rfl
@[simp] theorem Cell.setCtx_twDeps (c : Cell) (k : Nat) (x : Ctx) : (c.setCtx k x).twDeps = c.twDeps := rfl
@[simp] theorem Cell.setCtx_wcopies (c : Cell) (k : Nat) (x : Ctx) : (c.setCtx k x).wcopies = c.wcopies := rfl
@[simp] theorem Cell.setCtx_rcopies (c : Cell) (k : Nat) (x : Ctx) : (c.setCtx k x).rcopies = c.rcopies := rfl
@[simp] theorem Cell.setCtx_bankQ (c : Cell) (k : Nat) (x : Ctx) : (c.setCtx k x).bankQ = c.bankQ := rfl
@[simp] theorem Cell.setCtx_oldWords (c : Cell) (k : Nat) (x : Ctx) : (c.setCtx k x).oldWords = c.oldWords := rfl
@[simp] theorem Cell.setCtx_rowJoins (c : Cell) (k : Nat) (x : Ctx) : (c.setCtx k x).rowJoins = c.rowJoins := rfl
@[simp] theorem Cell.setCtx_clusterJoins (c : Cell) (k : Nat) (x : Ctx) : (c.setCtx k x).clusterJoins = c.clusterJoins := rfl
@[simp] theorem Cell.setCtx_mma (c : Cell) (k : Nat) (x : Ctx) : (c.setCtx k x).mma = c.mma := rfl
@[simp] theorem Cell.setCtx_pending (c : Cell) (k : Nat) (x : Ctx) : (c.setCtx k x).pending = c.pending := rfl
@[simp] theorem Cell.setCtx_displaced (c : Cell) (k : Nat) (x : Ctx) : (c.setCtx k x).displaced = c.displaced := rfl
@[simp] theorem Cell.setCtx_displacing (c : Cell) (k : Nat) (x : Ctx) : (c.setCtx k x).displacing = c.displacing := rfl
@[simp] theorem Cell.setCtx_preempting (c : Cell) (k : Nat) (x : Ctx) : (c.setCtx k x).preempting = c.preempting := rfl
@[simp] theorem Cell.setCtx_out (c : Cell) (k : Nat) (x : Ctx) : (c.setCtx k x).out = c.out := rfl
@[simp] theorem Cell.setCtx_halted (c : Cell) (k : Nat) (x : Ctx) : (c.setCtx k x).halted = c.halted := rfl
@[simp] theorem Cell.setCtx_refusals (c : Cell) (k : Nat) (x : Ctx) : (c.setCtx k x).refusals = c.refusals := rfl
@[simp] theorem Cell.setCtx_reservs (c : Cell) (k : Nat) (x : Ctx) : (c.setCtx k x).reservs = c.reservs := rfl
@[simp] theorem Cell.setCtx_cyc (c : Cell) (k : Nat) (x : Ctx) : (c.setCtx k x).cyc = c.cyc := rfl
@[simp] theorem Cell.setCtx_cycOff (c : Cell) (k : Nat) (x : Ctx) : (c.setCtx k x).cycOff = c.cycOff := rfl
@[simp] theorem Cell.setCtx_rrLane (c : Cell) (k : Nat) (x : Ctx) : (c.setCtx k x).rrLane = c.rrLane := rfl
@[simp] theorem Cell.setCtx_rrScalar (c : Cell) (k : Nat) (x : Ctx) : (c.setCtx k x).rrScalar = c.rrScalar := rfl
@[simp] theorem Cell.setCtx_rrZero (c : Cell) (k : Nat) (x : Ctx) : (c.setCtx k x).rrZero = c.rrZero := rfl
@[simp] theorem Cell.setCtx_units (c : Cell) (k : Nat) (x : Ctx) : (c.setCtx k x).units = c.units := rfl
@[simp] theorem Cell.setCtx_busyCycles (c : Cell) (k : Nat) (x : Ctx) : (c.setCtx k x).busyCycles = c.busyCycles := rfl
@[simp] theorem Cell.setCtx_dropping (c : Cell) (k : Nat) (x : Ctx) : (c.setCtx k x).dropping = c.dropping := rfl
@[simp] theorem Cell.setCtx_popOpen (c : Cell) (k : Nat) (x : Ctx) : (c.setCtx k x).popOpen = c.popOpen := rfl
@[simp] theorem Cell.setCtx_trace (c : Cell) (k : Nat) (x : Ctx) : (c.setCtx k x).trace = c.trace := rfl
@[simp] theorem Cell.setCtx_temp (c : Cell) (k : Nat) (x : Ctx) : (c.setCtx k x).temp = c.temp := rfl
@[simp] theorem Cell.setCtx_tripped (c : Cell) (k : Nat) (x : Ctx) : (c.setCtx k x).tripped = c.tripped := rfl
@[simp] theorem Cell.setCtx_retrip (c : Cell) (k : Nat) (x : Ctx) : (c.setCtx k x).retrip = c.retrip := rfl
@[simp] theorem Cell.setCtx_resumedAt (c : Cell) (k : Nat) (x : Ctx) : (c.setCtx k x).resumedAt = c.resumedAt := rfl
@[simp] theorem Cell.setCtx_promenade (c : Cell) (k : Nat) (x : Ctx) : (c.setCtx k x).promenade = c.promenade := rfl
@[simp] theorem Cell.setCtx_failing (c : Cell) (k : Nat) (x : Ctx) : (c.setCtx k x).failing = c.failing := rfl
@[simp] theorem Cell.setCtx_gone (c : Cell) (k : Nat) (x : Ctx) : (c.setCtx k x).gone = c.gone := rfl
@[simp] theorem Cell.setCtx_swap (c : Cell) (k : Nat) (x : Ctx) : (c.setCtx k x).swap = c.swap := rfl
@[simp] theorem Cell.setCtx_issueNum (c : Cell) (k : Nat) (x : Ctx) : (c.setCtx k x).issueNum = c.issueNum := rfl
@[simp] theorem Cell.setCtx_issueDen (c : Cell) (k : Nat) (x : Ctx) : (c.setCtx k x).issueDen = c.issueDen := rfl
@[simp] theorem Cell.setCtx_sluiceIdle (c : Cell) (k : Nat) (x : Ctx) : (c.setCtx k x).sluiceIdle = c.sluiceIdle := rfl
@[simp] theorem Cell.setCtx_issuedSince (c : Cell) (k : Nat) (x : Ctx) : (c.setCtx k x).issuedSince = c.issuedSince := rfl

/-! ### Reading where an update wrote, and elsewhere -/

@[simp] theorem Cell.ctx_setCtx (c : Cell) (k : Nat) (x : Ctx) : (c.setCtx k x).ctx k = x := tget_tset _ _ _ _
@[simp] theorem Cell.ctx_setCtx_ne (c : Cell) {k j : Nat} (x : Ctx) (h : j ≠ k) : (c.setCtx k x).ctx j = c.ctx j :=
  tget_tset_ne _ _ _ h
@[simp] theorem Cell.setCtx_setCtx (c : Cell) (k : Nat) (x y : Ctx) : (c.setCtx k x).setCtx k y = c.setCtx k y := by
  simp [Cell.setCtx]

@[simp] theorem State.cell_setCell (s : State) (n : Nat) (c : Cell) : (s.setCell n c).cell n = c := tget_tset _ _ _ _
@[simp] theorem State.cell_setCell_ne (s : State) {n m : Nat} (c : Cell) (h : m ≠ n) : (s.setCell n c).cell m = s.cell m :=
  tget_tset_ne _ _ _ h
@[simp] theorem State.setCell_setCell (s : State) (n : Nat) (c d : Cell) : (s.setCell n c).setCell n d = s.setCell n d := by
  simp [State.setCell]

@[simp] theorem State.cell_setCtx (s : State) (w : Who) (x : Ctx) :
    (s.setCtx w x).cell w.cell = (s.cell w.cell).setCtx w.ctx x := State.cell_setCell _ _ _
@[simp] theorem State.cell_setCtx_ne (s : State) {w : Who} {n : Nat} (x : Ctx) (h : n ≠ w.cell) :
    (s.setCtx w x).cell n = s.cell n := State.cell_setCell_ne _ _ h
@[simp] theorem State.ctx_setCtx (s : State) (w : Who) (x : Ctx) : (s.setCtx w x).ctx w = x := by
  simp [State.ctx]
theorem State.ctx_setCtx_ne (s : State) {w v : Who} (x : Ctx) (h : v ≠ w) : (s.setCtx w x).ctx v = s.ctx v := by
  obtain ⟨n, k⟩ := w
  obtain ⟨m, j⟩ := v
  by_cases hn : m = n
  · subst hn
    have hj : j ≠ k := fun e => h (by rw [e])
    simp [State.ctx, State.setCtx, hj]
  · simp [State.ctx, State.setCtx, hn]
@[simp] theorem State.setCtx_setCtx (s : State) (w : Who) (x y : Ctx) : (s.setCtx w x).setCtx w y = s.setCtx w y := by
  simp [State.setCtx]

@[simp] theorem State.me_setMe (s : State) (x : Ctx) : (s.setMe x).me = x := State.ctx_setCtx _ _ _
@[simp] theorem State.setMe_setMe (s : State) (x y : Ctx) : (s.setMe x).setMe y = s.setMe y := State.setCtx_setCtx _ _ _ _
@[simp] theorem State.myCell_setMe (s : State) (x : Ctx) : (s.setMe x).myCell = s.myCell.setCtx s.cur.ctx x :=
  State.cell_setCtx _ _ _
@[simp] theorem State.myCell_setMyCell (s : State) (c : Cell) : (s.setMyCell c).myCell = c := State.cell_setCell _ _ _

@[simp] theorem State.cluster_setCluster (s : State) (k : Nat) (c : Cluster) : (s.setCluster k c).cluster k = c :=
  tget_tset _ _ _ _
@[simp] theorem State.die_setDie (s : State) (d : Nat) (x : Die) : (s.setDie d x).die d = x := tget_tset _ _ _ _
@[simp] theorem State.part_setPart (s : State) (p : Nat) (x : Part) : (s.setPart p x).part p = x := tget_tset _ _ _ _
@[simp] theorem State.part_setPart_ne (s : State) {p q : Nat} (x : Part) (h : q ≠ p) : (s.setPart p x).part q = s.part q :=
  tget_tset_ne _ _ _ h
@[simp] theorem State.reel_setReel (s : State) (k : Nat) (x : Reel) : (s.setReel k x).reel k = x := tget_tset _ _ _ _

@[simp] theorem State.part_setCell (s : State) (n : Nat) (c : Cell) (p : Nat) : (s.setCell n c).part p = s.part p := rfl
@[simp] theorem State.part_setCtx (s : State) (w : Who) (x : Ctx) (p : Nat) : (s.setCtx w x).part p = s.part p := rfl
@[simp] theorem State.part_setMe (s : State) (x : Ctx) (p : Nat) : (s.setMe x).part p = s.part p := rfl
@[simp] theorem State.part_post (s : State) (m : Msg) (p : Nat) : (s.post m).part p = s.part p := rfl
@[simp] theorem State.partNo_setCell (s : State) (n : Nat) (c : Cell) (m : Nat) : (s.setCell n c).partNo m = s.partNo m := rfl
@[simp] theorem State.partNo_setCtx (s : State) (w : Who) (x : Ctx) (m : Nat) : (s.setCtx w x).partNo m = s.partNo m := rfl
@[simp] theorem State.partNo_setMe (s : State) (x : Ctx) (m : Nat) : (s.setMe x).partNo m = s.partNo m := rfl
@[simp] theorem State.partNo_post (s : State) (m : Msg) (n : Nat) : (s.post m).partNo n = s.partNo n := rfl
@[simp] theorem State.cell_post (s : State) (m : Msg) (n : Nat) : (s.post m).cell n = s.cell n := rfl
@[simp] theorem State.ctx_post (s : State) (m : Msg) (w : Who) : (s.post m).ctx w = s.ctx w := rfl
@[simp] theorem State.me_post (s : State) (m : Msg) : (s.post m).me = s.me := rfl
@[simp] theorem State.cell_take (s : State) (i n : Nat) : (s.take i).cell n = s.cell n := rfl
@[simp] theorem State.cell_setPart (s : State) (p : Nat) (x : Part) (n : Nat) : (s.setPart p x).cell n = s.cell n := rfl
@[simp] theorem State.ctx_setPart (s : State) (p : Nat) (x : Part) (w : Who) : (s.setPart p x).ctx w = s.ctx w := rfl
@[simp] theorem State.part_take (s : State) (i p : Nat) : (s.take i).part p = s.part p := rfl

end Sys2Proof.Machine
end

