-- ==== Sys2Proof/Laws/Context.lean ====
section
/-! SUPPORT. What each operation on a context writes, reads and leaves: registers (R11, R53, R106), the program counter (R49), lanes
(R137), and the shapes that instructions share. -/

namespace Sys2Proof.Machine

/-! ### setV -/

@[simp] theorem Ctx.setV_status (x : Ctx) (r : Nat) (m : W32) (f : Nat → W32) : (x.setV r m f).status = x.status := rfl
@[simp] theorem Ctx.setV_snap (x : Ctx) (r : Nat) (m : W32) (f : Nat → W32) : (x.setV r m f).snap = x.snap := rfl
@[simp] theorem Ctx.setV_snapBudget (x : Ctx) (r : Nat) (m : W32) (f : Nat → W32) : (x.setV r m f).snapBudget = x.snapBudget := rfl
@[simp] theorem Ctx.setV_hdrs (x : Ctx) (r : Nat) (m : W32) (f : Nat → W32) : (x.setV r m f).hdrs = x.hdrs := rfl
@[simp] theorem Ctx.setV_setSize (x : Ctx) (r : Nat) (m : W32) (f : Nat → W32) : (x.setV r m f).setSize = x.setSize := rfl
@[simp] theorem Ctx.setV_entry (x : Ctx) (r : Nat) (m : W32) (f : Nat → W32) : (x.setV r m f).entry = x.entry := rfl
@[simp] theorem Ctx.setV_cls (x : Ctx) (r : Nat) (m : W32) (f : Nat → W32) : (x.setV r m f).cls = x.cls := rfl
@[simp] theorem Ctx.setV_slackNs (x : Ctx) (r : Nat) (m : W32) (f : Nat → W32) : (x.setV r m f).slackNs = x.slackNs := rfl
@[simp] theorem Ctx.setV_priv (x : Ctx) (r : Nat) (m : W32) (f : Nat → W32) : (x.setV r m f).priv = x.priv := rfl
@[simp] theorem Ctx.setV_cores (x : Ctx) (r : Nat) (m : W32) (f : Nat → W32) : (x.setV r m f).cores = x.cores := rfl
@[simp] theorem Ctx.setV_first (x : Ctx) (r : Nat) (m : W32) (f : Nat → W32) : (x.setV r m f).first = x.first := rfl
@[simp] theorem Ctx.setV_trigger (x : Ctx) (r : Nat) (m : W32) (f : Nat → W32) : (x.setV r m f).trigger = x.trigger := rfl
@[simp] theorem Ctx.setV_budget (x : Ctx) (r : Nat) (m : W32) (f : Nat → W32) : (x.setV r m f).budget = x.budget := rfl
@[simp] theorem Ctx.setV_fullBudget (x : Ctx) (r : Nat) (m : W32) (f : Nat → W32) : (x.setV r m f).fullBudget = x.fullBudget := rfl
@[simp] theorem Ctx.setV_fpctl (x : Ctx) (r : Nat) (m : W32) (f : Nat → W32) : (x.setV r m f).fpctl = x.fpctl := rfl
@[simp] theorem Ctx.setV_fpflags (x : Ctx) (r : Nat) (m : W32) (f : Nat → W32) : (x.setV r m f).fpflags = x.fpflags := rfl
@[simp] theorem Ctx.setV_qcfg (x : Ctx) (r : Nat) (m : W32) (f : Nat → W32) : (x.setV r m f).qcfg = x.qcfg := rfl
@[simp] theorem Ctx.setV_trap (x : Ctx) (r : Nat) (m : W32) (f : Nat → W32) : (x.setV r m f).trap = x.trap := rfl
@[simp] theorem Ctx.setV_qs (x : Ctx) (r : Nat) (m : W32) (f : Nat → W32) : (x.setV r m f).qs = x.qs := rfl
@[simp] theorem Ctx.setV_eps (x : Ctx) (r : Nat) (m : W32) (f : Nat → W32) : (x.setV r m f).eps = x.eps := rfl
@[simp] theorem Ctx.setV_held (x : Ctx) (r : Nat) (m : W32) (f : Nat → W32) : (x.setV r m f).held = x.held := rfl
@[simp] theorem Ctx.setV_released (x : Ctx) (r : Nat) (m : W32) (f : Nat → W32) : (x.setV r m f).released = x.released := rfl
@[simp] theorem Ctx.setV_out (x : Ctx) (r : Nat) (m : W32) (f : Nat → W32) : (x.setV r m f).out = x.out := rfl
@[simp] theorem Ctx.setV_sent (x : Ctx) (r : Nat) (m : W32) (f : Nat → W32) : (x.setV r m f).sent = x.sent := rfl
@[simp] theorem Ctx.setV_acquires (x : Ctx) (r : Nat) (m : W32) (f : Nat → W32) : (x.setV r m f).acquires = x.acquires := rfl
@[simp] theorem Ctx.setV_journal (x : Ctx) (r : Nat) (m : W32) (f : Nat → W32) : (x.setV r m f).journal = x.journal := rfl
@[simp] theorem Ctx.setV_tw (x : Ctx) (r : Nat) (m : W32) (f : Nat → W32) : (x.setV r m f).tw = x.tw := rfl
@[simp] theorem Ctx.setV_started (x : Ctx) (r : Nat) (m : W32) (f : Nat → W32) : (x.setV r m f).started = x.started := rfl
@[simp] theorem Ctx.setV_latched (x : Ctx) (r : Nat) (m : W32) (f : Nat → W32) : (x.setV r m f).latched = x.latched := rfl
@[simp] theorem Ctx.setV_latchCount (x : Ctx) (r : Nat) (m : W32) (f : Nat → W32) : (x.setV r m f).latchCount = x.latchCount := rfl
@[simp] theorem Ctx.setV_wait (x : Ctx) (r : Nat) (m : W32) (f : Nat → W32) : (x.setV r m f).wait = x.wait := rfl
@[simp] theorem Ctx.setV_fork (x : Ctx) (r : Nat) (m : W32) (f : Nat → W32) : (x.setV r m f).fork = x.fork := rfl
@[simp] theorem Ctx.setV_once (x : Ctx) (r : Nat) (m : W32) (f : Nat → W32) : (x.setV r m f).once = x.once := rfl
@[simp] theorem Ctx.setV_incsAwaited (x : Ctx) (r : Nat) (m : W32) (f : Nat → W32) : (x.setV r m f).incsAwaited = x.incsAwaited := rfl
@[simp] theorem Ctx.setV_stopNext (x : Ctx) (r : Nat) (m : W32) (f : Nat → W32) : (x.setV r m f).stopNext = x.stopNext := rfl
@[simp] theorem Ctx.setV_spared (x : Ctx) (r : Nat) (m : W32) (f : Nat → W32) : (x.setV r m f).spared = x.spared := rfl
@[simp] theorem Ctx.setV_deps (x : Ctx) (r : Nat) (m : W32) (f : Nat → W32) : (x.setV r m f).deps = x.deps := rfl
@[simp] theorem Ctx.setV_lastTbc (x : Ctx) (r : Nat) (m : W32) (f : Nat → W32) : (x.setV r m f).lastTbc = x.lastTbc := rfl
@[simp] theorem Ctx.setV_lastPc (x : Ctx) (r : Nat) (m : W32) (f : Nat → W32) : (x.setV r m f).lastPc = x.lastPc := rfl
@[simp] theorem Ctx.setV_ran (x : Ctx) (r : Nat) (m : W32) (f : Nat → W32) : (x.setV r m f).ran = x.ran := rfl
@[simp] theorem Ctx.setV_begun (x : Ctx) (r : Nat) (m : W32) (f : Nat → W32) : (x.setV r m f).begun = x.begun := rfl
@[simp] theorem Ctx.setV_act (x : Ctx) (r : Nat) (m : W32) (f : Nat → W32) : (x.setV r m f).act = x.act := rfl
@[simp] theorem Ctx.setV_r_s (x : Ctx) (r : Nat) (m : W32) (f : Nat → W32) : (x.setV r m f).r.s = x.r.s := rfl
@[simp] theorem Ctx.setV_r_p (x : Ctx) (r : Nat) (m : W32) (f : Nat → W32) : (x.setV r m f).r.p = x.r.p := rfl
@[simp] theorem Ctx.setV_r_k (x : Ctx) (r : Nat) (m : W32) (f : Nat → W32) : (x.setV r m f).r.k = x.r.k := rfl
@[simp] theorem Ctx.setV_r_cm (x : Ctx) (r : Nat) (m : W32) (f : Nat → W32) : (x.setV r m f).r.cm = x.r.cm := rfl
@[simp] theorem Ctx.setV_r_live (x : Ctx) (r : Nat) (m : W32) (f : Nat → W32) : (x.setV r m f).r.live = x.r.live := rfl
@[simp] theorem Ctx.setV_r_masks (x : Ctx) (r : Nat) (m : W32) (f : Nat → W32) : (x.setV r m f).r.masks = x.r.masks := rfl
@[simp] theorem Ctx.setV_r_loops (x : Ctx) (r : Nat) (m : W32) (f : Nat → W32) : (x.setV r m f).r.loops = x.r.loops := rfl
@[simp] theorem Ctx.setV_r_pc (x : Ctx) (r : Nat) (m : W32) (f : Nat → W32) : (x.setV r m f).r.pc = x.r.pc := rfl
@[simp] theorem Ctx.setV_r_pastEnd (x : Ctx) (r : Nat) (m : W32) (f : Nat → W32) : (x.setV r m f).r.pastEnd = x.r.pastEnd := rfl
@[simp] theorem Ctx.setV_r_binds (x : Ctx) (r : Nat) (m : W32) (f : Nat → W32) : (x.setV r m f).r.binds = x.r.binds := rfl
@[simp] theorem Ctx.setV_r_arrs (x : Ctx) (r : Nat) (m : W32) (f : Nat → W32) : (x.setV r m f).r.arrs = x.r.arrs := rfl
@[simp] theorem Ctx.setV_r_steps (x : Ctx) (r : Nat) (m : W32) (f : Nat → W32) : (x.setV r m f).r.steps = x.r.steps := rfl

/-! ### setVp -/

@[simp] theorem Ctx.setVp_status (x : Ctx) (r : Nat) (m : W32) (f : Nat → W64) : (x.setVp r m f).status = x.status := rfl
@[simp] theorem Ctx.setVp_snap (x : Ctx) (r : Nat) (m : W32) (f : Nat → W64) : (x.setVp r m f).snap = x.snap := rfl
@[simp] theorem Ctx.setVp_snapBudget (x : Ctx) (r : Nat) (m : W32) (f : Nat → W64) : (x.setVp r m f).snapBudget = x.snapBudget := rfl
@[simp] theorem Ctx.setVp_hdrs (x : Ctx) (r : Nat) (m : W32) (f : Nat → W64) : (x.setVp r m f).hdrs = x.hdrs := rfl
@[simp] theorem Ctx.setVp_setSize (x : Ctx) (r : Nat) (m : W32) (f : Nat → W64) : (x.setVp r m f).setSize = x.setSize := rfl
@[simp] theorem Ctx.setVp_entry (x : Ctx) (r : Nat) (m : W32) (f : Nat → W64) : (x.setVp r m f).entry = x.entry := rfl
@[simp] theorem Ctx.setVp_cls (x : Ctx) (r : Nat) (m : W32) (f : Nat → W64) : (x.setVp r m f).cls = x.cls := rfl
@[simp] theorem Ctx.setVp_slackNs (x : Ctx) (r : Nat) (m : W32) (f : Nat → W64) : (x.setVp r m f).slackNs = x.slackNs := rfl
@[simp] theorem Ctx.setVp_priv (x : Ctx) (r : Nat) (m : W32) (f : Nat → W64) : (x.setVp r m f).priv = x.priv := rfl
@[simp] theorem Ctx.setVp_cores (x : Ctx) (r : Nat) (m : W32) (f : Nat → W64) : (x.setVp r m f).cores = x.cores := rfl
@[simp] theorem Ctx.setVp_first (x : Ctx) (r : Nat) (m : W32) (f : Nat → W64) : (x.setVp r m f).first = x.first := rfl
@[simp] theorem Ctx.setVp_trigger (x : Ctx) (r : Nat) (m : W32) (f : Nat → W64) : (x.setVp r m f).trigger = x.trigger := rfl
@[simp] theorem Ctx.setVp_budget (x : Ctx) (r : Nat) (m : W32) (f : Nat → W64) : (x.setVp r m f).budget = x.budget := rfl
@[simp] theorem Ctx.setVp_fullBudget (x : Ctx) (r : Nat) (m : W32) (f : Nat → W64) : (x.setVp r m f).fullBudget = x.fullBudget := rfl
@[simp] theorem Ctx.setVp_fpctl (x : Ctx) (r : Nat) (m : W32) (f : Nat → W64) : (x.setVp r m f).fpctl = x.fpctl := rfl
@[simp] theorem Ctx.setVp_fpflags (x : Ctx) (r : Nat) (m : W32) (f : Nat → W64) : (x.setVp r m f).fpflags = x.fpflags := rfl
@[simp] theorem Ctx.setVp_qcfg (x : Ctx) (r : Nat) (m : W32) (f : Nat → W64) : (x.setVp r m f).qcfg = x.qcfg := rfl
@[simp] theorem Ctx.setVp_trap (x : Ctx) (r : Nat) (m : W32) (f : Nat → W64) : (x.setVp r m f).trap = x.trap := rfl
@[simp] theorem Ctx.setVp_qs (x : Ctx) (r : Nat) (m : W32) (f : Nat → W64) : (x.setVp r m f).qs = x.qs := rfl
@[simp] theorem Ctx.setVp_eps (x : Ctx) (r : Nat) (m : W32) (f : Nat → W64) : (x.setVp r m f).eps = x.eps := rfl
@[simp] theorem Ctx.setVp_held (x : Ctx) (r : Nat) (m : W32) (f : Nat → W64) : (x.setVp r m f).held = x.held := rfl
@[simp] theorem Ctx.setVp_released (x : Ctx) (r : Nat) (m : W32) (f : Nat → W64) : (x.setVp r m f).released = x.released := rfl
@[simp] theorem Ctx.setVp_out (x : Ctx) (r : Nat) (m : W32) (f : Nat → W64) : (x.setVp r m f).out = x.out := rfl
@[simp] theorem Ctx.setVp_sent (x : Ctx) (r : Nat) (m : W32) (f : Nat → W64) : (x.setVp r m f).sent = x.sent := rfl
@[simp] theorem Ctx.setVp_acquires (x : Ctx) (r : Nat) (m : W32) (f : Nat → W64) : (x.setVp r m f).acquires = x.acquires := rfl
@[simp] theorem Ctx.setVp_journal (x : Ctx) (r : Nat) (m : W32) (f : Nat → W64) : (x.setVp r m f).journal = x.journal := rfl
@[simp] theorem Ctx.setVp_tw (x : Ctx) (r : Nat) (m : W32) (f : Nat → W64) : (x.setVp r m f).tw = x.tw := rfl
@[simp] theorem Ctx.setVp_started (x : Ctx) (r : Nat) (m : W32) (f : Nat → W64) : (x.setVp r m f).started = x.started := rfl
@[simp] theorem Ctx.setVp_latched (x : Ctx) (r : Nat) (m : W32) (f : Nat → W64) : (x.setVp r m f).latched = x.latched := rfl
@[simp] theorem Ctx.setVp_latchCount (x : Ctx) (r : Nat) (m : W32) (f : Nat → W64) : (x.setVp r m f).latchCount = x.latchCount := rfl
@[simp] theorem Ctx.setVp_wait (x : Ctx) (r : Nat) (m : W32) (f : Nat → W64) : (x.setVp r m f).wait = x.wait := rfl
@[simp] theorem Ctx.setVp_fork (x : Ctx) (r : Nat) (m : W32) (f : Nat → W64) : (x.setVp r m f).fork = x.fork := rfl
@[simp] theorem Ctx.setVp_once (x : Ctx) (r : Nat) (m : W32) (f : Nat → W64) : (x.setVp r m f).once = x.once := rfl
@[simp] theorem Ctx.setVp_incsAwaited (x : Ctx) (r : Nat) (m : W32) (f : Nat → W64) : (x.setVp r m f).incsAwaited = x.incsAwaited := rfl
@[simp] theorem Ctx.setVp_stopNext (x : Ctx) (r : Nat) (m : W32) (f : Nat → W64) : (x.setVp r m f).stopNext = x.stopNext := rfl
@[simp] theorem Ctx.setVp_spared (x : Ctx) (r : Nat) (m : W32) (f : Nat → W64) : (x.setVp r m f).spared = x.spared := rfl
@[simp] theorem Ctx.setVp_deps (x : Ctx) (r : Nat) (m : W32) (f : Nat → W64) : (x.setVp r m f).deps = x.deps := rfl
@[simp] theorem Ctx.setVp_lastTbc (x : Ctx) (r : Nat) (m : W32) (f : Nat → W64) : (x.setVp r m f).lastTbc = x.lastTbc := rfl
@[simp] theorem Ctx.setVp_lastPc (x : Ctx) (r : Nat) (m : W32) (f : Nat → W64) : (x.setVp r m f).lastPc = x.lastPc := rfl
@[simp] theorem Ctx.setVp_ran (x : Ctx) (r : Nat) (m : W32) (f : Nat → W64) : (x.setVp r m f).ran = x.ran := rfl
@[simp] theorem Ctx.setVp_begun (x : Ctx) (r : Nat) (m : W32) (f : Nat → W64) : (x.setVp r m f).begun = x.begun := rfl
@[simp] theorem Ctx.setVp_act (x : Ctx) (r : Nat) (m : W32) (f : Nat → W64) : (x.setVp r m f).act = x.act := rfl
@[simp] theorem Ctx.setVp_r_s (x : Ctx) (r : Nat) (m : W32) (f : Nat → W64) : (x.setVp r m f).r.s = x.r.s := rfl
@[simp] theorem Ctx.setVp_r_p (x : Ctx) (r : Nat) (m : W32) (f : Nat → W64) : (x.setVp r m f).r.p = x.r.p := rfl
@[simp] theorem Ctx.setVp_r_k (x : Ctx) (r : Nat) (m : W32) (f : Nat → W64) : (x.setVp r m f).r.k = x.r.k := rfl
@[simp] theorem Ctx.setVp_r_cm (x : Ctx) (r : Nat) (m : W32) (f : Nat → W64) : (x.setVp r m f).r.cm = x.r.cm := rfl
@[simp] theorem Ctx.setVp_r_live (x : Ctx) (r : Nat) (m : W32) (f : Nat → W64) : (x.setVp r m f).r.live = x.r.live := rfl
@[simp] theorem Ctx.setVp_r_masks (x : Ctx) (r : Nat) (m : W32) (f : Nat → W64) : (x.setVp r m f).r.masks = x.r.masks := rfl
@[simp] theorem Ctx.setVp_r_loops (x : Ctx) (r : Nat) (m : W32) (f : Nat → W64) : (x.setVp r m f).r.loops = x.r.loops := rfl
@[simp] theorem Ctx.setVp_r_pc (x : Ctx) (r : Nat) (m : W32) (f : Nat → W64) : (x.setVp r m f).r.pc = x.r.pc := rfl
@[simp] theorem Ctx.setVp_r_pastEnd (x : Ctx) (r : Nat) (m : W32) (f : Nat → W64) : (x.setVp r m f).r.pastEnd = x.r.pastEnd := rfl
@[simp] theorem Ctx.setVp_r_binds (x : Ctx) (r : Nat) (m : W32) (f : Nat → W64) : (x.setVp r m f).r.binds = x.r.binds := rfl
@[simp] theorem Ctx.setVp_r_arrs (x : Ctx) (r : Nat) (m : W32) (f : Nat → W64) : (x.setVp r m f).r.arrs = x.r.arrs := rfl
@[simp] theorem Ctx.setVp_r_steps (x : Ctx) (r : Nat) (m : W32) (f : Nat → W64) : (x.setVp r m f).r.steps = x.r.steps := rfl

/-! ### setS -/

@[simp] theorem Ctx.setS_status (x : Ctx) (r : Nat) (y : W64) : (x.setS r y).status = x.status := by unfold Ctx.setS; split <;> rfl
@[simp] theorem Ctx.setS_snap (x : Ctx) (r : Nat) (y : W64) : (x.setS r y).snap = x.snap := by unfold Ctx.setS; split <;> rfl
@[simp] theorem Ctx.setS_snapBudget (x : Ctx) (r : Nat) (y : W64) : (x.setS r y).snapBudget = x.snapBudget := by unfold Ctx.setS; split <;> rfl
@[simp] theorem Ctx.setS_hdrs (x : Ctx) (r : Nat) (y : W64) : (x.setS r y).hdrs = x.hdrs := by unfold Ctx.setS; split <;> rfl
@[simp] theorem Ctx.setS_setSize (x : Ctx) (r : Nat) (y : W64) : (x.setS r y).setSize = x.setSize := by unfold Ctx.setS; split <;> rfl
@[simp] theorem Ctx.setS_entry (x : Ctx) (r : Nat) (y : W64) : (x.setS r y).entry = x.entry := by unfold Ctx.setS; split <;> rfl
@[simp] theorem Ctx.setS_cls (x : Ctx) (r : Nat) (y : W64) : (x.setS r y).cls = x.cls := by unfold Ctx.setS; split <;> rfl
@[simp] theorem Ctx.setS_slackNs (x : Ctx) (r : Nat) (y : W64) : (x.setS r y).slackNs = x.slackNs := by unfold Ctx.setS; split <;> rfl
@[simp] theorem Ctx.setS_priv (x : Ctx) (r : Nat) (y : W64) : (x.setS r y).priv = x.priv := by unfold Ctx.setS; split <;> rfl
@[simp] theorem Ctx.setS_cores (x : Ctx) (r : Nat) (y : W64) : (x.setS r y).cores = x.cores := by unfold Ctx.setS; split <;> rfl
@[simp] theorem Ctx.setS_first (x : Ctx) (r : Nat) (y : W64) : (x.setS r y).first = x.first := by unfold Ctx.setS; split <;> rfl
@[simp] theorem Ctx.setS_trigger (x : Ctx) (r : Nat) (y : W64) : (x.setS r y).trigger = x.trigger := by unfold Ctx.setS; split <;> rfl
@[simp] theorem Ctx.setS_budget (x : Ctx) (r : Nat) (y : W64) : (x.setS r y).budget = x.budget := by unfold Ctx.setS; split <;> rfl
@[simp] theorem Ctx.setS_fullBudget (x : Ctx) (r : Nat) (y : W64) : (x.setS r y).fullBudget = x.fullBudget := by unfold Ctx.setS; split <;> rfl
@[simp] theorem Ctx.setS_fpctl (x : Ctx) (r : Nat) (y : W64) : (x.setS r y).fpctl = x.fpctl := by unfold Ctx.setS; split <;> rfl
@[simp] theorem Ctx.setS_fpflags (x : Ctx) (r : Nat) (y : W64) : (x.setS r y).fpflags = x.fpflags := by unfold Ctx.setS; split <;> rfl
@[simp] theorem Ctx.setS_qcfg (x : Ctx) (r : Nat) (y : W64) : (x.setS r y).qcfg = x.qcfg := by unfold Ctx.setS; split <;> rfl
@[simp] theorem Ctx.setS_trap (x : Ctx) (r : Nat) (y : W64) : (x.setS r y).trap = x.trap := by unfold Ctx.setS; split <;> rfl
@[simp] theorem Ctx.setS_qs (x : Ctx) (r : Nat) (y : W64) : (x.setS r y).qs = x.qs := by unfold Ctx.setS; split <;> rfl
@[simp] theorem Ctx.setS_eps (x : Ctx) (r : Nat) (y : W64) : (x.setS r y).eps = x.eps := by unfold Ctx.setS; split <;> rfl
@[simp] theorem Ctx.setS_held (x : Ctx) (r : Nat) (y : W64) : (x.setS r y).held = x.held := by unfold Ctx.setS; split <;> rfl
@[simp] theorem Ctx.setS_released (x : Ctx) (r : Nat) (y : W64) : (x.setS r y).released = x.released := by unfold Ctx.setS; split <;> rfl
@[simp] theorem Ctx.setS_out (x : Ctx) (r : Nat) (y : W64) : (x.setS r y).out = x.out := by unfold Ctx.setS; split <;> rfl
@[simp] theorem Ctx.setS_sent (x : Ctx) (r : Nat) (y : W64) : (x.setS r y).sent = x.sent := by unfold Ctx.setS; split <;> rfl
@[simp] theorem Ctx.setS_acquires (x : Ctx) (r : Nat) (y : W64) : (x.setS r y).acquires = x.acquires := by unfold Ctx.setS; split <;> rfl
@[simp] theorem Ctx.setS_journal (x : Ctx) (r : Nat) (y : W64) : (x.setS r y).journal = x.journal := by unfold Ctx.setS; split <;> rfl
@[simp] theorem Ctx.setS_tw (x : Ctx) (r : Nat) (y : W64) : (x.setS r y).tw = x.tw := by unfold Ctx.setS; split <;> rfl
@[simp] theorem Ctx.setS_started (x : Ctx) (r : Nat) (y : W64) : (x.setS r y).started = x.started := by unfold Ctx.setS; split <;> rfl
@[simp] theorem Ctx.setS_latched (x : Ctx) (r : Nat) (y : W64) : (x.setS r y).latched = x.latched := by unfold Ctx.setS; split <;> rfl
@[simp] theorem Ctx.setS_latchCount (x : Ctx) (r : Nat) (y : W64) : (x.setS r y).latchCount = x.latchCount := by unfold Ctx.setS; split <;> rfl
@[simp] theorem Ctx.setS_wait (x : Ctx) (r : Nat) (y : W64) : (x.setS r y).wait = x.wait := by unfold Ctx.setS; split <;> rfl
@[simp] theorem Ctx.setS_fork (x : Ctx) (r : Nat) (y : W64) : (x.setS r y).fork = x.fork := by unfold Ctx.setS; split <;> rfl
@[simp] theorem Ctx.setS_once (x : Ctx) (r : Nat) (y : W64) : (x.setS r y).once = x.once := by unfold Ctx.setS; split <;> rfl
@[simp] theorem Ctx.setS_incsAwaited (x : Ctx) (r : Nat) (y : W64) : (x.setS r y).incsAwaited = x.incsAwaited := by unfold Ctx.setS; split <;> rfl
@[simp] theorem Ctx.setS_stopNext (x : Ctx) (r : Nat) (y : W64) : (x.setS r y).stopNext = x.stopNext := by unfold Ctx.setS; split <;> rfl
@[simp] theorem Ctx.setS_spared (x : Ctx) (r : Nat) (y : W64) : (x.setS r y).spared = x.spared := by unfold Ctx.setS; split <;> rfl
@[simp] theorem Ctx.setS_deps (x : Ctx) (r : Nat) (y : W64) : (x.setS r y).deps = x.deps := by unfold Ctx.setS; split <;> rfl
@[simp] theorem Ctx.setS_lastTbc (x : Ctx) (r : Nat) (y : W64) : (x.setS r y).lastTbc = x.lastTbc := by unfold Ctx.setS; split <;> rfl
@[simp] theorem Ctx.setS_lastPc (x : Ctx) (r : Nat) (y : W64) : (x.setS r y).lastPc = x.lastPc := by unfold Ctx.setS; split <;> rfl
@[simp] theorem Ctx.setS_ran (x : Ctx) (r : Nat) (y : W64) : (x.setS r y).ran = x.ran := by unfold Ctx.setS; split <;> rfl
@[simp] theorem Ctx.setS_begun (x : Ctx) (r : Nat) (y : W64) : (x.setS r y).begun = x.begun := by unfold Ctx.setS; split <;> rfl
@[simp] theorem Ctx.setS_act (x : Ctx) (r : Nat) (y : W64) : (x.setS r y).act = x.act := by unfold Ctx.setS; split <;> rfl
@[simp] theorem Ctx.setS_r_v (x : Ctx) (r : Nat) (y : W64) : (x.setS r y).r.v = x.r.v := by unfold Ctx.setS; split <;> rfl
@[simp] theorem Ctx.setS_r_p (x : Ctx) (r : Nat) (y : W64) : (x.setS r y).r.p = x.r.p := by unfold Ctx.setS; split <;> rfl
@[simp] theorem Ctx.setS_r_k (x : Ctx) (r : Nat) (y : W64) : (x.setS r y).r.k = x.r.k := by unfold Ctx.setS; split <;> rfl
@[simp] theorem Ctx.setS_r_cm (x : Ctx) (r : Nat) (y : W64) : (x.setS r y).r.cm = x.r.cm := by unfold Ctx.setS; split <;> rfl
@[simp] theorem Ctx.setS_r_live (x : Ctx) (r : Nat) (y : W64) : (x.setS r y).r.live = x.r.live := by unfold Ctx.setS; split <;> rfl
@[simp] theorem Ctx.setS_r_masks (x : Ctx) (r : Nat) (y : W64) : (x.setS r y).r.masks = x.r.masks := by unfold Ctx.setS; split <;> rfl
@[simp] theorem Ctx.setS_r_loops (x : Ctx) (r : Nat) (y : W64) : (x.setS r y).r.loops = x.r.loops := by unfold Ctx.setS; split <;> rfl
@[simp] theorem Ctx.setS_r_pc (x : Ctx) (r : Nat) (y : W64) : (x.setS r y).r.pc = x.r.pc := by unfold Ctx.setS; split <;> rfl
@[simp] theorem Ctx.setS_r_pastEnd (x : Ctx) (r : Nat) (y : W64) : (x.setS r y).r.pastEnd = x.r.pastEnd := by unfold Ctx.setS; split <;> rfl
@[simp] theorem Ctx.setS_r_binds (x : Ctx) (r : Nat) (y : W64) : (x.setS r y).r.binds = x.r.binds := by unfold Ctx.setS; split <;> rfl
@[simp] theorem Ctx.setS_r_arrs (x : Ctx) (r : Nat) (y : W64) : (x.setS r y).r.arrs = x.r.arrs := by unfold Ctx.setS; split <;> rfl
@[simp] theorem Ctx.setS_r_steps (x : Ctx) (r : Nat) (y : W64) : (x.setS r y).r.steps = x.r.steps := by unfold Ctx.setS; split <;> rfl

/-! ### setP -/

@[simp] theorem Ctx.setP_status (x : Ctx) (r : Nat) (m y : W32) : (x.setP r m y).status = x.status := by unfold Ctx.setP; split <;> rfl
@[simp] theorem Ctx.setP_snap (x : Ctx) (r : Nat) (m y : W32) : (x.setP r m y).snap = x.snap := by unfold Ctx.setP; split <;> rfl
@[simp] theorem Ctx.setP_snapBudget (x : Ctx) (r : Nat) (m y : W32) : (x.setP r m y).snapBudget = x.snapBudget := by unfold Ctx.setP; split <;> rfl
@[simp] theorem Ctx.setP_hdrs (x : Ctx) (r : Nat) (m y : W32) : (x.setP r m y).hdrs = x.hdrs := by unfold Ctx.setP; split <;> rfl
@[simp] theorem Ctx.setP_setSize (x : Ctx) (r : Nat) (m y : W32) : (x.setP r m y).setSize = x.setSize := by unfold Ctx.setP; split <;> rfl
@[simp] theorem Ctx.setP_entry (x : Ctx) (r : Nat) (m y : W32) : (x.setP r m y).entry = x.entry := by unfold Ctx.setP; split <;> rfl
@[simp] theorem Ctx.setP_cls (x : Ctx) (r : Nat) (m y : W32) : (x.setP r m y).cls = x.cls := by unfold Ctx.setP; split <;> rfl
@[simp] theorem Ctx.setP_slackNs (x : Ctx) (r : Nat) (m y : W32) : (x.setP r m y).slackNs = x.slackNs := by unfold Ctx.setP; split <;> rfl
@[simp] theorem Ctx.setP_priv (x : Ctx) (r : Nat) (m y : W32) : (x.setP r m y).priv = x.priv := by unfold Ctx.setP; split <;> rfl
@[simp] theorem Ctx.setP_cores (x : Ctx) (r : Nat) (m y : W32) : (x.setP r m y).cores = x.cores := by unfold Ctx.setP; split <;> rfl
@[simp] theorem Ctx.setP_first (x : Ctx) (r : Nat) (m y : W32) : (x.setP r m y).first = x.first := by unfold Ctx.setP; split <;> rfl
@[simp] theorem Ctx.setP_trigger (x : Ctx) (r : Nat) (m y : W32) : (x.setP r m y).trigger = x.trigger := by unfold Ctx.setP; split <;> rfl
@[simp] theorem Ctx.setP_budget (x : Ctx) (r : Nat) (m y : W32) : (x.setP r m y).budget = x.budget := by unfold Ctx.setP; split <;> rfl
@[simp] theorem Ctx.setP_fullBudget (x : Ctx) (r : Nat) (m y : W32) : (x.setP r m y).fullBudget = x.fullBudget := by unfold Ctx.setP; split <;> rfl
@[simp] theorem Ctx.setP_fpctl (x : Ctx) (r : Nat) (m y : W32) : (x.setP r m y).fpctl = x.fpctl := by unfold Ctx.setP; split <;> rfl
@[simp] theorem Ctx.setP_fpflags (x : Ctx) (r : Nat) (m y : W32) : (x.setP r m y).fpflags = x.fpflags := by unfold Ctx.setP; split <;> rfl
@[simp] theorem Ctx.setP_qcfg (x : Ctx) (r : Nat) (m y : W32) : (x.setP r m y).qcfg = x.qcfg := by unfold Ctx.setP; split <;> rfl
@[simp] theorem Ctx.setP_trap (x : Ctx) (r : Nat) (m y : W32) : (x.setP r m y).trap = x.trap := by unfold Ctx.setP; split <;> rfl
@[simp] theorem Ctx.setP_qs (x : Ctx) (r : Nat) (m y : W32) : (x.setP r m y).qs = x.qs := by unfold Ctx.setP; split <;> rfl
@[simp] theorem Ctx.setP_eps (x : Ctx) (r : Nat) (m y : W32) : (x.setP r m y).eps = x.eps := by unfold Ctx.setP; split <;> rfl
@[simp] theorem Ctx.setP_held (x : Ctx) (r : Nat) (m y : W32) : (x.setP r m y).held = x.held := by unfold Ctx.setP; split <;> rfl
@[simp] theorem Ctx.setP_released (x : Ctx) (r : Nat) (m y : W32) : (x.setP r m y).released = x.released := by unfold Ctx.setP; split <;> rfl
@[simp] theorem Ctx.setP_out (x : Ctx) (r : Nat) (m y : W32) : (x.setP r m y).out = x.out := by unfold Ctx.setP; split <;> rfl
@[simp] theorem Ctx.setP_sent (x : Ctx) (r : Nat) (m y : W32) : (x.setP r m y).sent = x.sent := by unfold Ctx.setP; split <;> rfl
@[simp] theorem Ctx.setP_acquires (x : Ctx) (r : Nat) (m y : W32) : (x.setP r m y).acquires = x.acquires := by unfold Ctx.setP; split <;> rfl
@[simp] theorem Ctx.setP_journal (x : Ctx) (r : Nat) (m y : W32) : (x.setP r m y).journal = x.journal := by unfold Ctx.setP; split <;> rfl
@[simp] theorem Ctx.setP_tw (x : Ctx) (r : Nat) (m y : W32) : (x.setP r m y).tw = x.tw := by unfold Ctx.setP; split <;> rfl
@[simp] theorem Ctx.setP_started (x : Ctx) (r : Nat) (m y : W32) : (x.setP r m y).started = x.started := by unfold Ctx.setP; split <;> rfl
@[simp] theorem Ctx.setP_latched (x : Ctx) (r : Nat) (m y : W32) : (x.setP r m y).latched = x.latched := by unfold Ctx.setP; split <;> rfl
@[simp] theorem Ctx.setP_latchCount (x : Ctx) (r : Nat) (m y : W32) : (x.setP r m y).latchCount = x.latchCount := by unfold Ctx.setP; split <;> rfl
@[simp] theorem Ctx.setP_wait (x : Ctx) (r : Nat) (m y : W32) : (x.setP r m y).wait = x.wait := by unfold Ctx.setP; split <;> rfl
@[simp] theorem Ctx.setP_fork (x : Ctx) (r : Nat) (m y : W32) : (x.setP r m y).fork = x.fork := by unfold Ctx.setP; split <;> rfl
@[simp] theorem Ctx.setP_once (x : Ctx) (r : Nat) (m y : W32) : (x.setP r m y).once = x.once := by unfold Ctx.setP; split <;> rfl
@[simp] theorem Ctx.setP_incsAwaited (x : Ctx) (r : Nat) (m y : W32) : (x.setP r m y).incsAwaited = x.incsAwaited := by unfold Ctx.setP; split <;> rfl
@[simp] theorem Ctx.setP_stopNext (x : Ctx) (r : Nat) (m y : W32) : (x.setP r m y).stopNext = x.stopNext := by unfold Ctx.setP; split <;> rfl
@[simp] theorem Ctx.setP_spared (x : Ctx) (r : Nat) (m y : W32) : (x.setP r m y).spared = x.spared := by unfold Ctx.setP; split <;> rfl
@[simp] theorem Ctx.setP_deps (x : Ctx) (r : Nat) (m y : W32) : (x.setP r m y).deps = x.deps := by unfold Ctx.setP; split <;> rfl
@[simp] theorem Ctx.setP_lastTbc (x : Ctx) (r : Nat) (m y : W32) : (x.setP r m y).lastTbc = x.lastTbc := by unfold Ctx.setP; split <;> rfl
@[simp] theorem Ctx.setP_lastPc (x : Ctx) (r : Nat) (m y : W32) : (x.setP r m y).lastPc = x.lastPc := by unfold Ctx.setP; split <;> rfl
@[simp] theorem Ctx.setP_ran (x : Ctx) (r : Nat) (m y : W32) : (x.setP r m y).ran = x.ran := by unfold Ctx.setP; split <;> rfl
@[simp] theorem Ctx.setP_begun (x : Ctx) (r : Nat) (m y : W32) : (x.setP r m y).begun = x.begun := by unfold Ctx.setP; split <;> rfl
@[simp] theorem Ctx.setP_act (x : Ctx) (r : Nat) (m y : W32) : (x.setP r m y).act = x.act := by unfold Ctx.setP; split <;> rfl
@[simp] theorem Ctx.setP_r_v (x : Ctx) (r : Nat) (m y : W32) : (x.setP r m y).r.v = x.r.v := by unfold Ctx.setP; split <;> rfl
@[simp] theorem Ctx.setP_r_s (x : Ctx) (r : Nat) (m y : W32) : (x.setP r m y).r.s = x.r.s := by unfold Ctx.setP; split <;> rfl
@[simp] theorem Ctx.setP_r_k (x : Ctx) (r : Nat) (m y : W32) : (x.setP r m y).r.k = x.r.k := by unfold Ctx.setP; split <;> rfl
@[simp] theorem Ctx.setP_r_cm (x : Ctx) (r : Nat) (m y : W32) : (x.setP r m y).r.cm = x.r.cm := by unfold Ctx.setP; split <;> rfl
@[simp] theorem Ctx.setP_r_live (x : Ctx) (r : Nat) (m y : W32) : (x.setP r m y).r.live = x.r.live := by unfold Ctx.setP; split <;> rfl
@[simp] theorem Ctx.setP_r_masks (x : Ctx) (r : Nat) (m y : W32) : (x.setP r m y).r.masks = x.r.masks := by unfold Ctx.setP; split <;> rfl
@[simp] theorem Ctx.setP_r_loops (x : Ctx) (r : Nat) (m y : W32) : (x.setP r m y).r.loops = x.r.loops := by unfold Ctx.setP; split <;> rfl
@[simp] theorem Ctx.setP_r_pc (x : Ctx) (r : Nat) (m y : W32) : (x.setP r m y).r.pc = x.r.pc := by unfold Ctx.setP; split <;> rfl
@[simp] theorem Ctx.setP_r_pastEnd (x : Ctx) (r : Nat) (m y : W32) : (x.setP r m y).r.pastEnd = x.r.pastEnd := by unfold Ctx.setP; split <;> rfl
@[simp] theorem Ctx.setP_r_binds (x : Ctx) (r : Nat) (m y : W32) : (x.setP r m y).r.binds = x.r.binds := by unfold Ctx.setP; split <;> rfl
@[simp] theorem Ctx.setP_r_arrs (x : Ctx) (r : Nat) (m y : W32) : (x.setP r m y).r.arrs = x.r.arrs := by unfold Ctx.setP; split <;> rfl
@[simp] theorem Ctx.setP_r_steps (x : Ctx) (r : Nat) (m y : W32) : (x.setP r m y).r.steps = x.r.steps := by unfold Ctx.setP; split <;> rfl

/-! ### setK -/

@[simp] theorem Ctx.setK_status (x : Ctx) (r : Nat) (y : Bool) : (x.setK r y).status = x.status := by unfold Ctx.setK; split <;> rfl
@[simp] theorem Ctx.setK_snap (x : Ctx) (r : Nat) (y : Bool) : (x.setK r y).snap = x.snap := by unfold Ctx.setK; split <;> rfl
@[simp] theorem Ctx.setK_snapBudget (x : Ctx) (r : Nat) (y : Bool) : (x.setK r y).snapBudget = x.snapBudget := by unfold Ctx.setK; split <;> rfl
@[simp] theorem Ctx.setK_hdrs (x : Ctx) (r : Nat) (y : Bool) : (x.setK r y).hdrs = x.hdrs := by unfold Ctx.setK; split <;> rfl
@[simp] theorem Ctx.setK_setSize (x : Ctx) (r : Nat) (y : Bool) : (x.setK r y).setSize = x.setSize := by unfold Ctx.setK; split <;> rfl
@[simp] theorem Ctx.setK_entry (x : Ctx) (r : Nat) (y : Bool) : (x.setK r y).entry = x.entry := by unfold Ctx.setK; split <;> rfl
@[simp] theorem Ctx.setK_cls (x : Ctx) (r : Nat) (y : Bool) : (x.setK r y).cls = x.cls := by unfold Ctx.setK; split <;> rfl
@[simp] theorem Ctx.setK_slackNs (x : Ctx) (r : Nat) (y : Bool) : (x.setK r y).slackNs = x.slackNs := by unfold Ctx.setK; split <;> rfl
@[simp] theorem Ctx.setK_priv (x : Ctx) (r : Nat) (y : Bool) : (x.setK r y).priv = x.priv := by unfold Ctx.setK; split <;> rfl
@[simp] theorem Ctx.setK_cores (x : Ctx) (r : Nat) (y : Bool) : (x.setK r y).cores = x.cores := by unfold Ctx.setK; split <;> rfl
@[simp] theorem Ctx.setK_first (x : Ctx) (r : Nat) (y : Bool) : (x.setK r y).first = x.first := by unfold Ctx.setK; split <;> rfl
@[simp] theorem Ctx.setK_trigger (x : Ctx) (r : Nat) (y : Bool) : (x.setK r y).trigger = x.trigger := by unfold Ctx.setK; split <;> rfl
@[simp] theorem Ctx.setK_budget (x : Ctx) (r : Nat) (y : Bool) : (x.setK r y).budget = x.budget := by unfold Ctx.setK; split <;> rfl
@[simp] theorem Ctx.setK_fullBudget (x : Ctx) (r : Nat) (y : Bool) : (x.setK r y).fullBudget = x.fullBudget := by unfold Ctx.setK; split <;> rfl
@[simp] theorem Ctx.setK_fpctl (x : Ctx) (r : Nat) (y : Bool) : (x.setK r y).fpctl = x.fpctl := by unfold Ctx.setK; split <;> rfl
@[simp] theorem Ctx.setK_fpflags (x : Ctx) (r : Nat) (y : Bool) : (x.setK r y).fpflags = x.fpflags := by unfold Ctx.setK; split <;> rfl
@[simp] theorem Ctx.setK_qcfg (x : Ctx) (r : Nat) (y : Bool) : (x.setK r y).qcfg = x.qcfg := by unfold Ctx.setK; split <;> rfl
@[simp] theorem Ctx.setK_trap (x : Ctx) (r : Nat) (y : Bool) : (x.setK r y).trap = x.trap := by unfold Ctx.setK; split <;> rfl
@[simp] theorem Ctx.setK_qs (x : Ctx) (r : Nat) (y : Bool) : (x.setK r y).qs = x.qs := by unfold Ctx.setK; split <;> rfl
@[simp] theorem Ctx.setK_eps (x : Ctx) (r : Nat) (y : Bool) : (x.setK r y).eps = x.eps := by unfold Ctx.setK; split <;> rfl
@[simp] theorem Ctx.setK_held (x : Ctx) (r : Nat) (y : Bool) : (x.setK r y).held = x.held := by unfold Ctx.setK; split <;> rfl
@[simp] theorem Ctx.setK_released (x : Ctx) (r : Nat) (y : Bool) : (x.setK r y).released = x.released := by unfold Ctx.setK; split <;> rfl
@[simp] theorem Ctx.setK_out (x : Ctx) (r : Nat) (y : Bool) : (x.setK r y).out = x.out := by unfold Ctx.setK; split <;> rfl
@[simp] theorem Ctx.setK_sent (x : Ctx) (r : Nat) (y : Bool) : (x.setK r y).sent = x.sent := by unfold Ctx.setK; split <;> rfl
@[simp] theorem Ctx.setK_acquires (x : Ctx) (r : Nat) (y : Bool) : (x.setK r y).acquires = x.acquires := by unfold Ctx.setK; split <;> rfl
@[simp] theorem Ctx.setK_journal (x : Ctx) (r : Nat) (y : Bool) : (x.setK r y).journal = x.journal := by unfold Ctx.setK; split <;> rfl
@[simp] theorem Ctx.setK_tw (x : Ctx) (r : Nat) (y : Bool) : (x.setK r y).tw = x.tw := by unfold Ctx.setK; split <;> rfl
@[simp] theorem Ctx.setK_started (x : Ctx) (r : Nat) (y : Bool) : (x.setK r y).started = x.started := by unfold Ctx.setK; split <;> rfl
@[simp] theorem Ctx.setK_latched (x : Ctx) (r : Nat) (y : Bool) : (x.setK r y).latched = x.latched := by unfold Ctx.setK; split <;> rfl
@[simp] theorem Ctx.setK_latchCount (x : Ctx) (r : Nat) (y : Bool) : (x.setK r y).latchCount = x.latchCount := by unfold Ctx.setK; split <;> rfl
@[simp] theorem Ctx.setK_wait (x : Ctx) (r : Nat) (y : Bool) : (x.setK r y).wait = x.wait := by unfold Ctx.setK; split <;> rfl
@[simp] theorem Ctx.setK_fork (x : Ctx) (r : Nat) (y : Bool) : (x.setK r y).fork = x.fork := by unfold Ctx.setK; split <;> rfl
@[simp] theorem Ctx.setK_once (x : Ctx) (r : Nat) (y : Bool) : (x.setK r y).once = x.once := by unfold Ctx.setK; split <;> rfl
@[simp] theorem Ctx.setK_incsAwaited (x : Ctx) (r : Nat) (y : Bool) : (x.setK r y).incsAwaited = x.incsAwaited := by unfold Ctx.setK; split <;> rfl
@[simp] theorem Ctx.setK_stopNext (x : Ctx) (r : Nat) (y : Bool) : (x.setK r y).stopNext = x.stopNext := by unfold Ctx.setK; split <;> rfl
@[simp] theorem Ctx.setK_spared (x : Ctx) (r : Nat) (y : Bool) : (x.setK r y).spared = x.spared := by unfold Ctx.setK; split <;> rfl
@[simp] theorem Ctx.setK_deps (x : Ctx) (r : Nat) (y : Bool) : (x.setK r y).deps = x.deps := by unfold Ctx.setK; split <;> rfl
@[simp] theorem Ctx.setK_lastTbc (x : Ctx) (r : Nat) (y : Bool) : (x.setK r y).lastTbc = x.lastTbc := by unfold Ctx.setK; split <;> rfl
@[simp] theorem Ctx.setK_lastPc (x : Ctx) (r : Nat) (y : Bool) : (x.setK r y).lastPc = x.lastPc := by unfold Ctx.setK; split <;> rfl
@[simp] theorem Ctx.setK_ran (x : Ctx) (r : Nat) (y : Bool) : (x.setK r y).ran = x.ran := by unfold Ctx.setK; split <;> rfl
@[simp] theorem Ctx.setK_begun (x : Ctx) (r : Nat) (y : Bool) : (x.setK r y).begun = x.begun := by unfold Ctx.setK; split <;> rfl
@[simp] theorem Ctx.setK_act (x : Ctx) (r : Nat) (y : Bool) : (x.setK r y).act = x.act := by unfold Ctx.setK; split <;> rfl
@[simp] theorem Ctx.setK_r_v (x : Ctx) (r : Nat) (y : Bool) : (x.setK r y).r.v = x.r.v := by unfold Ctx.setK; split <;> rfl
@[simp] theorem Ctx.setK_r_s (x : Ctx) (r : Nat) (y : Bool) : (x.setK r y).r.s = x.r.s := by unfold Ctx.setK; split <;> rfl
@[simp] theorem Ctx.setK_r_p (x : Ctx) (r : Nat) (y : Bool) : (x.setK r y).r.p = x.r.p := by unfold Ctx.setK; split <;> rfl
@[simp] theorem Ctx.setK_r_cm (x : Ctx) (r : Nat) (y : Bool) : (x.setK r y).r.cm = x.r.cm := by unfold Ctx.setK; split <;> rfl
@[simp] theorem Ctx.setK_r_live (x : Ctx) (r : Nat) (y : Bool) : (x.setK r y).r.live = x.r.live := by unfold Ctx.setK; split <;> rfl
@[simp] theorem Ctx.setK_r_masks (x : Ctx) (r : Nat) (y : Bool) : (x.setK r y).r.masks = x.r.masks := by unfold Ctx.setK; split <;> rfl
@[simp] theorem Ctx.setK_r_loops (x : Ctx) (r : Nat) (y : Bool) : (x.setK r y).r.loops = x.r.loops := by unfold Ctx.setK; split <;> rfl
@[simp] theorem Ctx.setK_r_pc (x : Ctx) (r : Nat) (y : Bool) : (x.setK r y).r.pc = x.r.pc := by unfold Ctx.setK; split <;> rfl
@[simp] theorem Ctx.setK_r_pastEnd (x : Ctx) (r : Nat) (y : Bool) : (x.setK r y).r.pastEnd = x.r.pastEnd := by unfold Ctx.setK; split <;> rfl
@[simp] theorem Ctx.setK_r_binds (x : Ctx) (r : Nat) (y : Bool) : (x.setK r y).r.binds = x.r.binds := by unfold Ctx.setK; split <;> rfl
@[simp] theorem Ctx.setK_r_arrs (x : Ctx) (r : Nat) (y : Bool) : (x.setK r y).r.arrs = x.r.arrs := by unfold Ctx.setK; split <;> rfl
@[simp] theorem Ctx.setK_r_steps (x : Ctx) (r : Nat) (y : Bool) : (x.setK r y).r.steps = x.r.steps := by unfold Ctx.setK; split <;> rfl

/-! ### put -/

@[simp] theorem Ctx.put_status (x : Ctx) (d : Reg) (wide : Bool) (m : W32) (f : Nat → W64) : (x.put d wide m f).status = x.status := by unfold Ctx.put; split <;> rfl
@[simp] theorem Ctx.put_snap (x : Ctx) (d : Reg) (wide : Bool) (m : W32) (f : Nat → W64) : (x.put d wide m f).snap = x.snap := by unfold Ctx.put; split <;> rfl
@[simp] theorem Ctx.put_snapBudget (x : Ctx) (d : Reg) (wide : Bool) (m : W32) (f : Nat → W64) : (x.put d wide m f).snapBudget = x.snapBudget := by unfold Ctx.put; split <;> rfl
@[simp] theorem Ctx.put_hdrs (x : Ctx) (d : Reg) (wide : Bool) (m : W32) (f : Nat → W64) : (x.put d wide m f).hdrs = x.hdrs := by unfold Ctx.put; split <;> rfl
@[simp] theorem Ctx.put_setSize (x : Ctx) (d : Reg) (wide : Bool) (m : W32) (f : Nat → W64) : (x.put d wide m f).setSize = x.setSize := by unfold Ctx.put; split <;> rfl
@[simp] theorem Ctx.put_entry (x : Ctx) (d : Reg) (wide : Bool) (m : W32) (f : Nat → W64) : (x.put d wide m f).entry = x.entry := by unfold Ctx.put; split <;> rfl
@[simp] theorem Ctx.put_cls (x : Ctx) (d : Reg) (wide : Bool) (m : W32) (f : Nat → W64) : (x.put d wide m f).cls = x.cls := by unfold Ctx.put; split <;> rfl
@[simp] theorem Ctx.put_slackNs (x : Ctx) (d : Reg) (wide : Bool) (m : W32) (f : Nat → W64) : (x.put d wide m f).slackNs = x.slackNs := by unfold Ctx.put; split <;> rfl
@[simp] theorem Ctx.put_priv (x : Ctx) (d : Reg) (wide : Bool) (m : W32) (f : Nat → W64) : (x.put d wide m f).priv = x.priv := by unfold Ctx.put; split <;> rfl
@[simp] theorem Ctx.put_cores (x : Ctx) (d : Reg) (wide : Bool) (m : W32) (f : Nat → W64) : (x.put d wide m f).cores = x.cores := by unfold Ctx.put; split <;> rfl
@[simp] theorem Ctx.put_first (x : Ctx) (d : Reg) (wide : Bool) (m : W32) (f : Nat → W64) : (x.put d wide m f).first = x.first := by unfold Ctx.put; split <;> rfl
@[simp] theorem Ctx.put_trigger (x : Ctx) (d : Reg) (wide : Bool) (m : W32) (f : Nat → W64) : (x.put d wide m f).trigger = x.trigger := by unfold Ctx.put; split <;> rfl
@[simp] theorem Ctx.put_budget (x : Ctx) (d : Reg) (wide : Bool) (m : W32) (f : Nat → W64) : (x.put d wide m f).budget = x.budget := by unfold Ctx.put; split <;> rfl
@[simp] theorem Ctx.put_fullBudget (x : Ctx) (d : Reg) (wide : Bool) (m : W32) (f : Nat → W64) : (x.put d wide m f).fullBudget = x.fullBudget := by unfold Ctx.put; split <;> rfl
@[simp] theorem Ctx.put_fpctl (x : Ctx) (d : Reg) (wide : Bool) (m : W32) (f : Nat → W64) : (x.put d wide m f).fpctl = x.fpctl := by unfold Ctx.put; split <;> rfl
@[simp] theorem Ctx.put_fpflags (x : Ctx) (d : Reg) (wide : Bool) (m : W32) (f : Nat → W64) : (x.put d wide m f).fpflags = x.fpflags := by unfold Ctx.put; split <;> rfl
@[simp] theorem Ctx.put_qcfg (x : Ctx) (d : Reg) (wide : Bool) (m : W32) (f : Nat → W64) : (x.put d wide m f).qcfg = x.qcfg := by unfold Ctx.put; split <;> rfl
@[simp] theorem Ctx.put_trap (x : Ctx) (d : Reg) (wide : Bool) (m : W32) (f : Nat → W64) : (x.put d wide m f).trap = x.trap := by unfold Ctx.put; split <;> rfl
@[simp] theorem Ctx.put_qs (x : Ctx) (d : Reg) (wide : Bool) (m : W32) (f : Nat → W64) : (x.put d wide m f).qs = x.qs := by unfold Ctx.put; split <;> rfl
@[simp] theorem Ctx.put_eps (x : Ctx) (d : Reg) (wide : Bool) (m : W32) (f : Nat → W64) : (x.put d wide m f).eps = x.eps := by unfold Ctx.put; split <;> rfl
@[simp] theorem Ctx.put_held (x : Ctx) (d : Reg) (wide : Bool) (m : W32) (f : Nat → W64) : (x.put d wide m f).held = x.held := by unfold Ctx.put; split <;> rfl
@[simp] theorem Ctx.put_released (x : Ctx) (d : Reg) (wide : Bool) (m : W32) (f : Nat → W64) : (x.put d wide m f).released = x.released := by unfold Ctx.put; split <;> rfl
@[simp] theorem Ctx.put_out (x : Ctx) (d : Reg) (wide : Bool) (m : W32) (f : Nat → W64) : (x.put d wide m f).out = x.out := by unfold Ctx.put; split <;> rfl
@[simp] theorem Ctx.put_sent (x : Ctx) (d : Reg) (wide : Bool) (m : W32) (f : Nat → W64) : (x.put d wide m f).sent = x.sent := by unfold Ctx.put; split <;> rfl
@[simp] theorem Ctx.put_acquires (x : Ctx) (d : Reg) (wide : Bool) (m : W32) (f : Nat → W64) : (x.put d wide m f).acquires = x.acquires := by unfold Ctx.put; split <;> rfl
@[simp] theorem Ctx.put_journal (x : Ctx) (d : Reg) (wide : Bool) (m : W32) (f : Nat → W64) : (x.put d wide m f).journal = x.journal := by unfold Ctx.put; split <;> rfl
@[simp] theorem Ctx.put_tw (x : Ctx) (d : Reg) (wide : Bool) (m : W32) (f : Nat → W64) : (x.put d wide m f).tw = x.tw := by unfold Ctx.put; split <;> rfl
@[simp] theorem Ctx.put_started (x : Ctx) (d : Reg) (wide : Bool) (m : W32) (f : Nat → W64) : (x.put d wide m f).started = x.started := by unfold Ctx.put; split <;> rfl
@[simp] theorem Ctx.put_latched (x : Ctx) (d : Reg) (wide : Bool) (m : W32) (f : Nat → W64) : (x.put d wide m f).latched = x.latched := by unfold Ctx.put; split <;> rfl
@[simp] theorem Ctx.put_latchCount (x : Ctx) (d : Reg) (wide : Bool) (m : W32) (f : Nat → W64) : (x.put d wide m f).latchCount = x.latchCount := by unfold Ctx.put; split <;> rfl
@[simp] theorem Ctx.put_wait (x : Ctx) (d : Reg) (wide : Bool) (m : W32) (f : Nat → W64) : (x.put d wide m f).wait = x.wait := by unfold Ctx.put; split <;> rfl
@[simp] theorem Ctx.put_fork (x : Ctx) (d : Reg) (wide : Bool) (m : W32) (f : Nat → W64) : (x.put d wide m f).fork = x.fork := by unfold Ctx.put; split <;> rfl
@[simp] theorem Ctx.put_once (x : Ctx) (d : Reg) (wide : Bool) (m : W32) (f : Nat → W64) : (x.put d wide m f).once = x.once := by unfold Ctx.put; split <;> rfl
@[simp] theorem Ctx.put_incsAwaited (x : Ctx) (d : Reg) (wide : Bool) (m : W32) (f : Nat → W64) : (x.put d wide m f).incsAwaited = x.incsAwaited := by unfold Ctx.put; split <;> rfl
@[simp] theorem Ctx.put_stopNext (x : Ctx) (d : Reg) (wide : Bool) (m : W32) (f : Nat → W64) : (x.put d wide m f).stopNext = x.stopNext := by unfold Ctx.put; split <;> rfl
@[simp] theorem Ctx.put_spared (x : Ctx) (d : Reg) (wide : Bool) (m : W32) (f : Nat → W64) : (x.put d wide m f).spared = x.spared := by unfold Ctx.put; split <;> rfl
@[simp] theorem Ctx.put_deps (x : Ctx) (d : Reg) (wide : Bool) (m : W32) (f : Nat → W64) : (x.put d wide m f).deps = x.deps := by unfold Ctx.put; split <;> rfl
@[simp] theorem Ctx.put_lastTbc (x : Ctx) (d : Reg) (wide : Bool) (m : W32) (f : Nat → W64) : (x.put d wide m f).lastTbc = x.lastTbc := by unfold Ctx.put; split <;> rfl
@[simp] theorem Ctx.put_lastPc (x : Ctx) (d : Reg) (wide : Bool) (m : W32) (f : Nat → W64) : (x.put d wide m f).lastPc = x.lastPc := by unfold Ctx.put; split <;> rfl
@[simp] theorem Ctx.put_ran (x : Ctx) (d : Reg) (wide : Bool) (m : W32) (f : Nat → W64) : (x.put d wide m f).ran = x.ran := by unfold Ctx.put; split <;> rfl
@[simp] theorem Ctx.put_begun (x : Ctx) (d : Reg) (wide : Bool) (m : W32) (f : Nat → W64) : (x.put d wide m f).begun = x.begun := by unfold Ctx.put; split <;> rfl
@[simp] theorem Ctx.put_act (x : Ctx) (d : Reg) (wide : Bool) (m : W32) (f : Nat → W64) : (x.put d wide m f).act = x.act := by unfold Ctx.put; split <;> rfl
@[simp] theorem Ctx.put_r_s (x : Ctx) (d : Reg) (wide : Bool) (m : W32) (f : Nat → W64) : (x.put d wide m f).r.s = x.r.s := by unfold Ctx.put; split <;> rfl
@[simp] theorem Ctx.put_r_p (x : Ctx) (d : Reg) (wide : Bool) (m : W32) (f : Nat → W64) : (x.put d wide m f).r.p = x.r.p := by unfold Ctx.put; split <;> rfl
@[simp] theorem Ctx.put_r_k (x : Ctx) (d : Reg) (wide : Bool) (m : W32) (f : Nat → W64) : (x.put d wide m f).r.k = x.r.k := by unfold Ctx.put; split <;> rfl
@[simp] theorem Ctx.put_r_cm (x : Ctx) (d : Reg) (wide : Bool) (m : W32) (f : Nat → W64) : (x.put d wide m f).r.cm = x.r.cm := by unfold Ctx.put; split <;> rfl
@[simp] theorem Ctx.put_r_live (x : Ctx) (d : Reg) (wide : Bool) (m : W32) (f : Nat → W64) : (x.put d wide m f).r.live = x.r.live := by unfold Ctx.put; split <;> rfl
@[simp] theorem Ctx.put_r_masks (x : Ctx) (d : Reg) (wide : Bool) (m : W32) (f : Nat → W64) : (x.put d wide m f).r.masks = x.r.masks := by unfold Ctx.put; split <;> rfl
@[simp] theorem Ctx.put_r_loops (x : Ctx) (d : Reg) (wide : Bool) (m : W32) (f : Nat → W64) : (x.put d wide m f).r.loops = x.r.loops := by unfold Ctx.put; split <;> rfl
@[simp] theorem Ctx.put_r_pc (x : Ctx) (d : Reg) (wide : Bool) (m : W32) (f : Nat → W64) : (x.put d wide m f).r.pc = x.r.pc := by unfold Ctx.put; split <;> rfl
@[simp] theorem Ctx.put_r_pastEnd (x : Ctx) (d : Reg) (wide : Bool) (m : W32) (f : Nat → W64) : (x.put d wide m f).r.pastEnd = x.r.pastEnd := by unfold Ctx.put; split <;> rfl
@[simp] theorem Ctx.put_r_binds (x : Ctx) (d : Reg) (wide : Bool) (m : W32) (f : Nat → W64) : (x.put d wide m f).r.binds = x.r.binds := by unfold Ctx.put; split <;> rfl
@[simp] theorem Ctx.put_r_arrs (x : Ctx) (d : Reg) (wide : Bool) (m : W32) (f : Nat → W64) : (x.put d wide m f).r.arrs = x.r.arrs := by unfold Ctx.put; split <;> rfl
@[simp] theorem Ctx.put_r_steps (x : Ctx) (d : Reg) (wide : Bool) (m : W32) (f : Nat → W64) : (x.put d wide m f).r.steps = x.r.steps := by unfold Ctx.put; split <;> rfl

/-! ### past -/

@[simp] theorem Ctx.past_status (x : Ctx) (n : Nat) : (x.past n).status = x.status := rfl
@[simp] theorem Ctx.past_snap (x : Ctx) (n : Nat) : (x.past n).snap = x.snap := rfl
@[simp] theorem Ctx.past_snapBudget (x : Ctx) (n : Nat) : (x.past n).snapBudget = x.snapBudget := rfl
@[simp] theorem Ctx.past_hdrs (x : Ctx) (n : Nat) : (x.past n).hdrs = x.hdrs := rfl
@[simp] theorem Ctx.past_setSize (x : Ctx) (n : Nat) : (x.past n).setSize = x.setSize := rfl
@[simp] theorem Ctx.past_entry (x : Ctx) (n : Nat) : (x.past n).entry = x.entry := rfl
@[simp] theorem Ctx.past_cls (x : Ctx) (n : Nat) : (x.past n).cls = x.cls := rfl
@[simp] theorem Ctx.past_slackNs (x : Ctx) (n : Nat) : (x.past n).slackNs = x.slackNs := rfl
@[simp] theorem Ctx.past_priv (x : Ctx) (n : Nat) : (x.past n).priv = x.priv := rfl
@[simp] theorem Ctx.past_cores (x : Ctx) (n : Nat) : (x.past n).cores = x.cores := rfl
@[simp] theorem Ctx.past_first (x : Ctx) (n : Nat) : (x.past n).first = x.first := rfl
@[simp] theorem Ctx.past_trigger (x : Ctx) (n : Nat) : (x.past n).trigger = x.trigger := rfl
@[simp] theorem Ctx.past_budget (x : Ctx) (n : Nat) : (x.past n).budget = x.budget := rfl
@[simp] theorem Ctx.past_fullBudget (x : Ctx) (n : Nat) : (x.past n).fullBudget = x.fullBudget := rfl
@[simp] theorem Ctx.past_fpctl (x : Ctx) (n : Nat) : (x.past n).fpctl = x.fpctl := rfl
@[simp] theorem Ctx.past_fpflags (x : Ctx) (n : Nat) : (x.past n).fpflags = x.fpflags := rfl
@[simp] theorem Ctx.past_qcfg (x : Ctx) (n : Nat) : (x.past n).qcfg = x.qcfg := rfl
@[simp] theorem Ctx.past_trap (x : Ctx) (n : Nat) : (x.past n).trap = x.trap := rfl
@[simp] theorem Ctx.past_qs (x : Ctx) (n : Nat) : (x.past n).qs = x.qs := rfl
@[simp] theorem Ctx.past_eps (x : Ctx) (n : Nat) : (x.past n).eps = x.eps := rfl
@[simp] theorem Ctx.past_held (x : Ctx) (n : Nat) : (x.past n).held = x.held := rfl
@[simp] theorem Ctx.past_released (x : Ctx) (n : Nat) : (x.past n).released = x.released := rfl
@[simp] theorem Ctx.past_out (x : Ctx) (n : Nat) : (x.past n).out = x.out := rfl
@[simp] theorem Ctx.past_sent (x : Ctx) (n : Nat) : (x.past n).sent = x.sent := rfl
@[simp] theorem Ctx.past_acquires (x : Ctx) (n : Nat) : (x.past n).acquires = x.acquires := rfl
@[simp] theorem Ctx.past_journal (x : Ctx) (n : Nat) : (x.past n).journal = x.journal := rfl
@[simp] theorem Ctx.past_tw (x : Ctx) (n : Nat) : (x.past n).tw = x.tw := rfl
@[simp] theorem Ctx.past_started (x : Ctx) (n : Nat) : (x.past n).started = x.started := rfl
@[simp] theorem Ctx.past_latched (x : Ctx) (n : Nat) : (x.past n).latched = x.latched := rfl
@[simp] theorem Ctx.past_latchCount (x : Ctx) (n : Nat) : (x.past n).latchCount = x.latchCount := rfl
@[simp] theorem Ctx.past_fork (x : Ctx) (n : Nat) : (x.past n).fork = x.fork := rfl
@[simp] theorem Ctx.past_once (x : Ctx) (n : Nat) : (x.past n).once = x.once := rfl
@[simp] theorem Ctx.past_incsAwaited (x : Ctx) (n : Nat) : (x.past n).incsAwaited = x.incsAwaited := rfl
@[simp] theorem Ctx.past_stopNext (x : Ctx) (n : Nat) : (x.past n).stopNext = x.stopNext := rfl
@[simp] theorem Ctx.past_spared (x : Ctx) (n : Nat) : (x.past n).spared = x.spared := rfl
@[simp] theorem Ctx.past_deps (x : Ctx) (n : Nat) : (x.past n).deps = x.deps := rfl
@[simp] theorem Ctx.past_lastTbc (x : Ctx) (n : Nat) : (x.past n).lastTbc = x.lastTbc := rfl
@[simp] theorem Ctx.past_begun (x : Ctx) (n : Nat) : (x.past n).begun = x.begun := rfl
@[simp] theorem Ctx.past_act (x : Ctx) (n : Nat) : (x.past n).act = x.act := rfl
@[simp] theorem Ctx.past_r_v (x : Ctx) (n : Nat) : (x.past n).r.v = x.r.v := rfl
@[simp] theorem Ctx.past_r_s (x : Ctx) (n : Nat) : (x.past n).r.s = x.r.s := rfl
@[simp] theorem Ctx.past_r_p (x : Ctx) (n : Nat) : (x.past n).r.p = x.r.p := rfl
@[simp] theorem Ctx.past_r_k (x : Ctx) (n : Nat) : (x.past n).r.k = x.r.k := rfl
@[simp] theorem Ctx.past_r_cm (x : Ctx) (n : Nat) : (x.past n).r.cm = x.r.cm := rfl
@[simp] theorem Ctx.past_r_live (x : Ctx) (n : Nat) : (x.past n).r.live = x.r.live := rfl
@[simp] theorem Ctx.past_r_masks (x : Ctx) (n : Nat) : (x.past n).r.masks = x.r.masks := rfl
@[simp] theorem Ctx.past_r_loops (x : Ctx) (n : Nat) : (x.past n).r.loops = x.r.loops := rfl
@[simp] theorem Ctx.past_r_binds (x : Ctx) (n : Nat) : (x.past n).r.binds = x.r.binds := rfl
@[simp] theorem Ctx.past_r_arrs (x : Ctx) (n : Nat) : (x.past n).r.arrs = x.r.arrs := rfl
@[simp] theorem Ctx.past_r_steps (x : Ctx) (n : Nat) : (x.past n).r.steps = x.r.steps := rfl

/-! ### at_ -/

@[simp] theorem Ctx.at_status (x : Ctx) (pc : PC) : (x.at_ pc).status = x.status := rfl
@[simp] theorem Ctx.at_snap (x : Ctx) (pc : PC) : (x.at_ pc).snap = x.snap := rfl
@[simp] theorem Ctx.at_snapBudget (x : Ctx) (pc : PC) : (x.at_ pc).snapBudget = x.snapBudget := rfl
@[simp] theorem Ctx.at_hdrs (x : Ctx) (pc : PC) : (x.at_ pc).hdrs = x.hdrs := rfl
@[simp] theorem Ctx.at_setSize (x : Ctx) (pc : PC) : (x.at_ pc).setSize = x.setSize := rfl
@[simp] theorem Ctx.at_entry (x : Ctx) (pc : PC) : (x.at_ pc).entry = x.entry := rfl
@[simp] theorem Ctx.at_cls (x : Ctx) (pc : PC) : (x.at_ pc).cls = x.cls := rfl
@[simp] theorem Ctx.at_slackNs (x : Ctx) (pc : PC) : (x.at_ pc).slackNs = x.slackNs := rfl
@[simp] theorem Ctx.at_priv (x : Ctx) (pc : PC) : (x.at_ pc).priv = x.priv := rfl
@[simp] theorem Ctx.at_cores (x : Ctx) (pc : PC) : (x.at_ pc).cores = x.cores := rfl
@[simp] theorem Ctx.at_first (x : Ctx) (pc : PC) : (x.at_ pc).first = x.first := rfl
@[simp] theorem Ctx.at_trigger (x : Ctx) (pc : PC) : (x.at_ pc).trigger = x.trigger := rfl
@[simp] theorem Ctx.at_budget (x : Ctx) (pc : PC) : (x.at_ pc).budget = x.budget := rfl
@[simp] theorem Ctx.at_fullBudget (x : Ctx) (pc : PC) : (x.at_ pc).fullBudget = x.fullBudget := rfl
@[simp] theorem Ctx.at_fpctl (x : Ctx) (pc : PC) : (x.at_ pc).fpctl = x.fpctl := rfl
@[simp] theorem Ctx.at_fpflags (x : Ctx) (pc : PC) : (x.at_ pc).fpflags = x.fpflags := rfl
@[simp] theorem Ctx.at_qcfg (x : Ctx) (pc : PC) : (x.at_ pc).qcfg = x.qcfg := rfl
@[simp] theorem Ctx.at_trap (x : Ctx) (pc : PC) : (x.at_ pc).trap = x.trap := rfl
@[simp] theorem Ctx.at_qs (x : Ctx) (pc : PC) : (x.at_ pc).qs = x.qs := rfl
@[simp] theorem Ctx.at_eps (x : Ctx) (pc : PC) : (x.at_ pc).eps = x.eps := rfl
@[simp] theorem Ctx.at_held (x : Ctx) (pc : PC) : (x.at_ pc).held = x.held := rfl
@[simp] theorem Ctx.at_released (x : Ctx) (pc : PC) : (x.at_ pc).released = x.released := rfl
@[simp] theorem Ctx.at_out (x : Ctx) (pc : PC) : (x.at_ pc).out = x.out := rfl
@[simp] theorem Ctx.at_sent (x : Ctx) (pc : PC) : (x.at_ pc).sent = x.sent := rfl
@[simp] theorem Ctx.at_acquires (x : Ctx) (pc : PC) : (x.at_ pc).acquires = x.acquires := rfl
@[simp] theorem Ctx.at_journal (x : Ctx) (pc : PC) : (x.at_ pc).journal = x.journal := rfl
@[simp] theorem Ctx.at_tw (x : Ctx) (pc : PC) : (x.at_ pc).tw = x.tw := rfl
@[simp] theorem Ctx.at_started (x : Ctx) (pc : PC) : (x.at_ pc).started = x.started := rfl
@[simp] theorem Ctx.at_latched (x : Ctx) (pc : PC) : (x.at_ pc).latched = x.latched := rfl
@[simp] theorem Ctx.at_latchCount (x : Ctx) (pc : PC) : (x.at_ pc).latchCount = x.latchCount := rfl
@[simp] theorem Ctx.at_fork (x : Ctx) (pc : PC) : (x.at_ pc).fork = x.fork := rfl
@[simp] theorem Ctx.at_once (x : Ctx) (pc : PC) : (x.at_ pc).once = x.once := rfl
@[simp] theorem Ctx.at_incsAwaited (x : Ctx) (pc : PC) : (x.at_ pc).incsAwaited = x.incsAwaited := rfl
@[simp] theorem Ctx.at_stopNext (x : Ctx) (pc : PC) : (x.at_ pc).stopNext = x.stopNext := rfl
@[simp] theorem Ctx.at_spared (x : Ctx) (pc : PC) : (x.at_ pc).spared = x.spared := rfl
@[simp] theorem Ctx.at_deps (x : Ctx) (pc : PC) : (x.at_ pc).deps = x.deps := rfl
@[simp] theorem Ctx.at_lastTbc (x : Ctx) (pc : PC) : (x.at_ pc).lastTbc = x.lastTbc := rfl
@[simp] theorem Ctx.at_begun (x : Ctx) (pc : PC) : (x.at_ pc).begun = x.begun := rfl
@[simp] theorem Ctx.at_act (x : Ctx) (pc : PC) : (x.at_ pc).act = x.act := rfl
@[simp] theorem Ctx.at_r_v (x : Ctx) (pc : PC) : (x.at_ pc).r.v = x.r.v := rfl
@[simp] theorem Ctx.at_r_s (x : Ctx) (pc : PC) : (x.at_ pc).r.s = x.r.s := rfl
@[simp] theorem Ctx.at_r_p (x : Ctx) (pc : PC) : (x.at_ pc).r.p = x.r.p := rfl
@[simp] theorem Ctx.at_r_k (x : Ctx) (pc : PC) : (x.at_ pc).r.k = x.r.k := rfl
@[simp] theorem Ctx.at_r_cm (x : Ctx) (pc : PC) : (x.at_ pc).r.cm = x.r.cm := rfl
@[simp] theorem Ctx.at_r_live (x : Ctx) (pc : PC) : (x.at_ pc).r.live = x.r.live := rfl
@[simp] theorem Ctx.at_r_masks (x : Ctx) (pc : PC) : (x.at_ pc).r.masks = x.r.masks := rfl
@[simp] theorem Ctx.at_r_loops (x : Ctx) (pc : PC) : (x.at_ pc).r.loops = x.r.loops := rfl
@[simp] theorem Ctx.at_r_binds (x : Ctx) (pc : PC) : (x.at_ pc).r.binds = x.r.binds := rfl
@[simp] theorem Ctx.at_r_arrs (x : Ctx) (pc : PC) : (x.at_ pc).r.arrs = x.r.arrs := rfl
@[simp] theorem Ctx.at_r_steps (x : Ctx) (pc : PC) : (x.at_ pc).r.steps = x.r.steps := rfl

/-! ### endLanes -/

@[simp] theorem Ctx.endLanes_status (x : Ctx) (m : W32) : (x.endLanes m).status = x.status := rfl
@[simp] theorem Ctx.endLanes_snap (x : Ctx) (m : W32) : (x.endLanes m).snap = x.snap := rfl
@[simp] theorem Ctx.endLanes_snapBudget (x : Ctx) (m : W32) : (x.endLanes m).snapBudget = x.snapBudget := rfl
@[simp] theorem Ctx.endLanes_hdrs (x : Ctx) (m : W32) : (x.endLanes m).hdrs = x.hdrs := rfl
@[simp] theorem Ctx.endLanes_setSize (x : Ctx) (m : W32) : (x.endLanes m).setSize = x.setSize := rfl
@[simp] theorem Ctx.endLanes_entry (x : Ctx) (m : W32) : (x.endLanes m).entry = x.entry := rfl
@[simp] theorem Ctx.endLanes_cls (x : Ctx) (m : W32) : (x.endLanes m).cls = x.cls := rfl
@[simp] theorem Ctx.endLanes_slackNs (x : Ctx) (m : W32) : (x.endLanes m).slackNs = x.slackNs := rfl
@[simp] theorem Ctx.endLanes_priv (x : Ctx) (m : W32) : (x.endLanes m).priv = x.priv := rfl
@[simp] theorem Ctx.endLanes_cores (x : Ctx) (m : W32) : (x.endLanes m).cores = x.cores := rfl
@[simp] theorem Ctx.endLanes_first (x : Ctx) (m : W32) : (x.endLanes m).first = x.first := rfl
@[simp] theorem Ctx.endLanes_trigger (x : Ctx) (m : W32) : (x.endLanes m).trigger = x.trigger := rfl
@[simp] theorem Ctx.endLanes_budget (x : Ctx) (m : W32) : (x.endLanes m).budget = x.budget := rfl
@[simp] theorem Ctx.endLanes_fullBudget (x : Ctx) (m : W32) : (x.endLanes m).fullBudget = x.fullBudget := rfl
@[simp] theorem Ctx.endLanes_fpctl (x : Ctx) (m : W32) : (x.endLanes m).fpctl = x.fpctl := rfl
@[simp] theorem Ctx.endLanes_fpflags (x : Ctx) (m : W32) : (x.endLanes m).fpflags = x.fpflags := rfl
@[simp] theorem Ctx.endLanes_qcfg (x : Ctx) (m : W32) : (x.endLanes m).qcfg = x.qcfg := rfl
@[simp] theorem Ctx.endLanes_trap (x : Ctx) (m : W32) : (x.endLanes m).trap = x.trap := rfl
@[simp] theorem Ctx.endLanes_qs (x : Ctx) (m : W32) : (x.endLanes m).qs = x.qs := rfl
@[simp] theorem Ctx.endLanes_eps (x : Ctx) (m : W32) : (x.endLanes m).eps = x.eps := rfl
@[simp] theorem Ctx.endLanes_held (x : Ctx) (m : W32) : (x.endLanes m).held = x.held := rfl
@[simp] theorem Ctx.endLanes_released (x : Ctx) (m : W32) : (x.endLanes m).released = x.released := rfl
@[simp] theorem Ctx.endLanes_out (x : Ctx) (m : W32) : (x.endLanes m).out = x.out := rfl
@[simp] theorem Ctx.endLanes_sent (x : Ctx) (m : W32) : (x.endLanes m).sent = x.sent := rfl
@[simp] theorem Ctx.endLanes_acquires (x : Ctx) (m : W32) : (x.endLanes m).acquires = x.acquires := rfl
@[simp] theorem Ctx.endLanes_journal (x : Ctx) (m : W32) : (x.endLanes m).journal = x.journal := rfl
@[simp] theorem Ctx.endLanes_tw (x : Ctx) (m : W32) : (x.endLanes m).tw = x.tw := rfl
@[simp] theorem Ctx.endLanes_started (x : Ctx) (m : W32) : (x.endLanes m).started = x.started := rfl
@[simp] theorem Ctx.endLanes_latched (x : Ctx) (m : W32) : (x.endLanes m).latched = x.latched := rfl
@[simp] theorem Ctx.endLanes_latchCount (x : Ctx) (m : W32) : (x.endLanes m).latchCount = x.latchCount := rfl
@[simp] theorem Ctx.endLanes_wait (x : Ctx) (m : W32) : (x.endLanes m).wait = x.wait := rfl
@[simp] theorem Ctx.endLanes_fork (x : Ctx) (m : W32) : (x.endLanes m).fork = x.fork := rfl
@[simp] theorem Ctx.endLanes_once (x : Ctx) (m : W32) : (x.endLanes m).once = x.once := rfl
@[simp] theorem Ctx.endLanes_incsAwaited (x : Ctx) (m : W32) : (x.endLanes m).incsAwaited = x.incsAwaited := rfl
@[simp] theorem Ctx.endLanes_stopNext (x : Ctx) (m : W32) : (x.endLanes m).stopNext = x.stopNext := rfl
@[simp] theorem Ctx.endLanes_spared (x : Ctx) (m : W32) : (x.endLanes m).spared = x.spared := rfl
@[simp] theorem Ctx.endLanes_deps (x : Ctx) (m : W32) : (x.endLanes m).deps = x.deps := rfl
@[simp] theorem Ctx.endLanes_lastTbc (x : Ctx) (m : W32) : (x.endLanes m).lastTbc = x.lastTbc := rfl
@[simp] theorem Ctx.endLanes_lastPc (x : Ctx) (m : W32) : (x.endLanes m).lastPc = x.lastPc := rfl
@[simp] theorem Ctx.endLanes_ran (x : Ctx) (m : W32) : (x.endLanes m).ran = x.ran := rfl
@[simp] theorem Ctx.endLanes_begun (x : Ctx) (m : W32) : (x.endLanes m).begun = x.begun := rfl
@[simp] theorem Ctx.endLanes_act (x : Ctx) (m : W32) : (x.endLanes m).act = x.act := rfl
@[simp] theorem Ctx.endLanes_r_v (x : Ctx) (m : W32) : (x.endLanes m).r.v = x.r.v := rfl
@[simp] theorem Ctx.endLanes_r_s (x : Ctx) (m : W32) : (x.endLanes m).r.s = x.r.s := rfl
@[simp] theorem Ctx.endLanes_r_p (x : Ctx) (m : W32) : (x.endLanes m).r.p = x.r.p := rfl
@[simp] theorem Ctx.endLanes_r_k (x : Ctx) (m : W32) : (x.endLanes m).r.k = x.r.k := rfl
@[simp] theorem Ctx.endLanes_r_loops (x : Ctx) (m : W32) : (x.endLanes m).r.loops = x.r.loops := rfl
@[simp] theorem Ctx.endLanes_r_pc (x : Ctx) (m : W32) : (x.endLanes m).r.pc = x.r.pc := rfl
@[simp] theorem Ctx.endLanes_r_pastEnd (x : Ctx) (m : W32) : (x.endLanes m).r.pastEnd = x.r.pastEnd := rfl
@[simp] theorem Ctx.endLanes_r_binds (x : Ctx) (m : W32) : (x.endLanes m).r.binds = x.r.binds := rfl
@[simp] theorem Ctx.endLanes_r_arrs (x : Ctx) (m : W32) : (x.endLanes m).r.arrs = x.r.arrs := rfl
@[simp] theorem Ctx.endLanes_r_steps (x : Ctx) (m : W32) : (x.endLanes m).r.steps = x.r.steps := rfl

/-! ### hold -/

@[simp] theorem Ctx.hold_status (x : Ctx) (l : List Send) : (x.hold l).status = x.status := rfl
@[simp] theorem Ctx.hold_r (x : Ctx) (l : List Send) : (x.hold l).r = x.r := rfl
@[simp] theorem Ctx.hold_snap (x : Ctx) (l : List Send) : (x.hold l).snap = x.snap := rfl
@[simp] theorem Ctx.hold_snapBudget (x : Ctx) (l : List Send) : (x.hold l).snapBudget = x.snapBudget := rfl
@[simp] theorem Ctx.hold_hdrs (x : Ctx) (l : List Send) : (x.hold l).hdrs = x.hdrs := rfl
@[simp] theorem Ctx.hold_setSize (x : Ctx) (l : List Send) : (x.hold l).setSize = x.setSize := rfl
@[simp] theorem Ctx.hold_entry (x : Ctx) (l : List Send) : (x.hold l).entry = x.entry := rfl
@[simp] theorem Ctx.hold_cls (x : Ctx) (l : List Send) : (x.hold l).cls = x.cls := rfl
@[simp] theorem Ctx.hold_slackNs (x : Ctx) (l : List Send) : (x.hold l).slackNs = x.slackNs := rfl
@[simp] theorem Ctx.hold_priv (x : Ctx) (l : List Send) : (x.hold l).priv = x.priv := rfl
@[simp] theorem Ctx.hold_cores (x : Ctx) (l : List Send) : (x.hold l).cores = x.cores := rfl
@[simp] theorem Ctx.hold_first (x : Ctx) (l : List Send) : (x.hold l).first = x.first := rfl
@[simp] theorem Ctx.hold_trigger (x : Ctx) (l : List Send) : (x.hold l).trigger = x.trigger := rfl
@[simp] theorem Ctx.hold_budget (x : Ctx) (l : List Send) : (x.hold l).budget = x.budget := rfl
@[simp] theorem Ctx.hold_fullBudget (x : Ctx) (l : List Send) : (x.hold l).fullBudget = x.fullBudget := rfl
@[simp] theorem Ctx.hold_fpctl (x : Ctx) (l : List Send) : (x.hold l).fpctl = x.fpctl := rfl
@[simp] theorem Ctx.hold_fpflags (x : Ctx) (l : List Send) : (x.hold l).fpflags = x.fpflags := rfl
@[simp] theorem Ctx.hold_qcfg (x : Ctx) (l : List Send) : (x.hold l).qcfg = x.qcfg := rfl
@[simp] theorem Ctx.hold_trap (x : Ctx) (l : List Send) : (x.hold l).trap = x.trap := rfl
@[simp] theorem Ctx.hold_qs (x : Ctx) (l : List Send) : (x.hold l).qs = x.qs := rfl
@[simp] theorem Ctx.hold_eps (x : Ctx) (l : List Send) : (x.hold l).eps = x.eps := rfl
@[simp] theorem Ctx.hold_released (x : Ctx) (l : List Send) : (x.hold l).released = x.released := rfl
@[simp] theorem Ctx.hold_out (x : Ctx) (l : List Send) : (x.hold l).out = x.out := rfl
@[simp] theorem Ctx.hold_sent (x : Ctx) (l : List Send) : (x.hold l).sent = x.sent := rfl
@[simp] theorem Ctx.hold_acquires (x : Ctx) (l : List Send) : (x.hold l).acquires = x.acquires := rfl
@[simp] theorem Ctx.hold_journal (x : Ctx) (l : List Send) : (x.hold l).journal = x.journal := rfl
@[simp] theorem Ctx.hold_tw (x : Ctx) (l : List Send) : (x.hold l).tw = x.tw := rfl
@[simp] theorem Ctx.hold_started (x : Ctx) (l : List Send) : (x.hold l).started = x.started := rfl
@[simp] theorem Ctx.hold_latched (x : Ctx) (l : List Send) : (x.hold l).latched = x.latched := rfl
@[simp] theorem Ctx.hold_latchCount (x : Ctx) (l : List Send) : (x.hold l).latchCount = x.latchCount := rfl
@[simp] theorem Ctx.hold_wait (x : Ctx) (l : List Send) : (x.hold l).wait = x.wait := rfl
@[simp] theorem Ctx.hold_fork (x : Ctx) (l : List Send) : (x.hold l).fork = x.fork := rfl
@[simp] theorem Ctx.hold_once (x : Ctx) (l : List Send) : (x.hold l).once = x.once := rfl
@[simp] theorem Ctx.hold_incsAwaited (x : Ctx) (l : List Send) : (x.hold l).incsAwaited = x.incsAwaited := rfl
@[simp] theorem Ctx.hold_stopNext (x : Ctx) (l : List Send) : (x.hold l).stopNext = x.stopNext := rfl
@[simp] theorem Ctx.hold_spared (x : Ctx) (l : List Send) : (x.hold l).spared = x.spared := rfl
@[simp] theorem Ctx.hold_deps (x : Ctx) (l : List Send) : (x.hold l).deps = x.deps := rfl
@[simp] theorem Ctx.hold_lastTbc (x : Ctx) (l : List Send) : (x.hold l).lastTbc = x.lastTbc := rfl
@[simp] theorem Ctx.hold_lastPc (x : Ctx) (l : List Send) : (x.hold l).lastPc = x.lastPc := rfl
@[simp] theorem Ctx.hold_ran (x : Ctx) (l : List Send) : (x.hold l).ran = x.ran := rfl
@[simp] theorem Ctx.hold_begun (x : Ctx) (l : List Send) : (x.hold l).begun = x.begun := rfl
@[simp] theorem Ctx.hold_act (x : Ctx) (l : List Send) : (x.hold l).act = x.act := rfl

/-! ### Registers read back -/

@[simp] theorem lane_mkLanes (f : Nat → W32) {L : Nat} (h : L < 32) : lane (mkLanes f) L = f L := by
  simp [lane, mkLanes, h]

@[simp] theorem Ctx.s_zero (x : Ctx) : x.s 0 = 0 := rfl
@[simp] theorem Ctx.p_seven (x : Ctx) : x.p 7 = 0xFFFFFFFF := rfl
@[simp] theorem Ctx.k_seven (x : Ctx) : x.k 7 = true := rfl

/-- The active lanes of a lane register take the new element, the others keep theirs. -/
theorem Ctx.vl_setV (x : Ctx) (r : Nat) (m : W32) (f : Nat → W32) {L : Nat} (h : L < 32) :
    (x.setV r m f).vl r L = if m.getLsbD L then f L else x.vl r L := by
  simp only [Ctx.vl, Ctx.v, Ctx.setV, tget_tset]
  rw [lane_mkLanes _ h]
@[simp] theorem Ctx.v_setV_ne (x : Ctx) {r q : Nat} (m : W32) (f : Nat → W32) (h : q ≠ r) : (x.setV r m f).v q = x.v q := by
  simp [Ctx.v, Ctx.setV, h]
@[simp] theorem Ctx.vl_setV_ne (x : Ctx) {r q : Nat} (m : W32) (f : Nat → W32) (L : Nat) (h : q ≠ r) :
    (x.setV r m f).vl q L = x.vl q L := by
  simp [Ctx.vl, h]

@[simp] theorem Ctx.v_setVp_ne (x : Ctx) {r q : Nat} (m : W32) (f : Nat → W64) (h : q ≠ r) (h' : q ≠ r + 1) :
    (x.setVp r m f).v q = x.v q := by
  simp [Ctx.setVp, h, h']

/-- The pair of an active lane takes the new value. -/
theorem Ctx.vp_setVp (x : Ctx) (r : Nat) (m : W32) (f : Nat → W64) {L : Nat} (h : L < 32) (hm : m.getLsbD L = true) :
    (x.setVp r m f).vp r L = f L := by
  have h1 : ((x.setVp r m f).vl (r + 1) L) = (f L).extractLsb' 32 32 := by
    rw [Ctx.setVp, Ctx.vl_setV _ _ _ _ h, if_pos hm]
  have h0 : ((x.setVp r m f).vl r L) = (f L).extractLsb' 0 32 := by
    rw [Ctx.setVp, Ctx.vl_setV_ne _ _ _ _ (by omega), Ctx.vl_setV _ _ _ _ h, if_pos hm]
  rw [Ctx.vp, h1, h0]
  ext i hi
  simp only [BitVec.getElem_append, BitVec.getElem_extractLsb']
  split
  · rw [Nat.zero_add, BitVec.getLsbD_eq_getElem (by omega)]
  · rw [BitVec.getLsbD_eq_getElem (by omega)]
    congr 1
    omega

@[simp] theorem Ctx.s_setS (x : Ctx) {r : Nat} (y : W64) (h : r ≠ 0) : (x.setS r y).s r = y := by
  simp [Ctx.s, Ctx.setS, h]
@[simp] theorem Ctx.s_setS_ne (x : Ctx) {r q : Nat} (y : W64) (h : q ≠ r) : (x.setS r y).s q = x.s q := by
  unfold Ctx.s Ctx.setS
  split
  · rfl
  · split
    · rfl
    · simp [h]
@[simp] theorem Ctx.setS_zero (x : Ctx) (y : W64) : x.setS 0 y = x := rfl

theorem Ctx.p_setP (x : Ctx) {r : Nat} (m y : W32) (h : r ≠ 7) : (x.setP r m y).p r = (x.p r &&& ~~~m) ||| (y &&& m) := by
  simp [Ctx.p, Ctx.setP, h]
@[simp] theorem Ctx.p_setP_ne (x : Ctx) {r q : Nat} (m y : W32) (h : q ≠ r) : (x.setP r m y).p q = x.p q := by
  unfold Ctx.p Ctx.setP
  split
  · rfl
  · split
    · rfl
    · simp [h]
@[simp] theorem Ctx.setP_seven (x : Ctx) (m y : W32) : x.setP 7 m y = x := rfl

@[simp] theorem Ctx.k_setK (x : Ctx) {r : Nat} (y : Bool) (h : r ≠ 7) : (x.setK r y).k r = y := by
  simp [Ctx.k, Ctx.setK, h]
@[simp] theorem Ctx.k_setK_ne (x : Ctx) {r q : Nat} (y : Bool) (h : q ≠ r) : (x.setK r y).k q = x.k q := by
  unfold Ctx.k Ctx.setK
  split
  · rfl
  · split
    · rfl
    · simp [h]
@[simp] theorem Ctx.setK_seven (x : Ctx) (y : Bool) : x.setK 7 y = x := rfl

@[simp] theorem Ctx.v_past (x : Ctx) (n r : Nat) : (x.past n).v r = x.v r := rfl
@[simp] theorem Ctx.vl_past (x : Ctx) (n r L : Nat) : (x.past n).vl r L = x.vl r L := rfl
@[simp] theorem Ctx.vp_past (x : Ctx) (n r L : Nat) : (x.past n).vp r L = x.vp r L := rfl
@[simp] theorem Ctx.s_past (x : Ctx) (n r : Nat) : (x.past n).s r = x.s r := rfl
@[simp] theorem Ctx.p_past (x : Ctx) (n r : Nat) : (x.past n).p r = x.p r := rfl
@[simp] theorem Ctx.k_past (x : Ctx) (n r : Nat) : (x.past n).k r = x.k r := rfl
@[simp] theorem Ctx.past_r_pc (x : Ctx) (n : Nat) : (x.past n).r.pc = x.r.pc + BitVec.ofNat 14 n := rfl
@[simp] theorem Ctx.past_wait (x : Ctx) (n : Nat) : (x.past n).wait = none := rfl

/-- An ended lane is in none of the masks, whatever they were. -/
theorem Ctx.endLanes_live (x : Ctx) (m : W32) : (x.endLanes m).r.live = x.r.live &&& ~~~m := rfl

/-! ### The shapes that instructions share -/

@[simp] theorem Got.then_ok {α : Type} (v : α) (s : State) (k : α → State → Res) : (Got.ok v s).then k = k v s := rfl
@[simp] theorem Got.then_trap {α : Type} (t : Trap) (s : State) (k : α → State → Res) : (Got.trap t s).then k = .trap t s := rfl
@[simp] theorem Got.then_wait {α : Type} (w : Wait) (s : State) (k : α → State → Res) : (Got.wait w s).then k = .wait w s := rfl

@[simp] theorem finish_done (s : State) (k : State → State) : finish (.done s) k = .next (k s) := rfl
@[simp] theorem finish_trap (t : Trap) (s : State) (k : State → State) :
    finish (.trap t s) k = .next ((s.logTrap s.cur t).takeTrap s.cur t) := rfl
@[simp] theorem finish_wait (w : Wait) (s : State) (k : State → State) :
    finish (.wait w s) k = .next (s.setMe { s.me with wait := some w }) := rfl
@[simp] theorem finishLen_done (n : Nat) (s : State) : finishLen n (.done s) = .next (s.setMe (s.me.past n)) := rfl

/-- Every instruction that ends through finish answers a next state: its effect, its trap or its wait. -/
theorem finish_next (r : Res) (k : State → State) : ∃ t, finish r k = .next t := by
  cases r <;> exact ⟨_, rfl⟩

/-- A lane instruction with a readable source A, as one update of the issuing context. -/
theorem laneOp_ok {s s1 : State} {h : Head} {wide : Bool} {d : Reg} {dwide : Bool} {a : SrcA} {f : Ctx → Nat → W64 → W64}
    {va : Nat → W64} (ha : s.laneA a wide (s.me.active h) = .ok va s1) :
    laneOp s h wide d dwide a f = .done (s1.setMe (s1.me.put d dwide (s1.me.active h) fun L => f s1.me L (va L))) := by
  simp [laneOp, ha]

/-- A scalar instruction with a readable source A and a guard that holds. -/
theorem scalarOp_ok {s s1 : State} {h : Head} {d : Reg} {a : SrcA} {f : Ctx → W64 → W64} {va : W64}
    (ha : s.scalarA a (s.me.guard h) = .ok va s1) (hg : s1.me.guard h = true) :
    scalarOp s h d a f = .done (s1.setMe (s1.me.setS d.toNat (f s1.me va))) := by
  simp [scalarOp, ha, hg]

/-- A register is always readable, and reading it changes nothing. -/
@[simp] theorem laneA_reg (s : State) (r : Reg) (wide : Bool) (m : W32) :
    s.laneA (.reg r) wide m = .ok (fun L => if wide then s.me.vp r.toNat L else (s.me.vl r.toNat L).setWidth 64) s := rfl
@[simp] theorem scalarA_reg (s : State) (r : Reg) (use : Bool) : s.scalarA (.reg r) use = .ok (s.me.s r.toNat) s := rfl

/-! ### The queue of stores of a cell (R171) -/

/-- Parting a queue loses no store and makes none. -/
theorem partQueue_perm (need : BankWrite → Bool) (l : List BankWrite) : ((partQueue need l).1 ++ (partQueue need l).2).Perm l := by
  induction l with
  | nil => exact .nil
  | cons b bs ih =>
    simp only [partQueue]
    split
    · exact ih.cons b
    · exact List.perm_middle.trans (ih.cons b)

/-- What stays in a queue is not needed. -/
theorem partQueue_later (need : BankWrite → Bool) (l : List BankWrite) : ∀ b ∈ (partQueue need l).2, need b = false := by
  induction l with
  | nil => simp [partQueue]
  | cons b bs ih =>
    simp only [partQueue]
    split
    · exact ih
    · rename_i h
      intro y hy
      rcases List.mem_cons.mp hy with rfl | hy
      · exact (Bool.eq_false_or_eq_true _).resolve_left fun hn => h (by simp [hn])
      · exact ih y hy

/-- Performing stores changes memory alone. -/
theorem performAll_only (cell : Nat) (l : List BankWrite) (s : State) : performAll cell l s = { s with mem := (performAll cell l s).mem } := by
  induction l generalizing s with
  | nil => rfl
  | cons b bs ih => rw [performAll, ih]; rfl

end Sys2Proof.Machine
end

