-- ==== Sys2Proof/Laws/PerInstr.lean ====
section
/-! SUPPORT. A statement about every instruction as syntax, one lemma a constructor: an instruction has words exactly if hasWord
says so, so no step of the device can be met in an instruction store. -/

namespace Sys2Proof.Laws.Words

/-- The encoder gives words to exactly the instructions that hasWord names. -/
def Statement (i : Instr) : Prop := i.hasWord = (toRaw i).isSome

theorem add : ∀ x0 x1 x2 x3 x4 x5, Statement (.add x0 x1 x2 x3 x4 x5) := fun _ _ _ _ _ _ => rfl
theorem sub : ∀ x0 x1 x2 x3 x4 x5, Statement (.sub x0 x1 x2 x3 x4 x5) := fun _ _ _ _ _ _ => rfl
theorem adds : ∀ x0 x1 x2 x3 x4 x5, Statement (.adds x0 x1 x2 x3 x4 x5) := fun _ _ _ _ _ _ => rfl
theorem subs : ∀ x0 x1 x2 x3 x4 x5, Statement (.subs x0 x1 x2 x3 x4 x5) := fun _ _ _ _ _ _ => rfl
theorem mul : ∀ x0 x1 x2 x3 x4 x5, Statement (.mul x0 x1 x2 x3 x4 x5) := fun _ _ _ _ _ _ => rfl
theorem mulh : ∀ x0 x1 x2 x3 x4, Statement (.mulh x0 x1 x2 x3 x4) := fun _ _ _ _ _ => rfl
theorem mad : ∀ x0 x1 x2 x3 x4 x5 x6, Statement (.mad x0 x1 x2 x3 x4 x5 x6) := fun _ _ _ _ _ _ _ => rfl
theorem min : ∀ x0 x1 x2 x3 x4, Statement (.min x0 x1 x2 x3 x4) := fun _ _ _ _ _ => rfl
theorem max : ∀ x0 x1 x2 x3 x4, Statement (.max x0 x1 x2 x3 x4) := fun _ _ _ _ _ => rfl
theorem abs : ∀ x0 x1 x2 x3 x4, Statement (.abs x0 x1 x2 x3 x4) := fun _ _ _ _ _ => rfl
theorem neg : ∀ x0 x1 x2 x3 x4, Statement (.neg x0 x1 x2 x3 x4) := fun _ _ _ _ _ => rfl
theorem and : ∀ x0 x1 x2 x3 x4, Statement (.and x0 x1 x2 x3 x4) := fun _ _ _ _ _ => rfl
theorem or : ∀ x0 x1 x2 x3 x4, Statement (.or x0 x1 x2 x3 x4) := fun _ _ _ _ _ => rfl
theorem xor : ∀ x0 x1 x2 x3 x4, Statement (.xor x0 x1 x2 x3 x4) := fun _ _ _ _ _ => rfl
theorem andn : ∀ x0 x1 x2 x3 x4, Statement (.andn x0 x1 x2 x3 x4) := fun _ _ _ _ _ => rfl
theorem not : ∀ x0 x1 x2 x3, Statement (.not x0 x1 x2 x3) := fun _ _ _ _ => rfl
theorem shl : ∀ x0 x1 x2 x3 x4, Statement (.shl x0 x1 x2 x3 x4) := fun _ _ _ _ _ => rfl
theorem shr : ∀ x0 x1 x2 x3 x4, Statement (.shr x0 x1 x2 x3 x4) := fun _ _ _ _ _ => rfl
theorem sar : ∀ x0 x1 x2 x3 x4, Statement (.sar x0 x1 x2 x3 x4) := fun _ _ _ _ _ => rfl
theorem rol : ∀ x0 x1 x2 x3 x4, Statement (.rol x0 x1 x2 x3 x4) := fun _ _ _ _ _ => rfl
theorem bfx : ∀ x0 x1 x2 x3 x4, Statement (.bfx x0 x1 x2 x3 x4) := fun _ _ _ _ _ => rfl
theorem bfi : ∀ x0 x1 x2 x3 x4, Statement (.bfi x0 x1 x2 x3 x4) := fun _ _ _ _ _ => rfl
theorem popc : ∀ x0 x1 x2 x3, Statement (.popc x0 x1 x2 x3) := fun _ _ _ _ => rfl
theorem clz : ∀ x0 x1 x2 x3, Statement (.clz x0 x1 x2 x3) := fun _ _ _ _ => rfl
theorem brev : ∀ x0 x1 x2 x3, Statement (.brev x0 x1 x2 x3) := fun _ _ _ _ => rfl
theorem sel : ∀ x0 x1 x2 x3 x4 x5, Statement (.sel x0 x1 x2 x3 x4 x5) := fun _ _ _ _ _ _ => rfl
theorem mov : ∀ x0 x1 x2 x3, Statement (.mov x0 x1 x2 x3) := fun _ _ _ _ => rfl
theorem movs : ∀ x0 x1 x2 x3 x4, Statement (.movs x0 x1 x2 x3 x4) := fun _ _ _ _ _ => rfl
theorem shfl : ∀ x0 x1 x2 x3 x4 x5, Statement (.shfl x0 x1 x2 x3 x4 x5) := fun _ _ _ _ _ _ => rfl
theorem vote : ∀ x0 x1 x2, Statement (.vote x0 x1 x2) := fun _ _ _ => rfl
theorem reds : ∀ x0 x1 x2 x3 x4, Statement (.reds x0 x1 x2 x3 x4) := fun _ _ _ _ _ => rfl
theorem scan : ∀ x0 x1 x2 x3 x4 x5, Statement (.scan x0 x1 x2 x3 x4 x5) := fun _ _ _ _ _ _ => rfl
theorem addi : ∀ x0 x1 x2 x3, Statement (.addi x0 x1 x2 x3) := fun _ _ _ _ => rfl
theorem widf : ∀ x0 x1 x2, Statement (.widf x0 x1 x2) := fun _ _ _ => rfl
theorem fadd : ∀ x0 x1 x2 x3 x4 x5, Statement (.fadd x0 x1 x2 x3 x4 x5) := fun _ _ _ _ _ _ => rfl
theorem fsub : ∀ x0 x1 x2 x3 x4 x5, Statement (.fsub x0 x1 x2 x3 x4 x5) := fun _ _ _ _ _ _ => rfl
theorem fmul : ∀ x0 x1 x2 x3 x4 x5, Statement (.fmul x0 x1 x2 x3 x4 x5) := fun _ _ _ _ _ _ => rfl
theorem fma : ∀ x0 x1 x2 x3 x4 x5 x6, Statement (.fma x0 x1 x2 x3 x4 x5 x6) := fun _ _ _ _ _ _ _ => rfl
theorem fmin : ∀ x0 x1 x2 x3 x4, Statement (.fmin x0 x1 x2 x3 x4) := fun _ _ _ _ _ => rfl
theorem fmax : ∀ x0 x1 x2 x3 x4, Statement (.fmax x0 x1 x2 x3 x4) := fun _ _ _ _ _ => rfl
theorem fabs : ∀ x0 x1 x2 x3, Statement (.fabs x0 x1 x2 x3) := fun _ _ _ _ => rfl
theorem fneg : ∀ x0 x1 x2 x3, Statement (.fneg x0 x1 x2 x3) := fun _ _ _ _ => rfl
theorem fdiv : ∀ x0 x1 x2 x3 x4 x5, Statement (.fdiv x0 x1 x2 x3 x4 x5) := fun _ _ _ _ _ _ => rfl
theorem fsqrt : ∀ x0 x1 x2 x3 x4, Statement (.fsqrt x0 x1 x2 x3 x4) := fun _ _ _ _ _ => rfl
theorem frcp : ∀ x0 x1 x2 x3 x4, Statement (.frcp x0 x1 x2 x3 x4) := fun _ _ _ _ _ => rfl
theorem frsq : ∀ x0 x1 x2 x3 x4, Statement (.frsq x0 x1 x2 x3 x4) := fun _ _ _ _ _ => rfl
theorem fexp2 : ∀ x0 x1 x2 x3 x4, Statement (.fexp2 x0 x1 x2 x3 x4) := fun _ _ _ _ _ => rfl
theorem flog2 : ∀ x0 x1 x2 x3 x4, Statement (.flog2 x0 x1 x2 x3 x4) := fun _ _ _ _ _ => rfl
theorem fscale : ∀ x0 x1 x2 x3 x4 x5, Statement (.fscale x0 x1 x2 x3 x4 x5) := fun _ _ _ _ _ _ => rfl
theorem frnd : ∀ x0 x1 x2 x3 x4, Statement (.frnd x0 x1 x2 x3 x4) := fun _ _ _ _ _ => rfl
theorem fclass : ∀ x0 x1 x2 x3, Statement (.fclass x0 x1 x2 x3) := fun _ _ _ _ => rfl
theorem cvt : ∀ x0 x1 x2 x3 x4 x5 x6, Statement (.cvt x0 x1 x2 x3 x4 x5 x6) := fun _ _ _ _ _ _ _ => rfl
theorem qpack : ∀ x0 x1 x2 x3 x4 x5, Statement (.qpack x0 x1 x2 x3 x4 x5) := fun _ _ _ _ _ _ => rfl
theorem qunpk : ∀ x0 x1 x2 x3 x4 x5, Statement (.qunpk x0 x1 x2 x3 x4 x5) := fun _ _ _ _ _ _ => rfl
theorem amax : ∀ x0 x1 x2, Statement (.amax x0 x1 x2) := fun _ _ _ => rfl
theorem cmp : ∀ x0 x1 x2 x3 x4 x5 x6, Statement (.cmp x0 x1 x2 x3 x4 x5 x6) := fun _ _ _ _ _ _ _ => rfl
theorem fcmp : ∀ x0 x1 x2 x3 x4 x5 x6, Statement (.fcmp x0 x1 x2 x3 x4 x5 x6) := fun _ _ _ _ _ _ _ => rfl
theorem pand : ∀ x0 x1 x2 x3, Statement (.pand x0 x1 x2 x3) := fun _ _ _ _ => rfl
theorem por : ∀ x0 x1 x2 x3, Statement (.por x0 x1 x2 x3) := fun _ _ _ _ => rfl
theorem pxor : ∀ x0 x1 x2 x3, Statement (.pxor x0 x1 x2 x3) := fun _ _ _ _ => rfl
theorem pnot : ∀ x0 x1 x2, Statement (.pnot x0 x1 x2) := fun _ _ _ => rfl
theorem pmask : ∀ x0 x1 x2, Statement (.pmask x0 x1 x2) := fun _ _ _ => rfl
theorem pset : ∀ x0 x1 x2, Statement (.pset x0 x1 x2) := fun _ _ _ => rfl
theorem sadd : ∀ x0 x1 x2 x3, Statement (.sadd x0 x1 x2 x3) := fun _ _ _ _ => rfl
theorem ssub : ∀ x0 x1 x2 x3, Statement (.ssub x0 x1 x2 x3) := fun _ _ _ _ => rfl
theorem smul : ∀ x0 x1 x2 x3, Statement (.smul x0 x1 x2 x3) := fun _ _ _ _ => rfl
theorem smulh : ∀ x0 x1 x2 x3 x4, Statement (.smulh x0 x1 x2 x3 x4) := fun _ _ _ _ _ => rfl
theorem sdiv : ∀ x0 x1 x2 x3 x4, Statement (.sdiv x0 x1 x2 x3 x4) := fun _ _ _ _ _ => rfl
theorem srem : ∀ x0 x1 x2 x3 x4, Statement (.srem x0 x1 x2 x3 x4) := fun _ _ _ _ _ => rfl
theorem sand : ∀ x0 x1 x2 x3, Statement (.sand x0 x1 x2 x3) := fun _ _ _ _ => rfl
theorem sor : ∀ x0 x1 x2 x3, Statement (.sor x0 x1 x2 x3) := fun _ _ _ _ => rfl
theorem sxor : ∀ x0 x1 x2 x3, Statement (.sxor x0 x1 x2 x3) := fun _ _ _ _ => rfl
theorem sshl : ∀ x0 x1 x2 x3, Statement (.sshl x0 x1 x2 x3) := fun _ _ _ _ => rfl
theorem sshr : ∀ x0 x1 x2 x3, Statement (.sshr x0 x1 x2 x3) := fun _ _ _ _ => rfl
theorem ssar : ∀ x0 x1 x2 x3, Statement (.ssar x0 x1 x2 x3) := fun _ _ _ _ => rfl
theorem smov : ∀ x0 x1 x2, Statement (.smov x0 x1 x2) := fun _ _ _ => rfl
theorem slea : ∀ x0 x1 x2 x3 x4 x5, Statement (.slea x0 x1 x2 x3 x4 x5) := fun _ _ _ _ _ _ => rfl
theorem smin : ∀ x0 x1 x2 x3 x4, Statement (.smin x0 x1 x2 x3 x4) := fun _ _ _ _ _ => rfl
theorem smax : ∀ x0 x1 x2 x3 x4, Statement (.smax x0 x1 x2 x3 x4) := fun _ _ _ _ _ => rfl
theorem scmp : ∀ x0 x1 x2 x3 x4 x5, Statement (.scmp x0 x1 x2 x3 x4 x5) := fun _ _ _ _ _ _ => rfl
theorem sbfx : ∀ x0 x1 x2 x3 x4, Statement (.sbfx x0 x1 x2 x3 x4) := fun _ _ _ _ _ => rfl
theorem sbfi : ∀ x0 x1 x2 x3, Statement (.sbfi x0 x1 x2 x3) := fun _ _ _ _ => rfl
theorem sclz : ∀ x0 x1 x2, Statement (.sclz x0 x1 x2) := fun _ _ _ => rfl
theorem spopc : ∀ x0 x1 x2, Statement (.spopc x0 x1 x2) := fun _ _ _ => rfl
theorem sfmul : ∀ x0 x1 x2 x3 x4, Statement (.sfmul x0 x1 x2 x3 x4) := fun _ _ _ _ _ => rfl
theorem sfadd : ∀ x0 x1 x2 x3 x4, Statement (.sfadd x0 x1 x2 x3 x4) := fun _ _ _ _ _ => rfl
theorem sfma : ∀ x0 x1 x2 x3 x4 x5, Statement (.sfma x0 x1 x2 x3 x4 x5) := fun _ _ _ _ _ _ => rfl
theorem saddi : ∀ x0 x1 x2 x3, Statement (.saddi x0 x1 x2 x3) := fun _ _ _ _ => rfl
theorem br : ∀ x0 x1, Statement (.br x0 x1) := fun _ _ => rfl
theorem brl : ∀ x0 x1, Statement (.brl x0 x1) := fun _ _ => rfl
theorem brx : ∀ x0 x1, Statement (.brx x0 x1) := fun _ _ => rfl
theorem ret : ∀ x0, Statement (.ret x0) := fun _ => rfl
theorem pushm : ∀ x0 x1, Statement (.pushm x0 x1) := fun _ _ => rfl
theorem elsem : ∀ x0 x1, Statement (.elsem x0 x1) := fun _ _ => rfl
theorem popm : ∀ x0, Statement (.popm x0) := fun _ => rfl
theorem brany : ∀ x0 x1 x2, Statement (.brany x0 x1 x2) := fun _ _ _ => rfl
theorem brall : ∀ x0 x1 x2, Statement (.brall x0 x1 x2) := fun _ _ _ => rfl
theorem loop : ∀ x0 x1 x2, Statement (.loop x0 x1 x2) := fun _ _ _ => rfl
theorem ld : ∀ x0 x1 x2 x3, Statement (.ld x0 x1 x2 x3) := fun _ _ _ _ => rfl
theorem st : ∀ x0 x1 x2 x3, Statement (.st x0 x1 x2 x3) := fun _ _ _ _ => rfl
theorem lds : ∀ x0 x1 x2 x3, Statement (.lds x0 x1 x2 x3) := fun _ _ _ _ => rfl
theorem sts : ∀ x0 x1 x2 x3, Statement (.sts x0 x1 x2 x3) := fun _ _ _ _ => rfl
theorem ldq : ∀ x0 x1 x2 x3 x4 x5, Statement (.ldq x0 x1 x2 x3 x4 x5) := fun _ _ _ _ _ _ => rfl
theorem stx : ∀ x0 x1 x2 x3 x4, Statement (.stx x0 x1 x2 x3 x4) := fun _ _ _ _ _ => rfl
theorem qpop : ∀ x0 x1 x2 x3 x4, Statement (.qpop x0 x1 x2 x3 x4) := fun _ _ _ _ _ => rfl
theorem qpeek : ∀ x0 x1 x2 x3 x4, Statement (.qpeek x0 x1 x2 x3 x4) := fun _ _ _ _ _ => rfl
theorem qstat : ∀ x0 x1 x2, Statement (.qstat x0 x1 x2) := fun _ _ _ => rfl
theorem qdrop : ∀ x0 x1, Statement (.qdrop x0 x1) := fun _ _ => rfl
theorem tagl : ∀ x0 x1 x2, Statement (.tagl x0 x1 x2) := fun _ _ _ => rfl
theorem tagw : ∀ x0 x1 x2, Statement (.tagw x0 x1 x2) := fun _ _ _ => rfl
theorem tagi : ∀ x0 x1 x2 x3, Statement (.tagi x0 x1 x2 x3) := fun _ _ _ _ => rfl
theorem atom : ∀ x0 x1 x2 x3 x4 x5 x6, Statement (.atom x0 x1 x2 x3 x4 x5 x6) := fun _ _ _ _ _ _ _ => rfl
theorem atomx : ∀ x0 x1 x2 x3 x4 x5 x6 x7, Statement (.atomx x0 x1 x2 x3 x4 x5 x6 x7) := fun _ _ _ _ _ _ _ _ => rfl
theorem fence : ∀ x0 x1, Statement (.fence x0 x1) := fun _ _ => rfl
theorem jfar : ∀ x0 x1 x2 x3, Statement (.jfar x0 x1 x2 x3) := fun _ _ _ _ => rfl
theorem cfar : ∀ x0 x1 x2 x3, Statement (.cfar x0 x1 x2 x3) := fun _ _ _ _ => rfl
theorem rfar : ∀ x0 x1, Statement (.rfar x0 x1) := fun _ _ => rfl
theorem fork : ∀ x0 x1 x2 x3 x4, Statement (.fork x0 x1 x2 x3 x4) := fun _ _ _ _ _ => rfl
theorem exit : ∀ x0, Statement (.exit x0) := fun _ => rfl
theorem yield : ∀ x0 x1, Statement (.yield x0 x1) := fun _ _ => rfl
theorem send : ∀ x0 x1 x2 x3, Statement (.send x0 x1 x2 x3) := fun _ _ _ _ => rfl
theorem chbind : ∀ x0 x1 x2 x3, Statement (.chbind x0 x1 x2 x3) := fun _ _ _ _ => rfl
theorem chw : ∀ x0 x1 x2 x3, Statement (.chw x0 x1 x2 x3) := fun _ _ _ _ => rfl
theorem chclose : ∀ x0 x1, Statement (.chclose x0 x1) := fun _ _ => rfl
theorem chstat : ∀ x0 x1 x2, Statement (.chstat x0 x1 x2) := fun _ _ _ => rfl
theorem chunbind : ∀ x0 x1, Statement (.chunbind x0 x1) := fun _ _ => rfl
theorem barc : ∀ x0 x1 x2, Statement (.barc x0 x1 x2) := fun _ _ _ => rfl
theorem bara : ∀ x0 x1 x2, Statement (.bara x0 x1 x2) := fun _ _ _ => rfl
theorem barw : ∀ x0 x1 x2, Statement (.barw x0 x1 x2) := fun _ _ _ => rfl
theorem bart : ∀ x0 x1 x2 x3, Statement (.bart x0 x1 x2 x3) := fun _ _ _ _ => rfl
theorem gang : ∀ x0 x1, Statement (.gang x0 x1) := fun _ _ => rfl
theorem step : ∀ x0 x1 x2 x3, Statement (.step x0 x1 x2 x3) := fun _ _ _ _ => rfl
theorem stepend : ∀ x0, Statement (.stepend x0) := fun _ => rfl
theorem slack : ∀ x0 x1, Statement (.slack x0 x1) := fun _ _ => rfl
theorem sleept : ∀ x0 x1, Statement (.sleept x0 x1) := fun _ _ => rfl
theorem tdset : ∀ x0 x1 x2 x3, Statement (.tdset x0 x1 x2 x3) := fun _ _ _ _ => rfl
theorem tdget : ∀ x0 x1 x2 x3, Statement (.tdget x0 x1 x2 x3) := fun _ _ _ _ => rfl
theorem mma : ∀ x0 x1 x2 x3 x4 x5, Statement (.mma x0 x1 x2 x3 x4 x5) := fun _ _ _ _ _ _ => rfl
theorem accz : ∀ x0 x1, Statement (.accz x0 x1) := fun _ _ => rfl
theorem accld : ∀ x0 x1 x2 x3, Statement (.accld x0 x1 x2 x3) := fun _ _ _ _ => rfl
theorem accst : ∀ x0 x1 x2 x3 x4 x5, Statement (.accst x0 x1 x2 x3 x4 x5) := fun _ _ _ _ _ _ => rfl
theorem twset : ∀ x0 x1 x2, Statement (.twset x0 x1 x2) := fun _ _ _ => rfl
theorem twgo : ∀ x0 x1 x2, Statement (.twgo x0 x1 x2) := fun _ _ _ => rfl
theorem twmap : ∀ x0 x1 x2 x3, Statement (.twmap x0 x1 x2 x3) := fun _ _ _ _ => rfl
theorem twtest : ∀ x0 x1 x2 x3 x4, Statement (.twtest x0 x1 x2 x3 x4) := fun _ _ _ _ _ => rfl
theorem twwait : ∀ x0 x1 x2 x3 x4, Statement (.twwait x0 x1 x2 x3 x4) := fun _ _ _ _ _ => rfl
theorem nop : ∀ x0, Statement (.nop x0) := fun _ => rfl
theorem trap : ∀ x0 x1, Statement (.trap x0 x1) := fun _ _ => rfl
theorem svc : ∀ x0 x1, Statement (.svc x0 x1) := fun _ _ => rfl
theorem mfs : ∀ x0 x1 x2, Statement (.mfs x0 x1 x2) := fun _ _ _ => rfl
theorem mts : ∀ x0 x1 x2, Statement (.mts x0 x1 x2) := fun _ _ _ => rfl
theorem ckpt : ∀ x0, Statement (.ckpt x0) := fun _ => rfl
theorem brk : ∀ x0 x1, Statement (.brk x0 x1) := fun _ _ => rfl
theorem once : ∀ x0, Statement (.once x0) := fun _ => rfl
theorem inboxArrival : ∀ x0, Statement (.inboxArrival x0) := fun _ => rfl
theorem setFormation : ∀ x0, Statement (.setFormation x0) := fun _ => rfl
theorem gatherWindowExpiry : ∀ x0 x1, Statement (.gatherWindowExpiry x0 x1) := fun _ _ => rfl
theorem startMessage : ∀ x0, Statement (.startMessage x0) := fun _ => rfl
theorem startAck : ∀ x0, Statement (.startAck x0) := fun _ => rfl
theorem bankWrite : ∀ x0, Statement (.bankWrite x0) := fun _ => rfl
theorem homeAccess : ∀ x0, Statement (.homeAccess x0) := fun _ => rfl
theorem queueResponse : ∀ x0, Statement (.queueResponse x0) := fun _ => rfl
theorem stxErrorResponse : ∀ x0, Statement (.stxErrorResponse x0) := fun _ => rfl
theorem sendRefused : ∀ x0, Statement (.sendRefused x0) := fun _ => rfl
theorem resumeNotification : ∀ x0, Statement (.resumeNotification x0) := fun _ => rfl
theorem targetSwitchedOut : ∀ x0 x1, Statement (.targetSwitchedOut x0 x1) := fun _ _ => rfl
theorem countIncrement : ∀ x0, Statement (.countIncrement x0) := fun _ => rfl
theorem forkAck : ∀ x0, Statement (.forkAck x0) := fun _ => rfl
theorem forkChildInject : ∀ x0 x1, Statement (.forkChildInject x0 x1) := fun _ _ => rfl
theorem countDecrement : ∀ x0, Statement (.countDecrement x0) := fun _ => rfl
theorem jobDone : ∀ x0, Statement (.jobDone x0) := fun _ => rfl
theorem barrierArrival : ∀ x0, Statement (.barrierArrival x0) := fun _ => rfl
theorem barrierStateReply : ∀ x0, Statement (.barrierStateReply x0) := fun _ => rfl
theorem phaseUpdate : ∀ x0, Statement (.phaseUpdate x0) := fun _ => rfl
theorem joinMatch : ∀ x0, Statement (.joinMatch x0) := fun _ => rfl
theorem mmaRetire : ∀ x0, Statement (.mmaRetire x0) := fun _ => rfl
theorem twChunkComplete : ∀ x0 x1, Statement (.twChunkComplete x0 x1) := fun _ _ => rfl
theorem twHandlePush : ∀ x0 x1, Statement (.twHandlePush x0 x1) := fun _ _ => rfl
theorem twFault : ∀ x0 x1, Statement (.twFault x0 x1) := fun _ _ => rfl
theorem twWriteRefused : ∀ x0, Statement (.twWriteRefused x0) := fun _ => rfl
theorem channelElementArrival : ∀ x0, Statement (.channelElementArrival x0) := fun _ => rfl
theorem channelRefill : ∀ x0 x1, Statement (.channelRefill x0 x1) := fun _ _ => rfl
theorem closeMarkArrival : ∀ x0, Statement (.closeMarkArrival x0) := fun _ => rfl
theorem roomNotification : ∀ x0, Statement (.roomNotification x0) := fun _ => rfl
theorem inboxRefill : ∀ x0, Statement (.inboxRefill x0) := fun _ => rfl
theorem poolAppend : ∀ x0, Statement (.poolAppend x0) := fun _ => rfl
theorem poolPopRequest : ∀ x0, Statement (.poolPopRequest x0) := fun _ => rfl
theorem poolRingRefill : ∀ x0 x1, Statement (.poolRingRefill x0 x1) := fun _ _ => rfl
theorem sluiceSample : ∀ x0, Statement (.sluiceSample x0) := fun _ => rfl
theorem kick : ∀ x0 x1 x2, Statement (.kick x0 x1 x2) := fun _ _ _ => rfl
theorem replayStart : ∀ x0 x1, Statement (.replayStart x0 x1) := fun _ _ => rfl
theorem nodeStart : ∀ x0 x1 x2, Statement (.nodeStart x0 x1 x2) := fun _ _ _ => rfl
theorem copyComplete : ∀ x0 x1 x2, Statement (.copyComplete x0 x1 x2) := fun _ _ _ => rfl
theorem replayEnd : ∀ x0 x1, Statement (.replayEnd x0 x1) := fun _ _ => rfl
theorem slotArm : ∀ x0 x1, Statement (.slotArm x0 x1) := fun _ _ => rfl
theorem reserveContexts : ∀ x0, Statement (.reserveContexts x0) := fun _ => rfl
theorem dispatchRelease : ∀ x0, Statement (.dispatchRelease x0) := fun _ => rfl
theorem stationInject : ∀ x0, Statement (.stationInject x0) := fun _ => rfl
theorem class0Reserve : ∀ x0, Statement (.class0Reserve x0) := fun _ => rfl
theorem displacement : ∀ x0, Statement (.displacement x0) := fun _ => rfl
theorem displacedRestore : ∀ x0, Statement (.displacedRestore x0) := fun _ => rfl
theorem watchdog : ∀ x0 x1, Statement (.watchdog x0 x1) := fun _ _ => rfl
theorem preemptRequest : ∀ x0, Statement (.preemptRequest x0) := fun _ => rfl
theorem preemptStopped : ∀ x0, Statement (.preemptStopped x0) := fun _ => rfl
theorem cellResume : ∀ x0, Statement (.cellResume x0) := fun _ => rfl
theorem sleeptWake : ∀ x0 x1, Statement (.sleeptWake x0 x1) := fun _ _ => rfl
theorem fenceTimeout : ∀ x0 x1, Statement (.fenceTimeout x0 x1) := fun _ _ => rfl
theorem stepRegistration : ∀ x0, Statement (.stepRegistration x0) := fun _ => rfl
theorem stepRetirement : ∀ x0, Statement (.stepRetirement x0) := fun _ => rfl
theorem workReport : ∀ x0, Statement (.workReport x0) := fun _ => rfl
theorem governorPeriod : ∀ x0, Statement (.governorPeriod x0) := fun _ => rfl
theorem clusterBid : ∀ x0, Statement (.clusterBid x0) := fun _ => rfl
theorem weirClear : Statement (.weirClear) := rfl
theorem grantArrival : ∀ x0, Statement (.grantArrival x0) := fun _ => rfl
theorem meterWindow : ∀ x0, Statement (.meterWindow x0) := fun _ => rfl
theorem railStep : ∀ x0, Statement (.railStep x0) := fun _ => rfl
theorem quiesceDrained : ∀ x0, Statement (.quiesceDrained x0) := fun _ => rfl
theorem quiesceTimeout : ∀ x0, Statement (.quiesceTimeout x0) := fun _ => rfl
theorem thermalSample : ∀ x0 x1, Statement (.thermalSample x0 x1) := fun _ _ => rfl
theorem promenadeCopyDone : ∀ x0, Statement (.promenadeCopyDone x0) := fun _ => rfl
theorem tlbFillRequest : ∀ x0, Statement (.tlbFillRequest x0) := fun _ => rfl
theorem tlbFillReply : ∀ x0, Statement (.tlbFillReply x0) := fun _ => rfl
theorem invalidation : ∀ x0, Statement (.invalidation x0) := fun _ => rfl
theorem invalidationComplete : ∀ x0, Statement (.invalidationComplete x0) := fun _ => rfl
theorem svcVersion : ∀ x0, Statement (.svcVersion x0) := fun _ => rfl
theorem svcInvalPage : ∀ x0, Statement (.svcInvalPage x0) := fun _ => rfl
theorem svcInvalAsid : ∀ x0, Statement (.svcInvalAsid x0) := fun _ => rfl
theorem svcMap : ∀ x0, Statement (.svcMap x0) := fun _ => rfl
theorem svcUnmap : ∀ x0, Statement (.svcUnmap x0) := fun _ => rfl
theorem svcQuote : ∀ x0, Statement (.svcQuote x0) := fun _ => rfl
theorem faultRecord : ∀ x0, Statement (.faultRecord x0) := fun _ => rfl
theorem verdict : ∀ x0, Statement (.verdict x0) := fun _ => rfl
theorem jobDrop : ∀ x0, Statement (.jobDrop x0) := fun _ => rfl
theorem cellQuarantine : ∀ x0 x1 x2 x3 x4, Statement (.cellQuarantine x0 x1 x2 x3 x4) := fun _ _ _ _ _ => rfl
theorem hbmError : ∀ x0 x1, Statement (.hbmError x0 x1) := fun _ _ => rfl
theorem partitionStop : ∀ x0 x1, Statement (.partitionStop x0 x1) := fun _ _ => rfl
theorem machineCheck : Statement (.machineCheck) := rfl
theorem ckptTimeout : ∀ x0, Statement (.ckptTimeout x0) := fun _ => rfl
theorem partCreate : ∀ x0 x1, Statement (.partCreate x0 x1) := fun _ _ => rfl
theorem partDestroy : ∀ x0 x1, Statement (.partDestroy x0 x1) := fun _ _ => rfl
theorem partSetRail : ∀ x0 x1, Statement (.partSetRail x0 x1) := fun _ _ => rfl
theorem partSetFaultsrv : ∀ x0 x1, Statement (.partSetFaultsrv x0 x1) := fun _ _ => rfl
theorem partPreempt : ∀ x0 x1, Statement (.partPreempt x0 x1) := fun _ _ => rfl
theorem partResume : ∀ x0 x1, Statement (.partResume x0 x1) := fun _ _ => rfl
theorem asidAlloc : ∀ x0 x1, Statement (.asidAlloc x0 x1) := fun _ _ => rfl
theorem asidRelease : ∀ x0 x1, Statement (.asidRelease x0 x1) := fun _ _ => rfl
theorem memMap : ∀ x0 x1, Statement (.memMap x0 x1) := fun _ _ => rfl
theorem attestQuote : ∀ x0 x1, Statement (.attestQuote x0 x1) := fun _ _ => rfl
theorem attestPublicKey : ∀ x0 x1, Statement (.attestPublicKey x0 x1) := fun _ _ => rfl
theorem graphLoad : ∀ x0 x1, Statement (.graphLoad x0 x1) := fun _ _ => rfl
theorem graphUnload : ∀ x0 x1, Statement (.graphUnload x0 x1) := fun _ _ => rfl
theorem ckptPart : ∀ x0 x1, Statement (.ckptPart x0 x1) := fun _ _ => rfl
theorem ckptDevice : ∀ x0 x1, Statement (.ckptDevice x0 x1) := fun _ _ => rfl
theorem restorePart : ∀ x0 x1, Statement (.restorePart x0 x1) := fun _ _ => rfl
theorem debugHalt : ∀ x0 x1, Statement (.debugHalt x0 x1) := fun _ _ => rfl
theorem debugResume : ∀ x0 x1, Statement (.debugResume x0 x1) := fun _ _ => rfl
theorem traceConfig : ∀ x0 x1, Statement (.traceConfig x0 x1) := fun _ _ => rfl
theorem powerCapSet : ∀ x0 x1, Statement (.powerCapSet x0 x1) := fun _ _ => rfl
theorem queryIdentity : ∀ x0 x1, Statement (.queryIdentity x0 x1) := fun _ _ => rfl
theorem queryPartitionStatus : ∀ x0 x1, Statement (.queryPartitionStatus x0 x1) := fun _ _ => rfl
theorem queryViolationLog : ∀ x0 x1, Statement (.queryViolationLog x0 x1) := fun _ _ => rfl
theorem queryReelPorts : ∀ x0 x1, Statement (.queryReelPorts x0 x1) := fun _ _ => rfl
theorem reelBind : ∀ x0 x1, Statement (.reelBind x0 x1) := fun _ _ => rfl
theorem reelUnbind : ∀ x0 x1, Statement (.reelUnbind x0 x1) := fun _ _ => rfl
theorem verdictDoorbell : ∀ x0 x1, Statement (.verdictDoorbell x0 x1) := fun _ _ => rfl
theorem devreset : ∀ x0, Statement (.devreset x0) := fun _ => rfl
theorem i3cReset : ∀ x0, Statement (.i3cReset x0) := fun _ => rfl
theorem hooklen : ∀ x0, Statement (.hooklen x0) := fun _ => rfl
theorem hookWindowExpiry : Statement (.hookWindowExpiry) := rfl
theorem powerGood : Statement (.powerGood) := rfl
theorem bar2Access : ∀ x0 x1 x2 x3, Statement (.bar2Access x0 x1 x2 x3) := fun _ _ _ _ => rfl
theorem registerWrite : ∀ x0 x1 x2, Statement (.registerWrite x0 x1 x2) := fun _ _ _ => rfl
theorem reelFlitReceive : ∀ x0 x1, Statement (.reelFlitReceive x0 x1) := fun _ _ => rfl
theorem reelControlFlit : ∀ x0 x1, Statement (.reelControlFlit x0 x1) := fun _ _ => rfl
theorem reelShed : ∀ x0, Statement (.reelShed x0) := fun _ => rfl
theorem reelRetrainDone : ∀ x0 x1, Statement (.reelRetrainDone x0 x1) := fun _ _ => rfl
theorem reelRetrainTimer : ∀ x0, Statement (.reelRetrainTimer x0) := fun _ => rfl
theorem illegalEncoding : Statement (.illegalEncoding) := rfl
theorem unknownOpcode : ∀ x0 x1, Statement (.unknownOpcode x0 x1) := fun _ _ => rfl
theorem writeAcknowledgement : ∀ x0, Statement (.writeAcknowledgement x0) := fun _ => rfl
theorem tailraceReadLanded : ∀ x0, Statement (.tailraceReadLanded x0) := fun _ => rfl
theorem scratchCorrected : ∀ x0, Statement (.scratchCorrected x0) := fun _ => rfl
theorem walkerTimeLimit : ∀ x0, Statement (.walkerTimeLimit x0) := fun _ => rfl
theorem entdaa : Statement (.entdaa) := rfl
theorem powerRemoval : Statement (.powerRemoval) := rfl

end Sys2Proof.Laws.Words
end

