-- ==== Sys2Proof/Tests/Slice0.lean ====
section
/-! SUPPORT. Tests: words of the reference and the instructions they stand for, terms that no word encodes, small steps with the values
that the reference gives, and for every statement states and operands that meet its hypotheses. -/

namespace Sys2Proof.Tests

-- One thread is enough: the tests are many and short.
set_option Elab.async false
open Sys2Proof Sys2Proof.Machine Sys2Proof.Claims

/-! ### Words (the examples of the reference and the field tables of R50, R58 and R90 to R102) -/

/-- The guard that is always true, in the short form and in the extended form. -/
abbrev sh : Head := { neg := false, idx := 7, ext := false }
abbrev xt : Head := { neg := false, idx := 7, ext := true }
/-- The short guard of a predicate. -/
abbrev gd (n : PReg) : Head := { neg := false, idx := n, ext := false }
/-- An address without index or displacement, and the plain order of accesses. -/
abbrev at0 (r : Reg) : Addr := { base := r, noIdx := true, idx := .reg 0, scale := 0, disp := 0 }
abbrev plain : Order := { acq := false, rel := false, scope := .cell }


/-- `ADD.S32 v5, v6, v7`; `(!p3) ADD.S32 v5, v6, v7`; `ADDI v2, v2, #-3`; `SADDI s4, s4, #8`; `FMA.F v4, v1, v2, v3`; `FADD.F.RTZ v1, v2, v3`; `FENCE.DEVICE`; `FENCE`; `CMP.LT p2, p3, v1, v3`; `FMIN.H v8, q2, v9`. -/
theorem test_words_1 :
    decode [0x1398A05C] = .ok (.add sh .s32 false 5 (.reg 6) (.reg 7)) 1 ∧
    decode [0x1398A06C] = .ok (.add { sh with neg := true, idx := 3 } .s32 false 5 (.reg 6) (.reg 7)) 1 ∧
    decode [0xFE88485C] = .ok (.addi sh 2 2 0x1fd) 1 ∧
    decode [0x0410971C] = .ok (.saddi sh 4 4 8) 1 ∧
    decode [0x910489DD, 0x00000003, 0x00000000] = .ok (.fma xt .f .fpctl 4 (.reg 1) (.reg 2) 3) 3 ∧
    decode [0x9188291D, 0x00400000, 0x00000000] = .ok (.fadd xt .f .rtz 1 (.reg 2) (.reg 3)) 3 ∧
    decode [0x00001DDD, 0x0C000000, 0x00000000] = .ok (.fence xt .device) 3 ∧
    decode [0x00001DDC] = .ok (.fence sh .cell) 1 ∧
    decode [0x21844E9D, 0x0000000B, 0x00000000] = .ok (.cmp xt .lt false 2 (some 3) (.reg 1) (.reg 3)) 3 ∧
    decode [0xA4810A1D, 0x00120000, 0x00000000] = .ok (.fmin xt .h 8 (.queue 2) (.reg 9)) 3 := by decide

/-- `LD.B32 v9, [s4 + v2*4 + 16]`; `ADD.S32 v5, v6, #0x0000_1234`; `FMA.F v4, v1, #0x3FC0_0000, v3`; `ONCE`; `SADD s3, s4, s5`; `ONCE.CLUSTER`; `EXIT`; `JFAR s4, live(v0-v2)`; `BR top`; `ADDS.S32.SAT v1, v2, s3`. -/
theorem test_words_2 :
    decode [0x01113A1D, 0x00000800, 0x00000010] = .ok (.ld xt .b32 9 ⟨4, false, .reg 2, 2, 0x10⟩) 3 ∧
    decode [0x1018A05E, 0x00001234, 0x00000000] = .ok (.add sh .s32 false 5 (.reg 6) (.lit 0x1234)) 3 ∧
    decode [0x900489DF, 0x00000003, 0x00000000, 0x3FC00000, 0x00000000] = .ok (.fma xt .f .fpctl 4 (.reg 1) (.lit 0x3fc00000) 3) 5 ∧
    decode [0x00001FDC] = .ok (.once false) 1 ∧
    decode [0x0290711C] = .ok (.sadd sh 3 (.reg 4) (.reg 5)) 1 ∧
    decode [0x10001FDC] = .ok (.once true) 1 ∧
    decode [0x40001E1C] = .ok (.exit sh) 1 ∧
    decode [0x00101E1D, 0x00000400, 0x00000007] = .ok (.jfar xt true 4 7) 3 ∧
    decode [0xFFF4179C] = .ok (.br sh 0x3ffd) 1 ∧
    decode [0x118820DD, 0x00200000, 0x00000000] = .ok (.adds xt .s32 true 1 (.reg 2) (.reg 3)) 3 := by decide

/-- `MAD.S64 v4, v6, v8, v10`; `BFX.S32 v3, v5, #0x0000_0810`; `BFX.N32 v3, v5, #0x0000_0810`; `SEL.B32 v1, v2, v3, p5`; `MOVS.S32 s2, v5, s6`; `WIDF.2 v4`; `SHFL.DOWN.B32 v7, v7, v9`; `VOTE s2, p4`; `REDS.ADD.S32 s6, v2`; `SDIV.S64 s7, s8, s9`. -/
theorem test_words_3 :
    decode [0x341881DD, 0x0000000A, 0x00000000] = .ok (.mad xt .s64 false 4 (.reg 6) (.reg 8) 0xa) 3 ∧
    decode [0x1014655E, 0x00000810, 0x00000000] = .ok (.bfx sh .s32 3 (.reg 5) (.lit 0x810)) 3 ∧
    decode [0x2014655E, 0x00000810, 0x00000000] = .ok (.bfx sh .n32 3 (.reg 5) (.lit 0x810)) 3 ∧
    decode [0x0188269D, 0x00000005, 0x00000000] = .ok (.sel xt .b32 1 (.reg 2) (.reg 3) 5) 3 ∧
    decode [0x1314471C] = .ok (.movs sh .s32 2 (.reg 5) (.reg 6)) 1 ∧
    decode [0x2000889C] = .ok (.widf sh 2 4) 1 ∧
    decode [0x049CE75D, 0x00000800, 0x00000000] = .ok (.shfl xt .down .b32 7 (.reg 7) (.reg 9)) 3 ∧
    decode [0x0010479C] = .ok (.vote sh 2 4) 1 ∧
    decode [0x1008C7DC] = .ok (.reds sh .add .s32 6 (.reg 2)) 1 ∧
    decode [0x34A0F21C] = .ok (.sdiv sh .s64 7 (.reg 8) (.reg 9)) 1 := by decide

/-- `SCMP.LTN k1, k2, s4, s5`; `BRL sub`; `RET`; `PUSHM p3`; `ELSEM p3`; `POPM`; `BRANY p2, next`; `LOOP s5, done`; `ADDI v1, v1, #1`; `SADDI s6, s6, #1`. -/
theorem test_words_4 :
    decode [0x6290351D, 0x0000000A, 0x00000000] = .ok (.scmp xt .ltn 1 (some 2) (.reg 4) (.reg 5)) 3 ∧
    decode [0x002817DC] = .ok (.brl sh 0xa) 1 ∧
    decode [0x0000185C] = .ok (.ret sh) 1 ∧
    decode [0x000C189C] = .ok (.pushm sh 3) 1 ∧
    decode [0x000C18DC] = .ok (.elsem sh 3) 1 ∧
    decode [0x0000191C] = .ok (.popm sh) 1 ∧
    decode [0x0014595C] = .ok (.brany sh 2 5) 1 ∧
    decode [0x0018B9DC] = .ok (.loop sh 5 6) 1 ∧
    decode [0x0084285C] = .ok (.addi sh 1 1 1) 1 ∧
    decode [0x0098D71C] = .ok (.saddi sh 6 6 1) 1 := by decide

/-- `SHL.B32 v2, v2, v3`; `ADD.S32 v4, v4, v1`; `LOOP s0, body`; `FMUL.H v6, v7, v8`; `FDIV.F.RUP v1, v2, v3`; `FSQRT.F v4, v5`; `FMIN.F v1, v2, v3`; `FCLASS.H v9, v10`; `CVT.H.F v2, v1`; `CVT.E4.F.SAT v3, v1`. -/
theorem test_words_5 :
    decode [0x0188445C] = .ok (.shl sh .b32 2 (.reg 2) (.reg 3)) 1 ∧
    decode [0x1090805C] = .ok (.add sh .s32 false 4 (.reg 4) (.reg 1)) 1 ∧
    decode [0xFFF019DC] = .ok (.loop sh 0 0x3ffc) 1 ∧
    decode [0xA41CC99C] = .ok (.fmul sh .h .fpctl 6 (.reg 7) (.reg 8)) 1 ∧
    decode [0x91882B1D, 0x00800000, 0x00000000] = .ok (.fdiv xt .f .rup 1 (.reg 2) (.reg 3)) 3 ∧
    decode [0x90148B5C] = .ok (.fsqrt sh .f .fpctl 4 (.reg 5)) 1 ∧
    decode [0x91882A1C] = .ok (.fmin sh .f 1 (.reg 2) (.reg 3)) 1 ∧
    decode [0xA0292D1C] = .ok (.fclass sh .h 9 (.reg 0xa)) 1 ∧
    decode [0xA0044D5D, 0x00002400, 0x00000000] = .ok (.cvt xt .h .f .fpctl false 2 (.reg 1)) 3 ∧
    decode [0xC0046D5D, 0x00202400, 0x00000000] = .ok (.cvt xt .e4 .f .fpctl true 3 (.reg 1)) 3 := by decide

/-- `CVT.S32.F.RTZ v5, v6`; `CVT.F.S64 v4, v6`; `QPACK.E4.SAT v12, v0, s8`; `QUNPK.E4 v16, v12, s7`; `AMAX.F s7, v0`; `MOV.B32 v21, #0x0000_0000`; `ADDS.B32 v20, v21, s7`; `FRCP.F v20, v20`; `FMUL.F v20, v20, #0x43E0_0000`; `MOVS.B32 s8, v20, s0`. -/
theorem test_words_6 :
    decode [0x1018AD5D, 0x00402400, 0x00000000] = .ok (.cvt xt .s32 .f .rtz false 5 (.reg 6)) 3 ∧
    decode [0x90188D5D, 0x00000C00, 0x00000000] = .ok (.cvt xt .f .s64 .fpctl false 4 (.reg 6)) 3 ∧
    decode [0xC4018D9D, 0x00200000, 0x00000000] = .ok (.qpack xt .e4 true 0xc (.reg 0) (.reg 8)) 3 ∧
    decode [0xC3B20DDC] = .ok (.qunpk sh .e4 .fpctl 0x10 (.reg 0xc) (.reg 7)) 1 ∧
    decode [0x9000EE1C] = .ok (.amax sh 7 (.reg 0)) 1 ∧
    decode [0x0002A6DE, 0x00000000, 0x00000000] = .ok (.mov sh .b32 0x15 (.lit 0)) 3 ∧
    decode [0x03D680DC] = .ok (.adds sh .b32 false 0x14 (.reg 0x15) (.reg 7)) 1 ∧
    decode [0x90528B9C] = .ok (.frcp sh .f .fpctl 0x14 (.reg 0x14)) 1 ∧
    decode [0x9052899E, 0x43E00000, 0x00000000] = .ok (.fmul sh .f .fpctl 0x14 (.reg 0x14) (.lit 0x43e00000)) 3 ∧
    decode [0x0051071C] = .ok (.movs sh .b32 8 (.reg 0x14) (.reg 0)) 1 := by decide

/-- `SFMUL.F s3, s4, s5`; `SFMA.F s3, s4, s5, s6`; `ST.B32 v9, [s4 + v2*4 + 16]`; `LDS.N16 s3, [s4 + s5*2 + 6]`; `STS.B64 s6, [s7]`; `(p1) LDQ.B32 q3, [s6 + v0*4]`; `QPOP.B32 v9, q3`; `STX.B64.REL.DEVICE v4, [s8]`; `QPOP.B64 s3, q9`; `QDROP q2`. -/
theorem test_words_7 :
    decode [0x9290765C] = .ok (.sfmul sh .fpctl 3 (.reg 4) (.reg 5)) 1 ∧
    decode [0x929076DD, 0x00000006, 0x00000000] = .ok (.sfma xt .fpctl 3 (.reg 4) (.reg 5) 6) 3 ∧
    decode [0x01113A5D, 0x00000800, 0x00000010] = .ok (.st xt .b32 9 ⟨4, false, .reg 2, 2, 0x10⟩) 3 ∧
    decode [0x62907A9D, 0x00000400, 0x00000006] = .ok (.lds xt .n16 3 ⟨4, false, .reg 5, 1, 6⟩) 3 ∧
    decode [0xE01CDADD, 0x00001000, 0x00000000] = .ok (.sts xt .b64 6 (at0 7)) 3 ∧
    decode [0x00187B05, 0x00000800, 0x00000000] = .ok (.ldq { xt with idx := 1 } .b32 false plain 3 ⟨6, false, .reg 0, 2, 0⟩) 3 ∧
    decode [0x000D3B9C] = .ok (.qpop sh .b32 false 9 3) 1 ∧
    decode [0xE0209B5D, 0x0E001000, 0x00000000] = .ok (.stx xt .b64 ⟨false, true, .device⟩ 4 (at0 8)) 3 ∧
    decode [0xE0247B9D, 0x00000400, 0x00000000] = .ok (.qpop xt .b64 true 3 9) 3 ∧
    decode [0x00081C5C] = .ok (.qdrop sh 2) 1 := by decide

/-- `QSTAT s4, q2`; `TAGL v7, v10`; `TAGW s2, s3`; `TAGI.REGION s4, s5`; `TAGI.ALL`; `ATOM.ADD.S32 v3, [s6 + v1*4], v8`; `ATOMX.CAS.B64.ACQ.REL.DEVICE q1, [s12], v4, v6`; `FENCE.CLUSTER`; `JFAR v4, live(v0-v2, v6)`; `CFAR s4, live(v0-v1)`. -/
theorem test_words_8 :
    decode [0x00089C1C] = .ok (.qstat sh 4 2) 1 ∧
    decode [0x0028FC9C] = .ok (.tagl sh 7 0xa) 1 ∧
    decode [0x01881CDC] = .ok (.tagw sh 2 (.reg 3)) 1 ∧
    decode [0x02901D1D, 0x00000800, 0x00000000] = .ok (.tagi xt .region 4 (.reg 5)) 3 ∧
    decode [0x00001D1D, 0x00000400, 0x00000000] = .ok (.tagi xt .all 0 (.reg 0)) 3 ∧
    decode [0x10987D5D, 0x00000808, 0x00000000] = .ok (.atom xt .add .s32 3 ⟨6, false, .reg 1, 2, 0⟩ 8 0) 3 ∧
    decode [0xE0303D9D, 0x0F00F0C4, 0x00000000] = .ok (.atomx xt .cas .b64 ⟨true, true, .device⟩ 1 (at0 0xc) 4 6) 3 ∧
    decode [0x00001DDD, 0x04000000, 0x00000000] = .ok (.fence xt .cluster) 3 ∧
    decode [0x00101E1D, 0x00000000, 0x00000047] = .ok (.jfar xt false 4 0x47) 3 ∧
    decode [0x10101E1D, 0x00000400, 0x00000003] = .ok (.cfar xt true 4 3) 3 := by decide

/-- `RFAR live(v0)`; `YIELD live(v0-v5)`; `YIELD`; `FORK s3, s4, v8, live(v0-v3)`; `SEND.9 s2, s3`; `CHBIND.W q9, s5`; `CHBIND.R q8, s5`; `CHW q9, s6`; `CHW.V q9, v6`; `CHCLOSE q9`. -/
theorem test_words_9 :
    decode [0x20001E1D, 0x00000000, 0x00000001] = .ok (.rfar xt 1) 3 ∧
    decode [0x50001E1D, 0x00000000, 0x0000003F] = .ok (.yield xt 0x3f) 3 ∧
    decode [0x50001E1C] = .ok (.yield sh 0) 1 ∧
    decode [0x320C1E1D, 0x00000008, 0x0000000F] = .ok (.fork xt 3 (.reg 4) 8 0xf) 3 ∧
    decode [0x61881E1D, 0x00002400, 0x00000000] = .ok (.send xt 9 2 (.reg 3)) 3 ∧
    decode [0x00153E5C] = .ok (.chbind sh false 9 5) 1 ∧
    decode [0x00151E5D, 0x00000400, 0x00000000] = .ok (.chbind xt true 8 5) 3 ∧
    decode [0x10193E5C] = .ok (.chw sh false 9 6) 1 ∧
    decode [0x10193E5D, 0x00000400, 0x00000000] = .ok (.chw xt true 9 6) 3 ∧
    decode [0x20013E5C] = .ok (.chclose sh 9) 1 := by decide

/-- `CHSTAT s3, q9`; `CHUNBIND q9`; `BARC #5, s4`; `BARA.REL.CLUSTER #5`; `BARW.ACQ.CLUSTER #5`; `BART k2, #5`; `BARA`; `GANG`; `GANG.CLUSTER`; `STEP s4, s5, s6`. -/
theorem test_words_10 :
    decode [0x30247E5C] = .ok (.chstat sh 3 9) 1 ∧
    decode [0x40013E5C] = .ok (.chunbind sh 9) 1 ∧
    decode [0x00101E9D, 0x00001400, 0x00000000] = .ok (.barc xt 5 4) 3 ∧
    decode [0x10001E9D, 0x06001400, 0x00000000] = .ok (.bara xt 5 ⟨false, true, .cluster⟩) 3 ∧
    decode [0x20001E9D, 0x05001400, 0x00000000] = .ok (.barw xt 5 ⟨true, false, .cluster⟩) 3 ∧
    decode [0x30005E9D, 0x00001400, 0x00000000] = .ok (.bart xt 5 plain 2) 3 ∧
    decode [0x10001E9C] = .ok (.bara sh 0 plain) 1 ∧
    decode [0x40001E9C] = .ok (.gang sh .cell) 1 ∧
    decode [0x40001E9D, 0x04000000, 0x00000000] = .ok (.gang xt .cluster) 3 ∧
    decode [0x02901EDD, 0x00000006, 0x00000000] = .ok (.step xt 4 (.reg 5) 6) 3 := by decide

/-- `STEPEND`; `SLACK s7`; `SLEEPT s8`; `NOP`; `TRAP #0x42`; `SVC #3`; `MFS v2, WID`; `MFS s5, TBC`; `MTS FPCTL, s6`; `CKPT`. -/
theorem test_words_11 :
    decode [0x10001EDC] = .ok (.stepend sh) 1 ∧
    decode [0x2000FEDC] = .ok (.slack sh 7) 1 ∧
    decode [0x30201EDC] = .ok (.sleept sh 8) 1 ∧
    decode [0x00001F9C] = .ok (.nop sh) 1 ∧
    decode [0x10001F9D, 0x00000000, 0x00000042] = .ok (.trap xt 0x42) 3 ∧
    decode [0x20001F9D, 0x00000000, 0x00000003] = .ok (.svc xt 3) 3 ∧
    decode [0x30005F9C] = .ok (.mfs sh 0 2) 1 ∧
    decode [0x3000BF9D, 0x00002C00, 0x00000000] = .ok (.mfs xt 0xb 5) 3 ∧
    decode [0x40181F9D, 0x00003400, 0x00000000] = .ok (.mts xt 0xd 6) 3 ∧
    decode [0x50001F9C] = .ok (.ckpt sh) 1 := by decide

/-- `BRK`; `TDSET.0 td0, s4`; `TDSET.1 td0, s5`; `TDSET.2 td5, s4`; `TDGET.2 s3, td5`; `ACCZ a1`; `ACCLD.F a2, [s6]`; `ACCST.F a0, [s8]`; `ACCST.H.SAT a0, [s8]`; `MMA.E4 a0, td0, td4`. -/
theorem test_words_12 :
    decode [0x60001F9C] = .ok (.brk sh 0) 1 ∧
    decode [0x00101F1C] = .ok (.tdset sh 0 0 4) 1 ∧
    decode [0x00141F1D, 0x00000400, 0x00000000] = .ok (.tdset xt 1 0 5) 3 ∧
    decode [0x00101F1D, 0x00000800, 0x00000005] = .ok (.tdset xt 2 5 4) 3 ∧
    decode [0x10007F1D, 0x00000800, 0x00000005] = .ok (.tdget xt 2 5 3) 3 ∧
    decode [0x30003F1C] = .ok (.accz sh 1) 1 ∧
    decode [0x40185F1D, 0x00002400, 0x00000000] = .ok (.accld xt .f 2 6) 3 ∧
    decode [0x50201F1D, 0x00002400, 0x00000000] = .ok (.accst xt .f .fpctl false 0 8) 3 ∧
    decode [0x50201F1D, 0x00202800, 0x00000000] = .ok (.accst xt .h .fpctl true 0 8) 3 ∧
    decode [0x20001F1D, 0x00003000, 0x00000400] = .ok (.mma xt .e4 0 0 0 4) 3 := by decide

/-- `MMA.E4.E5 a1, td0, td5`; `MMA.S8 a2, td2, td6`; `TWSET.0 s4`; `TWSET.5 s5`; `TWGO s9`; `TWGO.REL.DEVICE s9`; `TWMAP s3, s9, s4`; `TWTEST.ACQ.DEVICE k2, s9, s4`; `TWWAIT s9, s4`; `TWWAIT.ALL.ACQ.DEVICE s9`. -/
theorem test_words_13 :
    decode [0x20003F1D, 0x0000B000, 0x00000500] = .ok (.mma xt .e4 2 1 0 5) 3 ∧
    decode [0x20005F1D, 0x00001C00, 0x00000602] = .ok (.mma xt .s8 0 2 2 6) 3 ∧
    decode [0x00101F5C] = .ok (.twset sh 0 4) 1 ∧
    decode [0x00141F5D, 0x00001400, 0x00000000] = .ok (.twset xt 5 5) 3 ∧
    decode [0x10013F5C] = .ok (.twgo sh plain 9) 1 ∧
    decode [0x10013F5D, 0x0E000000, 0x00000000] = .ok (.twgo xt ⟨false, true, .device⟩ 9) 3 ∧
    decode [0x22247F5C] = .ok (.twmap sh 3 9 (.reg 4)) 1 ∧
    decode [0x32245F5D, 0x0D000000, 0x00000000] = .ok (.twtest xt ⟨true, false, .device⟩ 2 9 (.reg 4)) 3 ∧
    decode [0x42241F5C] = .ok (.twwait sh false plain 9 (.reg 4)) 1 ∧
    decode [0x40241F5D, 0x0D000400, 0x00000000] = .ok (.twwait xt true ⟨true, false, .device⟩ 9 (.reg 0)) 3 := by decide


/-- PAND p1, p2, p3, bit by bit from R50, R53 and R94: B 3, A 2, D 1, OP 0x3C, GUARD always, LEN 0; and words that the checks of R70 turn
away, each by the check that fails. -/
theorem test_words_refused :
    decode [0x01882F1C] = .ok (.pand sh 1 2 3) 1 ∧ decode [] = .bad .istoreBounds ∧ decode [0x1018A05E, 0x1234] = .bad .istoreBounds ∧
    decode [0x0000001C] = .bad .illegalEncoding ∧ decode [0x0080101C] = .bad .reservedField ∧
    decode [0x01892F1C] = .bad .registerRange ∧ decode [0x0084285E, 1, 0] = .bad .literalMisuse := by decide

/-! ### Terms that no word encodes, one for each check -/

/-- Types outside the set of an instruction. -/
theorem test_illFormed_types :
    [ .add sh .f false 0 (.reg 0) (.reg 0), .mulh sh .b32 0 (.reg 0) (.reg 0), .abs sh .n32 false 0 (.reg 0),
      .and sh .s32 0 (.reg 0) (.reg 0), .movs sh .n32 0 (.reg 0) (.reg 0), .fadd sh .e4 .fpctl 0 (.reg 0) (.reg 0),
      .fdiv sh .bf .fpctl 0 (.reg 0) (.reg 0), .cvt xt .b32 .f .fpctl false 0 (.reg 0), .cvt xt .f .b64 .fpctl false 0 (.reg 0),
      .qpack sh .f false 0 (.reg 0) (.reg 0), .smulh sh .s32 0 (.reg 0) (.reg 0), .ld sh .f 0 (at0 0), .lds xt .n32 0 (at0 0),
      .qpop sh .s32 false 0 0, .mma xt .f 0 0 0 0, .mma xt .bf 1 0 0 0, .mma xt .e4 3 0 0 0, .accld xt .h 0 0,
      .accst xt .e4 .fpctl false 0 0, .fcmp xt .eq .e5 0 none (.reg 0) (.reg 0),
      (.fcmp xt .ltn .f 0 none (.reg 0) (.reg 0) : Instr) ].all (fun i => !i.wf) = true := by decide

/-- Registers that no field, or no pair or vector, names. -/
theorem test_illFormed_registers :
    [ .add sh .s64 false 1 (.reg 0) (.reg 0), .add sh .s64 false 0 (.reg 1) (.reg 0), .add sh .s64 false 0 (.reg 0) (.reg 1),
      .mad xt .s64 false 0 (.reg 0) (.reg 0) 1, .widf sh 6 0, .widf sh 0 1, .cvt xt .f .s64 .fpctl false 0 (.reg 1),
      .cvt xt .s64 .f .fpctl false 1 (.reg 0), .qpack sh .e4 false 0 (.reg 2) (.reg 0), .amax sh 0 (.reg 1),
      .qunpk sh .e4 .fpctl 2 (.reg 0) (.reg 0), .cmp xt .eq true 0 none (.reg 1) (.reg 0), .cmp xt .eq true 0 none (.reg 0) (.reg 1),
      .cmp xt .eq false 2 (some 2) (.reg 0) (.reg 0), .scmp xt .eq 1 (some 1) (.reg 0) (.reg 0), .st xt .b64 1 (at0 0),
      .ldq xt .b32 true plain 0 { at0 0 with noIdx := false }, .qpop xt .b64 false 1 0, .tagl sh 0 1,
      .atom xt .cas .b64 0 (at0 0) 1 0, .atom xt .cas .b64 0 (at0 0) 0 1, .atom xt .add .s32 0 (at0 0) 0 1, .jfar xt false 1 0,
      .fork xt 0 (.reg 0) 1 0, .chw xt true 8 1, .chclose sh 7, .chstat sh 0 0, .chunbind sh 3, .chbind sh false 5 0,
      .mfs sh 0 1, .mfs xt 0x19 0, .mts xt 0x0C 0, (.ld xt .b32 0 { at0 0 with idx := .reg 3 } : Instr) ].all (fun i => !i.wf) = true := by
  decide

/-- Literals, guards, orders and sub-operations that the rules do not allow. -/
theorem test_illFormed_fields :
    [ .add sh .s32 false 0 (.reg 0) (.lit 0x100000000), .shl sh .b64 0 (.reg 0) (.lit 0x100000000),
      .cmp xt .eq false 0 none (.reg 0) (.lit 0x100000000), .ld xt .b32 0 { at0 0 with noIdx := false, idx := .lit 0x100000000 },
      .add xt .b32 true 0 (.reg 0) (.reg 0), .atom xt .min .b32 0 (at0 0) 0 0, .cvt xt .e4 .f .rtz false 0 (.reg 0),
      .pushm (gd 3) 0, .elsem (gd 3) 0, .popm { sh with neg := true }, .ldq xt .b32 false ⟨false, true, .cell⟩ 0 (at0 0),
      .stx xt .b32 ⟨true, false, .cell⟩ 0 (at0 0), .bara xt 0 ⟨true, false, .cell⟩, .bara xt 0 ⟨false, false, .system⟩,
      .barw xt 0 ⟨false, true, .cell⟩, .bart xt 0 ⟨false, false, .system⟩ 0, .gang xt .die, .twgo xt ⟨true, false, .cell⟩ 0,
      .twtest xt ⟨false, true, .cell⟩ 0 0 (.reg 0), .twwait xt true plain 0 (.reg 1), .twwait xt false ⟨false, true, .cell⟩ 0 (.reg 0),
      .tagi xt .one 0 (.reg 1), .tagi xt .all 1 (.reg 0), (.send xt 7 0 (.reg 0) : Instr) ].all (fun i => !i.wf) = true := by decide

/-- Fields of the extension in the short form. -/
theorem test_illFormed_short :
    [ .add sh .s32 true 0 (.reg 0) (.reg 0), .add sh .s32 false 0 (.queue 0) (.reg 0), .mad sh .s32 false 0 (.reg 0) (.reg 0) 1,
      .sel sh .b32 0 (.reg 0) (.reg 0) 1, .shfl sh .up .b32 0 (.reg 0) (.reg 0), .reds sh .max .s32 0 (.reg 0),
      .scan sh .add true .s32 0 (.reg 0), .fadd sh .f .rtz 0 (.reg 0) (.reg 0), .fma sh .f .fpctl 0 (.reg 0) (.reg 0) 1,
      .sfma sh .fpctl 0 (.reg 0) (.reg 0) 1, .cvt sh .f .h .fpctl false 0 (.reg 0), .cmp sh .eq true 0 none (.reg 0) (.reg 0),
      .fcmp sh .eq .h 0 none (.reg 0) (.reg 0), .scmp sh .eq 0 (some 1) (.reg 0) (.reg 0), .slea sh 1 0 0 (.reg 0) (.reg 0),
      .ld sh .b32 0 (at0 0), .ldq sh .b32 true plain 0 (at0 0), .stx sh .b32 ⟨false, true, .cell⟩ 0 { at0 0 with noIdx := false },
      .qpop sh .b32 true 0 0, .tagi sh .all 0 (.reg 0), .atom sh .and .s32 0 { at0 0 with noIdx := false } 0 0,
      .atomx sh .add .s32 ⟨true, false, .cell⟩ 0 { at0 0 with noIdx := false } 0 0, .fence sh .die, .jfar sh false 0 1, .rfar sh 1,
      .fork sh 0 (.reg 0) 0 1, .yield sh 1, .send sh 1 0 (.reg 0), .chbind sh true 8 0, .chw sh true 8 0, .barc sh 1 0, .bara sh 1 plain,
      .gang sh .cluster, .step sh 0 (.reg 0) 1, .tdset sh 1 0 0, .tdget sh 0 1 0, .mma sh .s8 0 0 0 0, .accld sh .f 0 0,
      .accst sh .f .fpctl false 0 0, .twset sh 1 0, .twgo sh ⟨false, true, .cell⟩ 0, .twwait sh true plain 0 (.reg 0), .trap sh 1, .svc sh 1,
      .brk sh 1, .mfs sh 8 0, (.mts sh 0x0D 0 : Instr) ].all (fun i => !i.wf) = true := by decide


/-! ### Small states -/

/-- The device with one running activation in context 0 of cell 0 (partition 0, cluster 0), and the same with that context changed. -/
def s0 : State := State.reset.withFetchWord 32 0x00001F9C
def withMe (f : Ctx → Ctx) : State := s0.setMe (f s0.me)
/-- The same with scalar registers set, and with more live lanes. -/
def withS (l : Tbl W64) (n : Nat := 1) : State :=
  withMe fun x => { x with r := { x.r with s := l, live := maskOf (· < n), cm := maskOf (· < n) }, setSize := n }
/-- A field of the context, of the cell, or of the state, after an outcome. -/
def meAfter [Inhabited α] (o : Out) (f : Ctx → α) : α := match o with
  | .next t => f t.me
  | _ => default
def after [Inhabited α] (o : Out) (f : State → α) : α := match o with
  | .next t => f t
  | _ => default
/-- Whether an outcome is a next state. -/
def goes (o : Out) : Bool := match o with
  | .next _ => true
  | _ => false

/-! ### Witnesses: the arithmetic statements -/

theorem witness_LaneIntegerResults : ∃ (i : Instr) (k : LaneRule) (s s1 : State) (va : Nat → W64), laneInteger i = some k ∧ s.laneA k.a k.awide (s.me.active k.head) = .ok va s1 :=
  ⟨.add sh .s32 false 1 (.reg 2) (.reg 3), _, s0, s0, _, rfl, rfl⟩
theorem witness_LaneMoveResults : ∃ (i : Instr) (k : MoveRule), laneMove i = some k := ⟨.mfs xt 0x14 31, _, rfl⟩
theorem witness_LaneToScalarResults : ∃ (i : Instr) (k : LaneRule) (s s1 : State) (va : Nat → W64), laneToScalar i = some k ∧ s.laneA k.a k.awide (s.me.active k.head) = .ok va s1 :=
  ⟨.movs sh .b32 0 (.reg 31) (.reg 0), _, s0, s0, _, rfl, rfl⟩
theorem witness_LaneFloatResults : ∃ (i : Instr) (k : FloatRule) (s s1 : State) (va : Nat → W64), laneFloat i = some k ∧ s.laneA k.a k.awide (s.me.active k.head) = .ok va s1 :=
  ⟨.fdiv sh .f .fpctl 1 (.reg 2) (.reg 3), _, s0, s0, _, rfl, rfl⟩
theorem witness_CompareResults : ∃ (s s1 : State) (va : Nat → W64), s.laneA (.reg 4) true (s.me.active xt) = .ok va s1 ∧ secondOk 7 (some 7) = true :=
  ⟨s0, s0, _, rfl, rfl⟩
theorem witness_PredicateResults : (∃ (i : Instr) (h : Head) (pd : PReg) (f : Ctx → Nat → Bool), lanePredicate i = some (h, pd, f)) ∧
    ∃ (s s1 : State) (v : W64), s.scalarA (.reg 5) (s.me.active sh != 0) = .ok v s1 := ⟨⟨.pset sh true 7, _, _, _, rfl⟩, s0, s0, _, rfl⟩
theorem witness_ScalarResults : ∃ (i : Instr) (k : ScalarRule) (s s1 : State) (v : W64), scalarInteger i = some k ∧ s.scalarA k.a (s.me.guard k.head) = .ok v s1 :=
  ⟨.sadd sh 0 (.reg 4) (.reg 5), _, s0, s0, _, rfl, rfl⟩
theorem witness_ScalarDivision : ∃ (s s1 : State) (v : W64), s.scalarA (.reg 8) (s.me.guard sh) = .ok v s1 ∧ s1.me.guard sh = true ∧
    s1.me.scalarB (.reg 9) = 0 := ⟨s0, s0, _, rfl, by decide, by decide⟩
theorem witness_ScalarCompare : ∃ (s s1 : State) (v : W64), s.scalarA (.reg 8) (s.me.guard sh) = .ok v s1 ∧ secondOk 1 (some 2) = true := ⟨s0, s0, _, rfl, rfl⟩
theorem witness_ScalarFloatResults : ∃ (i : Instr) (p : ScalarRule × (Ctx → W64 → FRes)) (s s1 : State) (v : W64), scalarFloat i = some p ∧ s.scalarA p.1.a (s.me.guard p.1.head) = .ok v s1 :=
  ⟨.sfma xt .rup 3 (.reg 4) (.reg 5) 6, _, s0, s0, _, rfl, rfl⟩


/-! ### Witnesses: memory and queues -/

/-- Lane 0 and lane 31 live, each at the last word of the scratchpad; the same for a byte and a doubleword. -/
def sMem : State := withS [(4, 0x7FFFC), (5, 0x7FFF8), (6, 0x8000000000000000), (7, 0x80000), (8, 6)] 32
/-- An entry of a queue, ready. -/
def q1 : QEntry := { id := 7, scalar := true, value := 5 }
def sQ : State := withMe fun x => { x with qs := [(3, { entries := [q1] })] }

theorem witness_LocalLoads : sMem.me.acquiring = false ∧ sMem.me.ownPending sMem.cur.cell = false ∧
    (∀ L ∈ lanes (sMem.me.active sh), LocalOk sMem (sMem.me.laneAddr (at0 4) L) (bytesOf .b32)) ∧
    LocalOk sMem (sMem.me.scalarAddr (at0 5)) (bytesOf .b64) ∧ LocalOk sMem (sMem.me.scalarAddr (at0 6)) (bytesOf .b64) ∧
    sMem.me.guard sh = true := by unfold LocalOk; decide
theorem witness_LocalStores : sMem.me.acquiring = false ∧ sMem.me.ownPending sMem.cur.cell = false ∧
    sMem.me.fits 0 (sMem.newWords (sMem.me.laneAddr (at0 4)) (bytesOf .b32) (lanes (sMem.me.active sh))) = true ∧
    sMem.me.fits 0 (sMem.newWords (fun _ => sMem.me.scalarAddr (at0 5)) (bytesOf .b64) [0]) = true := by decide
theorem witness_LocalAccessTraps : sMem.me.acquiring = false ∧ sMem.me.ownPending sMem.cur.cell = false ∧ (0 ∈ lanes (sMem.me.active sh)) ∧ ¬ LocalOk sMem (sMem.me.laneAddr (at0 7) 0) 1 ∧
    ¬ LocalOk sMem (sMem.me.laneAddr (at0 8) 0) 4 ∧ sMem.localOffset 0x80000 1 = none ∧ sMem.localOffset 6 4 ≠ none ∧
    sMem.me.guard sh = true ∧ ¬ LocalOk sMem (sMem.me.scalarAddr (at0 7)) 1 ∧ ¬ LocalOk sMem (sMem.me.scalarAddr (at0 8)) 4 := by
  unfold LocalOk; decide
theorem witness_LocalAtomics : sMem.me.acquiring = false ∧ sMem.me.ownPending sMem.cur.cell = false ∧ ∀ L ∈ lanes (sMem.me.active sh), LocalOk sMem (sMem.me.laneAddr (at0 5) L) (bytesOf .n64) := by
  unfold LocalOk; decide

/-- Cell 1 of the partition in cell space, as an address of a remote access; lane 0 alone. -/
def sRem : State := withS [(4, 0x8000000000100000)]
theorem witness_RemoteReserves :
    checkLanes sRem .load (sRem.me.laneAddr (at0 4)) 4 [0] = .ok [(0, .cell 1, cellKey 1 0)] sRem ∧
    (sRem.barred sRem.cur.cell (.cell 1) = false ∧ 2 ≤ (sRem.me.queue 3).free) ∧
    checkLanes sRem.commitBefore .atomic (sRem.commitBefore.me.laneAddr (at0 4)) 4 [0] =
      .ok [(0, .cell 1, cellKey 1 0)] sRem.commitBefore ∧
    (let s := sRem.commitBefore
     sRem.me.commitWaits = false ∧ lanes (s.me.active sh) = [0] ∧ s.me.r.live ≠ 0 ∧ s.me.acquiring = false ∧ s.owes s.cur.cell (.cell 1) = false ∧
     s.storesLeft s.cur .system = true ∧ s.relClear s.cur .device = true) := ⟨rfl, by decide, rfl, by decide⟩
theorem witness_RemoteStoreHolds :
    checkLanes sRem (.store true) (sRem.me.laneAddr (at0 4)) 4 (lanes (sRem.me.active sh)) = .ok [(0, .cell 1, cellKey 1 0)] sRem ∧
    sRem.me.fits 16 0 = true ∧ sRem.me.acquiring = false := ⟨rfl, by decide⟩
/-- Two lane vectors ready in q3, and q10 bound to the reader end of channel 5, whose ring holds one element. -/
def sQ2 : State := withMe fun x => { x with
  qs := [(3, { entries := [{ id := 7, lanes := mkLanes fun _ => 1 }, { id := 8, tag := .null }], shadow := [q1] })]
  r := { x.r with binds := [(9, some ⟨5, false⟩), (10, some ⟨5, true⟩)] }, eps := [(10, { taken := [6] })] }
theorem witness_QueueReads_pairs : ((sQ2.me.queue 3).entries.map fun e => (e.scalar, e.awaited, e.tag == .poison)) = [(false, 0, false), (false, 0, false)] ∧
    sQ2.me.active sh ≠ 0 ∧ meAfter (exec (.qpop sh .b64 false 4 3) sQ2) (fun y => (y.vl 4 0, y.vl 5 0, (y.queue 3).shadow.length)) = (1, 0, 3) ∧
    meAfter (exec (.qstat sh 4 3) sQ2) (fun y => y.s 4) = 0x10202 := by decide +kernel
theorem witness_QueueReads_channels : sQ2.me.acquiring = false ∧ sQ2.me.guard sh = true ∧ tget none sQ2.me.r.binds 10 = some ⟨5, true⟩ ∧
    tget none sQ2.me.r.binds 9 = some ⟨5, false⟩ ∧ tget none sQ2.me.r.binds 8 = none ∧
    (tget {} ((sQ2.settleNear sQ2.cur []).takeElems sQ2.cur 10).me.eps 10).taken = [6] ∧
    meAfter (exec (.qstat sh 4 10) sQ2) (fun y => y.s 4) = 0x1000101 ∧ meAfter (exec (.qstat sh 4 9) sQ2) (fun y => y.s 4) = 0 := by decide +kernel
/-- A NULL lane vector, a POISON scalar entry and one that is not ready at the heads of q0 to q2; QCFG makes q1's POISON zero, or not. -/
def sQ3 (zp : Bool) : State := withMe fun x => { x with
  qcfg := if zp then 2 else 0
  qs := [(0, { entries := [{ id := 1, tag := .null }] }), (1, { entries := [{ id := 2, scalar := true, tag := .poison }] }),
    (2, { entries := [{ id := 3, awaited := 1 }] })] }
theorem witness_QueueReads_sources : ((sQ3 false).me.queue 0).entries.map (fun e => (e.awaited, e.scalar, e.tag == .poison)) = [(0, false, false)] ∧
    ((sQ3 true).me.queue 1).entries.map (fun e => (e.awaited, e.scalar, e.tag == .poison)) = [(0, true, true)] ∧
    (sQ3 true).me.qcfg.getLsbD 1 = true ∧ (sQ3 false).me.qcfg.getLsbD 1 = false ∧ ((sQ3 true).me.queue 2).entries.map (·.awaited) = [1] ∧
    meAfter (exec (.sadd sh 4 (.queue 1) (.reg 0)) (sQ3 true)) (fun x => (x.s 4, x.qcfg)) = (0, 0x202) ∧
    meAfter (exec (.sadd { sh with neg := true } 4 (.queue 0) (.reg 0)) (sQ3 true)) (fun x => ((x.queue 0).entries.length, (x.queue 0).shadow.length)) = (0, 1) := by
  decide +kernel
theorem witness_QueueReads : (sQ.me.queue 3).entries = [q1] ∧ q1.awaited = 0 ∧ q1.tag ≠ .poison ∧ q1.scalar = true ∧
    sQ.me.active sh ≠ 0 ∧ sQ.me.guard sh = true ∧ (sQ.me.queue 7).entries = [] := by decide
theorem witness_TagTableWrites :
    (let s := withS [(2, 1), (3, 0x7F00), (4, 0x4000), (5, 8)]
     s.me.guard sh = true ∧ s.myCell.tags.usable (s.me.s 2) = true ∧ s.me.fits 0 2 = true ∧ s.myCell.tags.usable (s.me.s 3) = false ∧
     s.me.fits 0 17 = true ∧ 8 ≤ (s.me.scalarB (.reg 5)).toNat ∧ (s.me.scalarB (.reg 5)).toNat ≤ 12 ∧ (s.me.s 4).toNat % 2 ^ 8 = 0) := by
  decide
theorem witness_FenceCompletes : s0.me.guard sh = true ∧ s0.me.acquiring = false ∧ s0.me.wait = none ∧ s0.me.latched = none ∧
    ((s0.settleNear s0.cur []).setMe (s0.me.hold [{ body := .marker .system }])).fenceDone s0.cur .system = true ∧
    (let s := withMe fun x => { x with out := [{ id := 1, home := .home 0, bytes := 16 }] }
     ((s.settleNear s.cur []).setMe (s.me.hold [{ body := .marker .system }])).fenceDone s.cur .system = false) ∧
    (withMe fun x => { x with latched := some (causeRemoteError, 64) }).me.latched = some (causeRemoteError, 64) ∧
    causeRemoteError ≠ causePartitionViolation := by decide

/-! ### Witnesses: control, strands, channels, barriers, joins, time -/

theorem witness_VectorResults : ∃ (s s1 : State) (va : Nat → W64), s.laneA (.reg 4) false (s.me.active sh) = .ok va s1 ∧
    s1.me.active sh ≠ 0 := ⟨s0, s0, _, rfl, by decide⟩
theorem witness_LocalBranches : ∃ i h taken target ss, localBranch i = some (h, taken, target, ss) ∧ taken s0.me = true :=
  ⟨.brall sh 7 0x3FFF, _, _, _, _, rfl, by decide⟩
theorem witness_MaskStack : (withMe fun x => { x with r := { x.r with masks := List.replicate 16 1 } }).me.r.masks.length = 16 ∧
    s0.me.r.masks = [] ∧ (withMe fun x => { x with r := { x.r with masks := [3] } }).me.r.masks = [3] := by decide
theorem witness_LoopStack : s0.me.guard sh = true ∧ s0.me.guard { sh with neg := true } = false ∧ (withS [(5, 3)]).me.s 5 = 3 ∧
    s0.me.s 5 = 0 ∧ (withMe fun x => { x with r := { x.r with loops := [1, 2, 3, 4] } }).me.r.loops.length = 4 := by decide

/-- Three lanes whose far branches are good: the first and the last counted, of two jobs. -/
def sFar : State := withMe fun x => { x with
  hdrs := [(0, { counted := true, job := 1, rets := [0x10005] }), (1, { job := 1 }), (2, { counted := true, job := 2, rets := [] })]
  r := { x.r with live := 7, cm := 7, s := [(4, 0x10005)] } }
theorem witness_FarBranches :
    (∃ k, farRule (.jfar xt true 4 7) = some k ∧ sFar.me.active k.head ≠ 0 ∧ popCount k.live ≤ 16 ∧
      (∀ L ∈ lanes (sFar.me.active k.head), farFails sFar k L = none) ∧ sFar.me.fits 240 0 = true) ∧
    (∃ k, farRule (.jfar xt true 4 0x1FFFF) = some k ∧ 16 < popCount k.live) ∧
    (∃ k, farRule (.rfar sh 0) = some k ∧ farFails sFar k 0 = none ∧ farFails sFar k 1 = some causeReturnEmpty) ∧
    sFar.me.active { sh with neg := true } = 0 ∧ sFar.me.r.live ≠ 0 :=
  ⟨⟨_, rfl, by decide⟩, ⟨_, rfl, by decide⟩, ⟨_, rfl, by decide⟩, by decide⟩
theorem witness_ExitEnds : sFar.me.active sh ≠ 0 ∧ sFar.me.fits (16 * 3) 0 = true ∧ sFar.me.active { sh with neg := true } = 0 := by decide
theorem witness_ForkAsks :
    (let s := (withS [(3, 0x10005), (4, 65535), (5, 0)]).commitBefore
     (withS [(3, 0x10005), (4, 65535), (5, 0)]).me.commitWaits = false ∧
     s.me.r.live ≠ 0 ∧ s.me.active sh ≠ 0 ∧ (s.me.scalarB (.reg 4)).toNat = 65535 ∧ (s.me.scalarB (.reg 5)).toNat = 0 ∧
     checkPlace s (s.partNo s.cur.cell) (s.me.s 3) false = none ∧ s.barred s.cur.cell ((s.partAt s.cur.cell).jobHome 0) = false) := by
  decide
theorem witness_SendHolds :
    (let s := withS [(3, 0x10005), (4, 0xFFFFFFFFFFFFFFFF)]
     s.me.guard sh = true ∧ checkPlace s (s.partNo s.cur.cell) (s.me.s 3) true = none ∧ s.me.fits 32 0 = true ∧
     (checkPlace s (s.partNo s.cur.cell) (s.me.s 4) true).isSome = true ∧ s.me.priv = true ∧
     (s.setMe { s.me with priv := false }).me.priv = false) := by decide

/-- A channel, id 5, whose writer and reader are cell 0, in the table of partition 0; and its writer end bound to q9. -/
def sChan : State :=
  let s := withS [(4, 5), (6, 9)]
  s.setChanDesc (s.part 0) { id := 5, lgring := 4, quotaM1 := 15, state := 1 }
def sChw : State :=
  let s := sChan.setWcopy 0 5 (some { desc := { id := 5, lgring := 4, quotaM1 := 15, state := 1 }, credits := 1 })
  s.setMe { s.me with r := { s.me.r with binds := [(9, some ⟨5, false⟩), (10, some ⟨6, true⟩)] } }
theorem witness_ChannelBindings : sChan.me.guard sh = true ∧ sChan.me.acquiring = false ∧
    (let d := sChan.chanDesc (sChan.partAt 0) 5
     d.state ≠ 0 ∧ d.id = 5 ∧ sChan.endCell d true = sChan.cur.cell ∧ sChan.endCell d false = sChan.cur.cell) ∧
    (sChan.myCell.heldByOther sChan.cur.ctx 5 true = false ∧ sChan.myCell.heldByOther sChan.cur.ctx 5 false = false) ∧
    tget none sChan.me.r.binds 9 = none ∧
    (let s := sChan.setCtx ⟨0, 1⟩ { s0.me with r := { s0.me.r with binds := [(8, some ⟨5, false⟩)] } }
     s.myCell.heldByOther s.cur.ctx 5 false = true) ∧
    (let s := sChan.setChanDesc (s0.part 0) { id := 5, lgring := 4, quotaM1 := 15, state := 1, reader := 1 }
     s.endCell (s.chanDesc (s.partAt 0) 5) true ≠ s.cur.cell) := by decide +kernel
theorem witness_ChannelWrites : sChw.me.acquiring = false ∧ sChw.me.active sh ≠ 0 ∧ sChw.me.active { sh with neg := true } = 0 ∧
    tget none sChw.me.r.binds 8 = none ∧ tget none sChw.me.r.binds 9 = some ⟨5, false⟩ ∧ tget none sChw.me.r.binds 10 = some ⟨6, true⟩ ∧
    sChw.chanClosed 5 = false ∧ (sChw.wcopy 0 5).credits = 1 ∧ 1 ≤ (sChw.wcopy 0 5).desc.quota ∧ sChw.me.fits 16 0 = true ∧
    ((sChw.setWcopy 0 5 (some { (sChw.wcopy 0 5) with credits := 0 })).wcopy 0 5).credits < 1 ∧
    (let w := sChw.wcopy 0 5
     (sChw.setWcopy 0 5 (some { w with desc := { w.desc with state := 2 } })).chanClosed 5 = true) := by decide

/-- A barrier of span and parties; an arrival record of a phase. -/
def sBar (span : Nat) (parties : W32) (arr : Option W32) : State :=
  let s := s0.setMyCell (s0.myCell.setBar 5 { span, parties, phase := 8 })
  match arr with
  | some p => s.setMe { s.me with r := { s.me.r with arrs := [(5, some p)] } }
  | none => s
theorem witness_BarrierConfiguration :
    (let s := withS [(4, 0x100000004), (5, 0x300000004), (6, 2)]
     s.me.guard sh = true ∧ s.me.fits 0 2 = true ∧ (s.me.s 4).extractLsb' 34 30 = 0 ∧ ((s.me.s 4).extractLsb' 32 2).toNat = 1 ∧
     spanMaster s.cur.cell 1 = s.cur.cell ∧ (s.myCell.bar 5).arrivals = 0 ∧ ((s.me.s 5).extractLsb' 32 2).toNat = 3 ∧
     (s.me.s 6).extractLsb' 0 32 = 2) := by decide
theorem witness_BarrierArrivals :
    ((sBar 0 2 none).myCell.bar 5).parties = 2 ∧ (sBar 0 2 none).me.arrival 5 = none ∧ (sBar 0 2 none).me.fits 0 2 = true ∧
    ((sBar 0 1 none).myCell.bar 5).arrivals + 1 = ((sBar 0 1 none).myCell.bar 5).parties ∧
    (sBar 0 2 (some 8)).me.arrival 5 = some 8 ∧ (sBar 0 2 none).holdsOwn (sBar 0 2 none).cur = false ∧ (sBar 0 2 none).relClear (sBar 0 2 none).cur .cell = true ∧
    ((sBar 1 2 (some 8)).commitBefore.me.arrival 5 = some 8 ∧ ((sBar 1 2 (some 8)).commitBefore.myCell.bar 5).phase = 8 ∧
      (sBar 1 2 (some 8)).me.commitWaits = false) ∧
    (let c := (sBar 1 2 none).commitBefore
     (sBar 1 2 none).me.commitWaits = false ∧ c.me.acquiring = false ∧ c.me.r.live ≠ 0 ∧ c.me.guard sh = true ∧ (c.myCell.bar 5).parties ≠ 0 ∧ c.me.arrival 5 ≠ some (c.myCell.bar 5).phase ∧
     c.me.fits 16 0 = true) := by decide
/-- A context at an own-cell barrier that holds a store to its own cell, or that has one on its way. -/
def sBarOwn (held : Bool) : State :=
  let s := sBar 0 2 none
  let a : Access := { op := .write, key := cellKey 0 8, size := 8, who := s.cur }
  s.setMe (if held then s.me.hold [{ bytes := 16, body := .store (.cell 0) a }]
    else { s.me with out := [{ id := 1, home := .cell 0, bytes := 16, write := true }] })
theorem witness_BarrierArrivals_release : (sBarOwn true).holdsOwn ⟨0, 0⟩ = true ∧ (sBarOwn false).holdsOwn ⟨0, 0⟩ = false ∧
    (sBarOwn false).relClear ⟨0, 0⟩ .cell = false ∧
    ((sBarOwn true).me.arrival 5 = none ∧ (sBarOwn true).me.acquiring = false ∧ (sBarOwn false).me.acquiring = false) ∧
    meAfter (exec (.bara sh 5 { acq := false, rel := true, scope := .cell }) (sBarOwn true)) (fun x => x.held.length) = 0 := by decide +kernel
theorem witness_BarrierWaits : (sBar 0 2 (some 7)).me.acquiring = false ∧ BarrierOk (sBar 0 2 (some 7)) 5 .cell ∧ BarrierOk (sBar 1 2 none) 5 .cluster ∧
    (sBar 0 2 (some 7)).me.arrival 5 = some 7 ∧ (sBar 0 2 none).me.wait = none ∧
    ((sBar 0 2 none).setMe { (sBar 0 2 none).me with wait := some (.barrier 5 8) }).me.wait = some (.barrier 5 8) :=
  ⟨by decide, ⟨by decide, by decide, fun c a h => by simp [sBar, s0] at h; cases h⟩, ⟨by decide, by decide, fun c a h => by cases h⟩, by decide, by decide, by decide⟩
theorem witness_JoinsPresent :
    (let s := s0.commitBefore
     s0.me.commitWaits = false ∧ s.me.acquiring = false ∧ s.me.r.live ≠ 0 ∧ s.me.guard sh = true ∧ s.myCell.mma = none ∧ (s.myCell.rowJoins.any fun j => j.isMma none) = false ∧
     s0.follower s0.cur = .inr causeIllegalEncoding) := by decide
theorem witness_StepsAndTime :
    (let s := withS [(4, 0xFFFFFFFF), (5, 100), (6, 3), (8, 1000)]
     s.me.guard sh = true ∧ s.me.r.live ≠ 0 ∧ s.me.s 4 ≠ 0 ∧ (s.me.s 4).toNat < 2 ^ 32 ∧ (∀ L ∈ lanes s.me.r.live, s.me.step L = 0) ∧
     s.me.fits 16 0 = true ∧ s.tbc < (s.me.s 8).toNat ∧ (s.me.s 0).toNat ≤ s.tbc ∧ s.missedPromise s.cur 0 = none ∧
     (s.setMyCell { s.myCell with handlers := [(0, 0x8000000000004000)] }).myCell.hasHandler 0 = true) ∧
    (let s := withMe fun x => { x with r := { x.r with steps := [(0, 9)] } }
     ((lanes s.me.r.live).map s.me.step).filter (· != 0) = [9] ∧
     (s.setPart 0 { s.part 0 with gov := { (s.part 0).gov with steps := [{ id := 9, deadline := 5, work := 1, handler := 0, job := 0 }] } }).part 0 ≠ s.part 0) := by decide
theorem witness_DescriptorsAndAccumulators : s0.me.fits 0 1 = true ∧ s0.me.guard sh = true ∧ s0.myCell.accBusy 3 = false ∧
    (s0.setMyCell { s0.myCell with mma := some { ctx := 0, len := 3, op := ⟨.s8, 0, 3, 0, 0⟩, tdA := [], tdB := [], scales := [], start := [], old := [], due := 0 } }).myCell.accBusy 3 = true := by decide
theorem witness_AccumulatorTransfers :
    (let s := withS [(6, 0x7F000), (8, 0x7F800)]
     s.me.guard sh = true ∧ s.me.acquiring = false ∧ s.me.ownPending s.cur.cell = false ∧ s.myCell.accBusy 2 = false ∧ s.localOffset (s.me.s 6) 4096 ≠ none ∧ (s.me.s 6).toNat % 4 = 0 ∧
     s.localOffset (s.me.s 8) 2048 ≠ none ∧ (s.me.s 8).toNat % 2 = 0) := by decide


/-! ### Witnesses: transfers and system -/

/-- A transfer of one row of 64 bytes within the scratchpad of cell 0 in the shadow fields, and one in slot 3. -/
def sTw (ctl rid : W64) : State := withMe fun x => { x with
  tw := [(0, 0x8000000000001000), (1, 0x8000000000002000), (2, 0x100000040), (6, ctl), (7, rid)], r := { x.r with s := [(4, 0x13), (5, 0)] } }
def x3 : Xfer := { busy := true, uses := 1, state := 2, rows := 1, rowBytes := 64, faultAddr := 64 }
theorem witness_TransfersStart :
    (let s := (sTw 2 0).commitBefore
     (sTw 2 0).me.commitWaits = false ∧ s.me.r.live ≠ 0 ∧ s.me.guard sh = true ∧ s.me.acquiring = false ∧ (s.me.shadow 6).extractLsb' 3 61 = 0 ∧
     (s.me.shadow 7).extractLsb' 16 48 = 0 ∧ (s.me.shadow 6).getLsbD 2 = false ∧ s.me.shadow 7 = 0 ∧
     s.twDescBad s.me.transfer (s.me.shadow 2) = false ∧
     (s.me.transfer.checkRows.all fun r => !rowForeign (s.partAt s.cur.cell).cellCount r.1 && !rowOut s.me.transfer.rowBytes r.1 r.2) = true ∧
     s.myCell.freeSlot = some 0 ∧ s.relClear s.cur .device = true ∧
     (s.setMyCell { s.myCell with xfers := (List.range 16).map fun k => (k, x3) }).myCell.freeSlot = none) := by decide +kernel
theorem witness_TransfersStart_again :
    (let s := ((sTw 4 0x13).setMyCell { (sTw 4 0x13).myCell with xfers := [(3, x3)] }).commitBefore
     (s.me.shadow 6).getLsbD 2 = true ∧ s.myCell.live? ((s.me.shadow 7).extractLsb' 0 16) = some x3 ∧ x3.state = 2) := by decide +kernel
theorem witness_TransferState :
    (let s := (sTw 0 0).setMyCell { (sTw 0 0).myCell with xfers := [(3, x3)] }
     s.me.guard sh = true ∧ s.me.acquiring = false ∧ (withMe fun x => { x with
       acquires := [5], qs := [(3, { entries := [{ id := 5, awaited := 1 }] })] }).me.acquiring = true ∧ s.myCell.live? ((s.me.s 4).extractLsb' 0 16) = some x3 ∧ x3.chunks = 1 ∧ x3.bit 0 = false ∧
     s.myCell.live? ((s.me.s 5).extractLsb' 0 16) = none ∧ (s.me.scalarB (.lit 67)).toNat = 67 ∧ (s.me.scalarB (.lit 68)).toNat = 68) := by
  decide +kernel
theorem witness_SystemRegisters : s0.me.priv = true ∧ (withMe fun x => { x with priv := false }).me.priv = false ∧ s0.me.active sh ≠ 0 ∧
    s0.me.active { sh with neg := true } = 0 ∧ s0.me.guard sh = true ∧ s0.me.lastTbc ≤ s0.tbc + 2 := by decide
theorem witness_BoundariesAndTraps : s0.me.commitWaits = false ∧ s0.commitBefore.me.r.live ≠ 0 ∧ s0.commitBefore.me.guard sh = true ∧
    s0.commitBefore.me.guard { sh with neg := true } = false ∧ (s0.partAt 0).armed = false ∧
    ((s0.setPart 0 { s0.part 0 with armed := true }).partAt 0).armed = true := by decide

/-! ### Witnesses: the steps of the device -/

/-- A state whose network holds one message. -/
abbrev net1 (s : State) (vn : VNet) (src dst : Endp) (b : Body) : State := { s with net := [{ vn, src, dst, body := b }] }
theorem arrives_net1 (s : State) (vn : VNet) (src dst : Endp) (b : Body) (hd : (net1 s vn src dst b).deliverable 0 = true)
    (hr : (net1 s vn src dst b).refuses { vn, src, dst, body := b } = false) : Arrives (net1 s vn src dst b) 0 src dst b :=
  ⟨hd, vn, rfl, hr⟩
theorem turnedAway_net1 (s : State) (vn : VNet) (src dst : Endp) (b : Body) (hd : (net1 s vn src dst b).deliverable 0 = true)
    (hr : (net1 s vn src dst b).refuses { vn, src, dst, body := b } = true) : TurnedAway (net1 s vn src dst b) 0 src dst b :=
  ⟨hd, vn, rfl, hr⟩

/-- A strand for entry 5 of cell 0, a class-9 message, and their arrivals. -/
def strand5 : Strand := { wid := 3, dest := 5, job := 1 }
def msg9 : Smsg := { payload := 7, cls := 9 }
def arr5 : Arrival := { id := 1, place := 5, parcel := .strand strand5 }
/-- Cell 0 with another activation in no context, an entry record and a bin of 33 strands for entry 5. -/
def sBin : State := s0.setMyCell { s0.myCell with
  entries := [{ entry := 5, gather := 64 }], bins := [{ entry := 5, msgs := List.replicate 33 arr5 }], cyc := 64, tailQuota := 64 }

theorem witness_ArrivalSteps_inbox :
    Arrives (net1 sBin .strand (.cell 1) (.cell 0) (.parcel (.strand strand5))) 0 (.cell 1) (.cell 0) (.parcel (.strand strand5)) ∧
    (Parcel.strand strand5).special = false ∧ (sBin.cell 0).canAccept (.strand strand5) = true ∧
    (sBin.cell 0).dropping.contains strand5.job = false ∧
    goes (exec (.inboxArrival 0) (net1 sBin .strand (.cell 1) (.cell 0) (.parcel (.strand strand5)))) = true :=
  ⟨arrives_net1 _ _ _ _ _ (by decide +kernel) (by decide +kernel), by decide +kernel⟩
theorem witness_ArrivalSteps_set : (∃ k b, sBin.sample 0 = some (.bin k b)) ∧
    (let o := exec (.setFormation 0) sBin
     after o (fun t => (t.ctx ⟨0, 1⟩).setSize) = 32 ∧ after o (fun t => (t.ctx ⟨0, 1⟩).r.live) = 0xFFFFFFFF ∧
     after o (fun t => (((t.cell 0).bin? 5).map (·.msgs.length))) = some 1 ∧ after o (fun t => (t.ctx ⟨0, 1⟩).step 31) = (arr5.lane).2.1) := ⟨⟨_, _, rfl⟩, by decide +kernel⟩
theorem witness_ArrivalSteps_gather :
    (let c := sBin.cell 0
     (c.bin? 5).map c.binOpen = some true ∧ ((c.bin? 5).map (·.due)) = some false ∧ ((c.bin? 5).bind (·.msgs.head?)) = some arr5 ∧
     (c.entryRec 5).gather.toNat ≤ c.cyc - arr5.cyc ∧ goes (exec (.gatherWindowExpiry 0 5) sBin) = true) := by decide +kernel
theorem witness_ArrivalSteps_refill :
    (let s := s0.setMyCell { s0.myCell with tail := [arr5], tailQuota := 64 }
     (s.cell 0).out = false ∧ 2 * (s.cell 0).occupancy < (s.cell 0).threshold ∧ s.barred 0 (.home (((s.partAt 0).blockAt 0 0) / 2 ^ 32)) = false ∧
     refillCount ((s.cell 0).threshold - (s.cell 0).occupancy) (s.cell 0).tail ≠ 0 ∧ s.refilling 0 = false) := by decide +kernel
theorem witness_ArrivalSteps_start :
    Arrives (net1 s0 .request (.loader 0) (.cell 0) (.parcel (.msg (startMessage 0 0 0 1 2 |>.body |> fun b => match b with
      | .parcel (.msg m) => m
      | _ => msg9)))) 0 (.loader 0) (.cell 0) (.parcel (.msg { payload := 0x102000000, origin := 0xFFF, cls := 6 })) ∧
    (s0.cell 0).canAccept (.msg { payload := 0x102000000, origin := 0xFFF, cls := 6 }) = true ∧
    goes (exec (.startMessage 0) (net1 s0 .request (.loader 0) (.cell 0)
      (.parcel (.msg { payload := 0x102000000, origin := 0xFFF, cls := 6 })))) = true := ⟨arrives_net1 _ _ _ _ _ (by decide +kernel) (by decide +kernel), by decide +kernel⟩
theorem witness_ArrivalSteps_bank :
    (let s := s0.setMyCell { s0.myCell with bankQ := [{ ctx := 0, off := 0x7FFFC, size := 4, data := 0x11223344 }] }
     ((s.cell 0).bankQ ≠ []) ∧ after (exec (.bankWrite 0) s) (fun t => mread t.mem (cellKey 0 0x7FFFF)) = 0x11) := by decide +kernel
/-- Cell 1 switched out; cell 0 has a transfer that runs. -/
def sOut : State := (s0.setCell 1 { out := true }).setCell 0 { s0.cell 0 with xfers := [(3, { x3 with state := 0 })] }
def acc1 : Access := { op := .write, key := cellKey 1 8, ea := 0x8000000000100008, part := 0, id := 9 }
theorem witness_ArrivalSteps_refused :
    TurnedAway (net1 sOut .request (.cell 0) (.cell 1) (.access acc1)) 0 (.cell 0) (.cell 1) (.access acc1) ∧ (sOut.cell 1).out = true ∧
    (Body.access acc1).engineWord? = none ∧
    (let s := net1 sOut .request (.cell 0) (.cell 1) (.access acc1)
     after (exec (.sendRefused 0) s) (fun t => t.refused.length) = 1) ∧
    (let a := { acc1 with op := .engineWrite 3 0 }
     ((sOut.cell 0).xfer 3).busy = true ∧ ((sOut.cell 0).xfer 3).state = 0 ∧
     TurnedAway (net1 sOut .request (.cell 0) (.cell 1) (.access a)) 0 (.cell 0) (.cell 1) (.access a) ∧
     goes (exec (.twWriteRefused 0) (net1 sOut .request (.cell 0) (.cell 1) (.access a))) = true) :=
  ⟨turnedAway_net1 _ _ _ _ _ (by decide +kernel) (by decide +kernel), by decide +kernel, by decide +kernel, by decide +kernel, by decide +kernel, by decide +kernel,
    turnedAway_net1 _ _ _ _ _ (by decide +kernel) (by decide +kernel), by decide +kernel⟩
theorem witness_ArrivalSteps_resume :
    (let s := { net1 s0 .system (.cell 1) (.cell 0) (.resume 1) with
                refused := [({ vn := .request, src := .cell 0, dst := .cell 1, body := .access acc1 }, 0)] }
     after (exec (.resumeNotification 0) s) (fun t => (t.refused.length, t.net.length)) = (0, 1)) ∧
    (∃ n target, ({ sOut with tbc := 1000000, refused := [({ vn := .request, src := .cell 0, dst := .cell 1, body := .access acc1 }, 0)] } : State).targetOut n target = true) :=
  ⟨by decide +kernel, (Endp.cell 0).code, 1, by decide +kernel⟩


def acc0 (op : AccOp) (key : Nat) : Access := { op, key, ea := 0x8000000000000000 ||| BitVec.ofNat 64 key, part := 0, who := ⟨0, 0⟩, q := 2, id := 5, act := 0 }
/-- The home of slab 0 with a message that names a line of it, and its last bytes poisoned. -/
def sHome (dst : Endp) (b : Body) : State := net1 s0 .request (.cell 0) dst b
theorem witness_HomeSteps_access :
    (let a := acc0 .read 0xFFFFFFF8
     let s := sHome (.home 0) (.access a)
     Arrives s 0 (.cell 0) (.home 0) (.access a) ∧ a.gone = none ∧ s.homeOwned (.home 0) a.key a.part = true ∧
       s.poison (.home 0) a.key = none ∧ goes (exec (.homeAccess 0) s) = true) ∧
    (let a := acc0 .write 0x1FFFFFFF8
     (sHome (.home 1) (.access a)).homeOwned (.home 1) a.key a.part = false ∧ goes (exec (.homeAccess 0) (sHome (.home 1) (.access a))) = true) ∧
    (let a := acc0 (.atomic .add .b64) (cellKey 1 0x7FFF8)
     (sHome (.cell 1) (.access a)).homeOwned (.cell 1) a.key a.part = true ∧
       after (exec (.homeAccess 0) (sHome (.cell 1) (.access a))) (fun t => t.net.length) = 2) ∧
    (let a := { acc0 .read 8 with gone := some causePageNotPresent }
     goes (exec (.homeAccess 0) (sHome (.home 0) (.access a))) = true) ∧
    (let a := acc0 .write (peerKey 5 8)
     let s := sHome (.peer 5) (.access a)
     s.portDown 5 = true ∧ goes (exec (.homeAccess 0) s) = true) ∧
    (let a := { acc0 .write 8 with asker := some (.peer 3) }
     after (exec (.homeAccess 0) (net1 s0 .request (.peer 3) (.home 0) (.access a))) (fun t => t.net.map (·.dst)) = [.peer 3]) ∧
    after (exec (.homeAccess 0) (net1 s0 .request (.loader 0) (.cell 1) (.codeWrite (cellKey 1 8) [7]))) (fun t => mread t.mem (cellKey 1 8)) = 7 :=
  ⟨⟨arrives_net1 _ _ _ _ _ (by decide +kernel) (by decide +kernel), by decide +kernel⟩, by decide +kernel, by decide +kernel, by decide +kernel, by decide +kernel, by decide +kernel⟩
theorem witness_HomeSteps_tables :
    (let z : CellTables := { kept := [7], entries := [{ entry := 5 }], handlers := [(9, 2 ^ 63)], images := [(1, [3, 4])] }
     let s := s0.setCell 1 { entries := [{ entry := 6 }, { entry := 7 }] }
     let o := exec (.homeAccess 0) (net1 s .request (.loader 0) (.cell 1) (.cellTables z))
     after o (fun t => (t.cell 1).entries.map (·.entry)) = [5, 7] ∧ after o (fun t => (t.cell 1).hasHandler 9) = true ∧
     after o (fun t => tget 0 (t.cell 1).td 5) = 4) := by decide +kernel
theorem test_atom_is_queued_and_read_back :
    (let s := s0.setMyCell { s0.myCell with bankQ := [{ ctx := 1, off := 8, size := 4, data := 5 }, { ctx := 1, off := 64, size := 4, data := 6 }] }
     let s := s.setMe { s.me with r := { s.me.r with s := [(4, 8), (5, 2)] } }
     let o := exec (.atom sh .add .b32 6 (at0 4) 7 0) s
     meAfter o (fun x => x.vl 6 0) = 5 ∧ after o (fun t => t.myCell.bankQ.map (·.off)) = [64, 8]) := by decide +kernel
/-- A context with an entry that waits for its last response, and an access on its way. -/
def sQh : State := withMe fun x => { x with
  qs := [(2, { entries := [{ id := 5, awaited := 1, scalar := true, tag := .valid }] })], out := [{ id := 5, home := .home 0, bytes := 24 }] }
theorem witness_HomeSteps_responses :
    (let a := acc0 .read 8
     Arrives (net1 sQh .response (.home 0) (.cell 0) (.readReply a 7 none [])) 0 (.home 0) (.cell 0) (.readReply a 7 none []) ∧
     (sQh.ctx a.who).act = a.act ∧ (sQh.ctx a.who).status ≠ .free ∧
     (∃ e ∈ (tget {} (sQh.ctx a.who).qs a.q).entries, e.id = a.id ∧ e.awaited ≠ 0) ∧
     goes (exec (.queueResponse 0) (net1 sQh .response (.home 0) (.cell 0) (.readReply a 7 none []))) = true) ∧
    (let a := acc0 .write 8
     goes (exec (.stxErrorResponse 0) (net1 sQh .response (.home 0) (.cell 0) (.writeAck a (some causePartitionViolation)))) = true ∧
     after (exec (.writeAcknowledgement 0) (net1 sQh .response (.home 0) (.cell 0) (.writeAck a none))) (fun t => t.me.out) = []) ∧
    (let a := acc0 (.engineWrite 3 0) 8
     goes (exec (.writeAcknowledgement 0) (net1 sQh .response (.home 0) (.cell 0) (.writeAck a none))) = true) :=
  ⟨⟨arrives_net1 _ _ _ _ _ (by decide +kernel) (by decide +kernel), by decide +kernel⟩, by decide +kernel, by decide +kernel⟩
theorem witness_HomeSteps_errors : s0.boot = .ready ∧ (192 * 2 ^ 32 - 1) < 192 * 2 ^ 32 ∧ s0.partOf 15 = some 0 ∧
    goes (exec (.hbmError (192 * 2 ^ 32 - 1) false) s0) = true ∧ goes (exec (.scratchCorrected 15) s0) = true ∧
    tget 0 s0.sentAt (64 * (128 * 15 + 0x50) + 0) = 0 := by decide +kernel

/-- Job 1's count line, at the start of slab 0, with a count. -/
def sLine (n : Nat) : State := { s0 with mem := writeLE (writeLE s0.mem (hbmKey 0) 8 (2 ^ 32 + n)) (hbmKey 8) 8 0 }
theorem witness_CountAndJoinSteps_lines :
    Arrives (net1 (sLine 0xFFFFFFFE) .request (.cell 0) (.home 0) (.countAdd 1 1 none false none 0)) 0 (.cell 0) (.home 0) (.countAdd 1 1 none false none 0) ∧
    ((sLine 0xFFFFFFFE).poison (.home 0) 0 = none ∧ (sLine 0xFFFFFFFE).countLine 0 = (1, 0xFFFFFFFE) ∧
     after (exec (.countIncrement 0) (net1 (sLine 0xFFFFFFFE) .request (.cell 0) (.home 0) (.countAdd 1 1 none false none 0)))
       (fun t => (t.countLine 0).2) = 0xFFFFFFFF ∧
     after (exec (.countIncrement 0) (net1 (sLine 0xFFFFFFFF) .request (.cell 0) (.home 0) (.countAdd 1 1 none false none 0)))
       (fun t => (t.countLine 0).2) = 0xFFFFFFFF) ∧
    (after (exec (.countDecrement 0) (net1 (sLine 1) .request (.cell 0) (.home 0) (.countSub 1 1 0 none 0)))
       (fun t => (t.net.length, (t.countLine 0).2)) = (1, 0) ∧
     after (exec (.countDecrement 0) (net1 (sLine 2) .request (.cell 0) (.home 0) (.countSub 1 1 0 none 0)))
       (fun t => (t.net.length, (t.countLine 0).2)) = (0, 1)) := ⟨arrives_net1 _ _ _ _ _ (by decide +kernel) (by decide +kernel), by decide +kernel, by decide +kernel⟩

/-- A context whose fork awaits its last acknowledgement, and has one child for entry 5 of cell 1. -/
def sFork (w : Wait) : State := withMe fun x => { x with
  wait := some w, fork := some { awaited := 1, children := [{ strand5 with dest := 0x10005 }], len := 1 }, incsAwaited := 1 }
theorem witness_CountAndJoinSteps_forks :
    (let s := net1 (sFork .forkInject) .response (.home 0) (.cell 0) (.countAck 1 1 (some ⟨0, 0⟩) true none none)
     (∃ f, (s.ctx ⟨0, 0⟩).fork = some f ∧ f.awaited = 1 ∧ f.refused = none) ∧ goes (exec (.forkAck 0) s) = true) ∧
    (let s := net1 (sFork .forkInject) .response (.home 0) (.cell 0) (.countAck 1 1 (some ⟨0, 0⟩) true none (some causeJobUnderflow))
     after (exec (.forkAck 0) s) (fun t => decide ((t.ctx ⟨0, 0⟩).status = .parked)) = true) ∧
    (let s := net1 (sFork .forkInject) .response (.home 0) (.cell 0) (.countAck 1 1 (some ⟨0, 0⟩) false none none)
     after (exec (.forkAck 0) s) (fun t => (t.ctx ⟨0, 0⟩).incsAwaited) = 0) ∧
    (let s := sFork .forkInject
     s.me.wait = some .forkInject ∧ s.gate 0 = [] ∧ s.barred 0 (.cell 1) = false ∧ s.owes 0 (.cell 1) = false ∧ s.roomFor 0 0x10005 (.strand { strand5 with dest := 0x10005 }) = true ∧
     goes (exec (.forkChildInject 0 0) s) = true) := ⟨⟨⟨_, rfl, rfl, rfl⟩, by decide +kernel⟩, by decide +kernel, by decide +kernel, by decide +kernel⟩

/-- A graph of one COPY node, one of a launch node, and a replay of them in kick register 15 of partition 0. -/
def tmpl1 : Template :=
  { place := 0x10005, handler := 0, widBase := 9, count := 1, prio := 0, cores := false, pinned := false, group := 1, widw := 0, step := 0, reldl := 0, work := 0 }
def node1 (kind : Nat) : Node := { kind, npred := 0, succ0 := 0, succ1 := 0, na := 0, nb := if kind = 1 then 0xFFFFFFFFFFFFFFFF else 0, nc := 8 }
def graph1 (kind : Nat) : Graph :=
  { nodes := [node1 kind], templates := [tmpl1], doneVa := 0, irq := true, asid := 1, cells := [1], load := 1, chans := [], lanes := [],
    pages := [], code := [], scratch := [], entries := [], handlers := [], digests := [] }
def rep1 (kind : Nat) (st : NodeState) : Replay :=
  { handle := 2, number := 1, nodes := [node1 kind], templates := [tmpl1], state := [(0, st)] }
/-- Partition 0 with that graph at handle 2 and its replay. -/
def sRep (kind : Nat) (st : NodeState) : State := s0.setPart 0 { s0.part 0 with
  graphs := [(2, some (graph1 kind))], kicks := [(15, { next := 2, replay := some (rep1 kind st) })], running := [(1, 15, 0)] }
theorem witness_CountAndJoinSteps_jobDone :
    (let s := net1 (sRep 1 .running) .system (.home 0) (.dmc 0) (.jobDone 1 0 0)
     s.slabPart 0 = some 0 ∧ s.writesFor (s.part 0) 1 = false ∧ (s.part 0).running.find? (fun y => y.1 == 1) = some (1, 15, 0) ∧
     (((s.part 0).kick 15).replay = some (rep1 1 .running)) ∧ (s.part 0).graph 2 = some (graph1 1) ∧ goes (exec (.jobDone 0) s) = true) := by decide +kernel

theorem witness_CountAndJoinSteps_barriers :
    (let b := (sBar 1 2 none).myCell.bar 5
     let s := net1 (sBar 1 2 none) .request (.cell 2) (.cell 0) (.barArrive 5 b.config ⟨2, 0⟩ 0 [])
     b.parties ≠ 0 ∧ after (exec (.barrierArrival 0) s) (fun t => (t.myCell.bar 5).arrivals) = 1) ∧
    (let b := (sBar 1 1 none).myCell.bar 5
     let s := net1 (sBar 1 1 none) .request (.cell 2) (.cell 0) (.barArrive 5 b.config ⟨2, 0⟩ 0 [])
     after (exec (.barrierArrival 0) s) (fun t => (t.myCell.bar 5).phase) = 9) ∧
    (let s := net1 (sBar 1 1 none) .request (.cell 2) (.cell 0) (.barArrive 5 0 ⟨2, 0⟩ 0 [])
     after (exec (.barrierArrival 0) s) (fun t => ((t.myCell.bar 5).phase, t.net.length)) = (8, 1)) ∧
    goes (exec (.barrierStateReply 0) (net1 (sBar 1 1 none) .system (.cell 2) (.cell 0) (.barQuery 5 ⟨2, 0⟩))) = true ∧
    (let s := net1 (withMe fun x => { x with wait := some (.barReply 5 1) }) .system (.cell 1) (.cell 0) (.barReply 5 ⟨0, 0⟩ 0 3)
     after (exec (.barrierStateReply 0) s) (fun t => ((t.myCell.bar 5).phase, t.me.r.pc)) = (3, 1)) ∧
    after (exec (.phaseUpdate 0) (net1 (sBar 1 1 none) .system (.cell 1) (.cell 0) (.phase 5 1 9 []))) (fun t => (t.myCell.bar 5).phase) = 9 := by
  decide +kernel

/-- The four cells of row 0, each with a context that waits on the row's wire with a join. -/
def sRow (k : Nat → JoinKind) : State :=
  { s0 with cells := (List.range 4).map fun n => (n, { s0.cell n with
      ctxs := [(0, { s0.me with wait := some (.join (.row 0)) })], rowJoins := [{ kind := k n, ctx := 0, act := 0, len := 1 }] }) }
theorem witness_CountAndJoinSteps_joins :
    ((sRow fun _ => .gang).heads (.row 0)).map (fun l => l.map (·.2.kind.tag)) = some [0, 0, 0, 0] ∧
    after (exec (.joinMatch (.row 0)) (sRow fun _ => .gang)) (fun t => t.me.r.pc) = 1 ∧
    ((sRow fun n => if n = 3 then .once else .gang).heads (.row 0)).map (fun l => l.map (·.2.kind.tag)) = some [0, 0, 0, 1] ∧
    after (exec (.joinMatch (.row 0)) (sRow fun n => if n = 3 then .once else .gang)) (fun t => decide (t.me.status = .parked)) = true ∧
    goes (exec (.joinMatch (.row 0)) (sRow fun _ => .once)) = true := by decide +kernel
theorem witness_CountAndJoinSteps_mma :
    (let o : MmaOp := ⟨.s8, 0, 3, 0, 0⟩
     let s := sRow fun n => if n = 3 then .mma { o with tda := 1 } else .mma o
     goes (exec (.joinMatch (.row 0)) (sRow fun _ => .mma o)) = true ∧ goes (exec (.joinMatch (.row 0)) s) = true) := by decide +kernel
/-- The four cells of row 0 with an MMA that is due. -/
theorem witness_CountAndJoinSteps_retire :
    (let c : Cell := { mma := some { ctx := 0, len := 3, op := ⟨.s8, 0, 3, 0, 0⟩, tdA := [], tdB := [], scales := [], start := [], old := [], due := 9 }, cyc := 9 }
     let s : State := { s0 with cells := (List.range 4).map fun n => (n, { c with ctxs := [(0, { s0.me with wait := some .mma })] }) }
     (∀ n ∈ rowCells 0, ((s.cell n).mma.map fun r => decide (r.due ≤ (s.cell n).cyc)) = some true) ∧ goes (exec (.mmaRetire 0) s) = true) := by
  decide +kernel

/-- The same row, with descriptors of INT8 tiles in entries 0 and 1 of every cell: 32 by 128 at 0x1000 of cell 0, and 128 by 32 at
0x2000 of cell 3. -/
def sMma : State :=
  let s := sRow fun _ => .mma ⟨.s8, 0, 3, 0, 1⟩
  { s with cells := s.cells.map fun y => (y.1, { y.2 with td :=
      [(0, 0x8000000000001000), (1, 0x8000800007), (3, 1), (4, 0x8000000000302000), (5, 0x2000800007), (7, 1)] }) }
theorem witness_CountAndJoinSteps_mmaMatch :
    ((sMma.heads (.row 0)).map fun l => l.map fun y => y.2.op?.map fun o => (mmaKey sMma y.1 o == mmaKey sMma 0 o, mmaCheck sMma y.1 o)) =
      some (List.replicate 4 (some (true, none))) ∧
    after (exec (.joinMatch (.row 0)) sMma) (fun t => ((t.cell 3).mma.map (·.due))) = some 160 := by decide +kernel

/-- Cell 0 with a transfer in slot 15. -/
def sX (x : Xfer) : State := s0.setXfer 0 15 x
def x15 : Xfer := { busy := true, uses := 1, state := 0, src := 0x8000000000001000, dst := 0x8000000000002000, rows := 1, rowBytes := 1024, sstride := 1024, dstride := 1024 }
theorem witness_TransferAndChannelSteps_engine :
    (let s := sX x15
     x15.chunkDone = true ∧ (∃ j < x15.chunks, j ≠ x15.cur ∧ x15.bit j = false) ∧
     after (exec (.twChunkComplete 0 15) s) (fun t => ((t.cell 0).xfer 15).cur) = 1) ∧
    (let x := { x15 with cur := 1, done := [(0, true)] }
     x.chunkDone = true ∧ (∀ j < x.chunks, j ≠ x.cur → x.bit j = true) ∧
     after (exec (.twChunkComplete 0 15) (sX x)) (fun t => ((t.cell 0).xfer 15).state) = 4) ∧
    (let x := { x15 with state := 3, notify := 0x10005 }
     let s := (sX x).setWcopy 0 5 (some { desc := { id := 5, lgring := 4, quotaM1 := 15, state := 1 }, credits := 1 })
     x.chan? = some 5 ∧ (s.cell 0).earlierPush 15 5 = false ∧ (s.cell 0).queuedChan 5 = false ∧ goes (exec (.twHandlePush 0 15) s) = true) ∧
    (let x := { x15 with failing := true, faultCause := causePageNotPresent }
     after (exec (.twFault 0 15) (sX x)) (fun t => (((t.cell 0).xfer 15).state, t.net.length)) = (2, 2)) := by decide +kernel

/-- Cell 0 is the reader of channel 5: its ring holds 0 of 16 elements, or its tail 3 in block 64. -/
def sRd (trLen : Nat) : State :=
  let d : Desc := { id := 5, lgring := 4, quotaM1 := 31, state := 1, ringBase := 0x1000, wcount := trLen, trLen, headBlk := 64, tailBlk := 64, tailIdx := trLen }
  let s := s0.setMe { s0.me with r := { s0.me.r with binds := [(8, some ⟨5, true⟩)] } }
  (s.setPart 0 { s0.part 0 with sysPa := 0x10000, poolB := 100 }).setRcopy 0 5 (some { desc := d })
theorem witness_TransferAndChannelSteps_channels :
    (let s := net1 (sRd 0) .request (.cell 1) (.cell 0) (.elem 5 0x1122334455667788 (some ⟨1, 0⟩) 9 [])
     Arrives s 0 (.cell 1) (.cell 0) (.elem 5 0x1122334455667788 (some ⟨1, 0⟩) 9 []) ∧ (s.cell 0).out = false ∧
     (s.rcopy 0 5).desc.trLen = 0 ∧ (s.rcopy 0 5).desc.wcount - (s.rcopy 0 5).desc.rcount < (s.rcopy 0 5).desc.cap ∧
     (s.cell 0).hasEnd 5 true = true ∧ (s.cell 0).bankQ = [] ∧
     after (exec (.channelElementArrival 0) s) (fun t => mread t.mem (cellKey 0 0x1007)) = 0x11) ∧
    ((sRd 3).refillDue 0 5 = true ∧ after (exec (.channelRefill 0 5) (sRd 3)) (fun t => (t.rcopy 0 5).landing) = 3) ∧
    (let s := net1 (sRd 0) .response (.home 0) (.cell 0) (.tailRead (some 5) [(0, 7)] [64] [])
     after (exec (.tailraceReadLanded 0) s) (fun t => (t.part 0).freeBlocks) = [64]) ∧
    goes (exec (.tailraceReadLanded 0) (net1 s0 .response (.home 0) (.cell 0) (.tailRead none [] [] [arr5]))) = true ∧
    after (exec (.closeMarkArrival 0) (net1 (sRd 0) .request (.cell 1) (.cell 0) (.closeMark 5 9 none 0))) (fun t => (t.rcopy 0 5).desc.closeAt) = 9 ∧
    (let s := s0.setWcopy 0 5 (some { desc := { id := 5 }, credits := 1 })
     after (exec (.roomNotification 0) (net1 s .system (.cell 1) (.cell 0) (.room 5 3))) (fun t => (t.wcopy 0 5).credits) = 4) :=
  ⟨⟨arrives_net1 _ _ _ _ _ (by decide +kernel) (by decide +kernel), by decide +kernel⟩, by decide +kernel, by decide +kernel, by decide +kernel, by decide +kernel, by decide +kernel⟩

/-- Pool lane 7 of die 0 with a ring and a tail. -/
def sLane (ring tail : Nat) (parked : List (Nat × Nat)) : State :=
  s0.setLane 0 7 { part := some 0, entry := 5, cells := [0], capacity := 8, quota := 16, ring := List.replicate ring (.strand strand5)
                   tail := List.replicate tail (.strand strand5), parked }
theorem witness_TransferAndChannelSteps_pools :
    (let p : Parcel := .strand { strand5 with dest := 0x8070005 }
     plLane p.dest = 7 ∧ after (exec (.poolAppend 0) (net1 (sLane 7 0 []) .strand (.cell 0) (.poolRoot 0) (.parcel p))) (fun t => (t.lane 0 7).ring.length) = 8 ∧
     after (exec (.poolAppend 0) (net1 (sLane 8 7 []) .strand (.cell 0) (.poolRoot 0) (.parcel p))) (fun t => (t.lane 0 7).tail.length) = 8) ∧
    after (exec (.poolPopRequest 0) (net1 (sLane 2 0 []) .system (.cell 0) (.poolRoot 0) (.popReq 7 0 3))) (fun t => ((t.lane 0 7).parked, t.net.length)) = ([(0, 1)], 2) ∧
    after (exec (.poolPopRequest 0) (net1 (sLane 3 0 []) .system (.cell 0) (.poolRoot 0) (.popReq 7 0 3))) (fun t => ((t.lane 0 7).parked, t.net.length)) = ([], 3) ∧
    after (exec (.poolRingRefill 0 7) (sLane 3 2 [])) (fun t => (t.lane 0 7).ring.length) = 5 ∧
    (let s : State := { s0 with tbc := 20000 }
     (s.part 0).open_ = true ∧ (s.part 0).nextSluice ≤ s.tbc ∧ after (exec (.sluiceSample 0) s) (fun t => (t.part 0).nextSluice) = 40000) := by
  decide +kernel

theorem witness_LaunchSteps_kicks :
    (let s := sRep 1 .running
     after (exec (.kick 0 15 0x0200000000000000) s) (fun t => ((t.part 0).kick 15).queue.length) = 1 ∧
     after (exec (.kick 0 15 0x0200000000000001) s) (fun t => ((t.part 0).kick 15).queue.length) = 0 ∧
     (let s := s.setPart 0 { s.part 0 with kicks := [(15, { queue := List.replicate 4 (0, 1) })] }
      after (exec (.kick 0 15 0x0200000000000000) s) (fun t => (t.part 0).kickOverflow) = 1)) ∧
    (let s := (sRep 1 .running).setPart 0 { (sRep 1 .running).part 0 with kicks := [(15, { queue := [(0x0200000000000000, 1)], next := 2 })] }
     (s.part 0).active = true ∧ after (exec (.replayStart 0 15) s) (fun t => ((t.part 0).kick 15).replay.isSome) = true) ∧
    (((sRep 4 .waiting).part 0).active = true ∧ goes (exec (.nodeStart 0 15 0) (sRep 4 .waiting)) = true ∧
     goes (exec (.nodeStart 0 15 0) (sRep 5 .waiting)) = true ∧ (sRep 1 .running).hostWrites 0 = false) ∧
    (let r := { rep1 4 .running with copied := [(0, 1)] }
     let s := (sRep 4 .running).setPart 0 { (sRep 4 .running).part 0 with kicks := [(15, { replay := some r })] }
     (node1 4).nc.toNat ≤ 8 * tget 0 r.copied 0 ∧ goes (exec (.copyComplete 0 15 0) s) = true) ∧
    ((rep1 4 .done).over = true ∧ after (exec (.replayEnd 0 15) (sRep 4 .done)) (fun t => t.irqs) = [(1, 2)]) := by decide +kernel
theorem witness_LaunchSteps_kernel :
    (let s := (sRep 1 .waiting).setPart 0 { (sRep 1 .waiting).part 0 with running := [] }
     ∃ (job : W32) (j : Nat), (∀ c ∈ (node1 1).chans, s.resetBad (s.part 0) c = false ∧ s.landing (s.part 0) c = false) ∧ s.freeJob (s.part 0) = some job ∧
       (s.die ((s.part 0).dieOfPlace tmpl1.place)).freeSlot = some j ∧ s.casidsReady (graph1 1) = true) := by
  refine ⟨BitVec.ofNat 32 (Config.thienoPick 0 0), 0, by decide, ?_, by decide +kernel, by decide +kernel⟩
  rw [State.freeJob, if_pos]
  · rfl
  · rfl

/-- Slot 255 of die 0 with the bind record of tmpl1. -/
def sSlot (st : SlotState) (b : BindRec) : State :=
  (s0.setCell 1 { entries := [{ entry := 5 }] }).setSlot 0 255 { state := st, part := 0, bindRec := b }
theorem witness_LaunchSteps_slots :
    (let b := tmpl1.bind 0 1 64
     (sSlot .armed b).bindBad 0 b = none ∧ after (exec (.slotArm 0 255) (sSlot .armed b)) (fun t => t.net.length) = 1) ∧
    (let b := tmpl1.bind 0 1 0
     (sSlot .armed b).bindBad 0 b = some 4 ∧ after (exec (.slotArm 0 255) (sSlot .armed b)) (fun t => (t.part 0).killed) = [1]) ∧
    (let s := net1 s0 .system (.dispatch 0) (.cell 0) (.reserve (0, 255) 5 7 4 1)
     (s.cell 0).freeCtxs.length = 7 ∧ after (exec (.reserveContexts 0) s) (fun t => ((t.cell 0).reservs.map (·.groups), t.net.length)) = ([2], 1)) ∧
    (let s := s0.setCluster 0 { s0.cluster 0 with station := [(.cell 1, strand5)] }
     s.roomAt (.cell 1) (.strand strand5) = true ∧ goes (exec (.stationInject 0) s) = true) ∧
    (let s := sSlot .injecting (tmpl1.bind 0 1 64)
     ∃ x dst m, (s.die 0).slots = [(255, x)] ∧ s.slotNext x = some (dst, m) ∧ brCount x.bindRec = x.next + 1 ∧
       goes (exec (.dispatchRelease 0) s) = true) := ⟨by decide +kernel, by decide +kernel, by decide +kernel, by decide +kernel,
    ⟨_, .cell 1, _, rfl, rfl, by decide +kernel⟩⟩

/-! ### Witnesses: the steps of cells, governors and translation -/

/-- The context waits; all the others are parked, and a class-0 message for entry 5 stands in its bin. -/
def sStuck : State :=
  let s := s0.setMyCell { s0.myCell with
    bins := [{ entry := 5, msgs := [{ id := 1, place := 5, parcel := .msg { cls := 0, dest := 5 } }] }], entries := [{ entry := 5, gather := 64 }]
    displacing := some 0
    ctxs := (0, { s0.me with wait := some (.sleep 0xFFFFFFFF 1) }) :: (List.range 7).map fun k => (k + 1, { s0.me with status := .parked }) }
  s
theorem witness_CellSteps_contexts :
    (let s := (withMe fun x => { x with cls := some 0 })
     let s := s.setMyCell { s.myCell with rrZero := s.myCell.rrZero }
     s.zeroReady 0 = true) ∧
    (∃ w, sStuck.displaces 0 = some w) ∧ goes (exec (.displacement 0) sStuck) = true ∧
    (let s := s0.setMyCell { s0.myCell with displaced := some { s0.me with wait := some .mma } }
     (s.cell 0).freeCtxs.head? = some 1 ∧ (s.cell 0).up = true ∧ (s.cell 0).preempting = false ∧ (s.partAt 0).forms = true ∧
     (s.cell 0).incsLeft s0.me.act = false ∧ goes (exec (.displacedRestore 0) s) = true) ∧
    (let s := withMe fun x => { x with budget := 0 }
     s.me.status = .running ∧ s.me.midway = false ∧ s.me.spared = false ∧ (s.cell 0).displacing ≠ some 0 ∧ after (exec (.watchdog 0 0) s) (fun t => decide (t.me.status = .parked)) = true) :=
  ⟨by decide +kernel, ⟨_, rfl⟩, by decide +kernel⟩
def msg1 : Parcel := .msg { cls := 1 }
theorem witness_CellSteps_stops :
    (let s := net1 s0 .system (.dmc 0) (.cell 0) (.parcel msg1)
     (s.cell 0).canAccept msg1 = true ∧ s.refusesPreempt 0 = false ∧ after (exec (.preemptRequest 0) s) (fun t => (t.cell 0).preempting) = true) ∧
    (let s := net1 (withMe fun x => { x with cores := true }) .system (.dmc 0) (.cell 0) (.parcel msg1)
     s.refusesPreempt 0 = true ∧ after (exec (.preemptRequest 0) s) (fun t => t.net.length) = 1) ∧
    (let s := (withMe fun x => { x with status := .stopped }).setMyCell { (withMe fun x => { x with status := .stopped }).myCell with preempting := true }
     (∀ k ∈ ctxNums, (s.ctx ⟨0, k⟩).status ≠ .running) ∧ s.refillsLand 0 = false ∧ (s.cell 0).promenade = none ∧
     (s.partAt 0).cut = .none ∧ (s.partAt 0).swapRoom = false ∧ after (exec (.preemptStopped 0) s) (fun t => (t.cell 0).out) = false ∧
     (let s := s.setPart 0 { s.part 0 with cut := .preempting }
      after (exec (.preemptStopped 0) s) (fun t => (t.cell 0).out) = true)) ∧
    (let s := (withMe fun x => { x with status := .stopped })
     let s := s.setMyCell { s.myCell with out := true, tripped := true, temp := degC 89, refusals := { listed := [.cell 1] } }
     (s.partAt 0).active = true ∧ after (exec (.cellResume 0) s) (fun t => (decide (t.me.status = .running), t.net.length)) = (true, 1)) ∧
    (let s : State := { (withMe fun x => { x with wait := some (.sleep 5 1) }) with tbc := 5 }
     s.awake ⟨0, 0⟩ = true ∧ s.missedPromise ⟨0, 0⟩ 5 = none ∧ after (exec (.sleeptWake 0 0) s) (fun t => t.me.r.pc) = 1 ∧
     (let s := s.setXfer 0 15 { x15 with promise := 5 }
      s.missedPromise ⟨0, 0⟩ 5 = some 15 ∧ after (exec (.sleeptWake 0 0) s) (fun t => decide (t.me.status = .parked)) = true)) ∧
    (let s : State := { (withMe fun x => { x with wait := some (.fence .device 5), out := [{ id := 1, home := .home 0 }] }) with tbc := 1000005 }
     s.awake ⟨0, 0⟩ = true ∧ s.fenceDone ⟨0, 0⟩ .device = false ∧ goes (exec (.fenceTimeout 0 0) s) = true) ∧
    after (exec (.jobDrop 0) (net1 sBin .system (.dmc 0) (.cell 0) (.drop 1))) (fun t => (t.cell 0).dropping) = [1] ∧
    after (exec (.jobDrop 0) (net1 s0 .system (.cell 0) (.dmc 0) (.drop 1))) (fun t => t.net.length) = 16 := by decide +kernel

/-- Partition 0's governor with a step of two. -/
def step9 : StepEntry := { id := 9, deadline := 5, work := 1, handler := 5, job := 1 }
def sGov (f : Governor → Governor) : State := s0.setPart 0 { s0.part 0 with gov := f (s0.part 0).gov }
theorem witness_GovernorSteps :
    (let s := net1 (sGov fun g => { g with steps := List.replicate 256 step9 }) .system (.cell 0) (.governor 0) (.stepReg 7 9 1 5 1)
     (∀ e ∈ ((s.part 0).gov).steps, e.id ≠ 7 ∨ e.ended = true) ∧ 256 ≤ (((s.part 0).gov).steps.filter fun e => e.id != 7).length ∧
     after (exec (.stepRegistration 0) s) (fun t => t.net.length) = 1) ∧
    (let s := net1 (sGov fun g => { g with steps := [step9] }) .system (.cell 0) (.governor 0) (.stepReg 9 9 1 5 1)
     after (exec (.stepRegistration 0) s) (fun t => (t.net.length, ((t.part 0).gov).steps.length)) = (0, 1)) ∧
    after (exec (.stepRetirement 0) (net1 (sGov fun g => { g with steps := [step9] }) .system (.cell 0) (.governor 0) (.stepEnd 9)))
      (fun t => ((t.part 0).gov).steps.map (·.ended)) = [true] ∧
    after (exec (.stepRetirement 0) (net1 (sGov fun g => { g with steps := [{ step9 with replacedAt := some 4 }] }) .system (.cell 0) (.governor 0) (.stepEnd 9)))
      (fun t => ((t.part 0).gov).steps.map (·.ended)) = [false] ∧
    after (exec (.workReport 0) (net1 (sGov fun g => { g with steps := [step9, { step9 with ended := true }] }) .system (.cell 0) (.governor 0) (.work [(9, 3)] 0)))
      (fun t => ((t.part 0).gov).steps.map (·.fresh)) = [3, 0] ∧
    (let s : State := { (sGov fun g => { g with sent := 10000, steps := [step9] }) with tbc := 10000 }
     ((s.part 0).gov).next ≤ s.tbc ∧ ((s.part 0).gov).sent = ((s.part 0).gov).next ∧ after (exec (.governorPeriod 0) s) (fun t => ((t.part 0).gov).next) = 20000) ∧
    after (exec (.clusterBid 0) (net1 s0 .system (.governor 0) .weir (.bid 0 8 1 0))) (fun t => (t.cluster 0).bids.length) = 1 ∧
    after (exec (.clusterBid 0) { net1 s0 .system (.governor 0) .weir (.bid 0 8 1 0) with weirDone := 1 }) (fun t => (t.cluster 0).bids.length) = 0 ∧
    (let s : State := { s0 with tbc := 2000 }
     s.weirDone * 10000 + 2000 ≤ s.tbc ∧ s.decided s.weirDone = true ∧ after (exec .weirClear s) (fun t => t.weirDone) = 1) ∧
    after (exec (.grantArrival 0) (net1 s0 .system .weir (.station 0) (.grant 0 9 3))) (fun t => (t.cluster 0).granted) = 4 ∧
    (let s : State := { s0 with tbc := 1000 }
     s.clusterPart 0 = some 0 ∧ (s.cluster 0).nextMeter ≤ s.tbc ∧ after (exec (.meterWindow 0) s) (fun t => (t.cluster 0).nextMeter) = 2000) ∧
    (let s : State := { s0 with rails := [(0, 3)] }
     s.railNeeds 0 ≠ s.rail 0 ∧ after (exec (.railStep 0) s) (fun t => t.rail 0) = 4) ∧
    (let s := sGov fun g => { g with quiesce := some (7, 0) }
     s.drained 0 = true ∧ 7 ≤ s.rail (s.part 0).rail ∧ (∀ m ∈ (s.part 0).cells, (s.cell m).promenade = none) ∧ after (exec (.quiesceDrained 0) s) (fun t => ((t.part 0).gov).inForce) = 7 ∧
     after (exec (.quiesceTimeout 0) { s with tbc := 20000 }) (fun t => ((t.part 0).gov).inForce) = 15) := by decide +kernel
theorem witness_GovernorSteps_thermal :
    s0.logicalOf 3 = some 3 ∧ s0.spareFree 0 = true ∧
    after (exec (.thermalSample 3 (degC 115)) s0) (fun t => (t.cell 3).tripped) = true ∧
    after (exec (.thermalSample 3 (degC 108)) { s0 with failedPhys := [4] }) (fun t => (t.cell 3).issueDen) = 2 ∧
    after (exec (.thermalSample 3 (degC 108 + 1)) { s0 with failedPhys := [4] }) (fun t => (t.cell 3).issueDen) = 4 ∧
    after (exec (.thermalSample 3 (degC 100)) s0) (fun t => (t.cell 3).issueDen) = 1 ∧
    after (exec (.thermalSample 3 (degC 100 + 1)) s0) (fun t => (t.cell 3).promenade) = some 4 ∧
    (let s := s0.setCell 3 { promenade := some 4 }
     s.moveReady 3 = true ∧ after (exec (.promenadeCopyDone 3) s) (fun t => t.rowMap 0) = [0, 1, 2, 4]) := by decide +kernel

/-- Partition 0 with ASID 1: its tables map page 0 to slab 0 at 0x50000, by the entry at 0x40000. -/
def sMap (w : Option Wait) : State :=
  let put := fun (m : Memory) (y : Nat × Nat) => writeLE m (hbmKey y.1) 8 y.2
  let s := withMe fun x => { x with wait := w }
  { s with mem := [(0x10000, 0x20001), (0x20000, 0x30001), (0x30000, 0x40001), (0x40000, 0x5001F)].foldl put s.mem
           parts := [(0, { s.part 0 with asids := [(1, some { root := 0x10000 }), (2, some { supplied := true, walker := 8 })] })] }
/-- A replay whose node 0 has two successors, of which the first wants one arrival and the second two, over the page of sMap, and what a node of
it comes to. -/
def rep3 (kind : Nat) : Replay :=
  { handle := 2, number := 1, nodes := [{ node1 kind with succ0 := 1, succ1 := 2, na := 8 }, { node1 5 with npred := 1, succ0 := 0xFFFF, succ1 := 0xFFFF },
      { node1 5 with npred := 2, succ0 := 0xFFFF, succ1 := 0xFFFF }], templates := [tmpl1, tmpl1, tmpl1], state := [(0, .waiting)] }
def sRep3 (kind v : Nat) : State :=
  let s := sMap none
  { s.setPart 0 { s.part 0 with graphs := [(2, some (graph1 kind))], kicks := [(15, { replay := some (rep3 kind) })] } with
    mem := writeLE s.mem (hbmKey 0x50008) 8 v }
def started (kind v : Nat) : List NodeState × List Nat :=
  after (exec (.nodeStart 0 15 0) (sRep3 kind v)) fun t => match ((t.part 0).kick 15).replay with
    | some r => ((List.range 3).map r.node, (List.range 3).map (tget 0 r.arrivals))
    | none => ([], [])
theorem witness_LaunchSteps_select : (sRep3 2 7).execRead 0 1 8 = some 7 ∧ (sRep3 2 0).execRead 0 1 8 = some 0 ∧
    started 2 7 = ([.done, .waiting, .idle], [0, 1, 0]) ∧ started 2 0 = ([.done, .idle, .idle], [0, 0, 1]) ∧
    started 5 0 = ([.done, .waiting, .idle], [0, 1, 1]) := by decide +kernel
def sSvc (n : W32) (args : List W64) : State := net1 (sMap (some (.svc 1))) .system (.cell 0) (.millwright 0) (.svc ⟨0, 0⟩ n args)
def w0 : Who := ⟨0, 0⟩
theorem witness_TranslationSteps_fills :
    (let s := net1 (sMap (some (.tlb 0x8000))) .system (.cell 0) (.millwright 0) (.tlbReq w0 0x8000 1 .read none false)
     (after (exec (.tlbFillRequest 0) s) (fun t => t.net.map (·.body matches .tlbRep _ _ _ _ _ _ (.inl _))) = [true] ∧ (s.part 0).asidOk 2 = true)) ∧
    goes (exec (.walkerTimeLimit 0) (net1 (sMap none) .system (.cell 0) (.millwright 0) (.tlbReq w0 0 2 .read none false))) = true ∧
    after (exec (.tlbFillReply 0) (net1 (sMap (some (.tlb 0))) .system (.millwright 0) (.cell 0) (.tlbRep w0 0 1 .read none false (.inl { asid := 1 }))))
      (fun t => (t.cell 0).tlb.length) = 1 ∧
    after (exec (.tlbFillReply 0) (net1 (sMap (some (.tlb 0))) .system (.millwright 0) (.cell 0) (.tlbRep w0 0 1 .read none false (.inr causePageNotPresent))))
      (fun t => decide (t.me.status = .parked)) = true ∧
    goes (exec (.tlbFillReply 0) (net1 (sMap (some (.tlb 0))) .system (.millwright 0) (.cell 0) (.tlbRep w0 0 1 .read none true (.inr causePageNotPresent)))) = true ∧
    (net1 s0 .system .root (.cell 0) (.inval 3 1 none)).walksOld 0 3 = false ∧
    goes (exec (.invalidation 0) (net1 s0 .system .root (.cell 0) (.inval 3 1 none))) = true ∧
    goes (exec (.invalidation 0) (net1 s0 .system .root (.spare 4) (.inval 3 1 none))) = true ∧
    goes (exec (.invalidation 0) (net1 s0 .system .root (.millwright 191) (.inval 3 1 (some (0, 0))))) = true ∧
    goes (exec (.invalidation 0) { net1 s0 .system (.cell 0) .root (.invalAck 3 (.cell 0)) with invals := [{ id := 3, asid := 1, page := none, waiting := [.cell 0], after := .nothing }] }) = true ∧
    (let s : State := { sMap (some (.svc 1)) with invals := [{ id := 3, asid := 1, page := none, waiting := [], after := .svcReply w0 0 7 }] }
     s.awaitsAccess 1 none = false ∧ after (exec (.invalidationComplete 3) s) (fun t => t.me.s 2) = 7) := by decide +kernel
theorem witness_TranslationSteps_services :
    Arrives (sSvc 0 []) 0 (.cell 0) (.millwright 0) (.svc w0 0 []) ∧
    (after (exec (.svcVersion 0) (sSvc 0 [])) (fun t => t.me.s 2) = 0x30000 ∧
     after (exec (.svcVersion 0) (sSvc 6 [])) (fun t => decide (t.me.status = .parked)) = true ∧
     after (exec (.svcInvalPage 0) (sSvc 1 [1, 0, 2])) (fun t => t.invals.length) = 1 ∧
     after (exec (.svcInvalPage 0) (sSvc 1 [1, 0, 3])) (fun t => decide (t.me.status = .parked)) = true ∧
     after (exec (.svcInvalAsid 0) (sSvc 2 [1])) (fun t => t.invals.length) = 1 ∧
     after (exec (.svcInvalAsid 0) (sSvc 2 [2 ^ 12 + 1])) (fun t => decide (t.me.status = .parked)) = true ∧
     (sMap none).leafOf ((sMap none).part 0) 1 0 0 = some 0x40000 ∧
     after (exec (.svcMap 0) (sSvc 3 [1, 0, 0x6001F, 0])) (fun t => (readLE t.mem 0x40000 8, t.invals.length)) = (0x6001F, 1) ∧
     after (exec (.svcMap 0) (sSvc 3 [1, 0, 0x10000001F, 0])) (fun t => decide (t.me.status = .parked)) = true ∧
     after (exec (.svcUnmap 0) (sSvc 4 [1, 0, 0])) (fun t => (readLE t.mem 0x40000 8, t.invals.length)) = (0, 1) ∧
     ((sMap none).part 0).ownsRange (2 ^ 32 - 384) 384 = true ∧ ((sMap none).part 0).ownsRange (2 ^ 32 - 383) 384 = false ∧
     after (exec (.svcQuote 0) (sSvc 5 [2 ^ 32 - 383, 0])) (fun t => decide (t.me.status = .parked)) = true) :=
  ⟨arrives_net1 _ _ _ _ _ (by decide +kernel) (by decide +kernel), by decide +kernel⟩

/-- A hook table whose one entry redirects the routine of a service. -/
def sHooked (n : Nat) : State :=
  { sSvc (BitVec.ofNat 32 n) [] with hookTable := List.replicate 4 0 ++ leBytes 4 1 ++ List.replicate 56 0 ++ leBytes 2 (Config.hookOf n) ++ List.replicate 14 0 }
theorem ofLE_leBytes_two (v : Nat) : ofLE (leBytes 2 v) = v % 65536 := by
  simp only [leBytes, ofLE, BitVec.toNat_ofNat]; omega
theorem hooked_sHooked (n : Nat) : (sHooked n).hooked n = true := by
  have h : ((sHooked n).hookTable.drop (64 + 16 * 0)).take 2 = leBytes 2 (Config.hookOf n) := rfl
  refine List.any_eq_true.2 ⟨0, List.mem_range.2 (by show 0 < 1; omega), ?_⟩
  rw [h, ofLE_leBytes_two]; exact beq_self_eq_true _
theorem witness_TranslationSteps_hooked :
    Arrives (sHooked 0) 0 (.cell 0) (.millwright 0) (.svc w0 0 []) ∧ ((sHooked 0).ctx w0).wait = some (.svc 1) ∧ (sHooked 0).hooked 0 = true ∧
    (sSvc 0 []).hooked 0 = false :=
  ⟨⟨by decide +kernel, .system, rfl, by decide +kernel⟩, rfl, hooked_sHooked 0, by decide +kernel⟩

/-! ### Witnesses: faults, the platform and the commands -/

def frec0 (cause : BitVec 7) : Frec := { cause, vreq := true, part := 0, cell := 3 }
/-- Partition 0 with a fault server. -/
def sSrv (w : W64) : State := s0.setPart 0 { s0.part 0 with faultSrv := w }
def trap7 : PendTrap := { ctx := 0, msgid := 7 }
/-- The context is parked with a trap pending. -/
def sPend (v : W64) : State :=
  let s := withMe fun x => { x with status := .parked, trap := { cause := 2 } }
  net1 (s.setMyCell { s.myCell with pending := [trap7] }) .system (.dmc 0) (.cell 0) (.parcel (.msg { cls := 2, payload := v }))
theorem witness_FaultSteps_records :
    (let s := net1 s0 .system (.cell 0) (.dmc 0) (.parcel (.record (frec0 causeWatchdog) 0x4000000000000000))
     Arrives s 0 (.cell 0) (.dmc 0) (.parcel (.record (frec0 causeWatchdog) 0x4000000000000000)) ∧ serverKind 0x4000000000000000 = 1 ∧
     after (exec (.faultRecord 0) s) (fun t => t.irqs) = [(1, 1)]) ∧
    (let s := net1 s0 .system (.cell 0) (.dmc 0) (.parcel (.record (frec0 causeWatchdog) 0))
     serverKind 0 ≠ 1 ∧ verdictOf causeWatchdog 0 = .kill ∧
     after (exec (.faultRecord 0) s) (fun t => t.net.any fun m => m.dst == .cell 3) = true) ∧
    (let s := net1 (s0.setPart 0 {}) .system (.cell 0) (.dmc 0) (.parcel (.record (frec0 causeWatchdog) 0))
     after (exec (.faultRecord 0) s) (fun t => t.net.length + 1) = 1) ∧
    ((sPend 0x1000000000000007).myCell.trapOf 0x1000000000000007 = some trap7 ∧
     after (exec (.verdict 0) (sPend 0x1000000000000007)) (fun t => decide (t.me.status = .running)) = true) ∧
    ((sPend 0x3000000000000007).myCell.trapOf 0x3000000000000007 = some trap7 ∧
     after (exec (.verdict 0) (sPend 0x3000000000000007)) (fun t => decide (t.me.status = .free)) = true) ∧
    (let s := (sSrv 0x4000000000000000)
     after (exec (.verdictDoorbell 0 7) (s.setBar 1 0x200 15)) (fun t => t.net.length) = 1 ∧
     after (exec (.verdictDoorbell 0 7) (s.setBar 1 0x200 16)) (fun t => t.net.length + 1) = 1) :=
  ⟨⟨arrives_net1 _ _ _ _ _ (by decide +kernel) (by decide +kernel), by decide +kernel⟩, by decide +kernel⟩
theorem witness_FaultSteps_device :
    s0.partOf 2 = some 0 ∧ s0.spareFree (Sys2Proof.Machine.rowOf 2) = true ∧ s0.rowMoving 2 = false ∧
    after (exec (.cellQuarantine 2 .regfile none [0, 1] [3]) s0) (fun t => (t.cell 2).promenade) = some 3 ∧
    ({ s0 with failedPhys := [4] } : State).spareFree (Sys2Proof.Machine.rowOf 2) = false ∧
    after (exec (.cellQuarantine 2 .regfile none [0, 1] [3]) { s0 with failedPhys := [4] }) (fun t => (t.cell 2).promenade) = some 5 ∧
    goes (exec .machineCheck s0) = true ∧
    (let s : State := { net1 (s0.setPart 0 { s0.part 0 with cut := .checkpoint false 5 }) .system (.cell 0) (.cell 1) (.resume 0) with
                        tbc := 100000005, cmds := [(0, { tag := 1, wait := .checkpoint [(0, 0, 0)] false })] }
     s.cmds.find? (fun f => f.2.cuts 0) = some (0, { tag := 1, wait := .checkpoint [(0, 0, 0)] false }) ∧ s.cutReady 0 = false ∧
     goes (exec (.ckptTimeout 0) s) = true) ∧
    (let s := State.reset.withFetchWord 32 0
     (s.fetch s.cur matches .bad _) = true ∧ after (exec .illegalEncoding s) (fun t => decide (t.me.status = .parked)) = true) := by decide +kernel
theorem witness_FaultSteps_stop : ∃ (err : StopError) (parts : List Nat), 0 ∈ parts ∧ goes (exec (.partitionStop err parts) s0) = true ∧
    (exec (.partitionStop err []) s0 = exec (.partitionStop err []) s0) := ⟨.router, [0], by decide +kernel, by decide +kernel, rfl⟩

/-- Boot at step 7, and the sideband's address assigned. -/
def sHook : State := { s0 with boot := .hookWindow 9, tbc := 9, i3cAddr := some 0x3A, i3cStatus := 0xF }
def sReel (r : Reel) : State := s0.setReel 17 r
theorem witness_PlatformSteps :
    State.reset.boot = .off ∧ goes (exec .powerGood State.reset) = true ∧ s0.boot ≠ .off ∧ goes (exec .powerRemoval s0) = true ∧
    goes (exec (.devreset 0x5A5A) s0) = true ∧ after (exec .entdaa s0) (fun t => t.i3cAddr.isSome) = true ∧ sHook.i3cAddr ≠ none ∧
    goes (exec (.i3cReset 0x5A5A) sHook) = true ∧ goes (exec .hookWindowExpiry sHook) = true ∧ goes (exec (.hooklen 63) sHook) = true ∧
    s0.fnUp (.vf 0) = true ∧ ownWrite (.vf 0) 0x38 = false ∧ s0.hostSettled (.vf 0) = true ∧ s0.hostWrites 0 = false ∧ after (exec (.registerWrite (.bar0 (.vf 0)) 0x38 9) s0) (fun t => t.bar 1 0x38) = 9 ∧
    after (exec (.registerWrite .i3c 0x14 5) sHook) (fun t => t.i3cStatus) = 10 ∧
    sHook.fnUp .pf = true ∧ after (exec (.bar2Access .pf 0x1FFFFF 1 (some 9)) sHook) (fun t => tget 0 t.hookStage 0x1FFFFF) = 9 ∧
    (let s := (sMap none).setBar 1 0x300 1
     (s.bar2Walk 0 1 0xFFF8 matches .leaf _ 3) = true ∧ (s.bar2Walk 0 1 0xFFFF matches .leaf _ 3) = true ∧
     after (exec (.bar2Access (.vf 0) 0xFFF8 8 (some 0x1122334455667788)) s) (fun t => mread t.mem 0x5FFFF) = 0x11 ∧
     (s.bar2Walk 0 1 6 matches .leaf _ 3) = true ∧ after (exec (.bar2Access (.vf 0) 6 3 (some 0x112233)) s) (fun t => readLE t.mem 0x50006 3) = 0x112233) ∧
    s0.fnUp .pf = true ∧ after (exec (.bar2Access .pf 5 4 none) s0) (·.bar2Data) = 0xFFFFFFFF ∧ goes (exec (.hooklen 64) s0) = true ∧
    goes (exec (.reelFlitReceive 17 (List.replicate 64 0)) (sReel { lanes := 2 })) = true ∧
    after (exec (.reelControlFlit 17 4095) (sReel { lanes := 8, replayBuf := [List.replicate 64 0] })) (fun t => (t.reel 17).replayBuf.length) = 1 ∧
    after (exec (.reelControlFlit 17 0) (sReel { lanes := 8, replayBuf := [List.replicate 64 0] })) (fun t => (t.reel 17).replayBuf.length + 1) = 1 ∧
    after (exec (.reelShed 17) (sReel { lanes := 4, replays := List.replicate 16 0 })) (fun t => (t.reel 17).lanes) = 2 ∧
    after (exec (.reelRetrainDone 17 8) (sReel { retraining := true })) (fun t => (t.reel 17).lanes) = 8 ∧
    after (exec (.reelRetrainDone 17 1) (sReel { lanes := 4, retraining := true })) (fun t => t.i3cStatus) = 4 ∧
    after (exec (.reelRetrainTimer 17) (sReel {})) (fun t => (t.reel 17).retraining) = true := by decide +kernel

/-- The first bytes of the SHAKE256 output of the empty message (FIPS 202). -/
theorem test_shake256_empty : (shake256 []).take 4 = [0x46, 0xB9, 0xDD, 0x2B] := by decide +kernel

/-! ### Witnesses: the commands -/

/-- The doubleword of a command for partition pn, and a state with its parameters. -/
def cw (opcode pn : Nat) : W64 := BitVec.ofNat 64 (0x7700000000 + 65536 * pn + opcode)
def prm (s : State) (n : Nat) (l : List W64) : State := { s with bars := tset s.bars n ((number 1 l).map fun y => (8 * y.1, y.2)) }
def put (s : State) (base : Nat) (l : List (Nat × Nat × Nat)) : State :=
  { s with mem := l.foldl (fun m y => writeLE m (hostKey (base + y.1)) y.2.1 y.2.2) s.mem }
/-- Partition 0 with its system area, and ASID 1. -/
def sSys : State :=
  let s := sMap none
  s.setPart 0 { s.part 0 with sysPa := 0x1000000, poolB := 64, inboxQ := 32, loadMb := 1 }
/-- The commands' status in RSP0. -/
def stat (o : Out) (n : Nat) : Nat := after o fun t => ((t.bar n 0x40).extractLsb' 0 32).toNat + 1
/-- A configuration block of partition 1: cluster 1, slab 1. -/
def sPcb : State := prm (put s0 0x1000 [(0, 1, 1), (3, 1, 15), (4, 2, 2), (6, 2, 2), (8, 1, 2), (0x20, 1, 2), (0x58, 4, 64), (0x5C, 4, 32),
  (0x68, 8, 2 ^ 32), (0x70, 4, 1)]) 0 [0x1000]
theorem witness_PartitionCommands_create : Taken sPcb .pf (cw 1 1) 1 [all64] false false ∧
    (let b := readBytes sPcb.mem (hostKey (sPcb.cmd 0 1).toNat) 256
     let q := Part.ofPcb b
     pcbOk 1 b q = true ∧ sPcb.inUse 1 q = false ∧ sPcb.fits q = true ∧ q.defpt ≤ sPcb.rail q.rail) := by
  unfold Taken; decide +kernel
theorem witness_PartitionCommands_partitions :
    Taken sSys .pf (cw 2 0) 2 [] false true ∧ Taken (prm sSys 0 [3]) .pf (cw 3 0) 3 [3] false true ∧
    Taken (prm sSys 1 [all64]) (.vf 0) (cw 4 0) 4 [all64] true true ∧ Taken (prm sSys 0 [0, 0x2000000]) .pf (cw 5 0) 5 [1, all64] false true ∧
    ((sSys.part 0).running = [] ∧ (sSys.part 0).gov.inForce ≤ sSys.rail 3 ∧ (sSys.part 0).dumpOk 0x2000000 = true ∧ (sSys.part 0).cut = .none ∧
     stat (exec (.partSetRail .pf (cw 3 0)) (prm sSys 0 [3])) 0 = 1 ∧ stat (exec (.partSetFaultsrv (.vf 0) (cw 4 0)) (prm sSys 1 [all64])) 1 = 1 ∧
     stat (exec (.partPreempt .pf (cw 5 0)) (prm sSys 0 [0, 0x2000000])) 0 = 0x10000 ∧
     (let s := (prm sSys 0 [0, 0x2000000]).setPart 0 { sSys.part 0 with cut := .checkpoint true 0 }
      (s.part 0).cutting = true ∧ stat (exec (.partPreempt .pf (cw 5 0)) s) 0 = 0x10000)) := by
  refine ⟨?_, ?_, ?_, ?_, ?_⟩ <;> first | decide +kernel | (unfold Taken; decide +kernel)
/-- Partition 0 pre-empted. -/
def sCut : State := (prm sSys 0 [1, 0]).setPart 0 { (prm sSys 0 [1, 0]).part 0 with cut := .preempted }
theorem witness_PartitionCommands_resume : Taken sCut .pf (cw 5 0) 5 [1, all64] false true ∧
    ((sCut.part 0).dumpOk 0 = true ∧ (sCut.part 0).cut = .preempted ∧ stat (exec (.partResume .pf (cw 5 0)) sCut) 0 = 1) :=
  ⟨by unfold Taken; decide +kernel, by decide +kernel⟩
theorem witness_PartitionCommands_destroy : stat (exec (.partDestroy .pf (cw 2 0)) sSys) 0 = 1 := by decide +kernel
theorem witness_PartitionCommands_asids :
    (let s := prm sSys 1 [1]
     Taken s (.vf 0) (cw 0x102 0) 0x102 [0xFFF] true true ∧ (∃ x, tget none (s.part 0).asids 1 = some x ∧ x.quarantine = false) ∧
     (∀ m ∈ (s.part 0).cells, (s.cell m).casid.toNat ≠ 1) ∧ stat (exec (.asidRelease (.vf 0) (cw 0x102 0)) s) 1 = 1) ∧
    (let s := prm sSys 1 [1, 0, 0x6001F, 1]
     Taken s (.vf 0) (cw 0x103 0) 0x103 [0xFFF, all64, all64, 0x3FFFFFFFF] true true ∧ (s.part 0).asidOk 1 = true ∧ (s.part 0).romAsid 1 = true ∧
     s.leafOf (s.part 0) 1 0 0 = some 0x40000 ∧ (s.part 0).mayMap (leafAt 0x6001F 0 0) = true ∧
     after (exec (.memMap (.vf 0) (cw 0x103 0)) s) (fun t => readLE t.mem 0x40000 8) = 0x6001F) := by
  refine ⟨⟨by unfold Taken; decide +kernel, ⟨_, rfl, rfl⟩, by decide +kernel⟩, by unfold Taken; decide +kernel⟩
/-- Where an ASID is free, one is picked, whatever Thieno prefers. -/
theorem freeAsid_some (s : State) (p : Part) (k : Nat)
    (h : ((List.range p.asidCount).map (p.asidBase + ·) |>.filter fun a => (tget none p.asids a).isNone).head? = some k) :
    ∃ a, s.freeAsid p = some a := by
  simp only [State.freeAsid, h]
  split
  · exact ⟨_, rfl⟩
  · exact ⟨k, rfl⟩
/-- Partition 0 with ASIDs 0 to 3, of which 0 and 3 are free. -/
def sAsid : State := prm (sSys.setPart 0 { sSys.part 0 with asidCount := 4 }) 1 [0xFFFF0000, 1, 0xFFFFFFFF]
theorem witness_PartitionCommands_asidAlloc : Taken sAsid (.vf 0) (cw 0x101 0) 0x101 [all64, 1, all64] true true ∧
    ((sAsid.part 0).ownsRange 0xFFFF0000 0x10000 = true ∧ (sAsid.part 0).ownsPa 0xFFFFFFFF = true) ∧ ∃ a, sAsid.freeAsid (sAsid.part 0) = some a :=
  ⟨by unfold Taken; decide +kernel, by decide +kernel, freeAsid_some _ _ 0 (by decide +kernel)⟩
theorem witness_PartitionCommands_attest :
    Taken (prm sSys 1 [0, 1, 2, 3, 4, 1]) (.vf 0) (cw 0x401 0) 0x401 [all64, all64, all64, all64, all64, 1] true true ∧
    Taken (prm sSys 1 [0, 1, 2, 3, 4, 0]) (.vf 0) (cw 0x401 0) 0x401 [all64, all64, all64, all64, all64, 1] true true := by
  unfold Taken; decide +kernel
theorem witness_PartitionCommands_graphs :
    (let s := { net1 (sRep 1 .running) .system (.cell 1) (.loader 0) (.startAck 3 1) with cmds := [(1, { tag := 9, wait := .loading 0 3 2 [1, 2] })] }
     s.loadCmd 0 3 = some (1, { tag := 9, wait := .loading 0 3 2 [1, 2] }) ∧
     after (exec (.startAck 0) s) (fun t => decide ((t.inFlight 1).wait = .loading 0 3 2 [2])) = true) ∧
    (let s := { net1 (sRep 1 .running) .system (.cell 1) (.loader 0) (.startAck 3 1) with cmds := [(1, { tag := 9, wait := .loading 0 3 2 [1] })] }
     after (exec (.startAck 0) s) (fun t => t.bar 1 0x48) = 2) ∧
    (let s := prm ((sRep 1 .running).setPart 0 { (sRep 1 .running).part 0 with kicks := [] }) 1 [2]
     Taken s (.vf 0) (cw 0x202 0) 0x202 [0xFF] true true ∧ (s.part 0).graph 2 = some (graph1 1) ∧ (s.part 0).graphBusy 2 = false ∧
     s.loading 0 = false ∧ stat (exec (.graphUnload (.vf 0) (cw 0x202 0)) s) 1 = 1) := by unfold Taken; decide +kernel

theorem witness_DeviceCommands_checkpoints :
    Taken (prm sSys 1 [0x2000000, 7, 1]) (.vf 0) (cw 0x301 0) 0x301 [all64, all64, 1] true true ∧
    ((sSys.part 0).stopped = false ∧ (sSys.part 0).cut = .none ∧ (sSys.part 0).dumpOk 0x2000000 = true ∧
     stat (exec (.ckptPart (.vf 0) (cw 0x301 0)) (prm sSys 1 [0x2000000, 7, 1])) 1 = 0x10000) ∧
    Taken (prm sSys 0 [0x3000]) .pf (cw 0x302 0) 0x302 [all64] false false ∧
    (let s := prm (put sSys 0x3000 [(0, 8, 0x2000000), (8, 8, 7)]) 0 [0x3000]
     (s.ckptTable 0x3000).filter (fun y => (s.part y.1).open_) = [(0, 0x2000000, 7)] ∧ s.ckptBad 0 0x2000000 = none ∧
     ((s.ckptTable 0x3000).all fun y => (s.part y.1).open_ || (y.2.1 == 0 && y.2.2 == 0)) = true ∧
     stat (exec (.ckptDevice .pf (cw 0x302 0)) s) 0 = 0x10000) := by
  refine ⟨?_, ?_, ?_, ?_⟩ <;> first | decide +kernel | (unfold Taken; decide +kernel)
/-- Partition 0 without clusters, and an image of it as the device makes one: its record in memory, its digests and its signature. -/
def pImg : Part := { sSys.part 0 with clusters := [] }
def memImg : Memory := writeAll (fun k => hbmKey (0x2000000 + k)) (fun k => Config.imageByte 0xFFF k 0) 0x100000 []
def img0 : Image :=
  { part := pImg, cells := [], slots := [], lanes := [], refused := [], mem := memImg, dump := 0x2000000, tbc := 0, turn := 0
    digests := sectionDigests pImg memImg, signature := deviceSign (sectionDigests pImg memImg).flatten }
def sImg : State := { (prm sSys 1 [7, 0x2000000]).setPart 0 pImg with images := [(7, some img0)] }
theorem mread_memImg (k : Nat) (hk : k < 0x100000) : mread memImg (hbmKey (0x2000000 + k)) = Config.imageByte 0xFFF k 0 := by
  rw [memImg]
  exact mread_writeAll (fun k => hbmKey (0x2000000 + k)) _ _ _ (fun i j e => by simpa [hbmKey] using e) hk
theorem genuine_of (i : Image) (hc : i.part.cells = []) (hn : i.part.cellCount = 0)
    (h : ∀ k < 0x100000, mread i.mem (hbmKey (i.dump + k)) = Config.imageByte 0xFFF k i.turn) : i.genuine = true := by
  unfold Image.genuine
  rw [hc, hn]
  exact Bool.and_eq_true_iff.mpr ⟨rfl, List.all_eq_true.mpr fun k hk => beq_iff_eq.mpr (h k (List.mem_range.mp hk))⟩
theorem genuine_img0 : img0.genuine = true :=
  genuine_of img0 (by decide +kernel) (by decide +kernel) fun k hk => by simp only [img0]; exact mread_memImg k hk
theorem signed_of (i : Image) (hd : i.digests = sectionDigests i.part i.mem) (hs : i.signature = deviceSign i.digests.flatten) :
    i.signed = true := by
  simp [Image.signed, ← hd, hs]
theorem signed_img0 : img0.signed = true := signed_of img0 (by simp only [img0]) (by simp only [img0])
theorem witness_DeviceCommands_restore : Taken sImg (.vf 0) (cw 0x303 0) 0x303 [all64, all64] true true ∧
    ((sImg.part 0).cut = .none ∧ (∀ f ∈ sImg.cmds, f.2.cuts 0 = false) ∧ tget none sImg.images 7 = some img0 ∧
     (sImg.part 0).takes 0 img0 0x2000000 = true) ∧ ∃ x, (sImg.setBar 1 0 (cmd0Kept (cw 0x303 0))).restore 0 img0 = some x :=
  ⟨by unfold Taken; decide +kernel, ⟨by decide +kernel, by decide +kernel, rfl, by
    simp only [Part.takes, genuine_img0, signed_img0, Bool.and_true]; decide +kernel⟩, ⟨_, rfl⟩⟩
theorem witness_DeviceCommands_debug : (s0.part 0).named 15 = some [15] ∧ ((s0.part 0).named 0xFFF).map (·.length) = some 16 ∧ (s0.part 0).named 16 = none ∧
    Taken (prm s0 1 [15, 1]) (.vf 0) (cw 0x501 0) 0x501 [0xFFF, 1] true true ∧
    Taken (prm s0 1 [0xFFF]) (.vf 0) (cw 0x502 0) 0x502 [0xFFF] true true ∧
    Taken (prm s0 1 [0xFFF, 0x1000, 0x40000000, 0x7E]) (.vf 0) (cw 0x503 0) 0x503 [0xFFF, all64, all64, 0x7E] true true ∧
    (isPow2 0x40000000 = true ∧ after (exec (.debugHalt (.vf 0) (cw 0x501 0)) (prm s0 1 [15, 1])) (fun t => (t.cell 15).halted) = true ∧
     stat (exec (.debugResume (.vf 0) (cw 0x502 0)) (prm s0 1 [0xFFF])) 1 = 1 ∧
     after (exec (.traceConfig (.vf 0) (cw 0x503 0)) (prm s0 1 [0xFFF, 0x1000, 0x40000000, 0x7E])) (fun t => (t.cell 15).trace.bytes) = 0x40000000) := by
  refine ⟨?_, ?_, ?_, ?_, ?_, ?_, ?_⟩ <;> first | decide +kernel | (unfold Taken; decide +kernel)
theorem witness_DeviceCommands_power : Taken (prm s0 0 [2600]) .pf (cw 0x601 0) 0x601 [0xFFFFFFFF] false false ∧ 2920 + s0.floors ≤ 4 * 2600 ∧
    after (exec (.powerCapSet .pf (cw 0x601 0)) (prm s0 0 [2600])) (fun t => t.capTokens) = 10400 := by
  refine ⟨?_, ?_, ?_⟩ <;> first | decide +kernel | (unfold Taken; decide +kernel)
theorem witness_DeviceCommands_queries : Taken (prm s0 1 [0, 0]) (.vf 0) (cw 0x701 0) 0x701 [all64, all64] true false ∧
    Taken (prm s0 1 [1, 0]) (.vf 0) (cw 0x701 0) 0x701 [all64, all64] true false ∧ Taken (prm s0 0 [2, 64]) .pf (cw 0x701 47) 0x701 [all64, all64] true false ∧
    Taken (prm s0 0 [3, 0]) .pf (cw 0x701 255) 0x701 [all64, all64] true false ∧
    (after (exec (.queryIdentity (.vf 0) (cw 0x701 0)) (prm s0 1 [0, 0])) (fun t => t.bar 1 0x48) = 0x30720021 ∧
     stat (exec (.queryPartitionStatus (.vf 0) (cw 0x701 0)) (prm s0 1 [1, 0])) 1 = 1 ∧
     stat (exec (.queryViolationLog .pf (cw 0x701 47)) (prm s0 0 [2, 64])) 0 = 1 ∧
     stat (exec (.queryReelPorts .pf (cw 0x701 255)) (prm s0 0 [3, 0])) 0 = 1 ∧
     stat (exec (.queryIdentity (.vf 0) (cw 0x701 0)) { prm s0 1 [0, 0] with cmds := [(1, { tag := 1, wait := .mapping 1 1 })] }) 1 = 2) := by
  refine ⟨?_, ?_, ?_, ?_, ?_⟩ <;> first | decide +kernel | (unfold Taken; decide +kernel)
theorem witness_DeviceCommands_gateways : Taken (prm s0 0 [0xFF, 0xFFFF, 0xFFFFFFF, 0]) .pf (cw 0x801 0) 0x801 [0x3FF, 0xFFFF, 0xFFFFFFF, 1] false true ∧
    Taken (prm (s0.setLane 0 255 { gateway := some (1, 2) }) 0 [0xFF, 0, 0, 1]) .pf (cw 0x801 0) 0x801 [0x3FF, 0xFFFF, 0xFFFFFFF, 1] false true ∧
    ((s0.part 0).dies[0]? = some 0 ∧ (s0.lane 0 255).part = none ∧
     after (exec (.reelBind .pf (cw 0x801 0)) (prm s0 0 [0xFF, 0xFFFF, 0xFFFFFFF, 0])) (fun t => (t.lane 0 255).gateway.isSome) = true ∧
     stat (exec (.reelUnbind .pf (cw 0x801 0)) (prm (s0.setLane 0 255 { gateway := some (1, 2) }) 0 [0xFF, 0, 0, 1])) 0 = 1) ∧
    (((cw 0x6 0).extractLsb' 0 16).toNat ∉ opcodes ∧ stat (exec (.unknownOpcode (.vf 0) (cw 0x6 0)) s0) 1 = 3) := by
  refine ⟨?_, ?_, ?_, ?_⟩ <;> first | decide +kernel | (unfold Taken; decide +kernel)

/-! ### Witnesses: the machine as a whole -/

/-- NOP in context 0 alone comes next. -/
theorem witness_StepRunsDecoded : s0.flow.candidates = [.issue ⟨0, 0⟩] ∧ (({ s0.flow with cur := ⟨0, 0⟩ } : State).fetch ⟨0, 0⟩ matches .ok _ 1) = true ∧
    State.reset.flow.candidates = [.input .powerGood] ∧ (s0.setPart 0 { s0.part 0 with stopped := true }).flow.candidates = [] := by decide +kernel
theorem witness_StepRunsDecoded_event : (net1 (s0.setPart 0 { s0.part 0 with stopped := true }) .system (.cell 1) (.cell 0) (.closeMark 1 0 none 0)).flow.candidates =
    [.event (.closeMarkArrival 0)] := by decide +kernel
theorem witness_DecodeOfEncode : (Instr.nop sh).wf = true ∧ (Instr.nop sh).hasWord = true ∧ (decode [0x00001F9C] matches .ok _ 1) = true := by decide
theorem witness_MemoryStaysCanonical : State.reset.memOk = true ∧ goes (step State.reset) = true := by decide +kernel
theorem witness_CommitEffects : (s0.cell 0).dropping = [] := by decide
theorem witness_TrapsAreTaken : s0.me.once = none ∧ s0.me.wait ≠ some .mma ∧ s0.me.inOnce = false ∧ (s0.cell 0).bins.length < 16 ∧ s0.me.first = false ∧ (withMe fun x => { x with first := true }).me.first = true ∧
    (s0.cell 0).trace.bytes = 0 ∧ s0.me.r.binds = s0.me.snap.binds := by decide +kernel

end Sys2Proof.Tests
end

section
/-! Every step keeps every memory in its canonical form (O57): the memory of the device and the memories of the images in the safe tier.

The proof follows the model. One lemma for each operation says that the state it comes to has its memories in canonical form when the state
it starts from has; each cites the lemmas of the operations that its definition calls. Almost all operations leave `mem` and `images` as
they were (`memOk_with`). Those that write them go through `mwrite`, `writeBytes`, `writeLE` and `clearRange`, which keep the form (the laws
of memory), and the graph loader through a `Plan`, whose own memory is followed the same way; an image streamed out keeps part of the memory
of the device (`memOk_stream`). -/

namespace Sys2Proof.Machine

/-! ### Which memories a state holds -/

/-- Every image of the safe tier in canonical form. -/
def ImagesOk (l : Tbl (Option Image)) : Prop := (l.all fun x => x.2.all fun (i : Image) => i.mem.wf) = true

theorem State.memOk_iff {s : State} : s.memOk = true ↔ s.mem.wf = true ∧ ImagesOk s.images := by
  simp only [State.memOk, Bool.and_eq_true, ImagesOk]

theorem mem_wf {s : State} (h : s.memOk = true) : s.mem.wf = true := (State.memOk_iff.mp h).1
theorem images_ok {s : State} (h : s.memOk = true) : ImagesOk s.images := (State.memOk_iff.mp h).2

theorem memOk_mk {s : State} (hm : s.mem.wf = true) (hi : ImagesOk s.images) : s.memOk = true := State.memOk_iff.mpr ⟨hm, hi⟩

theorem memOk_setMem {s : State} {m : Memory} (h : s.memOk = true) (hm : m.wf = true) : ({ s with mem := m } : State).memOk = true :=
  have hi : ImagesOk s.images := images_ok h
  memOk_mk hm hi

/-- A state whose memory and images are those of another, whatever its other fields: what an update of other fields makes. The fields are
written out so that the statement matches such an update as it stands, and no check compares the two states. -/
theorem memOk_with {s : State} {boot tbc cells clusters dies parts rowMaps failedPhys hotPhys physTemp spareCyc machineCheck rails railNext
    capTokens weirDone violations violationOverwrites reels bars cmds hookStage hookTable fwDigest i3cAddr i3cStatus bar2Data irqs sentAt
    heldBack invals net refused arbiters gates relDeps inputs cur nextId turn} (h : s.memOk = true) :
    (State.mk s.mem boot tbc cells clusters dies parts rowMaps failedPhys hotPhys physTemp spareCyc machineCheck rails railNext capTokens
      weirDone violations violationOverwrites reels bars cmds s.images hookStage hookTable fwDigest i3cAddr i3cStatus bar2Data irqs sentAt
      heldBack invals net refused arbiters gates relDeps inputs cur nextId turn).memOk = true := h

/-! ### What carries a state -/

/-- The state that an effect comes to has its memories in canonical form. -/
def Res.MemOk : Res → Prop
  | .done s => s.memOk = true
  | .trap _ s => s.memOk = true
  | .wait _ s => s.memOk = true

/-- The state that reading an operand comes to has its memories in canonical form. -/
def Got.MemOk {α : Type} : Got α → Prop
  | .ok _ s => s.memOk = true
  | .trap _ s => s.memOk = true
  | .wait _ s => s.memOk = true

/-- What a command comes to has its memories in canonical form. -/
def Cmd.MemOk : Cmd → Prop
  | .fail _ => True
  | .done _ s => s.memOk = true
  | .wait _ s => s.memOk = true

/-- A step that, where it goes on, goes on with its memories in canonical form. -/
def OutOk : Out → Prop
  | .next s => s.memOk = true
  | .fault _ => True
  | .refused _ => True

/-- The state that there may be has its memories in canonical form. -/
def SomeOk : Option State → Prop
  | some s => s.memOk = true
  | none => True

section
variable {α : Type} {s t : State}

theorem resOk_done (h : s.memOk = true) : (Res.done s).MemOk := h
theorem resOk_trap {c} (h : s.memOk = true) : (Res.trap c s).MemOk := h
theorem resOk_wait {w} (h : s.memOk = true) : (Res.wait w s).MemOk := h
theorem gotOk_ok {v : α} (h : s.memOk = true) : (Got.ok v s).MemOk := h
theorem gotOk_trap {c} (h : s.memOk = true) : (Got.trap (α := α) c s).MemOk := h
theorem gotOk_wait {w} (h : s.memOk = true) : (Got.wait (α := α) w s).MemOk := h
theorem cmdOk_done {l} (h : s.memOk = true) : (Cmd.done l s).MemOk := h
theorem cmdOk_wait {w} (h : s.memOk = true) : (Cmd.wait w s).MemOk := h
theorem outOk_of_next (h : s.memOk = true) : OutOk (.next s) := h
theorem someOk_some (h : s.memOk = true) : SomeOk (some s) := h

theorem Res.MemOk.done {r : Res} (h : r.MemOk) (e : r = .done s) : s.memOk = true := by subst e; exact h
theorem Res.MemOk.trap {r : Res} {c} (h : r.MemOk) (e : r = .trap c s) : s.memOk = true := by subst e; exact h
theorem Res.MemOk.wait {r : Res} {w} (h : r.MemOk) (e : r = .wait w s) : s.memOk = true := by subst e; exact h
theorem Got.MemOk.ok {g : Got α} {v} (h : g.MemOk) (e : g = .ok v s) : s.memOk = true := by subst e; exact h
theorem Got.MemOk.trap {g : Got α} {c} (h : g.MemOk) (e : g = .trap c s) : s.memOk = true := by subst e; exact h
theorem Got.MemOk.wait {g : Got α} {w} (h : g.MemOk) (e : g = .wait w s) : s.memOk = true := by subst e; exact h
theorem Cmd.MemOk.done {r : Cmd} {l} (h : r.MemOk) (e : r = .done l s) : s.memOk = true := by subst e; exact h
theorem Cmd.MemOk.wait {r : Cmd} {w} (h : r.MemOk) (e : r = .wait w s) : s.memOk = true := by subst e; exact h
theorem OutOk.next {o : Out} (h : OutOk o) (e : o = .next s) : s.memOk = true := by subst e; exact h
theorem SomeOk.some {o : Option State} (h : SomeOk o) (e : o = .some s) : s.memOk = true := by subst e; exact h
theorem memOk_of_snd {p : α × State} {a} (h : p.2.memOk = true) (e : p = (a, s)) : s.memOk = true := by subst e; exact h
theorem memOk_of_snd₃ {β γ : Type} {p : α × β × γ × State} {a b c} (h : p.2.2.2.memOk = true) (e : p = (a, b, c, s)) : s.memOk = true := by
  subst e; exact h
theorem memOk_of_fst {p : State × α} {a} (h : p.1.memOk = true) (e : p = (s, a)) : s.memOk = true := by subst e; exact h

theorem resOk_then {g : Got α} {k : α → State → Res} (hg : g.MemOk) (hk : ∀ v s, s.memOk = true → (k v s).MemOk) : (g.then k).MemOk := by
  cases g with
  | ok v s => exact hk v s hg
  | trap t s => exact hg
  | wait w s => exact hg

/-! ### Choices and loops -/

variable {c : Prop} [Decidable c]

theorem memOk_ite (hs : s.memOk = true) (ht : t.memOk = true) : (if c then s else t).memOk = true := by split <;> assumption
theorem outOk_ite {o p : Out} (ho : OutOk o) (hp : OutOk p) : OutOk (if c then o else p) := by split <;> assumption
theorem resOk_ite {r q : Res} (hr : r.MemOk) (hq : q.MemOk) : (if c then r else q).MemOk := by split <;> assumption
theorem gotOk_ite {g f : Got α} (hg : g.MemOk) (hf : f.MemOk) : (if c then g else f).MemOk := by split <;> assumption
theorem cmdOk_ite {r q : Cmd} (hr : r.MemOk) (hq : q.MemOk) : (if c then r else q).MemOk := by split <;> assumption
theorem someOk_ite {o p : Option State} (ho : SomeOk o) (hp : SomeOk p) : SomeOk (if c then o else p) := by split <;> assumption

theorem memOk_fst_mk {a : α} (h : s.memOk = true) : (s, a).1.memOk = true := h
theorem memOk_snd_ite {p q : α × State} (hp : p.2.memOk = true) (hq : q.2.memOk = true) : (if c then p else q).2.memOk = true := by
  split <;> assumption

theorem memOk_getD {o : Option State} (ho : SomeOk o) (h : s.memOk = true) : (o.getD s).memOk = true := by
  cases o with
  | none => exact h
  | some t => exact ho

theorem someOk_map {o : Option α} {f : α → State} (hf : ∀ x, (f x).memOk = true) : SomeOk (o.map f) := by
  cases o with
  | none => trivial
  | some x => exact hf x

theorem someOk_bind {o : Option α} {f : α → Option State} (hf : ∀ x, SomeOk (f x)) : SomeOk (o.bind f) := by
  cases o with
  | none => trivial
  | some x => exact hf x

theorem memOk_foldl {f : State → α → State} {l : List α} (hf : ∀ s x, s.memOk = true → (f s x).memOk = true)
    (h : s.memOk = true) : (l.foldl f s).memOk = true := by
  induction l generalizing s with
  | nil => exact h
  | cons x l ih => exact ih (hf _ _ h)

/-! ### Memory -/

theorem wf_foldl {f : Memory → α → Memory} {m : Memory} {l : List α} (hf : ∀ m x, m.wf = true → (f m x).wf = true)
    (h : m.wf = true) : Memory.wf (l.foldl f m) = true := by
  induction l generalizing m with
  | nil => exact h
  | cons x l ih => exact ih (hf _ _ h)

theorem wf_writeAll {at_ : Nat → Nat} {f : Nat → Byte} {n : Nat} {m : Memory} (h : m.wf = true) : (writeAll at_ f n m).wf = true :=
  wf_foldl_mwrite _ _ _ h

end

section
variable {s : State}

/-! ### Cells, contexts, clusters, dies and partitions -/

theorem memOk_setCell (h : s.memOk = true) {n c} : (s.setCell n c).memOk = true := memOk_with h
theorem memOk_setCtx (h : s.memOk = true) {w x} : (s.setCtx w x).memOk = true := memOk_setCell h
theorem memOk_setMe (h : s.memOk = true) {x} : (s.setMe x).memOk = true := memOk_setCtx h
theorem memOk_setMyCell (h : s.memOk = true) {c} : (s.setMyCell c).memOk = true := memOk_setCell h
theorem memOk_setCluster (h : s.memOk = true) {k c} : (s.setCluster k c).memOk = true := memOk_with h
theorem memOk_setDie (h : s.memOk = true) {d x} : (s.setDie d x).memOk = true := memOk_with h
theorem memOk_setPart (h : s.memOk = true) {p x} : (s.setPart p x).memOk = true := memOk_with h
theorem memOk_setReel (h : s.memOk = true) {k x} : (s.setReel k x).memOk = true := memOk_with h
theorem memOk_post (h : s.memOk = true) {m} : (s.post m).memOk = true := memOk_with h
theorem memOk_take (h : s.memOk = true) {i} : (s.take i).memOk = true := memOk_with h

theorem memOk_reachStations (h : s.memOk = true) : s.reachStations.memOk = true := by
  unfold State.reachStations
  refine memOk_foldl (fun _ _ h1 => ?_) h
  split
  · exact memOk_ite (memOk_with h1) h1
  · exact h1

theorem memOk_report (h : s.memOk = true) {pn src r} : (s.report pn src r).memOk = true := memOk_post (memOk_ite (memOk_setPart h) h)
theorem memOk_reportLimited (h : s.memOk = true) {pn src r} : (s.reportLimited pn src r).memOk = true :=
  memOk_ite (memOk_with h) (memOk_report (memOk_with h))
theorem memOk_logViolation (h : s.memOk = true) {v} : (s.logViolation v).memOk = true := memOk_ite (memOk_with h) (memOk_with h)

/-! ### Addresses and the ROM walk -/

theorem memOk_unpoison (h : s.memOk = true) {dst key n} : (s.unpoison dst key n).memOk = true := by
  unfold State.unpoison
  split
  · exact memOk_setCluster h
  · exact h

theorem memOk_written (h : s.memOk = true) {pa n} : (s.written pa n).memOk = true := memOk_ite h (memOk_with h)
theorem memOk_hbmWrite (h : s.memOk = true) {pa n v} : (s.hbmWrite pa n v).memOk = true :=
  memOk_written (memOk_setMem h (wf_writeLE _ _ _ (mem_wf h)))
theorem memOk_hbmBytes (h : s.memOk = true) {pa b} : (s.hbmBytes pa b).memOk = true :=
  memOk_written (memOk_setMem h (wf_writeBytes _ _ (mem_wf h)))

/-! ### The inbox of a cell -/

theorem memOk_reachPorts (h : s.memOk = true) : s.reachPorts.memOk = true :=
  memOk_foldl (fun _ _ h1 => memOk_ite h1 (memOk_ite h1 (memOk_with h1))) h

/-! ### The scratchpad, descriptors and the tailrace pool -/

theorem memOk_noteRel (h : s.memOk = true) {key n r} : (s.noteRel key n r).memOk = true := memOk_ite h (memOk_with h)
theorem memOk_moveRel (h : s.memOk = true) {src dst n} : (s.moveRel src dst n).memOk = true := memOk_noteRel (memOk_noteRel h)
theorem memOk_perform (h : s.memOk = true) {cell b} : (s.perform cell b).memOk = true := memOk_setMem h (wf_writeLE _ _ _ (mem_wf h))

theorem memOk_performAll {cell l} (h : s.memOk = true) : (performAll cell l s).memOk = true := by
  induction l generalizing s with
  | nil => exact h
  | cons _ _ ih => exact ih (memOk_perform h)

theorem memOk_settle (h : s.memOk = true) {cell} : (s.settle cell).memOk = true := memOk_ite h (memOk_setCell (memOk_performAll h))

theorem memOk_settleWhere (h : s.memOk = true) {cell need} : (s.settleWhere cell need).memOk = true := by
  unfold State.settleWhere
  extract_lets
  split
  exact memOk_ite h (memOk_setCell (memOk_performAll h))

theorem memOk_settleFor (h : s.memOk = true) {cell off n} : (s.settleFor cell off n).memOk = true := memOk_settleWhere h
theorem memOk_settleNear (h : s.memOk = true) {w l} : (s.settleNear w l).memOk = true := memOk_settleWhere h
theorem memOk_chanWord (h : s.memOk = true) {p id k v} : (s.chanWord p id k v).memOk = true := memOk_hbmWrite h

theorem memOk_chanWords {p id n l} (h : s.memOk = true) : (chanWords p id n l s).memOk = true := by
  induction l generalizing p id n s with
  | nil => exact h
  | cons _ _ ih => exact ih (memOk_chanWord h)

theorem memOk_setChanDesc (h : s.memOk = true) {p d} : (s.setChanDesc p d).memOk = true := memOk_chanWords h
theorem memOk_acquired (h : s.memOk = true) {w l} : (s.acquired w l).memOk = true := memOk_ite h (memOk_setCtx h)
theorem memOk_setWcopy (h : s.memOk = true) {cell id w} : (s.setWcopy cell id w).memOk = true := memOk_setCell h
theorem memOk_setRcopy (h : s.memOk = true) {cell id r} : (s.setRcopy cell id r).memOk = true := memOk_setCell h

theorem memOk_writeBackW (h : s.memOk = true) {cell id w} : (s.writeBackW cell id w).memOk = true := by
  unfold State.writeBackW
  extract_lets _ s1
  have h1 : s1.memOk = true := memOk_chanWord h
  exact memOk_ite (memOk_chanWord (memOk_chanWord h1)) h1

theorem memOk_writeBackR (h : s.memOk = true) {cell id r} : (s.writeBackR cell id r).memOk = true := by
  unfold State.writeBackR
  extract_lets _ s1
  have h1 : s1.memOk = true := memOk_chanWords h
  exact memOk_ite (memOk_chanWord h1) h1

theorem memOk_takeBlock (h : s.memOk = true) {pn used res} : (s.takeBlock pn used res).2.memOk = true := memOk_snd_ite (memOk_setPart h) h
theorem memOk_freeBlocks (h : s.memOk = true) {pn l} : (s.freeBlocks pn l).memOk = true := memOk_setPart h
theorem memOk_linkBlock (h : s.memOk = true) {p b next} : (s.linkBlock p b next).memOk = true := memOk_hbmWrite h

theorem memOk_chainPut {pn ch n res b} (h : s.memOk = true) : (s.chainPut pn ch n res b).2.memOk = true := by
  unfold State.chainPut
  extract_lets
  split
  next ch1 s1 e =>
    have h1 : s1.memOk = true := by
      refine memOk_of_snd ?_ e
      split
      · exact h
      · split
        next blk s2 e2 =>
          have h2 : s2.memOk = true := memOk_of_snd (memOk_takeBlock h) e2
          split
          · exact memOk_linkBlock h2
          · exact h2
        · exact memOk_of_snd (memOk_takeBlock h) ‹_›
    split
    · exact memOk_hbmBytes h1
    · exact h1

theorem memOk_chainTake (h : s.memOk = true) {pn ch n} : (s.chainTake pn ch n).2.memOk = true := memOk_ite h (memOk_freeBlocks h)
theorem memOk_chainTrim (h : s.memOk = true) {pn ch n} : (s.chainTrim pn ch n).2.memOk = true := memOk_ite h (memOk_freeBlocks h)

theorem memOk_spilled (h : s.memOk = true) {cell n p} : (s.spilled cell n p).memOk = true := by
  unfold State.spilled
  split
  exact memOk_setCell (memOk_of_snd (memOk_chainPut h) ‹_›)

theorem memOk_accept (h : s.memOk = true) {cell p} : (s.accept cell p).memOk = true := by
  unfold State.accept
  extract_lets _ s1
  have h1 : s1.memOk = true := memOk_setCell h
  exact memOk_ite (memOk_spilled h1) h1

theorem memOk_tailAppend {pn d x r} (h : s.memOk = true) : (s.tailAppend pn d x r).1.memOk = true := by
  unfold State.tailAppend
  extract_lets
  split
  next blk s1 e =>
    have h1 : s1.memOk = true := by
      refine memOk_of_snd ?_ e
      exact memOk_snd_ite (memOk_takeBlock h) h
    exact memOk_noteRel (memOk_hbmWrite (memOk_ite (memOk_linkBlock h1) h1))

theorem memOk_elemArrive (h : s.memOk = true) {cell id x rel} : (s.elemArrive cell id x rel).memOk = true := by
  unfold State.elemArrive
  extract_lets _ _ _ _ s1
  have h1 : s1.memOk = true := memOk_settleFor h
  refine memOk_ite (memOk_setRcopy (memOk_noteRel (memOk_setMem h1 (wf_writeLE _ _ _ (mem_wf h1))))) ?_
  split
  exact memOk_setRcopy (memOk_of_fst (memOk_tailAppend h) ‹_›)

theorem memOk_takeElems (h : s.memOk = true) {w q} : (s.takeElems w q).memOk = true := by
  unfold State.takeElems
  extract_lets
  split
  · exact memOk_ite h (memOk_acquired (memOk_setCtx h))
  · exact h

theorem memOk_syncW (h : s.memOk = true) {cell id} : (s.syncW cell id).memOk = true := memOk_ite h (memOk_writeBackW h)
theorem memOk_syncR (h : s.memOk = true) {cell id} : (s.syncR cell id).memOk = true := memOk_ite h (memOk_writeBackR h)

theorem memOk_dropCopies (h : s.memOk = true) {p d} : (s.dropCopies p d).memOk = true := by
  unfold State.dropCopies
  refine memOk_ite h ?_
  extract_lets _ _ s1
  have h1 : s1.memOk = true := memOk_ite h (memOk_setWcopy h)
  exact memOk_ite h1 (memOk_setRcopy h1)

theorem memOk_releaseEnd (h : s.memOk = true) {cell id rdr} : (s.releaseEnd cell id rdr).memOk = true :=
  memOk_dropCopies (memOk_ite (memOk_syncR h) (memOk_syncW h))
theorem memOk_tidyW (h : s.memOk = true) {cell id} : (s.tidyW cell id).memOk = true :=
  memOk_ite h (memOk_ite (memOk_syncW h) (memOk_releaseEnd h))
theorem memOk_retirePops (h : s.memOk = true) {cell id n} : (s.retirePops cell id n).memOk = true :=
  memOk_ite h (memOk_post (memOk_ite (memOk_syncR (memOk_setRcopy h)) (memOk_writeBackR h)))

theorem memOk_unbind (h : s.memOk = true) {w q} : (s.unbind w q).memOk = true := by
  unfold State.unbind
  extract_lets
  split
  · exact h
  · exact memOk_releaseEnd (memOk_setCtx h)

theorem memOk_unbindAll {w l} (h : s.memOk = true) : (unbindAll w l s).memOk = true := by
  induction l generalizing s with
  | nil => exact h
  | cons _ _ ih => exact ih (memOk_unbind h)

theorem memOk_takeEnd (h : s.memOk = true) {cell id rdr} : (s.takeEnd cell id rdr).memOk = true :=
  memOk_ite (memOk_setRcopy h) (memOk_setWcopy h)

/-! ### The shared operations on a context -/

theorem memOk_logAway (h : s.memOk = true) {cell kind at_ va pa} : (s.logAway cell kind at_ va pa).memOk = true := memOk_logViolation h

theorem memOk_traceLost (h : s.memOk = true) {cell va} : (s.traceLost cell va).memOk = true := by
  unfold State.traceLost
  extract_lets
  split
  · exact memOk_report (memOk_logAway h)
  · exact memOk_logAway h
  · exact h

theorem memOk_traceAll (h : s.memOk = true) {cell l} : (s.traceAll cell l).memOk = true := by
  unfold State.traceAll
  split
  · exact memOk_traceLost h
  · refine memOk_foldl (fun _ _ h1 => ?_) h
    split
    · exact memOk_noteRel (memOk_hbmWrite h1)
    · exact h1

theorem memOk_trace (h : s.memOk = true) {w type pc rest} : (s.trace w type pc rest).memOk = true := by
  unfold State.trace
  extract_lets _ _ _ _ s1
  have h1 : s1.memOk = true := memOk_traceAll h
  exact memOk_ite h (memOk_setCell (memOk_ite (memOk_traceAll h1) h1))

theorem memOk_fresh (h : s.memOk = true) : s.fresh.2.memOk = true := memOk_with h
theorem memOk_subtractOne (h : s.memOk = true) {cell j} : (s.subtractOne cell j).memOk = true := memOk_ite (memOk_setCell h) (memOk_post h)
theorem memOk_subtract (h : s.memOk = true) {cell jobs} : (s.subtract cell jobs).memOk = true :=
  memOk_foldl (fun _ _ h1 => memOk_subtractOne h1) h
theorem memOk_paySubs (h : s.memOk = true) {cell} : (s.paySubs cell).memOk = true :=
  memOk_ite h (memOk_foldl (fun _ _ h1 => memOk_subtractOne h1) (memOk_setCell h))

theorem memOk_inboxTakes (h : s.memOk = true) {cell p} : (s.inboxTakes cell p).memOk = true := by
  unfold State.inboxTakes
  extract_lets
  split
  · exact memOk_ite (memOk_subtract (memOk_setCell h)) (memOk_accept h)
  · exact memOk_ite (memOk_accept h) (memOk_reportLimited (memOk_setCell h))
  · exact memOk_accept h

theorem memOk_sendParcel (h : s.memOk = true) {cell place p} : (s.sendParcel cell place p).memOk = true :=
  memOk_ite (memOk_inboxTakes h) (memOk_post h)

theorem memOk_noteOut (h : s.memOk = true) {w sd home write} : (s.noteOut w sd home write).2.memOk = true := by
  unfold State.noteOut
  split
  exact memOk_setCtx (memOk_of_snd (memOk_fresh h) ‹_›)

theorem memOk_postSent (h : s.memOk = true) {w bytes m} : (s.postSent w bytes m).memOk = true := memOk_post (memOk_setCtx h)

theorem someOk_leave (h : s.memOk = true) {w sd} : SomeOk (s.leave w sd) := by
  unfold State.leave
  extract_lets
  refine someOk_ite trivial ?_
  split
  · exact someOk_ite (someOk_some h) trivial
  · exact someOk_ite trivial (someOk_some (memOk_sendParcel h))
  · exact someOk_ite trivial (someOk_ite (someOk_some (memOk_sendParcel h)) (someOk_some (memOk_postSent h)))
  · refine someOk_ite trivial ?_
    extract_lets
    split
    exact memOk_post (memOk_of_snd (memOk_noteOut h) ‹_›)
  · refine someOk_ite trivial ?_
    split
    exact memOk_post (memOk_of_snd (memOk_noteOut h) ‹_›)
  · refine someOk_ite trivial ?_
    split
    exact memOk_post (memOk_of_snd (memOk_noteOut h) ‹_›)
  · refine someOk_ite trivial ?_
    split
    exact memOk_post (memOk_of_snd (memOk_noteOut h) ‹_›)
  · exact memOk_post (memOk_setCtx h)
  · exact someOk_ite trivial (someOk_some (memOk_postSent h))
  · exact memOk_post h
  · exact memOk_post h

theorem memOk_leaveOwn {w l} (h : s.memOk = true) : (leaveOwn w l s).2.memOk = true := by
  induction l generalizing s with
  | nil => exact h
  | cons _ _ ih =>
    rw [leaveOwn]
    split
    · exact h
    · exact h
    · split
      · exact ih h
      · split
        · exact ih ((someOk_leave h).some ‹_›)
        · exact h

theorem memOk_leaveAll {w l} (h : s.memOk = true) : (leaveAll w l s).2.memOk = true := by
  induction l generalizing s with
  | nil => exact h
  | cons _ _ ih =>
    rw [leaveAll]
    split
    · exact ih ((someOk_leave h).some ‹_›)
    · split
      · exact h
      · exact h
      · refine memOk_snd_ite h ?_
        split
        exact memOk_of_snd (memOk_leaveOwn h) ‹_›

theorem memOk_pump (h : s.memOk = true) {w} : (s.pump w).memOk = true := by
  unfold State.pump
  extract_lets
  refine memOk_ite h ?_
  split
  exact memOk_foldl (fun _ _ h1 => memOk_tidyW h1) (memOk_setCtx (memOk_of_snd (memOk_leaveAll h) ‹_›))

theorem memOk_retireChans {w l} (h : s.memOk = true) : (retireChans w l s).memOk = true := by
  induction l generalizing s with
  | nil => exact h
  | cons _ _ ih => exact ih (memOk_retirePops h)

theorem memOk_noteReleases {cell l} (h : s.memOk = true) : (noteReleases cell l s).memOk = true := by
  induction l generalizing s with
  | nil => exact h
  | cons _ _ ih =>
    rw [noteReleases]
    refine ih ?_
    split
    · exact memOk_setWcopy h
    · exact memOk_setWcopy h
    · exact h

theorem memOk_commit (h : s.memOk = true) {w why} : (s.commit w why).memOk = true := by
  unfold State.commit
  extract_lets s1 _ _ _ _ _ s2
  have h1 : s1.memOk = true := memOk_retireChans h
  have h2 : s2.memOk = true := memOk_setCtx (memOk_ite h1 (memOk_noteReleases (memOk_fresh h1)))
  exact memOk_pump (memOk_trace (memOk_ite (memOk_setCell h2) h2))

theorem memOk_undo (h : s.memOk = true) {cell x} : (s.undo cell x).memOk = true := by
  unfold State.undo
  split
  · exact memOk_setMem h (wf_writeLE _ _ _ (mem_wf h))
  · exact memOk_setCell h
  · exact memOk_setCell h
  · exact memOk_ite (memOk_setCell h) h
  · exact memOk_setCell h
  · exact memOk_setCell h

theorem memOk_undoAll {cell l} (h : s.memOk = true) : (undoAll cell l s).memOk = true := by
  induction l generalizing s with
  | nil => exact h
  | cons _ _ ih => exact memOk_undo (ih h)

theorem memOk_returnCredits {cell l} (h : s.memOk = true) : (returnCredits cell l s).memOk = true := by
  fun_induction returnCredits cell l s with
  | case1 => exact h
  | case2 _ _ _ _ _ _ _ _ _ _ _ _ _ ih => exact ih (memOk_setWcopy h)
  | case3 _ _ _ _ ih => exact ih h

theorem memOk_oust (h : s.memOk = true) {w e} : (s.oust w e).memOk = true := memOk_ite h (memOk_setCell h)
theorem memOk_rebind (h : s.memOk = true) {w} : (s.rebind w).memOk = true :=
  memOk_ite h (memOk_foldl (fun _ _ h1 => memOk_releaseEnd h1) (memOk_foldl (fun _ _ h2 => memOk_takeEnd (memOk_oust h2)) (memOk_setCtx h)))

theorem memOk_unmatch (h : s.memOk = true) {w} : (s.unmatch w).memOk = true := by
  unfold State.unmatch
  split
  · exact h
  · exact memOk_foldl (fun _ _ h1 => memOk_ite (memOk_setCtx h1) h1) (memOk_setCtx h)

theorem memOk_rollbackOne (h : s.memOk = true) {w} : (s.rollbackOne w).memOk = true :=
  memOk_setCell (memOk_setCtx (memOk_rebind (memOk_returnCredits (memOk_undoAll (memOk_settle (memOk_unmatch h))))))

theorem memOk_rollback (h : s.memOk = true) {w} : (s.rollback w).memOk = true := by
  unfold State.rollback
  split
  · exact memOk_rollbackOne (memOk_rollbackOne h)
  · exact memOk_rollbackOne h

theorem memOk_consumeFirst (h : s.memOk = true) {w} : (s.consumeFirst w).memOk = true := memOk_ite h (memOk_setCell (memOk_setCtx h))
theorem memOk_reportLatched (h : s.memOk = true) {cell r} : (s.reportLatched cell r).memOk = true :=
  memOk_ite h (memOk_ite (memOk_report h) (memOk_reportLimited h))

theorem memOk_endActivation (h : s.memOk = true) {w} : (s.endActivation w).memOk = true := by
  unfold State.endActivation
  extract_lets s1 _ s2
  have h1 : s1.memOk = true := memOk_unbindAll h
  have h2 : s2.memOk = true := by
    unfold s2
    split
    · exact memOk_reportLatched h1
    · exact h1
  exact memOk_setCell (memOk_setCtx (memOk_trace h2))

theorem memOk_endIfDone (h : s.memOk = true) {w} : (s.endIfDone w).memOk = true :=
  memOk_ite h (memOk_ite (memOk_setCtx h) (memOk_endActivation (memOk_commit h)))
theorem memOk_logTrap (h : s.memOk = true) {w t} : (s.logTrap w t).memOk = true := memOk_ite (memOk_logViolation h) h
theorem memOk_trapRegs (h : s.memOk = true) {w t pc} : (s.trapRegs w t pc).memOk = true := memOk_trace (memOk_setCtx (memOk_rollback h))

theorem memOk_trapOne (h : s.memOk = true) {w t pc} : (s.trapOne w t pc).memOk = true := by
  unfold State.trapOne
  extract_lets s1
  have h1 : s1.memOk = true := memOk_trapRegs h
  exact memOk_report (memOk_ite (memOk_setCell (memOk_subtract (memOk_setCtx (memOk_unbindAll h1)))) (memOk_setCell (memOk_setCtx h1)))

theorem memOk_abortMma (h : s.memOk = true) {cell} : (s.abortMma cell).memOk = true := by
  unfold State.abortMma
  refine memOk_foldl (fun _ _ h1 => ?_) (memOk_setCell h)
  split
  · exact h1
  · exact memOk_trapOne (memOk_setCell h1)

theorem memOk_abortOnce (h : s.memOk = true) {w o} : (s.abortOnce w o).memOk = true :=
  memOk_foldl (fun _ _ h1 => memOk_ite (memOk_trapOne h1) h1) h

theorem memOk_takeTrap (h : s.memOk = true) {w t} : (s.takeTrap w t).memOk = true := by
  unfold State.takeTrap
  extract_lets _ s1
  have h1 : s1.memOk = true := memOk_trapOne h
  split
  · exact memOk_abortOnce (memOk_trapOne (memOk_setCtx h))
  · exact memOk_ite (memOk_abortMma h1) h1

theorem memOk_verdictResume (h : s.memOk = true) {cell t} : (s.verdictResume cell t).memOk = true := by
  unfold State.verdictResume
  extract_lets
  split <;> exact memOk_setCell h

theorem memOk_verdictDiscard {cell t} (h : s.memOk = true) : (s.verdictDiscard cell t).1.memOk = true := by
  unfold State.verdictDiscard
  extract_lets
  split
  · exact memOk_fst_mk (memOk_subtract (memOk_setCell h))
  · exact memOk_fst_mk (memOk_endActivation (memOk_subtract (memOk_setCell h)))

theorem outOk_finish {r : Res} (hr : r.MemOk) {k : State → State} (hk : ∀ s, s.memOk = true → (k s).memOk = true) : OutOk (finish r k) := by
  cases r with
  | done s => exact hk _ hr
  | trap t s => exact memOk_takeTrap (memOk_logTrap hr)
  | wait w s => exact memOk_setMe hr

theorem outOk_finishLen {n} {r : Res} (hr : r.MemOk) : OutOk (finishLen n r) := outOk_finish hr fun _ h1 => memOk_setMe h1
theorem memOk_commitBefore (h : s.memOk = true) : s.commitBefore.memOk = true := memOk_ite h (memOk_commit h)

theorem outOk_boundary {n} (h : s.memOk = true) {body : State → Res} (hbody : ∀ s, s.memOk = true → (body s).MemOk) :
    OutOk (boundary n s body) :=
  outOk_ite (outOk_finish (resOk_wait h) fun _ h1 => h1)
    (outOk_ite (outOk_of_next (memOk_endActivation (memOk_commitBefore h)))
      (outOk_finish (hbody _ (memOk_commitBefore h)) fun _ h2 => memOk_commit (memOk_setMe h2)))

theorem resOk_afterAcquire (h : s.memOk = true) {k : Res} (hk : k.MemOk) : (afterAcquire s k).MemOk := resOk_ite (resOk_wait h) hk

theorem resOk_withRoomOf (h : s.memOk = true) {need} {k : State → Res} (hk : ∀ s, s.memOk = true → (k s).MemOk) :
    (withRoomOf s need k).MemOk := by
  unfold withRoomOf
  refine resOk_ite (hk _ h) ?_
  split
  · exact h
  · exact resOk_ite (resOk_wait h) (resOk_wait (memOk_commit h))

theorem resOk_withRoom (h : s.memOk = true) {bytes recs} {k : State → Res} (hk : ∀ s, s.memOk = true → (k s).MemOk) :
    (withRoom s bytes recs k).MemOk :=
  resOk_withRoomOf h fun _ h1 => hk _ h1

/-! ### The tile-walk engine -/

theorem memOk_setXfer (h : s.memOk = true) {cell slot x} : (s.setXfer cell slot x).memOk = true := memOk_setCell h
theorem memOk_engineMiss (h : s.memOk = true) {cell slot a k} : (s.engineMiss cell slot a k).memOk = true := memOk_post h

theorem memOk_engineSend (h : s.memOk = true) {cell slot op k a data} : (s.engineSend cell slot op k a data).memOk = true := by
  unfold State.engineSend
  extract_lets
  split
  · exact memOk_setXfer h
  · exact memOk_engineMiss (memOk_setXfer h)
  · exact memOk_ite (memOk_setXfer h) (memOk_post (memOk_setXfer h))

theorem memOk_engineNext (h : s.memOk = true) {cell slot} : (s.engineNext cell slot).memOk = true := by
  unfold State.engineNext
  extract_lets
  refine memOk_ite h ?_
  split
  · exact h
  · exact memOk_ite h (memOk_ite (memOk_engineSend h) (memOk_engineSend h))

theorem memOk_engineGot (h : s.memOk = true) {cell slot k data} : (s.engineGot cell slot k data).memOk = true := memOk_engineSend h
theorem memOk_engineDone (h : s.memOk = true) {cell slot k} : (s.engineDone cell slot k).memOk = true := memOk_engineNext (memOk_setXfer h)

/-! ### Floating-point flags -/

theorem resOk_commitF (h : s.memOk = true) {raised write} : (commitF s raised write).MemOk :=
  resOk_ite (resOk_trap h) (resOk_done (memOk_setMe h))

/-! ### Operands and destinations -/

theorem gotOk_headQ (h : s.memOk = true) {q} : (s.headQ q).MemOk := by
  unfold State.headQ
  split
  · split
    · exact h
    · exact gotOk_ite (gotOk_wait h) (gotOk_ok h)
  · refine gotOk_ite (gotOk_wait h) ?_
    split
    · exact h
    · exact h
    · extract_lets s1
      have h1 : s1.memOk = true := memOk_takeElems (memOk_settleNear h)
      split
      · exact h1
      · exact gotOk_ite (gotOk_trap h1) (gotOk_wait h1)

theorem memOk_popQ (h : s.memOk = true) {q} : (s.popQ q).memOk = true := by
  unfold State.popQ
  extract_lets
  split
  · split
    · exact h
    · exact memOk_setMe h
  · split
    · exact h
    · exact memOk_setMe h

theorem gotOk_deliver {α : Type} (h : s.memOk = true) {q e} {k : State → Got α} (hk : ∀ s, s.memOk = true → (k s).MemOk) :
    (s.deliver q e k).MemOk := gotOk_ite (gotOk_ite (hk _ (memOk_setMe h)) (gotOk_trap h)) (hk _ h)

theorem gotOk_laneA (h : s.memOk = true) {a wide act} : (s.laneA a wide act).MemOk := by
  unfold State.laneA
  split
  · exact h
  · split
    · exact (gotOk_headQ h).trap ‹_›
    · exact (gotOk_headQ h).wait ‹_›
    · exact gotOk_ite (gotOk_ok (memOk_popQ ((gotOk_headQ h).ok ‹_›)))
        (gotOk_deliver ((gotOk_headQ h).ok ‹_›) fun _ h1 => gotOk_ok (memOk_popQ h1))

theorem gotOk_scalarA (h : s.memOk = true) {a use} : (s.scalarA a use).MemOk := by
  unfold State.scalarA
  split
  · exact h
  · split
    · exact (gotOk_headQ h).trap ‹_›
    · exact (gotOk_headQ h).wait ‹_›
    · exact gotOk_ite (gotOk_ok (memOk_popQ ((gotOk_headQ h).ok ‹_›)))
        (gotOk_ite (gotOk_trap ((gotOk_headQ h).ok ‹_›)) (gotOk_deliver ((gotOk_headQ h).ok ‹_›) fun _ h1 => gotOk_ok (memOk_popQ h1)))

theorem resOk_laneOp (h : s.memOk = true) {hd wide d dwide a f} : (laneOp s hd wide d dwide a f).MemOk :=
  resOk_then (gotOk_laneA h) fun _ _ h1 => resOk_done (memOk_setMe h1)
theorem resOk_scalarOp (h : s.memOk = true) {hd d a f} : (scalarOp s hd d a f).MemOk :=
  resOk_then (gotOk_scalarA h) fun _ _ h1 => resOk_done (memOk_ite (memOk_setMe h1) h1)

/-! ### Barriers and joins -/

theorem memOk_journal (h : s.memOk = true) {j} : (s.journal j).memOk = true := memOk_setMe h
theorem memOk_sendPhase (h : s.memOk = true) {master b} : (s.sendPhase master b).memOk = true := memOk_foldl (fun _ _ h1 => memOk_post h1) h

theorem outOk_execBarc {hd bar ra} (h : s.memOk = true) : OutOk (execBarc hd bar ra s) := by
  unfold execBarc
  refine outOk_finishLen ?_
  extract_lets
  refine resOk_ite (resOk_done h) (resOk_ite (resOk_trap h) (resOk_ite (resOk_trap h) (resOk_withRoom h fun _ h1 => ?_)))
  extract_lets s2
  have h2 : s2.memOk = true := memOk_journal h1
  exact resOk_ite (resOk_done (memOk_sendPhase (memOk_setMyCell h2))) (resOk_wait (memOk_post (memOk_setMyCell h2)))

theorem memOk_recordArrival (h : s.memOk = true) {b} : (s.recordArrival b).memOk = true := memOk_setMe h

theorem outOk_baraHere {n hd b ord} (h : s.memOk = true) : OutOk (baraHere n hd b ord s) := by
  unfold baraHere
  refine outOk_ite (outOk_finishLen (resOk_done h)) (outOk_ite (outOk_finishLen (resOk_wait h)) ?_)
  split
  · exact outOk_finishLen (resOk_trap h)
  · refine outOk_ite (outOk_finishLen (resOk_wait (memOk_commit h))) (outOk_ite (outOk_finishLen (resOk_wait h)) ?_)
    extract_lets s1
    have h1 : s1.memOk = true := memOk_settleNear h
    split
    exact outOk_ite (outOk_finish (resOk_done (memOk_setMyCell (memOk_recordArrival h1))) fun _ h2 => memOk_commit (memOk_setMe h2))
      (outOk_finishLen (resOk_withRoom h1 fun _ h3 => resOk_done (memOk_setMyCell (memOk_recordArrival (memOk_journal h3)))))

theorem outOk_execBara {hd bar ord} (h : s.memOk = true) : OutOk (execBara hd bar ord s) := by
  unfold execBara
  extract_lets
  refine outOk_ite (outOk_baraHere h) (outOk_boundary h fun _ h1 => resOk_ite (resOk_done h1) (resOk_afterAcquire h1 ?_))
  split
  · exact h1
  · exact resOk_withRoom h1 fun _ h2 => resOk_done (memOk_setMe (memOk_recordArrival h2))

theorem resOk_raiseBarrier (h : s.memOk = true) {k : Res} (hk : k.MemOk) : (raiseBarrier s k).MemOk := by
  unfold raiseBarrier
  split
  · exact resOk_ite (resOk_trap (memOk_setMe h)) hk
  · exact hk

theorem memOk_barAcquire (h : s.memOk = true) {b p ord} : (s.barAcquire b p ord).memOk = true := memOk_ite (memOk_acquired h) h

theorem outOk_execBarw {hd bar ord} (h : s.memOk = true) : OutOk (execBarw hd bar ord s) := by
  unfold execBarw
  refine outOk_finishLen ?_
  extract_lets
  refine resOk_ite (resOk_done h) (resOk_afterAcquire h (resOk_raiseBarrier h ?_))
  split
  · exact h
  · exact resOk_ite (resOk_done (memOk_barAcquire (memOk_settleNear h))) (resOk_wait h)

theorem outOk_execBart {hd bar ord pd} (h : s.memOk = true) : OutOk (execBart hd bar ord pd s) := by
  unfold execBart
  refine outOk_finishLen ?_
  extract_lets _ _ _ _ s1
  have h1 : s1.memOk = true := memOk_settleNear h
  refine resOk_ite (resOk_done h) (resOk_afterAcquire h (resOk_raiseBarrier h ?_))
  split
  · exact h
  · exact memOk_setMe (memOk_ite (memOk_barAcquire h1) h1)

theorem resOk_present (h : s.memOk = true) {kind cluster len} : (present s kind cluster len).MemOk := resOk_wait (memOk_setMyCell h)
theorem outOk_execGang {hd scope} (h : s.memOk = true) : OutOk (execGang hd scope s) :=
  outOk_boundary h fun _ h1 => resOk_ite (resOk_done h1) (resOk_present h1)

/-! ### Fetching and ONCE -/

theorem outOk_execOnce {cluster} (h : s.memOk = true) : OutOk (execOnce cluster s) := by
  unfold execOnce
  split
  · exact outOk_finish (resOk_trap h) fun _ h1 => h1
  · exact outOk_boundary h fun _ h2 => resOk_present h2

theorem memOk_onceStart (h : s.memOk = true) {master wire members} : (s.onceStart master wire members).memOk = true := by
  unfold State.onceStart
  extract_lets
  split
  exact memOk_setCtx (memOk_foldl (fun _ _ h1 => memOk_setCtx h1) h)

theorem memOk_dropJoin (h : s.memOk = true) {cell wire} : (s.dropJoin cell wire).memOk = true := memOk_setCell h
theorem memOk_oncePost (h : s.memOk = true) {x o m} : (s.oncePost x o m).memOk = true := memOk_ite (memOk_commit (memOk_setCtx h)) h

theorem memOk_onceAfter (h : s.memOk = true) {w} : (s.onceAfter w).memOk = true := by
  unfold State.onceAfter
  extract_lets
  split
  · exact h
  · exact memOk_ite h
      (memOk_ite (memOk_setCtx h) (memOk_commit (memOk_foldl (fun _ _ h1 => memOk_oncePost h1)
        (memOk_foldl (fun _ _ h2 => memOk_dropJoin h2) (memOk_setCtx h)))))

theorem outOk_execIllegalEncoding (h : s.memOk = true) : OutOk (execIllegalEncoding s) := by
  unfold execIllegalEncoding
  split
  · exact memOk_takeTrap h
  · trivial

/-! ### Lane integer and data movement -/

theorem outOk_execAdd {hd t sat d a b} (h : s.memOk = true) : OutOk (execAdd hd t sat d a b s) := outOk_finishLen (resOk_laneOp h)
theorem outOk_execSub {hd t sat d a b} (h : s.memOk = true) : OutOk (execSub hd t sat d a b s) := outOk_finishLen (resOk_laneOp h)
theorem outOk_execAdds {hd t sat d a b} (h : s.memOk = true) : OutOk (execAdds hd t sat d a b s) := outOk_finishLen (resOk_laneOp h)
theorem outOk_execSubs {hd t sat d a b} (h : s.memOk = true) : OutOk (execSubs hd t sat d a b s) := outOk_finishLen (resOk_laneOp h)
theorem outOk_execMul {hd t sat d a b} (h : s.memOk = true) : OutOk (execMul hd t sat d a b s) := outOk_finishLen (resOk_laneOp h)
theorem outOk_execMulh {hd t d a b} (h : s.memOk = true) : OutOk (execMulh hd t d a b s) := outOk_finishLen (resOk_laneOp h)
theorem outOk_execMad {hd t sat d a b c} (h : s.memOk = true) : OutOk (execMad hd t sat d a b c s) := outOk_finishLen (resOk_laneOp h)
theorem outOk_execMin {hd t d a b} (h : s.memOk = true) : OutOk (execMin hd t d a b s) := outOk_finishLen (resOk_laneOp h)
theorem outOk_execMax {hd t d a b} (h : s.memOk = true) : OutOk (execMax hd t d a b s) := outOk_finishLen (resOk_laneOp h)
theorem outOk_execAbs {hd t sat d a} (h : s.memOk = true) : OutOk (execAbs hd t sat d a s) := outOk_finishLen (resOk_laneOp h)
theorem outOk_execNeg {hd t sat d a} (h : s.memOk = true) : OutOk (execNeg hd t sat d a s) := outOk_finishLen (resOk_laneOp h)
theorem outOk_execAnd {hd t d a b} (h : s.memOk = true) : OutOk (execAnd hd t d a b s) := outOk_finishLen (resOk_laneOp h)
theorem outOk_execOr {hd t d a b} (h : s.memOk = true) : OutOk (execOr hd t d a b s) := outOk_finishLen (resOk_laneOp h)
theorem outOk_execXor {hd t d a b} (h : s.memOk = true) : OutOk (execXor hd t d a b s) := outOk_finishLen (resOk_laneOp h)
theorem outOk_execAndn {hd t d a b} (h : s.memOk = true) : OutOk (execAndn hd t d a b s) := outOk_finishLen (resOk_laneOp h)
theorem outOk_execNot {hd t d a} (h : s.memOk = true) : OutOk (execNot hd t d a s) := outOk_finishLen (resOk_laneOp h)
theorem outOk_execShl {hd t d a b} (h : s.memOk = true) : OutOk (execShl hd t d a b s) := outOk_finishLen (resOk_laneOp h)
theorem outOk_execShr {hd t d a b} (h : s.memOk = true) : OutOk (execShr hd t d a b s) := outOk_finishLen (resOk_laneOp h)
theorem outOk_execSar {hd t d a b} (h : s.memOk = true) : OutOk (execSar hd t d a b s) := outOk_finishLen (resOk_laneOp h)
theorem outOk_execRol {hd t d a b} (h : s.memOk = true) : OutOk (execRol hd t d a b s) := outOk_finishLen (resOk_laneOp h)
theorem outOk_execBfx {hd t d a b} (h : s.memOk = true) : OutOk (execBfx hd t d a b s) := outOk_finishLen (resOk_laneOp h)
theorem outOk_execBfi {hd t d a b} (h : s.memOk = true) : OutOk (execBfi hd t d a b s) := outOk_finishLen (resOk_laneOp h)
theorem outOk_execPopc {hd t d a} (h : s.memOk = true) : OutOk (execPopc hd t d a s) := outOk_finishLen (resOk_laneOp h)
theorem outOk_execClz {hd t d a} (h : s.memOk = true) : OutOk (execClz hd t d a s) := outOk_finishLen (resOk_laneOp h)
theorem outOk_execBrev {hd t d a} (h : s.memOk = true) : OutOk (execBrev hd t d a s) := outOk_finishLen (resOk_laneOp h)
theorem outOk_execSel {hd t d a b pc} (h : s.memOk = true) : OutOk (execSel hd t d a b pc s) := outOk_finishLen (resOk_laneOp h)
theorem outOk_execMov {hd t d b} (h : s.memOk = true) : OutOk (execMov hd t d b s) := outOk_finishLen (resOk_done (memOk_setMe h))
theorem resOk_toScalar (h : s.memOk = true) {hd wide d a f} : (toScalar s hd wide d a f).MemOk :=
  resOk_then (gotOk_laneA h) fun _ _ h1 => resOk_done (memOk_ite h1 (memOk_setMe h1))
theorem outOk_execMovs {hd t d a b} (h : s.memOk = true) : OutOk (execMovs hd t d a b s) := outOk_finishLen (resOk_toScalar h)
theorem outOk_execShfl {hd mode t d a b} (h : s.memOk = true) : OutOk (execShfl hd mode t d a b s) :=
  outOk_finishLen (resOk_then (gotOk_laneA h) fun _ _ h1 => resOk_done (memOk_setMe h1))
theorem outOk_execVote {hd d pa} (h : s.memOk = true) : OutOk (execVote hd d pa s) :=
  outOk_finishLen (resOk_done (memOk_ite h (memOk_setMe h)))
theorem outOk_execReds {hd rop t d a} (h : s.memOk = true) : OutOk (execReds hd rop t d a s) := outOk_finishLen (resOk_toScalar h)
theorem outOk_execScan {hd rop excl t d a} (h : s.memOk = true) : OutOk (execScan hd rop excl t d a s) :=
  outOk_finishLen (resOk_then (gotOk_laneA h) fun _ _ h1 => resOk_done (memOk_setMe h1))
theorem outOk_execAddi {hd d ra imm9} (h : s.memOk = true) : OutOk (execAddi hd d ra imm9 s) := outOk_finishLen (resOk_done (memOk_setMe h))
theorem outOk_execWidf {hd lvl d} (h : s.memOk = true) : OutOk (execWidf hd lvl d s) := outOk_finishLen (resOk_done (memOk_setMe h))

/-! ### The memory family -/

theorem memOk_journalOnce (h : s.memOk = true) {word} : (s.journalOnce word).memOk = true := memOk_ite h (memOk_setMe (memOk_settleFor h))
theorem memOk_storeLocal (h : s.memOk = true) {off n data atom} : (s.storeLocal off n data atom).memOk = true :=
  memOk_setMyCell (memOk_journalOnce h)
theorem resOk_localAccess (h : s.memOk = true) {k : Res} (hk : k.MemOk) : (localAccess s k).MemOk :=
  resOk_afterAcquire h (resOk_ite (resOk_wait h) hk)

theorem outOk_execLd {hd t d m} (h : s.memOk = true) : OutOk (execLd hd t d m s) := by
  unfold execLd
  refine outOk_finishLen (resOk_localAccess h ?_)
  extract_lets
  split
  · exact h
  · exact memOk_setMe (memOk_settleNear h)

theorem outOk_execSt {hd t d m} (h : s.memOk = true) : OutOk (execSt hd t d m s) := by
  unfold execSt
  refine outOk_finishLen (resOk_localAccess h ?_)
  extract_lets
  split
  · exact h
  · exact resOk_withRoomOf h fun _ h1 => resOk_done (memOk_foldl (fun _ _ h2 => memOk_storeLocal h2) h1)

theorem outOk_execLds {hd t d m} (h : s.memOk = true) : OutOk (execLds hd t d m s) := by
  unfold execLds
  refine outOk_finishLen ?_
  extract_lets
  refine resOk_ite (resOk_done h) (resOk_localAccess h ?_)
  split
  · exact h
  · exact memOk_setMe (memOk_settleNear h)

theorem outOk_execSts {hd t d m} (h : s.memOk = true) : OutOk (execSts hd t d m s) := by
  unfold execSts
  refine outOk_finishLen ?_
  extract_lets
  refine resOk_ite (resOk_done h) (resOk_localAccess h ?_)
  split
  · exact h
  · exact resOk_withRoomOf h fun _ h1 => resOk_done (memOk_storeLocal h1)

theorem memOk_atomLanes {x op t f c e l} (h : s.memOk = true) : (atomLanes x op t f c e l s).2.memOk = true := by
  induction l generalizing s with
  | nil => exact h
  | cons _ _ ih =>
    rw [atomLanes]
    split
    exact memOk_of_snd (ih (memOk_storeLocal (memOk_settleFor h))) ‹_›

theorem outOk_execAtom {hd aop t d m c e} (h : s.memOk = true) : OutOk (execAtom hd aop t d m c e s) := by
  unfold execAtom
  refine outOk_finishLen (resOk_localAccess h ?_)
  extract_lets
  split
  · exact h
  · refine resOk_withRoomOf h fun _ h1 => ?_
    split
    exact memOk_setMe (memOk_of_snd (memOk_atomLanes h1) ‹_›)

theorem gotOk_checkLanes (h : s.memOk = true) {k f n l} : (checkLanes s k f n l).MemOk := by
  induction l generalizing s with
  | nil => exact gotOk_ok h
  | cons _ _ ih =>
    rw [checkLanes]
    split
    · exact h
    · exact memOk_post h
    · split
      · exact (ih h).ok ‹_›
      · exact ih h

theorem resOk_withSlots (h : s.memOk = true) {q n} {k : State → Res} (hk : ∀ s, s.memOk = true → (k s).MemOk) : (withSlots s q n k).MemOk :=
  resOk_ite (hk _ h) (resOk_ite (resOk_wait h) (resOk_ite (resOk_wait (memOk_commit h)) (resOk_wait h)))
theorem resOk_unbarred (h : s.memOk = true) {l} {k : Res} (hk : k.MemOk) : (unbarred s l k).MemOk := resOk_ite (resOk_wait h) hk

theorem memOk_sendLanes {mk write l} (h : s.memOk = true) : (sendLanes mk write l s).memOk = true := by
  induction l generalizing s with
  | nil => exact h
  | cons _ _ ih => exact ih (memOk_post (memOk_setMe h))

theorem outOk_execLdq {hd t sform ord qd m} (h : s.memOk = true) : OutOk (execLdq hd t sform ord qd m s) := by
  unfold execLdq
  refine outOk_finishLen (resOk_afterAcquire h ?_)
  extract_lets
  refine resOk_then (gotOk_checkLanes h) fun _ _ h1 => resOk_unbarred h1 (resOk_withSlots h1 fun _ h2 => ?_)
  split
  split
  exact resOk_done (memOk_sendLanes (memOk_setMe (memOk_of_snd (memOk_fresh (memOk_of_snd (memOk_fresh h2) ‹_›)) ‹_›)))

theorem outOk_execStx {hd t ord d m} (h : s.memOk = true) : OutOk (execStx hd t ord d m s) :=
  outOk_finishLen
    (resOk_afterAcquire h (resOk_then (gotOk_checkLanes h) fun _ _ h1 => resOk_withRoom h1 fun _ h2 => resOk_done (memOk_setMe h2)))

theorem outOk_execAtomx {hd aop t ord qd m c e} (h : s.memOk = true) : OutOk (execAtomx hd aop t ord qd m c e s) := by
  unfold execAtomx
  refine outOk_boundary h fun _ h1 => resOk_afterAcquire h1 ?_
  extract_lets
  refine resOk_then (gotOk_checkLanes h1) fun _ _ h2 => resOk_unbarred h2
    (resOk_withSlots h2 fun _ h3 => resOk_ite (resOk_wait h3) (resOk_ite (resOk_wait h3) ?_))
  split
  · exact h3
  · extract_lets
    split
    split
    exact resOk_done (memOk_sendLanes (memOk_setMe (memOk_of_snd (memOk_fresh (memOk_of_snd (memOk_fresh h3) ‹_›)) ‹_›)))

theorem memOk_popIf {pop} (h : s.memOk = true) {q} : (popIf pop s q).memOk = true := memOk_ite (memOk_popQ h) h

theorem resOk_readTwo (h : s.memOk = true) {pop q d act e e2} : (readTwo s pop q d act e e2).MemOk :=
  resOk_ite (resOk_wait h)
    (resOk_ite (resOk_done (memOk_ite (memOk_popIf h) (memOk_popIf (memOk_popIf h))))
      (resOk_ite (resOk_trap h) (resOk_then (gotOk_deliver h fun _ h1 => gotOk_deliver h1 fun _ h2 => gotOk_ok
        (memOk_popIf (memOk_popIf h2))) fun _ _ h3 => resOk_done (memOk_setMe h3))))

theorem resOk_readHead_one (h : s.memOk = true) {pop t toS d q act} : (readHead.one s pop t toS d q act).MemOk := by
  refine resOk_then (gotOk_headQ h) fun _ _ h1 => ?_
  refine resOk_ite (memOk_popIf h1) (resOk_ite (resOk_ite (resOk_trap h1) ?_) ?_)
  · exact resOk_then (gotOk_deliver h1 fun _ h2 => gotOk_ok (memOk_popIf h2)) fun _ _ h2 => resOk_done (memOk_setMe h2)
  · exact resOk_then (gotOk_deliver h1 fun _ h2 => gotOk_ok (memOk_popIf h2)) fun _ _ h2 => resOk_done (memOk_setMe h2)

theorem resOk_readHead (h : s.memOk = true) {pop hd t toS d q} : (readHead s pop hd t toS d q).MemOk := by
  unfold readHead
  extract_lets
  split
  · exact resOk_ite (resOk_readHead_one h) (resOk_readTwo h)
  · exact resOk_ite (resOk_readHead_one h) (resOk_wait h)
  · exact resOk_readHead_one h

theorem resOk_chanRead (h : s.memOk = true) {q} {k : Res} (hk : k.MemOk) : (chanRead s q k).MemOk := resOk_ite (resOk_afterAcquire h hk) hk
theorem outOk_execQpop {hd t toS d q} (h : s.memOk = true) : OutOk (execQpop hd t toS d q s) :=
  outOk_finishLen (resOk_chanRead h (resOk_readHead h))
theorem outOk_execQpeek {hd t toS d q} (h : s.memOk = true) : OutOk (execQpeek hd t toS d q s) :=
  outOk_finishLen (resOk_chanRead h (resOk_readHead h))

theorem outOk_execQstat {hd d q} (h : s.memOk = true) : OutOk (execQstat hd d q s) := by
  unfold execQstat
  refine outOk_finishLen (resOk_done (memOk_ite h (memOk_ite (memOk_setMe h) ?_)))
  split
  · exact memOk_setMe (memOk_takeElems (memOk_settleNear h))
  · exact memOk_setMe h

theorem outOk_execQdrop {hd q} (h : s.memOk = true) : OutOk (execQdrop hd q s) :=
  outOk_finishLen (resOk_ite (resOk_done h) (resOk_chanRead h (resOk_then (gotOk_headQ h) fun _ _ h1 => resOk_done (memOk_popQ h1))))
theorem outOk_execTagl {hd d ra} (h : s.memOk = true) : OutOk (execTagl hd d ra s) := outOk_finishLen (resOk_done (memOk_setMe h))

theorem outOk_execTagw {hd ra b} (h : s.memOk = true) : OutOk (execTagw hd ra b s) :=
  outOk_finishLen
    (resOk_ite (resOk_done h) (resOk_ite (resOk_trap h) (resOk_withRoom h fun _ h1 => resOk_done (memOk_setMyCell (memOk_setMe h1)))))

theorem outOk_execTagi {hd tsub ra b} (h : s.memOk = true) : OutOk (execTagi hd tsub ra b s) := by
  unfold execTagi
  refine outOk_finishLen ?_
  extract_lets
  refine resOk_ite (resOk_done h) ?_
  split
  · exact resOk_ite (resOk_trap h) (resOk_withRoom h fun _ h1 => resOk_done (memOk_setMyCell (memOk_setMe h1)))
  · exact resOk_withRoom h fun _ h2 => resOk_done (memOk_setMyCell (memOk_setMe h2))
  · exact resOk_ite (resOk_trap h) (resOk_withRoom h fun _ h3 => resOk_done (memOk_setMyCell (memOk_setMe h3)))

theorem resOk_raiseLatched (h : s.memOk = true) {k : Res} (hk : k.MemOk) : (raiseLatched s k).MemOk := by
  unfold raiseLatched
  split
  · exact memOk_setMe h
  · exact hk

theorem outOk_execFence {hd scope} (h : s.memOk = true) : OutOk (execFence hd scope s) := by
  unfold execFence
  refine outOk_finishLen (resOk_ite (resOk_done h) ?_)
  split
  · exact resOk_ite (resOk_raiseLatched h (resOk_done h)) (resOk_wait h)
  · refine resOk_afterAcquire h (resOk_raiseLatched h ?_)
    extract_lets _ s1
    have h1 : s1.memOk = true := memOk_setMe (memOk_settleNear h)
    exact resOk_ite (resOk_done h1) (resOk_wait h1)

/-! ### Channel instructions -/

theorem memOk_bindEnd (h : s.memOk = true) {q id rdr} : (s.bindEnd q id rdr).memOk = true := memOk_setMe (memOk_takeEnd (memOk_unbind h))

theorem outOk_execChbind {hd rdr qc ra} (h : s.memOk = true) : OutOk (execChbind hd rdr qc ra s) :=
  outOk_finishLen
    (resOk_ite (resOk_done h) (resOk_afterAcquire h (resOk_ite (resOk_trap h)
      (resOk_ite (resOk_trap h) (resOk_ite (resOk_trap h) (resOk_done (memOk_bindEnd h)))))))

theorem resOk_asWriter (h : s.memOk = true) {q} {k : ℕ → Res} (hk : ∀ v, (k v).MemOk) : (asWriter s q k).MemOk := by
  unfold asWriter
  split
  · exact h
  · exact h
  · exact resOk_ite (resOk_trap h) (hk _)

theorem outOk_execChw {hd vec qc ra} (h : s.memOk = true) : OutOk (execChw hd vec qc ra s) :=
  outOk_finishLen
    (resOk_ite (resOk_done h) (resOk_afterAcquire h (resOk_asWriter h fun _ => resOk_ite (resOk_trap h)
      (resOk_ite (resOk_wait h) (resOk_withRoom h fun _ h1 => resOk_done (memOk_setMe (memOk_setWcopy h1)))))))

theorem outOk_execChclose {hd qc} (h : s.memOk = true) : OutOk (execChclose hd qc s) :=
  outOk_finishLen
    (resOk_ite (resOk_done h) (resOk_afterAcquire h (resOk_asWriter h fun _ => resOk_withRoom h fun _ h1 => resOk_done (memOk_setMe h1))))

theorem outOk_execChstat {hd d qc} (h : s.memOk = true) : OutOk (execChstat hd d qc s) :=
  outOk_finishLen (resOk_ite (resOk_done h) (resOk_afterAcquire h (resOk_done (memOk_setMe h))))
theorem outOk_execChunbind {hd qc} (h : s.memOk = true) : OutOk (execChunbind hd qc s) :=
  outOk_finishLen (resOk_ite (resOk_done h) (resOk_afterAcquire h (resOk_done (memOk_unbind h))))

/-! ### Floating point and conversion -/

theorem resOk_floatOp (h : s.memOk = true) {hd wide d dwide a f} : (floatOp s hd wide d dwide a f).MemOk :=
  resOk_then (gotOk_laneA h) fun _ _ h1 => resOk_commitF h1
theorem outOk_execFadd {hd t rnd d a b} (h : s.memOk = true) : OutOk (execFadd hd t rnd d a b s) := outOk_finishLen (resOk_floatOp h)
theorem outOk_execFsub {hd t rnd d a b} (h : s.memOk = true) : OutOk (execFsub hd t rnd d a b s) := outOk_finishLen (resOk_floatOp h)
theorem outOk_execFmul {hd t rnd d a b} (h : s.memOk = true) : OutOk (execFmul hd t rnd d a b s) := outOk_finishLen (resOk_floatOp h)
theorem outOk_execFma {hd t rnd d a b c} (h : s.memOk = true) : OutOk (execFma hd t rnd d a b c s) := outOk_finishLen (resOk_floatOp h)
theorem outOk_execFmin {hd t d a b} (h : s.memOk = true) : OutOk (execFmin hd t d a b s) := outOk_finishLen (resOk_floatOp h)
theorem outOk_execFmax {hd t d a b} (h : s.memOk = true) : OutOk (execFmax hd t d a b s) := outOk_finishLen (resOk_floatOp h)
theorem outOk_execFabs {hd t d a} (h : s.memOk = true) : OutOk (execFabs hd t d a s) := outOk_finishLen (resOk_laneOp h)
theorem outOk_execFneg {hd t d a} (h : s.memOk = true) : OutOk (execFneg hd t d a s) := outOk_finishLen (resOk_laneOp h)
theorem outOk_execFdiv {hd t rnd d a b} (h : s.memOk = true) : OutOk (execFdiv hd t rnd d a b s) := outOk_finishLen (resOk_floatOp h)
theorem outOk_execFsqrt {hd t rnd d a} (h : s.memOk = true) : OutOk (execFsqrt hd t rnd d a s) := outOk_finishLen (resOk_floatOp h)
theorem outOk_execFrcp {hd t rnd d a} (h : s.memOk = true) : OutOk (execFrcp hd t rnd d a s) := outOk_finishLen (resOk_floatOp h)
theorem outOk_execFrsq {hd t rnd d a} (h : s.memOk = true) : OutOk (execFrsq hd t rnd d a s) := outOk_finishLen (resOk_floatOp h)
theorem outOk_execFexp2 {hd t rnd d a} (h : s.memOk = true) : OutOk (execFexp2 hd t rnd d a s) := outOk_finishLen (resOk_floatOp h)
theorem outOk_execFlog2 {hd t rnd d a} (h : s.memOk = true) : OutOk (execFlog2 hd t rnd d a s) := outOk_finishLen (resOk_floatOp h)
theorem outOk_execFscale {hd t rnd d a b} (h : s.memOk = true) : OutOk (execFscale hd t rnd d a b s) := outOk_finishLen (resOk_floatOp h)
theorem outOk_execFrnd {hd t rnd d a} (h : s.memOk = true) : OutOk (execFrnd hd t rnd d a s) := outOk_finishLen (resOk_floatOp h)
theorem outOk_execFclass {hd t d a} (h : s.memOk = true) : OutOk (execFclass hd t d a s) := outOk_finishLen (resOk_laneOp h)
theorem outOk_execCvt {hd t src rnd sat d a} (h : s.memOk = true) : OutOk (execCvt hd t src rnd sat d a s) :=
  outOk_finishLen (resOk_floatOp h)
theorem outOk_execQpack {hd t sat d a b} (h : s.memOk = true) : OutOk (execQpack hd t sat d a b s) :=
  outOk_finishLen (resOk_then (gotOk_laneA h) fun _ _ h1 => resOk_commitF h1)
theorem outOk_execQunpk {hd t rnd d a b} (h : s.memOk = true) : OutOk (execQunpk hd t rnd d a b s) :=
  outOk_finishLen (resOk_then (gotOk_laneA h) fun _ _ h1 => resOk_commitF h1)
theorem outOk_execAmax {hd d a} (h : s.memOk = true) : OutOk (execAmax hd d a s) :=
  outOk_finishLen (resOk_then (gotOk_laneA h) fun _ _ h1 => resOk_ite (resOk_done h1) (resOk_commitF h1))

/-! ### Tensor descriptors, accumulators and MMA -/

theorem outOk_execTdset {hd w td ra} (h : s.memOk = true) : OutOk (execTdset hd w td ra s) :=
  outOk_finishLen (resOk_ite (resOk_done h) (resOk_withRoom h fun _ h1 => resOk_done (memOk_setMyCell (memOk_setMe h1))))
theorem outOk_execTdget {hd w td d} (h : s.memOk = true) : OutOk (execTdget hd w td d s) :=
  outOk_finishLen (resOk_done (memOk_ite h (memOk_setMe h)))
theorem outOk_execAccz {hd acc} (h : s.memOk = true) : OutOk (execAccz hd acc s) :=
  outOk_finishLen (resOk_ite (resOk_done h) (resOk_ite (resOk_wait h) (resOk_done (memOk_setMyCell h))))

theorem outOk_execAccld {hd t acc ra} (h : s.memOk = true) : OutOk (execAccld hd t acc ra s) := by
  unfold execAccld
  refine outOk_finishLen ?_
  extract_lets
  refine resOk_ite (resOk_done h) (resOk_ite (resOk_wait h) (resOk_localAccess h ?_))
  split
  · exact h
  · exact memOk_setMyCell (memOk_settleNear h)

theorem memOk_journalRange {n n'} (h : s.memOk = true) : (journalRange n n' s).memOk = true := by
  induction n generalizing n' s with
  | zero => exact h
  | succ _ ih => exact ih (memOk_journalOnce h)

theorem outOk_execAccst {hd t rnd sat acc ra} (h : s.memOk = true) : OutOk (execAccst hd t rnd sat acc ra s) := by
  unfold execAccst
  refine outOk_finishLen ?_
  extract_lets
  refine resOk_ite (resOk_done h) (resOk_ite (resOk_wait h) (resOk_localAccess h ?_))
  split
  · exact h
  · split
    · refine resOk_withRoomOf h fun _ h1 => ?_
      split
      · extract_lets _ s2
        have h2 : s2.memOk = true := memOk_journalRange (memOk_settleNear ((resOk_commitF h1).done ‹_›))
        exact memOk_setMem h2 (wf_writeBytes _ _ (mem_wf h2))
      · exact resOk_commitF h1
    · exact resOk_commitF h

theorem outOk_execMma {hd ta tb acc tda tdb} (h : s.memOk = true) : OutOk (execMma hd ta tb acc tda tdb s) :=
  outOk_boundary h fun _ h1 => resOk_ite (resOk_done h1)
    (resOk_ite (resOk_wait h1) (resOk_ite (resOk_wait h1) (resOk_present (memOk_settle h1))))

/-! ### Tile-walk instructions -/

theorem outOk_execTwset {hd fld ra} (h : s.memOk = true) : OutOk (execTwset hd fld ra s) :=
  outOk_finishLen (resOk_done (memOk_ite (memOk_setMe h) h))
theorem memOk_armXfer (h : s.memOk = true) {slot x ord noPromise} : (s.armXfer slot x ord noPromise).memOk = true :=
  memOk_engineNext (memOk_setXfer h)
theorem resOk_twRelease (h : s.memOk = true) {ord} {k : State → Res} (hk : ∀ s, s.memOk = true → (k s).MemOk) : (twRelease s ord k).MemOk :=
  resOk_ite (hk _ h) (resOk_ite (hk _ (memOk_settleNear h)) (resOk_wait h))

theorem outOk_execTwgo {hd ord d} (h : s.memOk = true) : OutOk (execTwgo hd ord d s) := by
  unfold execTwgo
  refine outOk_boundary h fun _ h1 => ?_
  extract_lets
  refine resOk_ite (resOk_done h1) (resOk_ite (resOk_wait h1) (resOk_ite (resOk_trap h1) ?_))
  split
  · split
    · exact h1
    · exact resOk_ite (resOk_trap h1) (resOk_twRelease h1 fun _ h2 => resOk_done (memOk_armXfer (memOk_setMe h2)))
  · refine resOk_ite (resOk_trap h1) ?_
    split
    · exact h1
    · refine resOk_ite (resOk_trap h1) ?_
      split
      · exact h1
      · exact resOk_twRelease h1 fun _ h3 => resOk_done (memOk_armXfer (memOk_setMe (memOk_setMyCell h3)))

theorem outOk_execTwmap {hd d ra b} (h : s.memOk = true) : OutOk (execTwmap hd d ra b s) :=
  outOk_finishLen (resOk_ite (resOk_done h) (resOk_ite (resOk_trap h) (resOk_done (memOk_setMe h))))

theorem memOk_twAcquire (h : s.memOk = true) {id ord} : (s.twAcquire id ord).memOk = true := by
  unfold State.twAcquire
  refine memOk_ite h ?_
  split <;> exact memOk_acquired h

theorem resOk_acqAfter (h : s.memOk = true) {ord} {k : Res} (hk : k.MemOk) : (acqAfter s ord k).MemOk :=
  resOk_ite (resOk_afterAcquire h hk) hk

theorem outOk_execTwtest {hd ord pd ra b} (h : s.memOk = true) : OutOk (execTwtest hd ord pd ra b s) := by
  unfold execTwtest
  refine outOk_finishLen ?_
  extract_lets
  refine resOk_ite (resOk_done h) ?_
  split
  · exact h
  · exact resOk_done (memOk_setMe (memOk_ite (memOk_twAcquire h) h))

theorem outOk_execTwwait {hd all ord ra b} (h : s.memOk = true) : OutOk (execTwwait hd all ord ra b s) := by
  unfold execTwwait
  refine outOk_finishLen ?_
  extract_lets
  refine resOk_ite (resOk_done h) (resOk_acqAfter h ?_)
  split
  · exact h
  · exact memOk_twAcquire h
  · exact h

/-! ### Steps that no word encodes -/

theorem outOk_event {name} {o : Option State} (ho : SomeOk o) : OutOk (event name o) := by
  cases o with
  | none => trivial
  | some s => exact ho

theorem outOk_arrivedIf {name refused i} (h : s.memOk = true) {k : Msg → State → Option State} (hk : ∀ v s, s.memOk = true → SomeOk (k v s))
    : OutOk (arrivedIf name refused i s k) := by
  unfold arrivedIf
  refine outOk_event ?_
  split
  · exact someOk_ite (hk _ _ (memOk_take h)) trivial
  · trivial

theorem outOk_arrived {name i} (h : s.memOk = true) {k : Msg → State → Option State} (hk : ∀ v s, s.memOk = true → SomeOk (k v s)) :
    OutOk (arrived name i s k) :=
  outOk_arrivedIf h fun _ _ h1 => hk _ _ h1

/-! ### The inbox at work -/

theorem outOk_execInboxArrival {i} (h : s.memOk = true) : OutOk (execInboxArrival i s) := by
  unfold execInboxArrival
  refine outOk_arrived h fun _ _ h1 => ?_
  split
  · exact someOk_ite (someOk_some (memOk_inboxTakes (memOk_setCell h1))) trivial
  · trivial

theorem memOk_begin_ (h : s.memOk = true) {cell k l cores regs} : (s.begin_ cell k l cores regs).memOk = true := by
  unfold State.begin_
  extract_lets
  split
  exact memOk_trace (memOk_setCell (memOk_setCtx (memOk_of_snd (memOk_fresh h) ‹_›)))

theorem memOk_formSet (h : s.memOk = true) {cell k b} : (s.formSet cell k b).memOk = true := memOk_begin_ (memOk_setCell h)
theorem memOk_formGroup (h : s.memOk = true) {cell j k r} : (s.formGroup cell j k r).memOk = true := memOk_begin_ (memOk_setCell h)

theorem outOk_execSetFormation {cell} (h : s.memOk = true) : OutOk (execSetFormation cell s) := by
  unfold execSetFormation
  refine outOk_event (someOk_map fun _ => ?_)
  split
  · exact memOk_formSet h
  · exact memOk_formGroup h

theorem outOk_execGatherWindowExpiry {cell entry} (h : s.memOk = true) : OutOk (execGatherWindowExpiry cell entry s) :=
  outOk_event (someOk_bind fun _ => someOk_ite (someOk_some (memOk_setCell h)) trivial)
theorem outOk_execInboxRefill {cell} (h : s.memOk = true) : OutOk (execInboxRefill cell s) :=
  outOk_event (someOk_ite (someOk_some (memOk_post h)) trivial)

theorem memOk_landInbox (h : s.memOk = true) {cell l} : (s.landInbox cell l).memOk = true := by
  unfold State.landInbox
  extract_lets
  split
  exact memOk_setCell (memOk_of_snd (memOk_chainTake h) ‹_›)

theorem outOk_execStartMessage {i} (h : s.memOk = true) : OutOk (execStartMessage i s) := by
  unfold execStartMessage
  refine outOk_arrived h fun _ _ h1 => ?_
  split
  · exact someOk_ite (someOk_some (memOk_post (memOk_setCell h1))) trivial
  · trivial

theorem outOk_execBankWrite {cell} (h : s.memOk = true) : OutOk (execBankWrite cell s) := by
  unfold execBankWrite
  refine outOk_event ?_
  extract_lets
  split
  · trivial
  · exact memOk_perform (memOk_setCell h)

theorem memOk_noteRefusal (h : s.memOk = true) {cell e} : (s.noteRefusal cell e).memOk = true := memOk_setCell h

theorem outOk_execSendRefused {i} (h : s.memOk = true) : OutOk (execSendRefused i s) := by
  unfold execSendRefused
  refine outOk_arrivedIf h fun _ _ h1 => ?_
  split
  · exact someOk_ite (someOk_some (memOk_noteRefusal (memOk_with h1))) trivial
  · trivial

theorem outOk_execTwWriteRefused {i} (h : s.memOk = true) : OutOk (execTwWriteRefused i s) := by
  unfold execTwWriteRefused
  refine outOk_arrivedIf h fun _ _ h1 => ?_
  split
  · exact someOk_ite (someOk_some (memOk_noteRefusal (memOk_setXfer h1))) trivial
  · trivial

theorem memOk_resendWords {cell t l} (h : s.memOk = true) : (resendWords cell t l s).memOk = true := by
  induction l generalizing s with
  | nil => exact h
  | cons _ _ ih =>
    rw [resendWords]
    refine ih ?_
    split
    · exact memOk_ite (memOk_post (memOk_setXfer h)) h
    · exact h

theorem memOk_resendTo (h : s.memOk = true) {e t} : (s.resendTo e t).memOk = true := by
  unfold State.resendTo
  extract_lets _ s1
  have h1 : s1.memOk = true := memOk_with h
  split
  · exact memOk_resendWords h1
  · exact h1

theorem outOk_execResumeNotification {i} (h : s.memOk = true) : OutOk (execResumeNotification i s) := by
  unfold execResumeNotification
  refine outOk_arrived h fun _ _ h1 => ?_
  split
  · exact memOk_resendTo h1
  · trivial

theorem outOk_execTargetSwitchedOut {cell target} (h : s.memOk = true) : OutOk (execTargetSwitchedOut cell target s) := by
  unfold execTargetSwitchedOut
  refine outOk_event (someOk_ite (someOk_some ?_) trivial)
  extract_lets
  split
  exact memOk_report (memOk_with h)

/-! ### The homes -/

theorem memOk_keepOld (h : s.memOk = true) {cell off n} : (s.keepOld cell off n).memOk = true := memOk_ite h (memOk_ite h (memOk_setCell h))
theorem memOk_settleAtoms (h : s.memOk = true) {cell off n} : (s.settleAtoms cell off n).memOk = true := memOk_settleWhere h
theorem memOk_settleAsker (h : s.memOk = true) {a} : (s.settleAsker a).memOk = true := memOk_ite h (memOk_settleWhere h)

theorem memOk_codeWritten (h : s.memOk = true) {cell key b} : (s.codeWritten cell key b).memOk = true := by
  unfold State.codeWritten
  extract_lets s1
  have h1 : s1.memOk = true := memOk_keepOld (memOk_settleAtoms h)
  exact memOk_setMem h1 (wf_writeBytes _ _ (mem_wf h1))

theorem memOk_homeWrite (h : s.memOk = true) {dst key n v} : (s.homeWrite dst key n v).memOk = true := by
  unfold State.homeWrite
  split
  · extract_lets _ _ s1
    have h1 : s1.memOk = true := memOk_keepOld (memOk_settleAtoms h)
    exact memOk_ite (memOk_setCell h) (memOk_setMem h1 (wf_writeLE _ _ _ (mem_wf h1)))
  · exact h
  · exact memOk_setMem h (wf_writeLE _ _ _ (mem_wf h))

theorem memOk_sound (h : s.memOk = true) {l} : (s.sound l).memOk = true := memOk_with h

theorem memOk_logAtHome (h : s.memOk = true) {dst a} : (s.logAtHome dst a).memOk = true := by
  unfold State.logAtHome
  split
  exact memOk_logViolation h

theorem memOk_violated (h : s.memOk = true) {dst a} : (s.violated dst a).memOk = true := memOk_report (memOk_logAtHome h)

theorem memOk_homeError (h : s.memOk = true) {dst a write} : (s.homeError dst a write).2.memOk = true := by
  unfold State.homeError
  refine memOk_snd_ite h (memOk_snd_ite (memOk_violated h) ?_)
  split <;> exact memOk_snd_ite h h

theorem memOk_performedAt (h : s.memOk = true) {cell id home} : (s.performedAt cell id home).memOk = true := memOk_setCell h

theorem memOk_replyRead {dst a v bad deps} (h : s.memOk = true) : (replyRead dst a v bad deps s).memOk = true := by
  unfold replyRead
  split
  · exact memOk_post h
  · exact h

theorem memOk_replyWrite {dst a bad} (h : s.memOk = true) : (replyWrite dst a bad s).memOk = true := by
  unfold replyWrite
  split
  · exact memOk_post h
  · exact h

theorem memOk_ackAtomic {dst a} (h : s.memOk = true) : (ackAtomic dst a s).memOk = true := memOk_ite h (memOk_replyWrite h)

theorem memOk_ackSend (h : s.memOk = true) {home who id} : (s.ackSend home who id).memOk = true := by
  unfold State.ackSend
  split
  · exact h
  · exact memOk_replyWrite h

theorem memOk_engineError (h : s.memOk = true) {slot a cause} : (s.engineError slot a cause).memOk = true := memOk_setXfer h

theorem memOk_settleWord (h : s.memOk = true) {dst a} : (s.settleWord dst a).memOk = true := by
  unfold State.settleWord
  split
  · exact memOk_settleAtoms h
  · exact h

theorem memOk_homeDo (h : s.memOk = true) {dst a} : (s.homeDo dst a).memOk = true := by
  unfold State.homeDo
  split
  · split
    exact memOk_replyRead (memOk_performedAt (memOk_of_snd (memOk_homeError (memOk_settleAsker h)) ‹_›))
  · split
    · exact memOk_replyWrite (memOk_of_snd (memOk_homeError h) ‹_›)
    · exact memOk_replyWrite (memOk_unpoison (memOk_noteRel (memOk_homeWrite (memOk_of_snd (memOk_homeError h) ‹_›))))
  · split
    · exact memOk_replyRead (memOk_ackAtomic (memOk_of_snd (memOk_homeError (memOk_settleWord (memOk_settleAsker h))) ‹_›))
    · exact memOk_replyRead
        (memOk_ackAtomic (memOk_with (memOk_homeWrite (memOk_of_snd (memOk_homeError (memOk_settleWord (memOk_settleAsker h))) ‹_›))))
  · split
    · exact memOk_engineError (memOk_of_snd (memOk_homeError h) ‹_›)
    · exact memOk_engineGot (memOk_of_snd (memOk_homeError h) ‹_›)
  · split
    · exact memOk_engineError (memOk_of_snd (memOk_homeError h) ‹_›)
    · exact memOk_replyWrite (memOk_unpoison (memOk_noteRel (memOk_homeWrite (memOk_of_snd (memOk_homeError h) ‹_›))))

theorem outOk_execHomeAccess {i} (h : s.memOk = true) : OutOk (execHomeAccess i s) := by
  unfold execHomeAccess
  refine outOk_arrived h fun _ _ h1 => ?_
  split
  · exact someOk_ite (someOk_some (memOk_homeDo h1)) trivial
  · exact memOk_homeDo h1
  · exact memOk_codeWritten h1
  · exact memOk_setCell h1
  · trivial

theorem outOk_execQueueResponse {i} (h : s.memOk = true) : OutOk (execQueueResponse i s) := by
  unfold execQueueResponse
  refine outOk_arrived h fun _ _ h1 => ?_
  split
  · extract_lets _ s2
    have h2 : s2.memOk = true := memOk_setCtx h1
    exact someOk_ite (someOk_some (memOk_ite (memOk_acquired h2) h2)) (someOk_some h1)
  · trivial

theorem memOk_latchOrReport (h : s.memOk = true) {cell act cause addr} : (s.latchOrReport cell act cause addr).memOk = true :=
  memOk_ite (memOk_setCell h) (memOk_reportLatched h)

theorem outOk_execStxErrorResponse {i} (h : s.memOk = true) : OutOk (execStxErrorResponse i s) := by
  unfold execStxErrorResponse
  refine outOk_arrived h fun _ _ h1 => ?_
  split
  · exact memOk_latchOrReport (memOk_performedAt h1)
  · exact memOk_latchOrReport h1
  · trivial

theorem outOk_execWriteAcknowledgement {i} (h : s.memOk = true) : OutOk (execWriteAcknowledgement i s) := by
  unfold execWriteAcknowledgement
  refine outOk_arrived h fun _ _ h1 => ?_
  split
  · split
    · exact memOk_engineDone h1
    · exact memOk_performedAt h1
  · trivial

theorem outOk_execHbmError {pa corrected} (h : s.memOk = true) : OutOk (execHbmError pa corrected s) := by
  unfold execHbmError
  extract_lets _ _ _ _ s1
  have h1 : s1.memOk = true := by
    unfold s1
    split
    · exact memOk_ite (memOk_report h) h
    · exact h
  refine outOk_event (someOk_ite (someOk_some (memOk_ite ?_ (memOk_setCluster h1))) trivial)
  split
  · exact memOk_reportLimited h
  · exact h

theorem outOk_execScratchCorrected {cell} (h : s.memOk = true) : OutOk (execScratchCorrected cell s) :=
  outOk_event (someOk_map fun _ => memOk_reportLimited h)

/-! ### Job counts and acknowledgements -/

theorem memOk_setCount (h : s.memOk = true) {line n} : (s.setCount line n).memOk = true := memOk_setMem h (wf_writeLE _ _ _ (mem_wf h))
theorem memOk_initLine (h : s.memOk = true) {line job owner} : (s.initLine line job owner).memOk = true := memOk_hbmWrite (memOk_hbmWrite h)

theorem memOk_countRecord (h : s.memOk = true) {line job} : (s.countRecord line job).memOk = true := by
  unfold State.countRecord
  split
  · exact memOk_reportLimited h
  · exact h

theorem outOk_execCountIncrement {i} (h : s.memOk = true) : OutOk (execCountIncrement i s) := by
  unfold execCountIncrement
  refine outOk_arrived h fun _ _ h1 => ?_
  split
  · exact someOk_some (memOk_post (memOk_ite (memOk_setCount h1) (memOk_ite (memOk_countRecord h1) h1)))
  · trivial

theorem memOk_decrement (h : s.memOk = true) {home line job n} : (s.decrement home line job n).memOk = true := by
  unfold State.decrement
  extract_lets _ _ s1
  have h1 : s1.memOk = true := memOk_setCount (memOk_ite (memOk_countRecord h) h)
  exact memOk_ite h (memOk_ite (memOk_countRecord h) (memOk_ite (memOk_post h1) h1))

theorem outOk_execCountDecrement {i} (h : s.memOk = true) : OutOk (execCountDecrement i s) := by
  unfold execCountDecrement
  refine outOk_arrived h fun _ _ h1 => ?_
  split
  · exact memOk_ackSend (memOk_decrement h1)
  · trivial

theorem memOk_forkCounted (h : s.memOk = true) {w f} : (s.forkCounted w f).memOk = true := by
  unfold State.forkCounted
  split
  · exact memOk_setCtx h
  · exact memOk_takeTrap (memOk_foldl (fun _ _ h1 => memOk_subtractOne h1) h)

theorem memOk_incrementAcked (h : s.memOk = true) {w job bad} : (s.incrementAcked w job bad).memOk = true := by
  unfold State.incrementAcked
  extract_lets _ _ s1
  have h1 : s1.memOk = true := memOk_setCtx h
  split
  · exact memOk_setCtx h
  · exact memOk_ite (memOk_report h1) (memOk_reportLimited h1)

theorem outOk_execForkChildInject {cell ctx} (h : s.memOk = true) : OutOk (execForkChildInject cell ctx s) := by
  unfold execForkChildInject
  extract_lets
  refine outOk_event ?_
  split
  · split
    · trivial
    · extract_lets _ s1
      have h1 : s1.memOk = true := memOk_sendParcel h
      exact someOk_ite (someOk_some (memOk_ite (memOk_commit (memOk_setCtx h1)) (memOk_setCtx h1))) trivial
  · trivial

/-! ### Barriers above a cell, joins matched, MMA retired -/

theorem outOk_execBarrierArrival {i} (h : s.memOk = true) : OutOk (execBarrierArrival i s) := by
  unfold execBarrierArrival
  refine outOk_arrived h fun _ _ h1 => ?_
  split
  · extract_lets
    refine someOk_ite (someOk_some (memOk_ite (memOk_post h1) ?_)) trivial
    split
    extract_lets s2
    have h2 : s2.memOk = true := memOk_setCell h1
    exact memOk_ite (memOk_sendPhase h2) h2
  · trivial

theorem memOk_barAnswered (h : s.memOk = true) {w bar len arrivals phase} : (s.barAnswered w bar len arrivals phase).memOk = true :=
  memOk_ite (memOk_takeTrap h) (memOk_onceAfter (memOk_setCtx (memOk_setCell h)))

theorem outOk_execBarrierStateReply {i} (h : s.memOk = true) : OutOk (execBarrierStateReply i s) := by
  unfold execBarrierStateReply
  refine outOk_arrived h fun _ _ h1 => ?_
  split
  · exact someOk_ite (someOk_some (memOk_post h1)) trivial
  · split
    · exact memOk_ite (memOk_barAnswered h1) h1
    · exact h1
  · trivial

theorem outOk_execPhaseUpdate {i} (h : s.memOk = true) : OutOk (execPhaseUpdate i s) := by
  unfold execPhaseUpdate
  refine outOk_arrived h fun _ _ h1 => ?_
  split
  · exact someOk_ite (someOk_some (memOk_setCell h1)) trivial
  · trivial

theorem memOk_trapMembers {f l} (h : s.memOk = true) : (trapMembers f l s).memOk = true := by
  induction l generalizing s with
  | nil => exact h
  | cons _ _ ih => exact ih (memOk_takeTrap h)

theorem memOk_gangMembers {wire l} (h : s.memOk = true) : (gangMembers wire l s).memOk = true := by
  induction l generalizing s with
  | nil => exact h
  | cons _ _ ih => exact ih (memOk_commit (memOk_setCtx (memOk_dropJoin h)))

theorem memOk_mmaMembers {s0 : State} {wire l} (h : s.memOk = true) : (mmaMembers s0 wire l s).memOk = true := by
  induction l generalizing s with
  | nil => exact h
  | cons _ _ ih =>
    rw [mmaMembers]
    split
    · exact ih (memOk_setCtx (memOk_setCell (memOk_dropJoin h)))
    · exact ih h

theorem memOk_matchMma (h : s.memOk = true) {wire l} : (s.matchMma wire l).memOk = true := by
  unfold State.matchMma
  extract_lets
  refine memOk_ite (memOk_trapMembers h) ?_
  split
  · exact memOk_mmaMembers h
  · exact memOk_trapMembers h

theorem outOk_execJoinMatch {wire} (h : s.memOk = true) : OutOk (execJoinMatch wire s) := by
  unfold execJoinMatch
  refine outOk_event (someOk_map fun _ => ?_)
  split
  · exact h
  · refine memOk_ite (memOk_trapMembers h) ?_
    split
    · exact memOk_gangMembers h
    · exact memOk_onceStart h
    · exact memOk_matchMma h

theorem memOk_sendWork (h : s.memOk = true) {cell} : (s.sendWork cell).memOk = true := memOk_ite h (memOk_post (memOk_setCell h))
theorem memOk_addUnit (h : s.memOk = true) {cell n id} : (s.addUnit cell n id).memOk = true :=
  memOk_setCell (memOk_ite h (memOk_sendWork h))
theorem memOk_addUnits (h : s.memOk = true) {cell n ids} : (s.addUnits cell n ids).memOk = true :=
  memOk_foldl (fun _ _ h1 => memOk_addUnit h1) h

theorem memOk_retireMembers {s0 : State} {l} (h : s.memOk = true) : (retireMembers s0 l s).memOk = true := by
  induction l generalizing s with
  | nil => exact h
  | cons _ _ ih =>
    rw [retireMembers]
    split
    · exact ih h
    · exact ih (memOk_commit (memOk_setCtx (memOk_setCell (memOk_addUnits h))))

theorem outOk_execMmaRetire {row} (h : s.memOk = true) : OutOk (execMmaRetire row s) :=
  outOk_event (someOk_ite (someOk_some (memOk_retireMembers h)) trivial)

/-! ### The ends of chunks and transfers -/

theorem memOk_keepDeps (h : s.memOk = true) {cell slot x} : (s.keepDeps cell slot x).memOk = true := memOk_ite h (memOk_setCell h)

theorem outOk_execTwChunkComplete {cell slot} (h : s.memOk = true) : OutOk (execTwChunkComplete cell slot s) := by
  unfold execTwChunkComplete
  extract_lets _ _ s1
  have h1 : s1.memOk = true := memOk_setXfer h
  refine outOk_event (someOk_ite (someOk_some (memOk_ite (memOk_keepDeps h1) ?_)) trivial)
  split
  · exact memOk_ite (memOk_takeEnd h1) h1
  · exact h1

theorem outOk_execTwHandlePush {cell slot} (h : s.memOk = true) : OutOk (execTwHandlePush cell slot s) := by
  unfold execTwHandlePush
  extract_lets
  refine outOk_event ?_
  split
  · trivial
  · exact someOk_ite (someOk_some (memOk_post (memOk_tidyW (memOk_keepDeps (memOk_setXfer (memOk_setWcopy h)))))) trivial

theorem outOk_execTwFault {cell slot} (h : s.memOk = true) : OutOk (execTwFault cell slot s) :=
  outOk_event (someOk_ite (someOk_some (memOk_report (memOk_post (memOk_setXfer h)))) trivial)

/-! ### Channel engines, pool roots and the Sluice -/

theorem outOk_execChannelElementArrival {i} (h : s.memOk = true) : OutOk (execChannelElementArrival i s) := by
  unfold execChannelElementArrival
  refine outOk_arrived h fun _ _ h1 => ?_
  split
  · exact someOk_some (memOk_ackSend (memOk_syncR (memOk_elemArrive (memOk_ite (memOk_setRcopy h1) h1))))
  · trivial

theorem memOk_refillReads {cell n n' x} (h : s.memOk = true) : (refillReads cell n n' x s).2.2.2.memOk = true := by
  induction n generalizing cell n' x s with
  | zero => exact h
  | succ _ ih =>
    rw [refillReads]
    split
    extract_lets
    split
    exact memOk_of_snd₃ (ih (memOk_moveRel h)) ‹_›

theorem outOk_execChannelRefill {cell chan} (h : s.memOk = true) : OutOk (execChannelRefill cell chan s) := by
  unfold execChannelRefill
  refine outOk_event (someOk_ite (someOk_some ?_) trivial)
  extract_lets
  split
  exact memOk_post (memOk_setRcopy (memOk_of_snd₃ (memOk_refillReads h) ‹_›))

theorem memOk_landElems {cell d l} (h : s.memOk = true) : (landElems cell d l s).memOk = true := by
  induction l generalizing s with
  | nil => exact h
  | cons _ _ ih => exact ih (memOk_setMem (memOk_settleFor h) (wf_writeLE _ _ _ (mem_wf (memOk_settleFor h))))

theorem outOk_execTailraceReadLanded {i} (h : s.memOk = true) : OutOk (execTailraceReadLanded i s) := by
  unfold execTailraceReadLanded
  refine outOk_arrived h fun _ _ h1 => ?_
  split
  · exact someOk_some (memOk_syncR (memOk_freeBlocks (memOk_setRcopy (memOk_landElems h1))))
  · exact memOk_landInbox h1
  · trivial

theorem outOk_execCloseMarkArrival {i} (h : s.memOk = true) : OutOk (execCloseMarkArrival i s) := by
  unfold execCloseMarkArrival
  refine outOk_arrived h fun _ _ h1 => ?_
  split
  · exact someOk_some (memOk_ackSend (memOk_syncR (memOk_setRcopy h1)))
  · trivial

theorem memOk_addCredits (h : s.memOk = true) {cell id n quota} : (s.addCredits cell id n quota).memOk = true := by
  unfold State.addCredits
  extract_lets _ s1
  have h1 : s1.memOk = true := memOk_setCell h
  split
  · exact h1
  · exact memOk_setWcopy h1

theorem outOk_execRoomNotification {i} (h : s.memOk = true) : OutOk (execRoomNotification i s) := by
  unfold execRoomNotification
  refine outOk_arrived h fun _ _ h1 => ?_
  split
  · exact memOk_addCredits h1
  · exact memOk_addCredits h1
  · exact someOk_ite (someOk_some (memOk_addCredits (memOk_setCell h1))) trivial
  · trivial

theorem memOk_setLane (h : s.memOk = true) {die lane l} : (s.setLane die lane l).memOk = true := memOk_setDie h
theorem memOk_ringPut (h : s.memOk = true) {die lane p} : (s.ringPut die lane p).memOk = true := memOk_setLane (memOk_hbmBytes h)

theorem memOk_laneAppend (h : s.memOk = true) {die lane p} : (s.laneAppend die lane p).memOk = true := by
  unfold State.laneAppend
  extract_lets
  refine memOk_ite (memOk_ringPut h) ?_
  split
  exact memOk_setLane (memOk_of_snd (memOk_chainPut h) ‹_›)

theorem memOk_hand (h : s.memOk = true) {die cell l} : (s.hand die cell l).memOk = true := memOk_foldl (fun _ _ h1 => memOk_post h1) h

theorem memOk_servePark {die lane l} (h : s.memOk = true) : (servePark die lane l s).memOk = true := by
  induction l generalizing s with
  | nil => exact h
  | cons _ _ ih => exact memOk_ite h (ih (memOk_hand (memOk_setLane h)))

theorem memOk_serve (h : s.memOk = true) {die lane} : (s.serve die lane).memOk = true := memOk_servePark h

theorem outOk_execPoolAppend {i} (h : s.memOk = true) : OutOk (execPoolAppend i s) := by
  unfold execPoolAppend
  refine outOk_arrived h fun _ _ h1 => ?_
  split
  · extract_lets
    split
    · exact someOk_ite (someOk_some (memOk_post h1)) trivial
    · exact someOk_ite (someOk_some (memOk_serve (memOk_laneAppend h1))) trivial
  · trivial

theorem outOk_execPoolPopRequest {i} (h : s.memOk = true) : OutOk (execPoolPopRequest i s) := by
  unfold execPoolPopRequest
  refine outOk_arrived h fun _ _ h1 => ?_
  split
  · exact someOk_some (memOk_serve (memOk_setLane h1))
  · trivial

theorem outOk_execPoolRingRefill {die lane} (h : s.memOk = true) : OutOk (execPoolRingRefill die lane s) := by
  unfold execPoolRingRefill
  extract_lets
  refine outOk_event (someOk_ite (someOk_some ?_) trivial)
  split
  exact memOk_serve (memOk_setLane (memOk_foldl (fun _ _ h1 => memOk_ringPut h1) (memOk_of_snd (memOk_chainTake h) ‹_›)))

theorem memOk_askPool (h : s.memOk = true) {die lane} : (s.askPool die lane).memOk = true :=
  memOk_foldl (fun _ _ h1 => memOk_post (memOk_setCell h1)) h

theorem memOk_growBuf (h : s.memOk = true) {pn b q'} : (s.growBuf pn b q').memOk = true := by
  unfold State.growBuf
  extract_lets
  split
  · extract_lets _ _ _ _ s1
    have h1 : s1.memOk = true := memOk_chanWord (memOk_chanWord h)
    exact memOk_post (memOk_ite (memOk_setRcopy h1) h1)
  · exact memOk_setCell h
  · exact memOk_setLane h
  · exact h

theorem memOk_growRecord (h : s.memOk = true) {pn b} : (s.growRecord pn b).memOk = true := by
  unfold State.growRecord
  extract_lets
  split
  exact memOk_report (memOk_setPart h)

theorem memOk_growComp (h : s.memOk = true) {pn l comp} : (s.growComp pn l comp).memOk = true := by
  unfold State.growComp
  extract_lets
  refine memOk_ite h ?_
  split
  · exact h
  · split
    exact memOk_ite (memOk_growBuf (memOk_setPart h)) (memOk_ite h (memOk_growRecord h))

theorem outOk_execSluiceSample {part} (h : s.memOk = true) : OutOk (execSluiceSample part s) :=
  outOk_event (someOk_ite (someOk_some (memOk_foldl (fun _ _ h1 => memOk_setCell h1)
    (memOk_foldl (fun _ _ h2 => memOk_growComp h2) (memOk_setPart h)))) trivial)

/-! ### Slot tables and dispatch -/

theorem memOk_setSlot (h : s.memOk = true) {die k x} : (s.setSlot die k x).memOk = true := memOk_setDie h
theorem memOk_rejectSlot (h : s.memOk = true) {die k reason} : (s.rejectSlot die k reason).memOk = true :=
  memOk_reportLimited (memOk_post (memOk_setPart (memOk_foldl (fun _ _ h1 => memOk_post h1) (memOk_setSlot h))))
theorem memOk_countSlot (h : s.memOk = true) {die k} : (s.countSlot die k).memOk = true := memOk_post (memOk_setSlot h)

theorem memOk_askNext (h : s.memOk = true) {die k} : (s.askNext die k).memOk = true := by
  unfold State.askNext
  extract_lets
  refine memOk_ite (memOk_countSlot h) ?_
  split
  · exact memOk_rejectSlot h
  · exact memOk_post (memOk_setSlot h)

theorem outOk_execSlotArm {die slot} (h : s.memOk = true) : OutOk (execSlotArm die slot s) := by
  unfold execSlotArm
  extract_lets
  refine outOk_event (someOk_ite (someOk_some ?_) trivial)
  split
  · exact memOk_rejectSlot h
  · exact memOk_ite (memOk_askNext (memOk_setSlot h)) (memOk_countSlot h)

theorem outOk_execReserveContexts {i} (h : s.memOk = true) : OutOk (execReserveContexts i s) := by
  unfold execReserveContexts
  refine outOk_arrived h fun _ _ h1 => ?_
  split
  · exact someOk_some (memOk_post (memOk_setCell h1))
  · exact someOk_some (memOk_askNext (memOk_setSlot h1))
  · extract_lets
    split
    · exact h1
    · exact memOk_setCell h1
  · trivial

theorem memOk_slotCounted (h : s.memOk = true) {die k bad} : (s.slotCounted die k bad).memOk = true := by
  unfold State.slotCounted
  refine memOk_ite (memOk_rejectSlot h) ?_
  extract_lets _ _ s1
  have h1 : s1.memOk = true := memOk_setSlot h
  exact memOk_ite h1 (memOk_post h1)

theorem outOk_execForkAck {i} (h : s.memOk = true) : OutOk (execForkAck i s) := by
  unfold execForkAck
  refine outOk_arrived h fun _ _ h1 => ?_
  split
  · split
    · exact someOk_some (memOk_ite (memOk_forkCounted h1) (memOk_setCtx h1))
    · exact h1
  · exact memOk_incrementAcked h1
  · exact memOk_slotCounted h1
  · trivial

theorem memOk_releaseOne (h : s.memOk = true) {die k dst m} : (s.releaseOne die k dst m).memOk = true := memOk_setSlot (memOk_setCluster h)

theorem memOk_releaseSlot {die k n} (h : s.memOk = true) : (releaseSlot die k n s).2.memOk = true := by
  induction n generalizing s with
  | zero => exact h
  | succ _ ih =>
    rw [releaseSlot]
    split
    · exact h
    · exact ih (memOk_releaseOne h)

theorem memOk_releaseSlots {die l n} (h : s.memOk = true) : (releaseSlots die l n s).memOk = true := by
  induction l generalizing die n s with
  | nil => exact h
  | cons _ _ ih =>
    rw [releaseSlots]
    split
    exact ih (memOk_of_snd (memOk_releaseSlot h) ‹_›)

theorem outOk_execDispatchRelease {die} (h : s.memOk = true) : OutOk (execDispatchRelease die s) :=
  outOk_event (someOk_ite (someOk_some (memOk_releaseSlots h)) trivial)

theorem outOk_execStationInject {cluster} (h : s.memOk = true) : OutOk (execStationInject cluster s) := by
  unfold execStationInject
  extract_lets
  refine outOk_event ?_
  split
  · trivial
  · exact someOk_ite (someOk_some (memOk_post (memOk_setCluster h))) trivial

/-! ### The graph executor -/

theorem memOk_logWalk (h : s.memOk = true) {pn phys kind va pa} : (s.logWalk pn phys kind va pa).memOk = true := memOk_logViolation h

theorem memOk_execFails (h : s.memOk = true) {pn asid kind va} : (s.execFails pn asid kind va).memOk = true := by
  unfold State.execFails
  refine memOk_ite h ?_
  split
  · exact memOk_logWalk h
  · exact h

theorem someOk_execWrite (h : s.memOk = true) {pn asid va v} : SomeOk (s.execWrite pn asid va v) := by
  unfold State.execWrite
  split
  · trivial
  · exact someOk_ite trivial (someOk_some (memOk_unpoison (memOk_noteRel (memOk_homeWrite h))))

theorem memOk_setKick (h : s.memOk = true) {pn r k} : (s.setKick pn r k).memOk = true := memOk_setPart h
theorem memOk_nodeRecord (h : s.memOk = true) {pn node} : (s.nodeRecord pn node).memOk = true := memOk_reportLimited h
theorem outOk_execKick {part reg value} (h : s.memOk = true) : OutOk (execKick part reg value s) :=
  outOk_event (someOk_ite (someOk_some (memOk_ite (memOk_setPart h) (memOk_ite (memOk_nodeRecord h) (memOk_setKick h)))) trivial)
theorem memOk_setReplay (h : s.memOk = true) {pn reg x} : (s.setReplay pn reg x).memOk = true :=
  memOk_foldl (fun _ _ h1 => memOk_nodeRecord h1) (memOk_setKick h)
theorem memOk_nodeDone (h : s.memOk = true) {pn reg n a b r g} : (s.nodeDone pn reg n a b r g).memOk = true :=
  memOk_setReplay (memOk_foldl (fun _ _ h1 => memOk_execFails h1) h)
theorem memOk_nodeFault (h : s.memOk = true) {pn reg n r} : (s.nodeFault pn reg n r).memOk = true := memOk_setReplay h

theorem outOk_execReplayStart {part reg} (h : s.memOk = true) : OutOk (execReplayStart part reg s) := by
  unfold execReplayStart
  extract_lets
  refine outOk_event ?_
  split
  · split
    · trivial
    · extract_lets
      refine someOk_ite (someOk_some ?_) trivial
      split
      · exact memOk_setKick h
      · extract_lets s1
        have h1 : s1.memOk = true := by
          unfold s1
          split
          · exact memOk_execFails h
          · exact h
        exact memOk_nodeRecord (memOk_setKick h1)
  · trivial

theorem memOk_resetChan (h : s.memOk = true) {pn id} : (s.resetChan pn id).memOk = true :=
  memOk_setPart (memOk_setChanDesc (memOk_setWcopy (memOk_setRcopy (memOk_freeBlocks h))))
theorem memOk_writeCasids (h : s.memOk = true) {g} : (s.writeCasids g).memOk = true :=
  memOk_foldl (fun _ _ h1 => memOk_ite h1 (memOk_setCell h1)) h

theorem someOk_startKernel (h : s.memOk = true) {pn reg n r g x t} : SomeOk (s.startKernel pn reg n r g x t) := by
  unfold State.startKernel
  extract_lets
  refine someOk_ite (someOk_some (memOk_nodeFault h)) ?_
  split
  · exact someOk_ite trivial
      (someOk_some (memOk_setReplay (memOk_setPart (memOk_setSlot
        (memOk_setDie (memOk_initLine (memOk_foldl (fun _ _ h1 => memOk_resetChan h1) (memOk_writeCasids h))))))))
  · trivial

theorem someOk_startNode (h : s.memOk = true) {pn reg n r g} : SomeOk (s.startNode pn reg n r g) := by
  unfold State.startNode
  extract_lets
  split
  · split
    · exact someOk_startKernel h
    · refine someOk_some ?_
      split
      · exact memOk_nodeFault (memOk_execFails h)
      · exact memOk_nodeDone h
    · exact memOk_setReplay h
    · exact memOk_setReplay h
    · exact memOk_nodeDone h
  · trivial

theorem outOk_execNodeStart {part reg node} (h : s.memOk = true) : OutOk (execNodeStart part reg node s) := by
  unfold execNodeStart
  extract_lets
  refine outOk_event ?_
  split
  · trivial
  · split
    · trivial
    · exact someOk_ite (someOk_startNode h) trivial

theorem memOk_copyWord (h : s.memOk = true) {pn reg n r g x} : (s.copyWord pn reg n r g x).memOk = true := by
  unfold State.copyWord
  extract_lets
  split
  · exact memOk_nodeFault (memOk_execFails h)
  · split
    · exact memOk_nodeFault (memOk_execFails h)
    · exact memOk_setReplay ((someOk_execWrite h).some ‹_›)

theorem memOk_copyStep (h : s.memOk = true) {pn reg} : (s.copyStep pn reg).memOk = true := by
  unfold State.copyStep
  split
  · exact h
  · split
    · exact memOk_ite h (memOk_copyWord h)
    · exact h

theorem outOk_execCopyComplete {part reg node} (h : s.memOk = true) : OutOk (execCopyComplete part reg node s) := by
  unfold execCopyComplete
  extract_lets
  refine outOk_event ?_
  split
  · trivial
  · split
    · exact someOk_ite (someOk_some (memOk_nodeDone h)) trivial
    · trivial

theorem memOk_endDrop (h : s.memOk = true) {p job} : (s.endDrop p job).memOk = true :=
  memOk_foldl (fun _ _ h1 => memOk_ite (memOk_setCell h1) h1) h

theorem outOk_execJobDone {i} (h : s.memOk = true) : OutOk (execJobDone i s) := by
  unfold execJobDone
  refine outOk_arrived h fun _ _ h1 => ?_
  split
  · split
    · exact h1
    · extract_lets _ s2 _ _ s3
      have h2 : s2.memOk = true := memOk_endDrop h1
      have h3 : s3.memOk = true := memOk_setPart h2
      refine someOk_ite trivial ?_
      split
      · exact h2
      · split
        · exact h3
        · split
          · exact h3
          · exact memOk_ite (memOk_nodeFault h3) (memOk_nodeDone h3)
  · trivial

theorem outOk_execReplayEnd {part reg} (h : s.memOk = true) : OutOk (execReplayEnd part reg s) := by
  unfold execReplayEnd
  extract_lets _ _ s1
  have h1 : s1.memOk = true := memOk_setKick h
  refine outOk_event ?_
  split
  · trivial
  · refine someOk_ite (someOk_some ?_) trivial
    split
    · exact h1
    · extract_lets _ s2
      have h2 : s2.memOk = true := memOk_ite h1 (memOk_getD (someOk_execWrite h1) (memOk_execFails h1))
      exact memOk_ite (memOk_with h2) h2

/-! ### Steps and time -/

theorem outOk_execStep {hd ra b c} (h : s.memOk = true) : OutOk (execStep hd ra b c s) :=
  outOk_finishLen
    (resOk_ite (resOk_done h) (resOk_ite (resOk_trap h) (resOk_ite (resOk_trap h)
      (resOk_withRoom h fun _ h1 => resOk_done (memOk_setMe h1)))))

theorem outOk_execStepend {hd} (h : s.memOk = true) : OutOk (execStepend hd s) :=
  outOk_finishLen (resOk_ite (resOk_done h) (resOk_ite (resOk_trap h) (resOk_withRoom h fun _ h1 => resOk_done (memOk_setMe h1))))
theorem outOk_execSlack {hd d} (h : s.memOk = true) : OutOk (execSlack hd d s) := outOk_finishLen (resOk_done (memOk_ite h (memOk_setMe h)))

theorem resOk_sleepEnds (h : s.memOk = true) {w t} : (sleepEnds s w t).MemOk := by
  unfold sleepEnds
  split <;> exact h

theorem outOk_execSleept {hd ra} (h : s.memOk = true) : OutOk (execSleept hd ra s) :=
  outOk_finishLen (resOk_ite (resOk_done h) (resOk_ite (resOk_sleepEnds h) (resOk_wait h)))

/-! ### Contexts brought to a stop -/

theorem memOk_stopCtx (h : s.memOk = true) {w} : (s.stopCtx w).memOk = true := by
  unfold State.stopCtx
  extract_lets _ _ _ s1
  have h1 : s1.memOk = true := memOk_setCtx (memOk_consumeFirst (memOk_rollback h))
  exact memOk_ite (memOk_trace h1) h1

theorem memOk_seekStop (h : s.memOk = true) {w} : (s.seekStop w).memOk = true :=
  memOk_ite h (memOk_ite (memOk_ite h (memOk_setCtx h)) (memOk_ite h (memOk_ite (memOk_stopCtx h) (memOk_ite h (memOk_setCtx h)))))
theorem memOk_giveOnce (h : s.memOk = true) {w} : (s.giveOnce w).memOk = true := memOk_ite (memOk_rollback h) h

theorem memOk_cellStops (h : s.memOk = true) {cell} : (s.cellStops cell).memOk = true :=
  memOk_ite (memOk_foldl (fun _ _ h1 => memOk_seekStop (memOk_giveOnce h1)) h)
    (memOk_ite (memOk_foldl (fun _ _ h2 => memOk_seekStop h2) h) h)

theorem memOk_toBoundary (h : s.memOk = true) {w} : (s.toBoundary w).memOk = true := by
  unfold State.toBoundary
  extract_lets _ _ _ s1
  have h1 : s1.memOk = true := memOk_setCtx (memOk_commit h)
  refine memOk_ite h ?_
  split
  · exact h
  · exact memOk_rollback h
  · exact memOk_ite (memOk_endActivation h1) h1

theorem memOk_cellBoundary (h : s.memOk = true) {cell} : (s.cellBoundary cell).memOk = true :=
  memOk_foldl (fun _ _ h1 => memOk_toBoundary h1) h

theorem memOk_writeImage (h : s.memOk = true) {cell pa} : (s.writeImage cell pa).memOk = true := by
  unfold State.writeImage
  extract_lets s1
  have h1 : s1.memOk = true := memOk_settle h
  exact memOk_written (memOk_setMem h1 (wf_writeAll (mem_wf h1)))

theorem memOk_loadImage (h : s.memOk = true) {cell at_} : (s.loadImage cell at_).memOk = true :=
  memOk_setCell (memOk_setMem h (wf_writeAll (mem_wf h)))
theorem memOk_readImage (h : s.memOk = true) {cell pa} : (s.readImage cell pa).memOk = true := memOk_loadImage h

theorem memOk_swapOut (h : s.memOk = true) {cell} : (s.swapOut cell).memOk = true := by
  unfold State.swapOut
  extract_lets s1
  have h1 : s1.memOk = true := memOk_settle h
  exact memOk_setCell (memOk_setPart (memOk_foldl (fun _ _ h2 => memOk_written h2) (memOk_setMem h1 (wf_writeAll (mem_wf h1)))))

theorem memOk_reload (h : s.memOk = true) {cell at_} : (s.reload cell at_).memOk = true := memOk_setCell (memOk_loadImage h)
theorem memOk_swapIn (h : s.memOk = true) {cell} : (s.swapIn cell).memOk = true :=
  memOk_ite h (memOk_setPart (memOk_freeBlocks (memOk_setCell (memOk_reload h))))
theorem memOk_writeDisplaced (h : s.memOk = true) {cell} : (s.writeDisplaced cell).memOk = true :=
  memOk_written (memOk_setMem h (wf_writeAll (mem_wf h)))
theorem outOk_execClass0Reserve {cell} (h : s.memOk = true) : OutOk (execClass0Reserve cell s) :=
  outOk_event (someOk_ite (someOk_some (memOk_setCell h)) trivial)

theorem memOk_chooseDisplaced (h : s.memOk = true) {cell} : (s.chooseDisplaced cell).memOk = true := by
  unfold State.chooseDisplaced
  extract_lets
  split
  · exact memOk_ite h (memOk_setCell h)
  · refine memOk_ite h (memOk_ite h ?_)
    split
    · exact memOk_setCell h
    · exact h

theorem outOk_execDisplacement {cell} (h : s.memOk = true) : OutOk (execDisplacement cell s) := by
  unfold execDisplacement
  refine outOk_event (someOk_map fun _ => ?_)
  extract_lets _ _ _ _ _ s1
  have h1 : s1.memOk = true := memOk_setCell (memOk_setCtx (memOk_writeDisplaced (memOk_consumeFirst (memOk_rollback h))))
  split
  · exact memOk_formSet h1
  · exact h1

theorem memOk_reinstate (h : s.memOk = true) {w x} : (s.reinstate w x).memOk = true := by
  unfold State.reinstate
  extract_lets
  split
  exact memOk_setCell h

theorem outOk_execDisplacedRestore {cell} (h : s.memOk = true) : OutOk (execDisplacedRestore cell s) := by
  unfold execDisplacedRestore
  extract_lets
  refine outOk_event ?_
  split
  · exact someOk_ite (someOk_some (memOk_reinstate (memOk_setCell h))) trivial
  · trivial

theorem outOk_execWatchdog {cell ctx} (h : s.memOk = true) : OutOk (execWatchdog cell ctx s) :=
  outOk_event (someOk_ite (someOk_some (memOk_takeTrap h)) trivial)

theorem outOk_execSleeptWake {cell ctx} (h : s.memOk = true) : OutOk (execSleeptWake cell ctx s) := by
  unfold execSleeptWake
  extract_lets
  refine outOk_event ?_
  split
  · refine someOk_ite (someOk_some ?_) trivial
    split
    · exact memOk_onceAfter (memOk_setCtx ((resOk_sleepEnds h).done ‹_›))
    · exact memOk_takeTrap ((resOk_sleepEnds h).trap ‹_›)
    · exact (resOk_sleepEnds h).wait ‹_›
  · trivial

theorem outOk_execFenceTimeout {cell ctx} (h : s.memOk = true) : OutOk (execFenceTimeout cell ctx s) := by
  unfold execFenceTimeout
  extract_lets
  refine outOk_event ?_
  split
  · exact someOk_ite (someOk_some (memOk_takeTrap h)) trivial
  · trivial

theorem memOk_askPreempt (h : s.memOk = true) {cell} : (s.askPreempt cell).memOk = true := memOk_post h

theorem memOk_thienoPreempts (h : s.memOk = true) : s.thienoPreempts.memOk = true := by
  unfold State.thienoPreempts
  refine memOk_ite h ?_
  split
  · exact memOk_ite (memOk_askPreempt h) h
  · exact h

theorem outOk_execPreemptRequest {i} (h : s.memOk = true) : OutOk (execPreemptRequest i s) := by
  unfold execPreemptRequest
  refine outOk_arrived h fun _ _ h1 => ?_
  split
  · exact someOk_ite (someOk_some (memOk_ite (memOk_post (memOk_setCell h1)) (memOk_setCell h1))) trivial
  · exact h1
  · trivial

theorem outOk_execPreemptStopped {cell} (h : s.memOk = true) : OutOk (execPreemptStopped cell s) :=
  outOk_event (someOk_ite (someOk_some (memOk_post (memOk_ite (memOk_setCell (memOk_ite (memOk_swapOut h) h)) (memOk_setCell h)))) trivial)
theorem memOk_notifyResume (h : s.memOk = true) {cell} : (s.notifyResume cell).memOk = true :=
  memOk_foldl (fun _ _ h1 => memOk_post h1) (memOk_setCell h)
theorem memOk_resumeCell (h : s.memOk = true) {cell} : (s.resumeCell cell).memOk = true :=
  memOk_notifyResume (memOk_setCell (memOk_swapIn h))
theorem outOk_execCellResume {cell} (h : s.memOk = true) : OutOk (execCellResume cell s) :=
  outOk_event (someOk_ite (someOk_some (memOk_resumeCell h)) trivial)

theorem memOk_writeEntries {at_ n l} (h : s.memOk = true) : (writeEntries at_ n l s).memOk = true := by
  induction l generalizing at_ n s with
  | nil => exact h
  | cons _ _ ih => exact ih (memOk_hbmBytes h)

theorem memOk_refit (h : s.memOk = true) {pn ch l} : (s.refit pn ch l).2.memOk = true := by
  unfold State.refit
  split
  exact memOk_writeEntries (memOk_of_snd (memOk_chainTrim h) ‹_›)

theorem memOk_refitLane (h : s.memOk = true) {die lane l} : (s.refitLane die lane l).memOk = true := by
  unfold State.refitLane
  split
  exact memOk_setLane (memOk_writeEntries (memOk_of_snd (memOk_refit h) ‹_›))

theorem memOk_purgeLanes {cell job l} (h : s.memOk = true) : (purgeLanes cell job l s).memOk = true := by
  induction l generalizing s with
  | nil => exact h
  | cons _ _ ih =>
    rw [purgeLanes]
    split
    exact ih (memOk_ite h (memOk_subtract (memOk_refitLane h)))

theorem outOk_execJobDrop {i} (h : s.memOk = true) : OutOk (execJobDrop i s) := by
  unfold execJobDrop
  refine outOk_arrived h fun _ _ h1 => ?_
  split
  · extract_lets
    refine someOk_ite (someOk_some ?_) trivial
    split
    exact memOk_purgeLanes (memOk_subtract (memOk_setCell (memOk_of_snd (memOk_snd_ite h1 (memOk_refit h1)) ‹_›)))
  · split
    · exact someOk_some (memOk_foldl (fun _ _ h2 => memOk_post h2) h1)
    · exact h1
  · trivial

/-! ### Deadline steps, the governor and the Weir -/

theorem outOk_execWorkReport {i} (h : s.memOk = true) : OutOk (execWorkReport i s) := by
  unfold execWorkReport
  refine outOk_arrived h fun _ _ h1 => ?_
  split
  · exact someOk_some (memOk_setPart h1)
  · trivial

theorem memOk_notify (h : s.memOk = true) {pn kind slack handler id job} : (s.notify pn kind slack handler id job).memOk = true :=
  memOk_post h

theorem outOk_execStepRegistration {i} (h : s.memOk = true) : OutOk (execStepRegistration i s) := by
  unfold execStepRegistration
  refine outOk_arrived h fun _ _ h1 => ?_
  split
  · extract_lets
    split
    · exact memOk_setPart h1
    · exact memOk_notify h1
  · trivial

theorem outOk_execStepRetirement {i} (h : s.memOk = true) : OutOk (execStepRetirement i s) := by
  unfold execStepRetirement
  refine outOk_arrived h fun _ _ h1 => ?_
  split
  · exact someOk_some (memOk_setPart h1)
  · trivial

theorem memOk_sendBid (h : s.memOk = true) {pn cluster period k} : (s.sendBid pn cluster period k).memOk = true :=
  memOk_post (memOk_setCluster h)

theorem outOk_execGovernorPeriod {part} (h : s.memOk = true) : OutOk (execGovernorPeriod part s) := by
  unfold execGovernorPeriod
  extract_lets
  refine outOk_event (someOk_ite (someOk_some ?_) trivial)
  split
  exact memOk_foldl (fun _ _ h1 => memOk_sendBid h1) (memOk_foldl (fun _ _ h2 => memOk_notify h2) (memOk_setPart h))

theorem memOk_reportWork (h : s.memOk = true) {pn} : (s.reportWork pn).memOk = true :=
  memOk_ite (memOk_foldl (fun _ _ h1 => memOk_sendWork h1) (memOk_setPart h)) h

theorem outOk_execClusterBid {i} (h : s.memOk = true) : OutOk (execClusterBid i s) := by
  unfold execClusterBid
  refine outOk_arrived h fun _ _ h1 => ?_
  split
  · exact someOk_ite (someOk_some h1) (someOk_some (memOk_setCluster h1))
  · trivial

theorem outOk_execWeirClear (h : s.memOk = true) : OutOk (execWeirClear s) :=
  outOk_event (someOk_ite (someOk_some (memOk_foldl (fun _ _ h1 => memOk_post h1) (memOk_with h))) trivial)

theorem outOk_execGrantArrival {i} (h : s.memOk = true) : OutOk (execGrantArrival i s) := by
  unfold execGrantArrival
  refine outOk_arrived h fun _ _ h1 => ?_
  split
  · extract_lets _ s2
    have h2 : s2.memOk = true := memOk_setCluster h1
    split
    · exact h2
    · exact someOk_ite (someOk_some (memOk_setPart h2)) (someOk_some h2)
  · trivial

theorem memOk_traceEnforced (h : s.memOk = true) {cluster} : (s.traceEnforced cluster).memOk = true :=
  memOk_foldl (fun _ _ h1 => memOk_trace h1) h

theorem outOk_execMeterWindow {cluster} (h : s.memOk = true) : OutOk (execMeterWindow cluster s) := by
  unfold execMeterWindow
  extract_lets
  refine outOk_event ?_
  split
  · trivial
  · extract_lets _ _ _ _ s1
    have h1 : s1.memOk = true := memOk_setCluster h
    exact someOk_ite (someOk_some (memOk_ite (memOk_reportLimited (memOk_traceEnforced h1)) h1)) trivial

theorem memOk_railReached (h : s.memOk = true) {rail} : (s.railReached rail).memOk = true := memOk_with h
theorem outOk_execRailStep {rail} (h : s.memOk = true) : OutOk (execRailStep rail s) :=
  outOk_event (someOk_ite (someOk_some (memOk_railReached (memOk_with h))) trivial)

theorem outOk_execQuiesceDrained {part} (h : s.memOk = true) : OutOk (execQuiesceDrained part s) := by
  unfold execQuiesceDrained
  extract_lets
  refine outOk_event ?_
  split
  · exact someOk_ite (someOk_some (memOk_setPart h)) trivial
  · trivial

theorem outOk_execQuiesceTimeout {part} (h : s.memOk = true) : OutOk (execQuiesceTimeout part s) := by
  unfold execQuiesceTimeout
  extract_lets
  refine outOk_event ?_
  split
  · exact someOk_ite (someOk_some (memOk_reportLimited (memOk_setPart h))) trivial
  · trivial

theorem memOk_tripRecord (h : s.memOk = true) {cell} : (s.tripRecord cell).memOk = true := memOk_reportLimited (memOk_with h)
theorem memOk_trip (h : s.memOk = true) {cell} : (s.trip cell).memOk = true :=
  memOk_ite h (memOk_ite (memOk_tripRecord (memOk_setCell h)) (memOk_setCell h))

theorem memOk_heat (h : s.memOk = true) {cell temp} : (s.heat cell temp).memOk = true := by
  unfold State.heat
  extract_lets _ s1
  have h1 : s1.memOk = true := memOk_setCell h
  exact memOk_ite (memOk_trip h1) (memOk_ite (memOk_setCell h1) (memOk_ite (memOk_ite h1 (memOk_setCell h1)) (memOk_setCell h1)))

theorem outOk_execThermalSample {phys temp} (h : s.memOk = true) : OutOk (execThermalSample phys temp s) := by
  unfold execThermalSample
  refine outOk_event (someOk_ite (someOk_some ?_) trivial)
  extract_lets s1 s2
  have h1 : s1.memOk = true := memOk_with h
  have h2 : s2.memOk = true := memOk_ite (memOk_with h1) h1
  split
  · exact memOk_heat h2
  · exact h2

theorem memOk_tripOut (h : s.memOk = true) {cell} : (s.tripOut cell).memOk = true := memOk_ite (memOk_tripRecord (memOk_setCell h)) h
theorem memOk_remap (h : s.memOk = true) {cell col} : (s.remap cell col).memOk = true := memOk_with h

theorem memOk_moved (h : s.memOk = true) {cell old quarantine failing} : (s.moved cell old quarantine failing).memOk = true := by
  unfold State.moved
  extract_lets _ _ s1 _ s2
  have h1 : s1.memOk = true := memOk_with h
  have h2 : s2.memOk = true := memOk_with h
  split
  · exact memOk_ite h1 (memOk_report h1)
  · exact memOk_ite h (memOk_ite h2 (memOk_reportLimited h2))

theorem memOk_recount (h : s.memOk = true) {cell old new} : (s.recount cell old new).memOk = true := memOk_setCell (memOk_with h)

theorem outOk_execPromenadeCopyDone {cell} (h : s.memOk = true) : OutOk (execPromenadeCopyDone cell s) := by
  unfold execPromenadeCopyDone
  refine outOk_event ?_
  split
  · trivial
  · exact someOk_ite (someOk_some (memOk_moved (memOk_recount (memOk_remap (memOk_setCell (memOk_settle (memOk_cellBoundary h))))))) trivial

/-! ### The translation service -/

theorem memOk_fillAnswer (h : s.memOk = true) {k who va asid kind engine} : (s.fillAnswer k who va asid kind engine).2.memOk = true := by
  unfold State.fillAnswer
  extract_lets
  refine memOk_snd_ite h ?_
  split
  extract_lets s1
  have h1 : s1.memOk = true := memOk_setCluster h
  split
  · exact h1
  · exact memOk_logWalk h1
  · extract_lets
    refine memOk_snd_ite h1 ?_
    split <;> exact h1

theorem outOk_execTlbFillRequest {i} (h : s.memOk = true) : OutOk (execTlbFillRequest i s) := by
  unfold execTlbFillRequest
  refine outOk_arrived h fun _ _ h1 => ?_
  split
  · split
    exact memOk_post (memOk_of_snd (memOk_fillAnswer h1) ‹_›)
  · trivial

theorem outOk_execWalkerTimeLimit {i} (h : s.memOk = true) : OutOk (execWalkerTimeLimit i s) := by
  unfold execWalkerTimeLimit
  refine outOk_arrived h fun _ _ h1 => ?_
  split
  · exact someOk_ite (someOk_some (memOk_post h1)) trivial
  · trivial

theorem memOk_engineFilled (h : s.memOk = true) {cell slot va bad} : (s.engineFilled cell slot va bad).memOk = true := by
  unfold State.engineFilled
  extract_lets
  refine memOk_ite h ?_
  split <;> exact memOk_setXfer h

theorem memOk_ctxFilled (h : s.memOk = true) {w va bad} : (s.ctxFilled w va bad).memOk = true := by
  unfold State.ctxFilled
  refine memOk_ite h ?_
  split
  · exact memOk_setCtx h
  · exact memOk_takeTrap h

theorem outOk_execTlbFillReply {i} (h : s.memOk = true) : OutOk (execTlbFillReply i s) := by
  unfold execTlbFillReply
  refine outOk_arrived h fun _ s1 h1 => ?_
  split
  · refine someOk_ite (memOk_post h1) ?_
    split
    next s2 bad e =>
      have h2 : s2.memOk = true := by
        refine memOk_of_fst ?_ e
        split
        · exact memOk_setCell h1
        · exact h1
      split
      · exact memOk_engineFilled h2
      · exact memOk_ctxFilled h2
  · trivial

theorem outOk_execInvalidation {i} (h : s.memOk = true) : OutOk (execInvalidation i s) := by
  unfold execInvalidation
  refine outOk_arrived h fun _ _ h1 => ?_
  split
  · exact someOk_ite trivial (someOk_some (memOk_post (memOk_with (memOk_setCell h1))))
  · exact memOk_post h1
  · exact someOk_some (memOk_post (memOk_setCluster h1))
  · exact memOk_with h1
  · trivial

theorem memOk_invalidate (h : s.memOk = true) {asid page after} : (s.invalidate asid page after).memOk = true := by
  unfold State.invalidate
  split
  exact memOk_foldl (fun _ _ h1 => memOk_post h1) (memOk_with (memOk_of_snd (memOk_fresh h) ‹_›))

theorem memOk_svcDone (h : s.memOk = true) {w s1 s2} : (s.svcDone w s1 s2).memOk = true := by
  unfold State.svcDone
  split
  · exact memOk_commit (memOk_setCtx h)
  · exact h

theorem memOk_setBar (h : s.memOk = true) {fn off v} : (s.setBar fn off v).memOk = true := memOk_with h

theorem memOk_setRsp {fn n l} (h : s.memOk = true) : (setRsp fn n l s).memOk = true := by
  induction l generalizing fn n s with
  | nil => exact h
  | cons _ _ ih => exact ih (memOk_setBar h)

theorem memOk_respond (h : s.memOk = true) {fn tag status results} : (s.respond fn tag status results).memOk = true := memOk_setRsp h
theorem memOk_answer (h : s.memOk = true) {fn tag status results} : (s.answer fn tag status results).memOk = true :=
  memOk_with (memOk_respond h)

theorem memOk_pageMapped (h : s.memOk = true) {fn} : (s.pageMapped fn).memOk = true := by
  unfold State.pageMapped
  extract_lets
  split
  · exact memOk_ite (memOk_answer h) (memOk_with h)
  · exact h

theorem memOk_asidFree (h : s.memOk = true) {asid} : (s.asidFree asid).memOk = true := memOk_ite h (memOk_with h)

theorem memOk_retranslated (h : s.memOk = true) {asid dst a} : (s.retranslated asid dst a).2.2.memOk = true := by
  unfold State.retranslated
  extract_lets
  split
  · exact h
  · exact memOk_logWalk h
  · extract_lets
    split
    · exact h
    · split
      · exact h
      · split <;> exact h

theorem memOk_rehomedAt (h : s.memOk = true) {cell id old new} : (s.rehomedAt cell id old new).memOk = true := memOk_ite h (memOk_setCell h)

theorem memOk_rehomeNet {asid page l} (h : s.memOk = true) : (rehomeNet asid page l s).2.memOk = true := by
  induction l generalizing s with
  | nil => exact h
  | cons m _ ih =>
    rw [rehomeNet]
    refine ih ?_
    split
    · split
      · exact memOk_rehomedAt (memOk_retranslated h)
      · exact h
    · exact h

theorem memOk_rehomeSends {asid page l} (h : s.memOk = true) : (rehomeSends asid page l s).2.memOk = true := by
  induction l generalizing s with
  | nil => exact h
  | cons _ _ ih =>
    rw [rehomeSends]
    refine ih ?_
    split
    · split
      · exact memOk_retranslated h
      · exact h
    · exact h

theorem memOk_rehomeCtx (h : s.memOk = true) {asid page x} : (s.rehomeCtx asid page x).2.memOk = true := by
  unfold State.rehomeCtx
  split
  split
  exact memOk_of_snd (memOk_rehomeSends (memOk_of_snd (memOk_rehomeSends h) ‹_›)) ‹_›

theorem memOk_rehomeCell (h : s.memOk = true) {asid page cell} : (s.rehomeCell asid page cell).memOk = true := by
  unfold State.rehomeCell
  extract_lets s1
  have h1 : s1.memOk = true := by
    unfold s1
    refine memOk_foldl (fun _ _ h2 => ?_) h
    split
    exact memOk_setCtx (memOk_of_snd (memOk_rehomeCtx h2) ‹_›)
  split
  · exact h1
  · split
    exact memOk_setCell (memOk_of_snd (memOk_rehomeCtx h1) ‹_›)

theorem memOk_rehome (h : s.memOk = true) {asid page} : (s.rehome asid page).memOk = true := by
  unfold State.rehome
  split
  exact memOk_foldl (fun _ _ h1 => memOk_rehomeCell h1) (memOk_with (memOk_of_snd (memOk_rehomeNet h) ‹_›))

theorem outOk_execInvalidationComplete {id} (h : s.memOk = true) : OutOk (execInvalidationComplete id s) := by
  unfold execInvalidationComplete
  refine outOk_event ?_
  split
  · trivial
  · refine someOk_ite (someOk_some ?_) trivial
    extract_lets s1
    have h1 : s1.memOk = true := memOk_rehome (memOk_with h)
    split
    · exact h1
    · exact memOk_svcDone h1
    · exact memOk_pageMapped h1
    · exact memOk_asidFree h1

theorem memOk_svcDenied (h : s.memOk = true) {w n} : (s.svcDenied w n).memOk = true := by
  unfold State.svcDenied
  split
  · exact memOk_takeTrap h
  · exact h

theorem memOk_hookAnswer (h : s.memOk = true) {w n} : (s.hookAnswer w n).memOk = true := by
  unfold State.hookAnswer
  split
  · exact memOk_svcDenied h
  · exact memOk_svcDone h

theorem memOk_service (h : s.memOk = true) {w n} {k : State → State} (hk : ∀ s, s.memOk = true → (k s).memOk = true) :
    (s.service w n k).memOk = true :=
  memOk_ite (memOk_hookAnswer h) (hk _ h)

theorem outOk_svcRequest {name n i} (h : s.memOk = true) {k : Who → List W64 → State → State}
    (hk : ∀ v u s, s.memOk = true → (k v u s).memOk = true) : OutOk (svcRequest name n i s k) := by
  unfold svcRequest
  refine outOk_arrived h fun _ _ h1 => ?_
  split
  · exact someOk_ite (someOk_some (memOk_service h1 fun _ h2 => hk _ _ _ h2)) trivial
  · trivial

theorem outOk_execSvcVersion {i} (h : s.memOk = true) : OutOk (execSvcVersion i s) := by
  unfold execSvcVersion
  refine outOk_arrived h fun _ _ h1 => ?_
  split
  · exact someOk_ite (someOk_some (memOk_service h1 fun _ h2 => memOk_svcDone h2)) (someOk_ite (someOk_some (memOk_svcDenied h1)) trivial)
  · trivial

theorem outOk_execSvcInvalPage {i} (h : s.memOk = true) : OutOk (execSvcInvalPage i s) := by
  unfold execSvcInvalPage
  refine outOk_svcRequest h fun _ _ _ h1 => ?_
  split
  · exact memOk_ite (memOk_svcDenied h1) (memOk_invalidate h1)
  · exact memOk_svcDenied h1

theorem outOk_execSvcInvalAsid {i} (h : s.memOk = true) : OutOk (execSvcInvalAsid i s) := by
  unfold execSvcInvalAsid
  refine outOk_svcRequest h fun _ _ _ h1 => ?_
  split
  · exact memOk_invalidate h1
  · exact memOk_svcDenied h1

theorem memOk_setEntry (h : s.memOk = true) {pa e} : (s.setEntry pa e).memOk = true := memOk_hbmWrite h

theorem outOk_execSvcMap {i} (h : s.memOk = true) : OutOk (execSvcMap i s) := by
  unfold execSvcMap
  refine outOk_svcRequest h fun _ _ _ h1 => ?_
  extract_lets
  split
  · refine memOk_ite (memOk_svcDenied h1) ?_
    split
    · exact memOk_svcDone h1
    · exact memOk_invalidate (memOk_setEntry h1)
  · exact memOk_svcDenied h1

theorem outOk_execSvcUnmap {i} (h : s.memOk = true) : OutOk (execSvcUnmap i s) := by
  unfold execSvcUnmap
  refine outOk_svcRequest h fun _ _ _ h1 => ?_
  extract_lets
  split
  · refine memOk_ite (memOk_svcDenied h1) ?_
    split
    · exact memOk_svcDone h1
    · exact memOk_ite (memOk_svcDone h1) (memOk_invalidate (memOk_setEntry h1))
  · exact memOk_svcDenied h1

theorem outOk_execSvcQuote {i} (h : s.memOk = true) : OutOk (execSvcQuote i s) :=
  outOk_svcRequest h fun _ _ _ h1 => memOk_ite (memOk_svcDenied h1) (memOk_svcDone (memOk_hbmBytes h1))

/-! ### Faults and verdicts -/

theorem memOk_sendVerdict (h : s.memOk = true) {pn rel payload} : (s.sendVerdict pn rel payload).memOk = true := memOk_post h

theorem memOk_decideRecord (h : s.memOk = true) {pn r} : (s.decideRecord pn r).2.memOk = true := by
  unfold State.decideRecord
  extract_lets
  split
  · exact h
  · exact h
  · exact h
  · exact memOk_snd_ite (memOk_setPart h) h
  · exact h

theorem memOk_giveVerdict (h : s.memOk = true) {pn r action xwait} : (s.giveVerdict pn r action xwait).memOk = true :=
  memOk_ite h (memOk_sendVerdict (memOk_setPart h))

theorem memOk_answerGang {pn l} (h : s.memOk = true) : (answerGang pn l s).memOk = true := by
  induction l generalizing s with
  | nil => exact h
  | cons _ _ ih =>
    rw [answerGang]
    split
    · exact memOk_sendVerdict (memOk_setPart (ih h))
    · exact ih h

theorem memOk_serveRecord (h : s.memOk = true) {pn r} : (s.serveRecord pn r).memOk = true := by
  unfold State.serveRecord
  refine memOk_ite h ?_
  extract_lets _ s1
  have h1 : s1.memOk = true := by
    unfold s1
    refine memOk_ite (memOk_setPart h) ?_
    split
    exact memOk_giveVerdict (memOk_of_snd (memOk_decideRecord h) ‹_›)
  exact memOk_answerGang h1

theorem memOk_hostRecord (h : s.memOk = true) {pn r server} : (s.hostRecord pn r server).memOk = true :=
  memOk_with (memOk_setPart (memOk_setMem h (wf_writeBytes _ _ (mem_wf h))))

theorem outOk_execFaultRecord {i} (h : s.memOk = true) : OutOk (execFaultRecord i s) := by
  unfold execFaultRecord
  refine outOk_arrived h fun _ _ h1 => ?_
  split
  · exact someOk_ite (someOk_some h1) (someOk_ite (someOk_some (memOk_hostRecord h1)) (someOk_some (memOk_serveRecord h1)))
  · trivial

theorem memOk_tellDrop (h : s.memOk = true) {cell jobs} : (s.tellDrop cell jobs).memOk = true :=
  memOk_foldl (fun _ _ h1 => memOk_post (memOk_setPart h1)) h

theorem memOk_applyVerdict (h : s.memOk = true) {cell t v} : (s.applyVerdict cell t v).memOk = true := by
  unfold State.applyVerdict
  extract_lets
  refine memOk_ite (memOk_ite (memOk_setCell h) (memOk_verdictResume h)) ?_
  split
  exact memOk_ite (memOk_tellDrop (memOk_of_fst (memOk_verdictDiscard h) ‹_›)) (memOk_of_fst (memOk_verdictDiscard h) ‹_›)

theorem outOk_execVerdict {i} (h : s.memOk = true) : OutOk (execVerdict i s) := by
  unfold execVerdict
  refine outOk_arrived h fun _ _ h1 => ?_
  split
  · refine someOk_ite (someOk_some ?_) trivial
    extract_lets s2
    have h2 : s2.memOk = true := by
      unfold s2
      refine memOk_ite ?_ h1
      split
      · exact memOk_applyVerdict h1
      · exact h1
    exact memOk_setCell h2
  · trivial

theorem memOk_xwaits (h : s.memOk = true) {cell} : (s.xwaits cell).memOk = true :=
  memOk_ite h (memOk_foldl (fun _ _ h1 => memOk_verdictResume h1) h)

theorem outOk_execVerdictDoorbell {part payload} (h : s.memOk = true) : OutOk (execVerdictDoorbell part payload s) := by
  unfold execVerdictDoorbell
  extract_lets _ _ s1
  have h1 : s1.memOk = true := memOk_setBar h
  exact outOk_event (someOk_ite (someOk_some (memOk_ite (memOk_sendVerdict h1) h1)) trivial)

theorem memOk_discardCtx (h : s.memOk = true) {w cause} : (s.discardCtx w cause).memOk = true := by
  unfold State.discardCtx
  extract_lets _ s1 _ _ _ _ _ _ s2
  have h1 : s1.memOk = true := memOk_setCell (memOk_rollback h)
  have h2 : s2.memOk = true := memOk_report (memOk_endActivation (memOk_subtract (memOk_ite (memOk_setCell h1) h1)))
  exact memOk_ite (memOk_abortMma h2) h2

theorem memOk_errorCtx (h : s.memOk = true) {w err} : (s.errorCtx w err).memOk = true :=
  memOk_ite h (memOk_ite (memOk_discardCtx h) (memOk_ite (memOk_report h) (memOk_takeTrap h)))
theorem memOk_rewriteCode (h : s.memOk = true) {cell} : (s.rewriteCode cell).memOk = true :=
  memOk_foldl (fun _ _ h1 => memOk_codeWritten h1) h

theorem memOk_loseWords (h : s.memOk = true) {cell words accs} : (s.loseWords cell words accs).memOk = true := by
  unfold State.loseWords
  extract_lets s1
  have h1 : s1.memOk = true := memOk_settle h
  exact memOk_rewriteCode (memOk_setCell (memOk_setMem h1 (wf_foldl (fun _ _ h2 => wf_clearRange _ _ h2) (mem_wf h1))))

theorem memOk_shiftRow (h : s.memOk = true) {cell} : (s.shiftRow cell).memOk = true := memOk_foldl (fun _ _ h1 => memOk_setCell h1) h

theorem outOk_execCellQuarantine {cell err ctx words accs} (h : s.memOk = true) : OutOk (execCellQuarantine cell err ctx words accs s) := by
  unfold execCellQuarantine
  extract_lets _ _ _ _ _ _ _ s1
  have h1 : s1.memOk = true := by
    unfold s1
    split
    · exact memOk_errorCtx h
    · exact h
  exact outOk_event
    (someOk_ite (someOk_some (memOk_ite (memOk_loseWords (memOk_setCell (memOk_report h)))
      (memOk_ite (memOk_shiftRow (memOk_loseWords (memOk_setCell h1))) (memOk_setCell h1)))) trivial)

theorem memOk_stopPart (h : s.memOk = true) {cause pn} : (s.stopPart cause pn).memOk = true := memOk_ite h (memOk_report (memOk_setPart h))
theorem outOk_execPartitionStop {err parts} (h : s.memOk = true) : OutOk (execPartitionStop err parts s) :=
  outOk_event (someOk_ite (someOk_some (memOk_foldl (fun _ _ h1 => memOk_stopPart h1) h)) trivial)
theorem outOk_execMachineCheck (h : s.memOk = true) : OutOk (execMachineCheck s) :=
  outOk_event (someOk_ite (someOk_some (memOk_with (memOk_foldl (fun _ _ h1 => memOk_stopPart h1) h))) trivial)

/-! ### Host commands -/

theorem outOk_command {name sh fn cmd0} (h : s.memOk = true) {sel} {run : ℕ → State → Cmd} (hrun : ∀ v s, s.memOk = true → (run v s).MemOk)
    : OutOk (command name sh fn cmd0 s sel run) := by
  unfold command
  extract_lets _ _ s1
  have h1 : s1.memOk = true := memOk_setBar h
  refine outOk_event (someOk_ite (someOk_some (memOk_ite (memOk_respond h1) ?_)) trivial)
  split
  · exact memOk_answer h1
  · split
    · exact memOk_answer h1
    · exact memOk_answer ((hrun _ _ h1).done ‹_›)
    · exact memOk_with (memOk_respond ((hrun _ _ h1).wait ‹_›))

theorem outOk_execUnknownOpcode {fn cmd0} (h : s.memOk = true) : OutOk (execUnknownOpcode fn cmd0 s) := by
  unfold execUnknownOpcode
  extract_lets _ _ s1
  have h1 : s1.memOk = true := memOk_setBar h
  exact outOk_event (someOk_ite (someOk_some (memOk_ite (memOk_respond h1) (memOk_answer h1))) trivial)

theorem wf_putEntries {m : Memory} {pa l} (h : m.wf = true) : (putEntries pa l m).wf = true := by
  induction l generalizing pa m with
  | nil => exact h
  | cons _ _ ih => exact ih (wf_writeLE _ _ _ h)

theorem wf_sysTables {m : Memory} {p : Part} (h : m.wf = true) : (p.sysTables m).wf = true :=
  wf_putEntries (wf_putEntries (wf_putEntries (wf_putEntries h)))

theorem memOk_createPart (h : s.memOk = true) {pn p} : (s.createPart pn p).memOk = true :=
  memOk_foldl (fun _ _ h1 => memOk_setCluster h1)
    (memOk_foldl (fun _ _ h2 => memOk_setCell h2) (memOk_setPart
      (memOk_sound (memOk_setMem h (wf_sysTables (wf_clearRange _ _ (mem_wf h)))))))

theorem outOk_execPartCreate {fn cmd0} (h : s.memOk = true) : OutOk (execPartCreate fn cmd0 s) :=
  outOk_command h fun _ _ h1 => cmdOk_ite trivial
    (cmdOk_ite trivial (cmdOk_ite trivial (cmdOk_ite (cmdOk_wait h1) (cmdOk_done (memOk_createPart h1)))))

theorem memOk_logDropped (h : s.memOk = true) {pn} : (s.logDropped pn).memOk = true := by
  unfold State.logDropped
  refine memOk_foldl (fun _ _ h1 => ?_) h
  split
  · exact memOk_ite (memOk_logAtHome h1) h1
  · exact h1

theorem wf_clearSlabs {m : Memory} {p : Part} (h : m.wf = true) : (clearSlabs p m).wf = true :=
  wf_foldl (fun _ _ h1 => wf_clearRange _ _ h1) h

theorem memOk_wipePart (h : s.memOk = true) {pn} : (s.wipePart pn).memOk = true := by
  unfold State.wipePart
  extract_lets _ s1
  have h1 : s1.memOk = true := memOk_foldl (fun _ _ h => memOk_setMem (memOk_setCell h) (wf_clearRange _ _ (mem_wf h))) h
  have hi : ImagesOk s1.images := images_ok h1
  exact memOk_mk (wf_clearSlabs (mem_wf h1)) hi

theorem memOk_quarantineAll (h : s.memOk = true) {pn p} : (s.quarantineAll pn p).memOk = true :=
  memOk_foldl (fun _ _ h1 => memOk_invalidate (memOk_setPart h1)) h
theorem memOk_destroyPart (h : s.memOk = true) {pn} : (s.destroyPart pn).memOk = true :=
  memOk_quarantineAll (memOk_with (memOk_setPart (memOk_wipePart (memOk_logDropped h))))
theorem outOk_execPartDestroy {fn cmd0} (h : s.memOk = true) : OutOk (execPartDestroy fn cmd0 s) :=
  outOk_command h fun _ _ h1 => cmdOk_done (memOk_destroyPart h1)
theorem memOk_connectRail (h : s.memOk = true) {pn r} : (s.connectRail pn r).memOk = true := memOk_railReached (memOk_setPart h)
theorem outOk_execPartSetRail {fn cmd0} (h : s.memOk = true) : OutOk (execPartSetRail fn cmd0 s) :=
  outOk_command h fun _ _ h1 => cmdOk_ite trivial (cmdOk_ite (cmdOk_wait h1) (cmdOk_done (memOk_connectRail h1)))
theorem memOk_resendTraps (h : s.memOk = true) {pn} : (s.resendTraps pn).memOk = true :=
  memOk_foldl (fun _ _ h1 => memOk_foldl (fun _ _ h2 => memOk_report h2) h1) h
theorem outOk_execPartSetFaultsrv {fn cmd0} (h : s.memOk = true) : OutOk (execPartSetFaultsrv fn cmd0 s) :=
  outOk_command h fun _ _ h1 => cmdOk_done (memOk_resendTraps (memOk_setPart h1))
theorem memOk_haltCtx (h : s.memOk = true) {w} : (s.haltCtx w).memOk = true := memOk_ite (memOk_stopCtx h) h

theorem memOk_preemptCells (h : s.memOk = true) {pn} : (s.preemptCells pn).memOk = true :=
  memOk_foldl (fun _ _ h1 => memOk_ite h1 (memOk_setCell h1))
    (memOk_setPart (memOk_ite (memOk_foldl (fun _ _ h2 => memOk_foldl (fun _ _ h3 => memOk_haltCtx h3) h2) h) h))

theorem outOk_execPartPreempt {fn cmd0} (h : s.memOk = true) : OutOk (execPartPreempt fn cmd0 s) :=
  outOk_command h fun _ _ h1 => cmdOk_ite trivial (cmdOk_ite trivial (cmdOk_wait (memOk_ite h1 (memOk_setPart h1))))

theorem memOk_resumeCells {dump l} (h : s.memOk = true) : (resumeCells dump l s).memOk = true := by
  induction l generalizing s with
  | nil => exact h
  | cons _ _ ih => exact ih (memOk_ite (memOk_ite h (memOk_reload h)) (memOk_resumeCell (memOk_ite h (memOk_reload h))))

theorem outOk_execPartResume {fn cmd0} (h : s.memOk = true) : OutOk (execPartResume fn cmd0 s) :=
  outOk_command h fun _ _ h1 => cmdOk_ite trivial (cmdOk_ite trivial (cmdOk_done (memOk_resumeCells (memOk_setPart h1))))

theorem outOk_execAsidAlloc {fn cmd0} (h : s.memOk = true) : OutOk (execAsidAlloc fn cmd0 s) := by
  unfold execAsidAlloc
  refine outOk_command h fun _ _ h1 => ?_
  extract_lets
  refine cmdOk_ite trivial ?_
  split
  · trivial
  · exact memOk_setPart h1

theorem outOk_execAsidRelease {fn cmd0} (h : s.memOk = true) : OutOk (execAsidRelease fn cmd0 s) := by
  unfold execAsidRelease
  refine outOk_command h fun _ _ h1 => ?_
  extract_lets
  split
  · trivial
  · exact cmdOk_ite trivial (cmdOk_ite trivial (cmdOk_done (memOk_invalidate (memOk_setPart h1))))

/-- An equation between functions of the state, as for `loadImages`: between states the check of `rfl` would run through every party of the
invalidation. -/
theorem mapPages_cons {p asid e va size fn i l} : mapPages p asid e va size fn (i :: l) = mapPages p asid e va size fn l ∘ fun s =>
    (match s.leafOf p asid (va + i * pageBytes size) size with
      | some pa => s.setEntry pa (leafAt e size i)
      | none => s).invalidate asid (some (BitVec.ofNat 64 (va + i * pageBytes size), size)) (.memMapDone fn) := rfl

theorem memOk_mapPages {p asid e va size fn l} (h : s.memOk = true) : (mapPages p asid e va size fn l s).memOk = true := by
  induction l generalizing s with
  | nil => exact h
  | cons _ _ ih =>
    rw [mapPages_cons]
    refine ih (memOk_invalidate ?_)
    split
    · exact memOk_setEntry h
    · exact h

theorem outOk_execMemMap {fn cmd0} (h : s.memOk = true) : OutOk (execMemMap fn cmd0 s) :=
  outOk_command h fun _ _ h1 => cmdOk_ite trivial (cmdOk_ite (cmdOk_done h1) (cmdOk_wait (memOk_mapPages h1)))
theorem outOk_execAttestQuote {fn cmd0} (h : s.memOk = true) : OutOk (execAttestQuote fn cmd0 s) :=
  outOk_command h fun _ _ h1 => cmdOk_done (memOk_setMem h1 (wf_writeBytes _ _ (mem_wf h1)))
theorem outOk_execAttestPublicKey {fn cmd0} (h : s.memOk = true) : OutOk (execAttestPublicKey fn cmd0 s) :=
  outOk_command h fun _ _ h1 => cmdOk_done (memOk_setMem h1 (wf_writeBytes _ _ (mem_wf h1)))
theorem memOk_setHalted {hd l} (h : s.memOk = true) : (setHalted hd l s).memOk = true := memOk_foldl (fun _ _ h1 => memOk_setCell h1) h

theorem outOk_execDebugHalt {fn cmd0} (h : s.memOk = true) : OutOk (execDebugHalt fn cmd0 s) := by
  unfold execDebugHalt
  refine outOk_command h fun _ _ h1 => ?_
  extract_lets
  split
  · trivial
  · exact cmdOk_ite trivial (cmdOk_done (memOk_setHalted (memOk_setPart h1)))

theorem outOk_execDebugResume {fn cmd0} (h : s.memOk = true) : OutOk (execDebugResume fn cmd0 s) := by
  unfold execDebugResume
  refine outOk_command h fun _ _ h1 => ?_
  extract_lets
  split
  · trivial
  · exact cmdOk_ite trivial (cmdOk_done (memOk_setHalted h1))

theorem outOk_execTraceConfig {fn cmd0} (h : s.memOk = true) : OutOk (execTraceConfig fn cmd0 s) := by
  unfold execTraceConfig
  refine outOk_command h fun _ _ h1 => ?_
  extract_lets
  split
  · trivial
  · exact cmdOk_ite trivial (cmdOk_done (memOk_foldl (fun _ _ h2 => memOk_setCell h2) h1))

theorem outOk_execPowerCapSet {fn cmd0} (h : s.memOk = true) : OutOk (execPowerCapSet fn cmd0 s) :=
  outOk_command h fun _ _ h1 => cmdOk_ite trivial (cmdOk_ite trivial (cmdOk_done (memOk_with h1)))
theorem outOk_execQueryIdentity {fn cmd0} (h : s.memOk = true) : OutOk (execQueryIdentity fn cmd0 s) :=
  outOk_command h fun _ _ h1 => cmdOk_ite (cmdOk_done h1) trivial
theorem outOk_execQueryPartitionStatus {fn cmd0} (h : s.memOk = true) : OutOk (execQueryPartitionStatus fn cmd0 s) :=
  outOk_command h fun _ _ h1 => cmdOk_done h1
theorem outOk_execQueryViolationLog {fn cmd0} (h : s.memOk = true) : OutOk (execQueryViolationLog fn cmd0 s) :=
  outOk_command h fun _ _ h1 => cmdOk_ite trivial (cmdOk_done (memOk_setMem h1 (wf_writeBytes _ _ (mem_wf h1))))
theorem outOk_execQueryReelPorts {fn cmd0} (h : s.memOk = true) : OutOk (execQueryReelPorts fn cmd0 s) :=
  outOk_command h fun _ _ h1 => cmdOk_done h1

theorem cmdOk_reelLane {pn c} (e : s.reelLane pn = .inl c) : c.MemOk := by
  unfold State.reelLane at e
  extract_lets at e
  split at e
  · obtain rfl := Sum.inl.inj e
    trivial
  · extract_lets at e
    split at e
    · obtain rfl := Sum.inl.inj e
      trivial
    · nomatch e

theorem outOk_execReelBind {fn cmd0} (h : s.memOk = true) : OutOk (execReelBind fn cmd0 s) := by
  unfold execReelBind
  refine outOk_command h fun _ _ h1 => ?_
  split
  · exact cmdOk_reelLane ‹_›
  · exact memOk_setLane h1

theorem outOk_execReelUnbind {fn cmd0} (h : s.memOk = true) : OutOk (execReelUnbind fn cmd0 s) := by
  unfold execReelUnbind
  refine outOk_command h fun _ _ h1 => ?_
  split
  · exact cmdOk_reelLane ‹_›
  · exact cmdOk_ite trivial (memOk_setLane h1)

/-! ### The Reel ports -/

theorem memOk_nextRound (h : s.memOk = true) {port} : (s.nextRound port).memOk = true := memOk_ite h (memOk_setReel h)

theorem memOk_transmit (h : s.memOk = true) : s.transmit.memOk = true := by
  unfold State.transmit
  extract_lets s1
  have h1 : s1.memOk = true := memOk_foldl (fun _ _ h2 => memOk_nextRound h2) h
  split
  · exact memOk_setReel (memOk_foldl (fun _ _ h3 => memOk_take h3) h1)
  · exact h1

theorem memOk_peerDone (h : s.memOk = true) {port k} : (s.peerDone port k).memOk = true := by
  unfold State.peerDone
  extract_lets
  split
  · exact memOk_foldl (fun _ _ h1 => memOk_homeDo h1) (memOk_setReel h)
  · exact h

theorem memOk_turnPeerAway (h : s.memOk = true) {pn src} : (s.turnPeerAway pn src).memOk = true := memOk_post h
theorem memOk_handIn (h : s.memOk = true) {pn src p} : (s.handIn pn src p).memOk = true :=
  memOk_ite (memOk_turnPeerAway h) (memOk_ite h (memOk_post h))
theorem memOk_peerMessage (h : s.memOk = true) {pn src b} : (s.peerMessage pn src b).memOk = true :=
  memOk_ite (memOk_handIn h) (memOk_handIn h)

theorem memOk_peerAsks (h : s.memOk = true) {pn src b} : (s.peerAsks pn src b).memOk = true := by
  unfold State.peerAsks
  refine memOk_ite (memOk_turnPeerAway h) ?_
  extract_lets
  split
  exact memOk_ite (memOk_homeDo (memOk_of_snd (memOk_fresh h) ‹_›))
    (memOk_ite (memOk_homeDo (memOk_of_snd (memOk_fresh h) ‹_›))
      (memOk_foldl (fun _ _ h1 => memOk_homeDo h1) (memOk_of_snd (memOk_fresh h) ‹_›)))

theorem memOk_flitTaken (h : s.memOk = true) {port f} : (s.flitTaken port f).memOk = true := by
  unfold State.flitTaken
  extract_lets _ _ _ _ _ s1
  have h1 : s1.memOk = true := memOk_setReel h
  refine memOk_ite (memOk_setReel h) ?_
  split
  · exact memOk_peerAsks h1
  · exact memOk_peerDone h1
  · exact memOk_peerMessage h1
  · exact h1

theorem outOk_execReelFlitReceive {port flit} (h : s.memOk = true) : OutOk (execReelFlitReceive port flit s) :=
  outOk_event (someOk_ite (someOk_some (memOk_ite (memOk_setReel h)
    (memOk_ite h (memOk_ite (memOk_flitTaken h) (memOk_ite h (memOk_setReel h)))))) trivial)

theorem outOk_execReelControlFlit {port ack} (h : s.memOk = true) : OutOk (execReelControlFlit port ack s) :=
  outOk_event (someOk_ite (someOk_some (memOk_setReel h)) trivial)
theorem memOk_linkRecord (h : s.memOk = true) {port cause} : (s.linkRecord port cause).memOk = true :=
  memOk_foldl (fun _ _ h1 => memOk_reportLimited h1) h
theorem outOk_execReelShed {port} (h : s.memOk = true) : OutOk (execReelShed port s) :=
  outOk_event (someOk_ite (someOk_some (memOk_linkRecord (memOk_setReel h))) trivial)

theorem outOk_execReelRetrainDone {port lanes} (h : s.memOk = true) : OutOk (execReelRetrainDone port lanes s) := by
  unfold execReelRetrainDone
  extract_lets _ _ _ _ s1
  have h1 : s1.memOk = true := memOk_foldl (fun _ _ h2 => memOk_peerDone h2) (memOk_setReel h)
  exact outOk_event (someOk_ite (someOk_some (memOk_ite (memOk_setReel h) (memOk_ite h1 (memOk_linkRecord (memOk_with h1))))) trivial)

theorem outOk_execReelRetrainTimer {port} (h : s.memOk = true) : OutOk (execReelRetrainTimer port s) :=
  outOk_event (someOk_ite (someOk_some (memOk_setReel h)) trivial)

/-! ### Power, boot and registers -/

theorem memOk_cold (h : s.memOk = true) : s.cold.memOk = true := by
  unfold State.cold
  have hi : ImagesOk s.images := images_ok h
  exact memOk_mk (wf_filter _ (mem_wf h)) hi

theorem memOk_lost (h : s.memOk = true) {cell} : (s.lost cell).memOk = true := memOk_setCell h
theorem memOk_bootShift (h : s.memOk = true) {cell} : (s.bootShift cell).memOk = true :=
  memOk_ite (memOk_with h) (memOk_lost (memOk_remap h))

theorem memOk_selfCheck (h : s.memOk = true) {phys} : (s.selfCheck phys).memOk = true := by
  unfold State.selfCheck
  refine memOk_ite h ?_
  extract_lets s1
  have h1 : s1.memOk = true := by
    unfold s1
    split
    · exact memOk_bootShift h
    · exact h
  exact memOk_with h1

theorem memOk_bootUp (h : s.memOk = true) : s.bootUp.memOk = true := memOk_with (memOk_foldl (fun _ _ h1 => memOk_selfCheck h1) h)
theorem outOk_execPowerGood (h : s.memOk = true) : OutOk (execPowerGood s) :=
  outOk_event (someOk_ite (someOk_some (memOk_bootUp (memOk_cold h))) trivial)
theorem outOk_execPowerRemoval (h : s.memOk = true) : OutOk (execPowerRemoval s) :=
  outOk_event (someOk_ite (someOk_some (memOk_cold h)) trivial)
theorem memOk_deviceReset (h : s.memOk = true) : s.deviceReset.memOk = true := memOk_bootUp (memOk_with (memOk_cold h))
theorem outOk_execDevreset {value} (h : s.memOk = true) : OutOk (execDevreset value s) :=
  outOk_event (someOk_ite (someOk_some (memOk_ite (memOk_deviceReset h) h)) trivial)
theorem outOk_execI3cReset {value} (h : s.memOk = true) : OutOk (execI3cReset value s) :=
  outOk_event (someOk_ite (someOk_some (memOk_ite (memOk_deviceReset h) h)) trivial)
theorem outOk_execEntdaa (h : s.memOk = true) : OutOk (execEntdaa s) := outOk_event (someOk_ite (someOk_some (memOk_with h)) trivial)
theorem memOk_openUp (h : s.memOk = true) {table} : (s.openUp table).memOk = true :=
  memOk_foldl (fun _ _ h1 => memOk_setReel (memOk_ite (memOk_with h1) h1)) (memOk_with h)

theorem outOk_execHooklen {value} (h : s.memOk = true) : OutOk (execHooklen value s) := by
  unfold execHooklen
  extract_lets
  refine outOk_event ?_
  split
  · trivial
  · exact h
  · exact memOk_openUp h

theorem outOk_execHookWindowExpiry (h : s.memOk = true) : OutOk (execHookWindowExpiry s) := by
  unfold execHookWindowExpiry
  refine outOk_event ?_
  split
  · exact someOk_ite (someOk_some (memOk_openUp h)) trivial
  · trivial

theorem memOk_barWrite (h : s.memOk = true) {fn off v} : (s.barWrite fn off v).memOk = true :=
  memOk_ite (memOk_setBar h) (memOk_ite (memOk_setBar h) (memOk_ite (memOk_setBar h) h))

theorem outOk_execRegisterWrite {port off value} (h : s.memOk = true) : OutOk (execRegisterWrite port off value s) := by
  unfold execRegisterWrite
  refine outOk_event ?_
  split
  · exact someOk_ite (someOk_some (memOk_barWrite h)) trivial
  · exact someOk_ite (someOk_some (memOk_ite (memOk_with h) h)) trivial

theorem memOk_stage (h : s.memOk = true) {off size v} : (s.stage off size v).memOk = true := memOk_with h
theorem memOk_bar2Violation (h : s.memOk = true) {pn va pa} : (s.bar2Violation pn va pa).memOk = true := memOk_report (memOk_logViolation h)
theorem memOk_bar2Drop (h : s.memOk = true) {pn} : (s.bar2Drop pn).memOk = true := memOk_setPart h

theorem memOk_bar2Request (h : s.memOk = true) {pn x op v} : (s.bar2Request pn x op v).memOk = true := by
  unfold State.bar2Request
  split
  exact memOk_post (memOk_of_snd (memOk_fresh h) ‹_›)

theorem memOk_bar2Write (h : s.memOk = true) {pn x v} : (s.bar2Write pn x v).memOk = true :=
  memOk_ite (memOk_bar2Request h) (memOk_unpoison (memOk_noteRel (memOk_homeWrite h)))

theorem memOk_bar2Read (h : s.memOk = true) {pn size l} : (s.bar2Read pn size l).memOk = true := by
  unfold State.bar2Read
  extract_lets s1
  have h1 : s1.memOk = true := memOk_foldl (fun _ _ h2 => memOk_bar2Request h2) h
  split
  · exact memOk_with h1
  · exact memOk_with (memOk_bar2Drop h1)

theorem memOk_bar2Vf (h : s.memOk = true) {pn off size write} : (s.bar2Vf pn off size write).memOk = true := by
  unfold State.bar2Vf
  extract_lets
  split
  · exact memOk_ite (memOk_bar2Violation h) (memOk_with (memOk_bar2Violation h))
  · split
    · split
      · exact memOk_bar2Read h
      · exact memOk_foldl (fun _ _ h1 => memOk_bar2Write h1) h
    · exact memOk_ite (memOk_bar2Drop h) (memOk_with (memOk_bar2Drop h))

theorem outOk_execBar2Access {fn off size write} (h : s.memOk = true) : OutOk (execBar2Access fn off size write s) := by
  unfold execBar2Access
  refine outOk_event (someOk_ite (someOk_some ?_) trivial)
  split
  · split
    · exact memOk_ite (memOk_stage h) h
    · exact memOk_with h
    · exact h
  · exact memOk_ite (memOk_bar2Vf h) h

/-! ### Local control -/

theorem memOk_jump (h : s.memOk = true) {target named} : (jump s target named).memOk = true := memOk_setMe (memOk_trace h)
theorem outOk_branch {hd} (h : s.memOk = true) {taken target named} : OutOk (branch hd s taken target named) :=
  outOk_of_next (memOk_ite (memOk_jump h) (memOk_setMe h))
theorem outOk_execBr {hd off} (h : s.memOk = true) : OutOk (execBr hd off s) := outOk_branch h
theorem outOk_execBrl {hd off} (h : s.memOk = true) : OutOk (execBrl hd off s) := outOk_ite (outOk_branch (memOk_setMe h)) (outOk_branch h)
theorem outOk_execBrx {hd ra} (h : s.memOk = true) : OutOk (execBrx hd ra s) := outOk_branch h
theorem outOk_execRet {hd} (h : s.memOk = true) : OutOk (execRet hd s) := outOk_branch h
theorem outOk_execPushm {hd pa} (h : s.memOk = true) : OutOk (execPushm hd pa s) :=
  outOk_finishLen (resOk_ite (resOk_trap h) (resOk_done (memOk_setMe h)))

theorem outOk_execElsem {hd pa} (h : s.memOk = true) : OutOk (execElsem hd pa s) := by
  unfold execElsem
  refine outOk_finishLen ?_
  extract_lets
  split
  · exact h
  · exact memOk_setMe h

theorem outOk_execPopm {hd} (h : s.memOk = true) : OutOk (execPopm hd s) := by
  unfold execPopm
  refine outOk_finishLen ?_
  extract_lets
  split
  · exact h
  · exact memOk_setMe h

theorem outOk_execBrany {hd pa off} (h : s.memOk = true) : OutOk (execBrany hd pa off s) := outOk_branch h
theorem outOk_execBrall {hd pa off} (h : s.memOk = true) : OutOk (execBrall hd pa off s) := outOk_branch h

theorem outOk_execLoop {hd d off} (h : s.memOk = true) : OutOk (execLoop hd d off s) := by
  unfold execLoop
  extract_lets
  refine outOk_ite (outOk_finishLen (resOk_done (memOk_setMe h)))
    (outOk_ite (outOk_ite (outOk_branch h) (outOk_ite (outOk_finishLen (resOk_trap h)) (outOk_finishLen (resOk_done (memOk_setMe h))))) ?_)
  split
  · exact outOk_finishLen (resOk_trap h)
  · exact outOk_ite (outOk_branch (memOk_setMe h)) (outOk_finishLen (resOk_done (memOk_setMe h)))

/-! ### The code loader -/

theorem memOk_declare (h : s.memOk = true) {pn d} : (s.declare pn d).memOk = true :=
  memOk_setPart (memOk_setChanDesc (memOk_ite h (memOk_setWcopy (memOk_setRcopy (memOk_freeBlocks h)))))

theorem memOk_openLane (h : s.memOk = true) {pn x capacity ringPa} : (s.openLane pn x capacity ringPa).memOk = true := by
  unfold State.openLane
  split
  · exact h
  · exact memOk_setLane h

theorem memOk_casidAtLoad (h : s.memOk = true) {g} : (s.casidAtLoad g).memOk = true :=
  memOk_foldl (fun _ _ h1 => memOk_ite (memOk_setCell h1) h1) h

section
/-! What the loader takes for a load, it takes in a `Plan`: taking scratch, rooms, areas, cells and lanes leaves the memory of the plan as it
was, mapping pages writes page tables into it. -/

variable {pick : Nat → Nat} {q t : Plan}

theorem mem_takeScratch {cell n align a} (e : q.takeScratch pick cell n align = some (a, t)) : t.mem = q.mem := by
  simp only [Plan.takeScratch, Option.map_eq_some_iff, Prod.mk.injEq] at e
  obtain ⟨_, _, _, rfl⟩ := e
  rfl

theorem mem_takeRoom {r cells n l w off} (e : q.takeRoom pick r cells n = some (l, w, off, t)) : t.mem = q.mem := by
  simp only [Plan.takeRoom, Option.bind_eq_bind, Option.bind_eq_some_iff, Option.pure_def, Option.some.injEq, Prod.mk.injEq] at e
  obtain ⟨_, _, _, _, _, _, _, _, _, rfl⟩ := e
  rfl

theorem mem_takeArea {lo hi n a} (e : q.takeArea pick lo hi n = some (a, t)) : t.mem = q.mem := by
  simp only [Plan.takeArea, Option.map_eq_some_iff, Prod.mk.injEq] at e
  obtain ⟨_, _, _, rfl⟩ := e
  rfl

theorem mem_takeCells {p r l n o} (e : q.takeCells pick p r = .inr (l, n, o, t)) : t.mem = q.mem := by
  unfold Plan.takeCells at e
  split at e
  · split at e
    · obtain ⟨-, -, -, rfl⟩ := by simpa only [Sum.inr.injEq, Prod.mk.injEq] using e
      rfl
    · nomatch e
  · split at e
    · nomatch e
    · extract_lets at e
      split at e
      · nomatch e
      · split at e
        · obtain ⟨-, -, -, rfl⟩ := by simpa only [Sum.inr.injEq, Prod.mk.injEq] using e
          rfl
        · nomatch e

theorem wf_mapPage {r va leaf l table} (h : q.mem.wf = true) (e : mapPage pick r va leaf l table q = some t) : t.mem.wf = true := by
  induction l generalizing table q with
  | nil => simp [mapPage] at e
  | cons x l ih =>
    obtain ⟨level, low, bits⟩ := x
    simp only [mapPage] at e
    split at e
    · obtain rfl := Option.some.inj e
      exact wf_writeLE _ _ _ h
    · split at e
      · exact ih h e
      · split at e
        · simp at e
        · refine ih (wf_writeLE _ _ _ (wf_clearRange _ _ ?_)) e
          exact mem_takeArea ‹_› ▸ h

theorem wf_mapBlock {p : Part} {r root n va l} (h : q.mem.wf = true) (e : mapBlock pick p r root n va q = some (l, t)) :
    t.mem.wf = true := by
  induction n generalizing va l q t with
  | zero =>
    simp only [mapBlock, Option.some.injEq, Prod.mk.injEq] at e
    exact e.2 ▸ h
  | succ n ih =>
    simp only [mapBlock, Option.bind_eq_bind, Option.bind_eq_some_iff, Option.pure_def, Option.some.injEq, Prod.mk.injEq] at e
    obtain ⟨⟨a, q1⟩, e1, q2, e2, ⟨l', q3⟩, e3, -, rfl⟩ := e
    have h1 : q1.mem.wf = true := mem_takeArea e1 ▸ h
    have h2 : q2.mem.wf = true := wf_mapPage h1 e2
    refine ih ?_ e3
    exact h2

theorem wf_takeBlock {p : Part} {r root n v l} (h : q.mem.wf = true) (e : q.takeBlock pick p r root n = some (v, l, t)) :
    t.mem.wf = true := by
  simp only [Plan.takeBlock, Option.bind_eq_bind, Option.bind_eq_some_iff, Option.pure_def, Option.some.injEq, Prod.mk.injEq] at e
  obtain ⟨_, _, ⟨_, _⟩, e, _, _, rfl⟩ := e
  refine wf_mapBlock ?_ e
  exact h

theorem wf_placePiece {p asid blocks r x} (h : q.mem.wf = true) (e : placePiece pick p asid blocks q r = .inr (x, t)) :
    t.mem.wf = true := by
  unfold placePiece at e
  split at e
  · simp at e
  · have h1 := mem_takeCells ‹_› ▸ h
    extract_lets rest at e
    have hrest : ∀ y, rest = some y → y.2.mem.wf = true := by
      intro y hr
      simp only [rest, Option.bind_eq_bind, Option.bind_eq_some_iff] at hr
      obtain ⟨⟨_, _, _, _⟩, er, hr⟩ := hr
      have h2 := mem_takeRoom er ▸ h1
      split at hr
      · obtain rfl := Option.some.inj hr
        exact h2
      · simp only [Option.bind_eq_some_iff] at hr
        obtain ⟨_, _, ⟨_, _, _⟩, eb, hr⟩ := hr
        obtain rfl := Option.some.inj hr
        exact wf_takeBlock h2 eb
    clear_value rest
    split at e
    · obtain rfl := Sum.inr.inj e
      exact hrest _ rfl
    · simp at e

theorem wf_placePieces {p asid blocks rs l} (h : q.mem.wf = true) (e : placePieces pick p asid blocks rs q = .inr (l, t)) :
    t.mem.wf = true := by
  induction rs generalizing q l t with
  | nil => simp only [placePieces, Sum.inr.injEq, Prod.mk.injEq] at e; exact e.2 ▸ h
  | cons r rs ih =>
    rw [placePieces] at e
    split at e
    · simp at e
    · split at e
      · simp at e
      · simp only [Sum.inr.injEq, Prod.mk.injEq] at e
        exact e.2 ▸ ih (wf_placePiece h ‹_›) ‹_›

theorem wf_placeObjs {p asid os l} (h : q.mem.wf = true) (e : placeObjs pick p asid os q = .inr (l, t)) : t.mem.wf = true := by
  induction os generalizing q l t with
  | nil => simp only [placeObjs, Sum.inr.injEq, Prod.mk.injEq] at e; exact e.2 ▸ h
  | cons o os ih =>
    rw [placeObjs] at e
    split at e
    · simp at e
    · split at e
      · simp at e
      · simp only [Sum.inr.injEq, Prod.mk.injEq] at e
        exact e.2 ▸ ih (wf_placePieces h ‹_›) ‹_›

theorem mem_placeRings {l cs r} (e : placeRings pick l cs q = some (r, t)) : t.mem = q.mem := by
  induction cs generalizing q r t with
  | nil => simp only [placeRings, Option.some.injEq, Prod.mk.injEq] at e; rw [e.2]
  | cons c cs ih =>
    simp only [placeRings, Option.bind_eq_bind, Option.bind_eq_some_iff, Option.pure_def, Option.some.injEq, Prod.mk.injEq] at e
    obtain ⟨⟨_, _⟩, e1, ⟨_, _⟩, e2, -, rfl⟩ := e
    exact (ih e2).trans (mem_takeScratch e1)

theorem mem_placeAllRings {l r} (e : placeAllRings pick l q = some (r, t)) : t.mem = q.mem := by
  induction l generalizing q r t with
  | nil => simp only [placeAllRings, Option.some.injEq, Prod.mk.injEq] at e; rw [e.2]
  | cons c cs ih =>
    simp only [placeAllRings, Option.bind_eq_bind, Option.bind_eq_some_iff, Option.pure_def, Option.some.injEq, Prod.mk.injEq] at e
    obtain ⟨⟨_, _⟩, e1, ⟨_, _⟩, e2, -, rfl⟩ := e
    exact (ih e2).trans (mem_placeRings e1)

theorem wf_placeAll {p asid objs l} (h : q.mem.wf = true) (e : placeAll pick p asid objs q = .inr (l, t)) : t.mem.wf = true := by
  unfold placeAll at e
  split at e
  · simp at e
  · split at e
    · simp at e
    · simp only [Sum.inr.injEq, Prod.mk.injEq] at e
      obtain ⟨-, rfl⟩ := e
      rw [mem_placeAllRings ‹_›]
      exact wf_placeObjs h ‹_›

theorem mem_takeLanes {p l r} (e : takeLanes pick p l q = some (r, t)) : t.mem = q.mem := by
  induction l generalizing q r t with
  | nil => simp only [takeLanes, Option.some.injEq, Prod.mk.injEq] at e; rw [e.2]
  | cons x xs ih =>
    rw [takeLanes] at e
    split at e
    · exact ih e
    · simp only [Option.bind_eq_bind, Option.bind_eq_some_iff, Option.pure_def, Option.some.injEq, Prod.mk.injEq] at e
      obtain ⟨⟨_, _⟩, e1, ⟨_, _⟩, e2, -, rfl⟩ := e
      have h1 := mem_takeArea e1
      exact (ih e2).trans h1

theorem wf_placeLoad {p asid objs l r} (h : q.mem.wf = true) (e : placeLoad pick p asid objs q = .inr (l, r, t)) : t.mem.wf = true := by
  unfold placeLoad at e
  split at e
  · simp at e
  · split at e
    · simp only [Sum.inr.injEq, Prod.mk.injEq] at e
      obtain ⟨-, -, rfl⟩ := e
      rw [mem_takeLanes ‹_›]
      exact wf_placeAll h ‹_›
    · simp at e

end

theorem wf_writePages {b l} {m : Memory} (h : m.wf = true) : (writePages b l m).wf = true := by
  induction l generalizing b m with
  | nil => exact h
  | cons _ _ ih => exact ih (wf_writeBytes _ _ (wf_clearRange _ _ h))

theorem wf_writeBlocks {x : Loaded} {m : Memory} (h : m.wf = true) : (x.writeBlocks m).wf = true := by
  refine wf_foldl (fun _ _ h => ?_) h
  split
  · exact wf_writePages h
  · exact h

theorem wf_writeObjs {l} {m : Memory} (h : m.wf = true) : (writeObjs l m).wf = true := wf_foldl (fun _ _ h => wf_writeBlocks h) h

theorem memOk_loadWith {s t : State} (h : s.memOk = true) {pick pn asid objs g load r}
    (e : s.loadWith pick pn asid objs g load = .inr (r, t)) : t.memOk = true := by
  unfold State.loadWith at e
  extract_lets p at e
  split at e
  · simp at e
  · have hq := wf_placeLoad (mem_wf h) ‹_›
    split at e
    · extract_lets _ _ _ _ _ _ _ _ t1 t2 t3 _ t4 _ t5 at e
      have h1 : t1.memOk = true := memOk_sound (memOk_setMem h (wf_writeObjs hq))
      have h2 : t2.memOk = true := memOk_foldl (fun _ _ h => memOk_declare h) h1
      have h3 : t3.memOk = true := memOk_foldl (fun _ _ h => memOk_openLane h) h2
      have h4 : t4.memOk = true := memOk_foldl (fun _ _ h => memOk_post h) h3
      have h5 : t5.memOk = true := memOk_setPart h4
      iterate 3 (split at e; · nomatch e)
      split at e
      · obtain ⟨-, rfl⟩ := Prod.mk.inj (Sum.inr.inj e)
        exact h5
      · nomatch e
    · simp at e

theorem outOk_execGraphLoad {fn cmd0} (h : s.memOk = true) : OutOk (execGraphLoad fn cmd0 s) := by
  unfold execGraphLoad
  refine outOk_command h fun _ s1 h1 => ?_
  extract_lets
  split
  · trivial
  · split
    next objs g _ _ =>
      extract_lets made
      have hm : ∀ g t, made = .inr (g, t) → t.memOk = true := by
        intro g t e
        unfold made at e
        split at e
        · obtain rfl := Sum.inr.inj e
          exact memOk_loadWith h1 ‹_›
        · exact memOk_loadWith h1 e
      split
      · trivial
      · trivial
      · extract_lets _ s2
        have h2 : s2.memOk = true := memOk_casidAtLoad (memOk_setPart (hm _ _ ‹_›))
        exact cmdOk_ite h2 (memOk_foldl (fun _ _ h => memOk_post h) h2)
    · trivial

theorem outOk_execStartAck {i} (h : s.memOk = true) : OutOk (execStartAck i s) := by
  unfold execStartAck
  refine outOk_arrived h fun _ _ h1 => ?_
  split
  · split
    · split
      · exact someOk_some (memOk_ite (memOk_answer h1) (memOk_with h1))
      · exact h1
    · exact h1
  · exact h1
  · trivial

theorem memOk_unmapPages (h : s.memOk = true) {p asid l} : (s.unmapPages p asid l).memOk = true := by
  induction l generalizing s with
  | nil => exact h
  | cons _ _ ih =>
    rw [State.unmapPages]
    refine ih ?_
    split
    · exact memOk_ite (memOk_setEntry h) h
    · exact h

theorem memOk_dropTables (h : s.memOk = true) {pn l} : (s.dropTables pn l).memOk = true := by
  induction l generalizing s with
  | nil => exact h
  | cons _ _ ih => exact memOk_ite (ih h) (memOk_setPart (memOk_setEntry (ih h)))

theorem memOk_closeLanes (h : s.memOk = true) {pn l} : (s.closeLanes pn l).memOk = true := by
  induction l generalizing s with
  | nil => exact h
  | cons _ _ ih => exact ih (memOk_setDie (memOk_setPart (memOk_freeBlocks h)))

theorem outOk_execGraphUnload {fn cmd0} (h : s.memOk = true) : OutOk (execGraphUnload fn cmd0 s) := by
  unfold execGraphUnload
  refine outOk_command h fun _ _ h1 => ?_
  extract_lets
  split
  · trivial
  · refine cmdOk_ite trivial ?_
    extract_lets _ _ _ s2
    have h2 : s2.memOk = true := memOk_setPart (memOk_closeLanes (memOk_dropTables (memOk_unmapPages h1)))
    exact memOk_ite h2 (memOk_invalidate h2)

/-! ### Compares and predicates -/

theorem outOk_execCmp {hd cond wide pd pe a b} (h : s.memOk = true) : OutOk (execCmp hd cond wide pd pe a b s) :=
  outOk_finishLen (resOk_then (gotOk_laneA h) fun _ _ h1 => resOk_done (memOk_setMe h1))
theorem outOk_execFcmp {hd cond t pd pe a b} (h : s.memOk = true) : OutOk (execFcmp hd cond t pd pe a b s) :=
  outOk_finishLen (resOk_then (gotOk_laneA h) fun _ _ h1 => resOk_commitF h1)
theorem outOk_execPand {hd pd pa pb} (h : s.memOk = true) : OutOk (execPand hd pd pa pb s) := outOk_finishLen (resOk_done (memOk_setMe h))
theorem outOk_execPor {hd pd pa pb} (h : s.memOk = true) : OutOk (execPor hd pd pa pb s) := outOk_finishLen (resOk_done (memOk_setMe h))
theorem outOk_execPxor {hd pd pa pb} (h : s.memOk = true) : OutOk (execPxor hd pd pa pb s) := outOk_finishLen (resOk_done (memOk_setMe h))
theorem outOk_execPnot {hd pd pa} (h : s.memOk = true) : OutOk (execPnot hd pd pa s) := outOk_finishLen (resOk_done (memOk_setMe h))
theorem outOk_execPmask {hd pd a} (h : s.memOk = true) : OutOk (execPmask hd pd a s) :=
  outOk_finishLen (resOk_then (gotOk_scalarA h) fun _ _ h1 => resOk_done (memOk_setMe h1))
theorem outOk_execPset {hd val pd} (h : s.memOk = true) : OutOk (execPset hd val pd s) := outOk_finishLen (resOk_done (memOk_setMe h))

/-! ### Checkpoints and restores -/

theorem memOk_cutCtx (h : s.memOk = true) {w} : (s.cutCtx w).memOk = true := memOk_ite h (memOk_toBoundary h)
theorem memOk_cutPart (h : s.memOk = true) {pn} : (s.cutPart pn).memOk = true :=
  memOk_ite h (memOk_foldl (fun _ _ h1 => memOk_foldl (fun _ _ h2 => memOk_cutCtx h2) h1) h)

theorem memOk_dumpCells (h : s.memOk = true) {pn dump} : (s.dumpCells pn dump).memOk = true := by
  unfold State.dumpCells
  extract_lets _ s1
  have h1 : s1.memOk = true := memOk_foldl (fun _ _ h2 => memOk_writeImage h2) h
  exact memOk_written (memOk_setMem h1 (wf_writeAll (mem_wf h1)))

theorem imagesOk_tset {l : Tbl (Option Image)} {k} {i : Image} (h : ImagesOk l) (hi : i.mem.wf = true) : ImagesOk (tset l k (some i)) := by
  induction l with
  | nil => simpa [ImagesOk, tset] using hi
  | cons x l ih =>
    simp only [ImagesOk, List.all_cons, Bool.and_eq_true] at h ih
    obtain ⟨hx, hl⟩ := h
    simp only [tset]
    split
    · simp [ImagesOk, hi, hx, hl]
    · split
      · simp [ImagesOk, hi, hl]
      · simp [ImagesOk, hx, ih hl]

theorem imagesOk_filter {l : Tbl (Option Image)} (p : Nat × Option Image → Bool) (h : ImagesOk l) : ImagesOk (l.filter p) := by
  simp only [ImagesOk, List.all_eq_true, List.mem_filter] at h ⊢
  exact fun x hx => h x hx.1

theorem memOk_stream (h : s.memOk = true) {pn dump at_} : (s.stream pn dump at_).memOk = true := by
  have hm : s.mem.wf = true := mem_wf h
  have hi : ImagesOk s.images := images_ok h
  exact memOk_mk hm (imagesOk_tset (imagesOk_filter _ hi) (wf_filter _ hm))

theorem memOk_endCut (h : s.memOk = true) {pn stay} : (s.endCut pn stay).memOk = true := memOk_ite h (memOk_setPart h)
theorem memOk_checkpointed (h : s.memOk = true) {stay y} : (s.checkpointed stay y).memOk = true :=
  memOk_endCut (memOk_stream (memOk_dumpCells h))

theorem memOk_finishCmd (h : s.memOk = true) {y} : (s.finishCmd y).memOk = true := by
  unfold State.finishCmd
  split
  · exact memOk_ite (memOk_answer (memOk_createPart h)) h
  · exact memOk_ite (memOk_answer h) (memOk_ite (memOk_answer (memOk_connectRail h)) h)
  · exact memOk_ite (memOk_with (memOk_preemptCells h)) h
  · exact memOk_ite (memOk_answer (memOk_setPart (memOk_dumpCells h))) h
  · exact memOk_ite (memOk_answer (memOk_foldl (fun _ _ h1 => memOk_checkpointed h1) h)) h
  · exact h

theorem memOk_finishCmds (h : s.memOk = true) : s.finishCmds.memOk = true := memOk_foldl (fun _ _ h1 => memOk_finishCmd h1) h
theorem memOk_beginCuts (h : s.memOk = true) {stay l} : (s.beginCuts stay l).memOk = true := memOk_foldl (fun _ _ h1 => memOk_setPart h1) h

theorem outOk_execCkptPart {fn cmd0} (h : s.memOk = true) : OutOk (execCkptPart fn cmd0 s) := by
  unfold execCkptPart
  refine outOk_command h fun _ _ h1 => ?_
  extract_lets
  split
  · trivial
  · exact memOk_beginCuts h1

theorem outOk_execCkptDevice {fn cmd0} (h : s.memOk = true) : OutOk (execCkptDevice fn cmd0 s) := by
  unfold execCkptDevice
  refine outOk_command h fun _ _ h1 => ?_
  extract_lets
  refine cmdOk_ite trivial ?_
  split
  · trivial
  · exact memOk_beginCuts h1

theorem outOk_execCkptTimeout {part} (h : s.memOk = true) : OutOk (execCkptTimeout part s) := by
  unfold execCkptTimeout
  refine outOk_event ?_
  split
  · exact someOk_ite (someOk_some (memOk_answer (memOk_foldl (fun _ _ h1 => memOk_endCut h1) h))) trivial
  · trivial

theorem memOk_putSlots {old new g l} {s t : State} (h : s.memOk = true) {m m'} (e : putSlots old new g l s m = some (t, m')) :
    t.memOk = true := by
  induction l generalizing s m with
  | nil =>
    simp only [putSlots, Option.some.injEq, Prod.mk.injEq] at e
    exact e.1 ▸ h
  | cons x l ih =>
    simp only [putSlots, Option.bind_eq_bind, Option.bind_eq_some_iff] at e
    obtain ⟨_, _, _, _, e⟩ := e
    exact ih (memOk_setSlot h) e

theorem someOk_putLanes {new g l} (h : s.memOk = true) : SomeOk (putLanes new g l s) := by
  induction l generalizing s with
  | nil => exact h
  | cons x l ih => exact someOk_bind fun _ => someOk_bind fun _ => ih (memOk_setLane h)

/-- An equation between functions of the state: between the states themselves, the check of `rfl` would first compare the state before with
the state after and unfold the reading of an image, a loop over 1 MiB. -/
theorem loadImages_cons {i new d l was k c rest} : loadImages i new d l was ((k, c) :: rest) = loadImages i new d l was rest ∘ fun s =>
    (s.setCell (new.dev k) (Cell.restored i.part new d l (was (new.dev k)) c)).readImage (new.dev k) (i.dump + 0x100000 * k) := rfl

theorem memOk_loadImages {i new d l was l'} (h : s.memOk = true) : (loadImages i new d l was l' s).memOk = true := by
  induction l' generalizing s with
  | nil => exact h
  | cons _ _ ih =>
    rw [loadImages_cons]
    exact ih (memOk_readImage (memOk_setCell h))

theorem someOk_restore (h : s.memOk = true) {pn i} : SomeOk (s.restore pn i) := by
  unfold State.restore
  extract_lets p _ _ s1 s2 s3
  have h3 : s3.memOk = true := memOk_setPart (memOk_foldl (fun _ _ h => memOk_setMem h (wf_mwrite _ _ (mem_wf h))) (memOk_wipePart h))
  rcases hp : putSlots i.part p (Slot.restored i.part p pn) i.slots s3 [] with _ | ⟨t, l⟩
  · trivial
  · exact someOk_putLanes (memOk_with (memOk_loadImages (memOk_putSlots h3 hp)))

theorem outOk_execRestorePart {fn cmd0} (h : s.memOk = true) : OutOk (execRestorePart fn cmd0 s) := by
  unfold execRestorePart
  refine outOk_command h fun _ _ h1 => ?_
  extract_lets
  refine cmdOk_ite trivial ?_
  split
  · trivial
  · refine cmdOk_ite trivial ?_
    split
    · exact (someOk_restore h1).some ‹_›
    · trivial

/-! ### Scalar instructions -/

theorem resOk_effSadd {hd d a b} (h : s.memOk = true) : (effSadd hd d a b s).MemOk := resOk_scalarOp h
theorem resOk_effSsub {hd d a b} (h : s.memOk = true) : (effSsub hd d a b s).MemOk := resOk_scalarOp h
theorem resOk_effSmul {hd d a b} (h : s.memOk = true) : (effSmul hd d a b s).MemOk := resOk_scalarOp h
theorem resOk_effSmulh {hd t d a b} (h : s.memOk = true) : (effSmulh hd t d a b s).MemOk := resOk_scalarOp h
theorem resOk_divide {hd d a b} (h : s.memOk = true) {f} : (divide hd d a b s f).MemOk :=
  resOk_then (gotOk_scalarA h) fun _ _ h1 => resOk_ite (resOk_ite (resOk_trap h) (resOk_done (memOk_setMe h1))) (resOk_done h1)
theorem resOk_effSdiv {hd t d a b} (h : s.memOk = true) : (effSdiv hd t d a b s).MemOk := resOk_divide h
theorem resOk_effSrem {hd t d a b} (h : s.memOk = true) : (effSrem hd t d a b s).MemOk := resOk_divide h
theorem resOk_effSand {hd d a b} (h : s.memOk = true) : (effSand hd d a b s).MemOk := resOk_scalarOp h
theorem resOk_effSor {hd d a b} (h : s.memOk = true) : (effSor hd d a b s).MemOk := resOk_scalarOp h
theorem resOk_effSxor {hd d a b} (h : s.memOk = true) : (effSxor hd d a b s).MemOk := resOk_scalarOp h
theorem resOk_effSshl {hd d a b} (h : s.memOk = true) : (effSshl hd d a b s).MemOk := resOk_scalarOp h
theorem resOk_effSshr {hd d a b} (h : s.memOk = true) : (effSshr hd d a b s).MemOk := resOk_scalarOp h
theorem resOk_effSsar {hd d a b} (h : s.memOk = true) : (effSsar hd d a b s).MemOk := resOk_scalarOp h
theorem resOk_effSmov {hd d b} (h : s.memOk = true) : (effSmov hd d b s).MemOk := resOk_done (memOk_ite (memOk_setMe h) h)
theorem resOk_effSlea {hd scale disp d a b} (h : s.memOk = true) : (effSlea hd scale disp d a b s).MemOk := resOk_scalarOp h
theorem resOk_effSmin {hd t d a b} (h : s.memOk = true) : (effSmin hd t d a b s).MemOk := resOk_scalarOp h
theorem resOk_effSmax {hd t d a b} (h : s.memOk = true) : (effSmax hd t d a b s).MemOk := resOk_scalarOp h
theorem resOk_effScmp {hd cond pd pe a b} (h : s.memOk = true) : (effScmp hd cond pd pe a b s).MemOk :=
  resOk_then (gotOk_scalarA h) fun _ _ h1 => resOk_done (memOk_ite (memOk_setMe h1) h1)
theorem resOk_effSbfx {hd t d a b} (h : s.memOk = true) : (effSbfx hd t d a b s).MemOk := resOk_scalarOp h
theorem resOk_effSbfi {hd d a b} (h : s.memOk = true) : (effSbfi hd d a b s).MemOk := resOk_scalarOp h
theorem resOk_effSclz {hd d a} (h : s.memOk = true) : (effSclz hd d a s).MemOk := resOk_scalarOp h
theorem resOk_effSpopc {hd d a} (h : s.memOk = true) : (effSpopc hd d a s).MemOk := resOk_scalarOp h
theorem resOk_scalarF {hd d a} (h : s.memOk = true) {f} : (scalarF hd d a s f).MemOk :=
  resOk_then (gotOk_scalarA h) fun _ _ h1 => resOk_ite (resOk_commitF h1) (resOk_done h1)
theorem resOk_effSfmul {hd rnd d a b} (h : s.memOk = true) : (effSfmul hd rnd d a b s).MemOk := resOk_scalarF h
theorem resOk_effSfadd {hd rnd d a b} (h : s.memOk = true) : (effSfadd hd rnd d a b s).MemOk := resOk_scalarF h
theorem resOk_effSfma {hd rnd d a b c} (h : s.memOk = true) : (effSfma hd rnd d a b c s).MemOk := resOk_scalarF h
theorem resOk_effSaddi {hd d ra imm9} (h : s.memOk = true) : (effSaddi hd d ra imm9 s).MemOk := resOk_done (memOk_ite (memOk_setMe h) h)
theorem outOk_execSadd {hd d a b} (h : s.memOk = true) : OutOk (execSadd hd d a b s) := outOk_finishLen (resOk_effSadd h)
theorem outOk_execSsub {hd d a b} (h : s.memOk = true) : OutOk (execSsub hd d a b s) := outOk_finishLen (resOk_effSsub h)
theorem outOk_execSmul {hd d a b} (h : s.memOk = true) : OutOk (execSmul hd d a b s) := outOk_finishLen (resOk_effSmul h)
theorem outOk_execSmulh {hd t d a b} (h : s.memOk = true) : OutOk (execSmulh hd t d a b s) := outOk_finishLen (resOk_effSmulh h)
theorem outOk_execSdiv {hd t d a b} (h : s.memOk = true) : OutOk (execSdiv hd t d a b s) := outOk_finishLen (resOk_effSdiv h)
theorem outOk_execSrem {hd t d a b} (h : s.memOk = true) : OutOk (execSrem hd t d a b s) := outOk_finishLen (resOk_effSrem h)
theorem outOk_execSand {hd d a b} (h : s.memOk = true) : OutOk (execSand hd d a b s) := outOk_finishLen (resOk_effSand h)
theorem outOk_execSor {hd d a b} (h : s.memOk = true) : OutOk (execSor hd d a b s) := outOk_finishLen (resOk_effSor h)
theorem outOk_execSxor {hd d a b} (h : s.memOk = true) : OutOk (execSxor hd d a b s) := outOk_finishLen (resOk_effSxor h)
theorem outOk_execSshl {hd d a b} (h : s.memOk = true) : OutOk (execSshl hd d a b s) := outOk_finishLen (resOk_effSshl h)
theorem outOk_execSshr {hd d a b} (h : s.memOk = true) : OutOk (execSshr hd d a b s) := outOk_finishLen (resOk_effSshr h)
theorem outOk_execSsar {hd d a b} (h : s.memOk = true) : OutOk (execSsar hd d a b s) := outOk_finishLen (resOk_effSsar h)
theorem outOk_execSmov {hd d b} (h : s.memOk = true) : OutOk (execSmov hd d b s) := outOk_finishLen (resOk_effSmov h)
theorem outOk_execSlea {hd scale disp d a b} (h : s.memOk = true) : OutOk (execSlea hd scale disp d a b s) :=
  outOk_finishLen (resOk_effSlea h)
theorem outOk_execSmin {hd t d a b} (h : s.memOk = true) : OutOk (execSmin hd t d a b s) := outOk_finishLen (resOk_effSmin h)
theorem outOk_execSmax {hd t d a b} (h : s.memOk = true) : OutOk (execSmax hd t d a b s) := outOk_finishLen (resOk_effSmax h)
theorem outOk_execScmp {hd cond pd pe a b} (h : s.memOk = true) : OutOk (execScmp hd cond pd pe a b s) := outOk_finishLen (resOk_effScmp h)
theorem outOk_execSbfx {hd t d a b} (h : s.memOk = true) : OutOk (execSbfx hd t d a b s) := outOk_finishLen (resOk_effSbfx h)
theorem outOk_execSbfi {hd d a b} (h : s.memOk = true) : OutOk (execSbfi hd d a b s) := outOk_finishLen (resOk_effSbfi h)
theorem outOk_execSclz {hd d a} (h : s.memOk = true) : OutOk (execSclz hd d a s) := outOk_finishLen (resOk_effSclz h)
theorem outOk_execSpopc {hd d a} (h : s.memOk = true) : OutOk (execSpopc hd d a s) := outOk_finishLen (resOk_effSpopc h)
theorem outOk_execSfmul {hd rnd d a b} (h : s.memOk = true) : OutOk (execSfmul hd rnd d a b s) := outOk_finishLen (resOk_effSfmul h)
theorem outOk_execSfadd {hd rnd d a b} (h : s.memOk = true) : OutOk (execSfadd hd rnd d a b s) := outOk_finishLen (resOk_effSfadd h)
theorem outOk_execSfma {hd rnd d a b c} (h : s.memOk = true) : OutOk (execSfma hd rnd d a b c s) := outOk_finishLen (resOk_effSfma h)
theorem outOk_execSaddi {hd d ra imm9} (h : s.memOk = true) : OutOk (execSaddi hd d ra imm9 s) := outOk_finishLen (resOk_effSaddi h)

/-! ### Far branches, EXIT, FORK and SEND -/

theorem memOk_traceFar (h : s.memOk = true) {kind dest act} : (s.traceFar kind dest act).memOk = true := memOk_trace h
theorem outOk_lanesEnded {n} {r : Res} (hr : r.MemOk) : OutOk (lanesEnded n r) :=
  outOk_finish hr fun _ h1 => memOk_ite (memOk_endIfDone (memOk_setMe h1)) (memOk_setMe h1)

theorem outOk_farBranch (h : s.memOk = true) {hd k n live place} : OutOk (farBranch s hd k n live place) := by
  unfold farBranch
  extract_lets
  refine outOk_lanesEnded (resOk_ite (resOk_done h) (resOk_ite (resOk_trap h) ?_))
  split
  · exact h
  · exact resOk_withRoom h fun _ h1 => resOk_done (memOk_setMe (memOk_traceFar h1))

theorem outOk_execJfar {hd toS ra live} (h : s.memOk = true) : OutOk (execJfar hd toS ra live s) := outOk_farBranch h
theorem outOk_execCfar {hd toS ra live} (h : s.memOk = true) : OutOk (execCfar hd toS ra live s) := outOk_farBranch h
theorem outOk_execRfar {hd live} (h : s.memOk = true) : OutOk (execRfar hd live s) := outOk_farBranch h
theorem outOk_execYield {hd live} (h : s.memOk = true) : OutOk (execYield hd live s) := outOk_farBranch h
theorem outOk_execExit {hd} (h : s.memOk = true) : OutOk (execExit hd s) :=
  outOk_lanesEnded (resOk_ite (resOk_done h) (resOk_withRoomOf h fun _ h1 => resOk_done (memOk_setMe (memOk_traceFar h1))))

theorem memOk_sendIncrements {w p l} (h : s.memOk = true) : (sendIncrements w p l s).memOk = true := by
  induction l generalizing s with
  | nil => exact h
  | cons _ _ ih => exact ih (memOk_post h)

theorem outOk_execFork {hd ra b c live} (h : s.memOk = true) : OutOk (execFork hd ra b c live s) := by
  unfold execFork
  refine outOk_boundary h fun _ h1 => ?_
  extract_lets
  refine resOk_ite (resOk_done h1) (resOk_ite (resOk_trap h1) (resOk_ite (resOk_trap h1) ?_))
  split
  · exact h1
  · exact resOk_ite (resOk_wait h1) (resOk_wait (memOk_sendIncrements (memOk_traceFar (memOk_setMe h1))))

theorem outOk_execSend {hd cls ra b} (h : s.memOk = true) : OutOk (execSend hd cls ra b s) := by
  unfold execSend
  refine outOk_finishLen ?_
  extract_lets
  refine resOk_ite (resOk_trap h) (resOk_ite (resOk_done h) ?_)
  split
  · exact h
  · exact resOk_withRoom h fun _ h1 => resOk_done (memOk_setMe (memOk_traceFar h1))

/-! ### System instructions -/

theorem outOk_execNop {hd} (h : s.memOk = true) : OutOk (execNop hd s) := outOk_finishLen (resOk_done h)
theorem outOk_execTrap {hd code} (h : s.memOk = true) : OutOk (execTrap hd code s) :=
  outOk_finishLen (resOk_ite (resOk_trap h) (resOk_done h))
theorem outOk_execBrk {hd code} (h : s.memOk = true) : OutOk (execBrk hd code s) :=
  outOk_finishLen (resOk_ite (resOk_done h) (resOk_ite (resOk_done (memOk_setMyCell h)) (resOk_trap h)))

theorem outOk_execCkpt {hd} (h : s.memOk = true) : OutOk (execCkpt hd s) :=
  outOk_ite (outOk_finishLen (resOk_done h))
    (outOk_ite (outOk_finish (resOk_wait h) fun _ h1 => h1) (outOk_finish (resOk_done h) fun _ h2 => memOk_commit (memOk_setMe h2)))

theorem outOk_execSvc {hd code} (h : s.memOk = true) : OutOk (execSvc hd code s) :=
  outOk_boundary h fun _ h1 => resOk_ite (resOk_done h1) (resOk_wait (memOk_post h1))
theorem memOk_readTbc (h : s.memOk = true) : s.readTbc.2.memOk = true := memOk_setMe h

theorem outOk_execMfs {hd sreg d} (h : s.memOk = true) : OutOk (execMfs hd sreg d s) := by
  unfold execMfs
  refine outOk_finishLen ?_
  extract_lets
  refine resOk_ite (resOk_trap h)
    (resOk_ite (resOk_done (memOk_setMe h)) (resOk_ite (resOk_done (memOk_setMe h))
      (resOk_ite (resOk_done (memOk_setMe h)) (resOk_ite (resOk_done h) (resOk_ite ?_ (resOk_done (memOk_setMe h)))))))
  split
  exact memOk_setMe (memOk_of_snd (memOk_readTbc h) ‹_›)

theorem outOk_execMts {hd sreg ra} (h : s.memOk = true) : OutOk (execMts hd sreg ra s) := by
  unfold execMts
  refine outOk_finishLen ?_
  extract_lets
  refine resOk_ite (resOk_trap h) (resOk_ite (resOk_done h) ?_)
  split
  · exact memOk_setMe h
  · exact memOk_setMe h
  · exact memOk_setMe h
  · exact memOk_setMyCell h
  · exact h

/-! ### The dispatch -/

theorem outOk_exec (h : s.memOk = true) : ∀ i, OutOk (exec i s)
  | .add .. => outOk_execAdd h
  | .sub .. => outOk_execSub h
  | .adds .. => outOk_execAdds h
  | .subs .. => outOk_execSubs h
  | .mul .. => outOk_execMul h
  | .mulh .. => outOk_execMulh h
  | .mad .. => outOk_execMad h
  | .min .. => outOk_execMin h
  | .max .. => outOk_execMax h
  | .abs .. => outOk_execAbs h
  | .neg .. => outOk_execNeg h
  | .and .. => outOk_execAnd h
  | .or .. => outOk_execOr h
  | .xor .. => outOk_execXor h
  | .andn .. => outOk_execAndn h
  | .not .. => outOk_execNot h
  | .shl .. => outOk_execShl h
  | .shr .. => outOk_execShr h
  | .sar .. => outOk_execSar h
  | .rol .. => outOk_execRol h
  | .bfx .. => outOk_execBfx h
  | .bfi .. => outOk_execBfi h
  | .popc .. => outOk_execPopc h
  | .clz .. => outOk_execClz h
  | .brev .. => outOk_execBrev h
  | .sel .. => outOk_execSel h
  | .mov .. => outOk_execMov h
  | .movs .. => outOk_execMovs h
  | .shfl .. => outOk_execShfl h
  | .vote .. => outOk_execVote h
  | .reds .. => outOk_execReds h
  | .scan .. => outOk_execScan h
  | .addi .. => outOk_execAddi h
  | .widf .. => outOk_execWidf h
  | .fadd .. => outOk_execFadd h
  | .fsub .. => outOk_execFsub h
  | .fmul .. => outOk_execFmul h
  | .fma .. => outOk_execFma h
  | .fmin .. => outOk_execFmin h
  | .fmax .. => outOk_execFmax h
  | .fabs .. => outOk_execFabs h
  | .fneg .. => outOk_execFneg h
  | .fdiv .. => outOk_execFdiv h
  | .fsqrt .. => outOk_execFsqrt h
  | .frcp .. => outOk_execFrcp h
  | .frsq .. => outOk_execFrsq h
  | .fexp2 .. => outOk_execFexp2 h
  | .flog2 .. => outOk_execFlog2 h
  | .fscale .. => outOk_execFscale h
  | .frnd .. => outOk_execFrnd h
  | .fclass .. => outOk_execFclass h
  | .cvt .. => outOk_execCvt h
  | .qpack .. => outOk_execQpack h
  | .qunpk .. => outOk_execQunpk h
  | .amax .. => outOk_execAmax h
  | .cmp .. => outOk_execCmp h
  | .fcmp .. => outOk_execFcmp h
  | .pand .. => outOk_execPand h
  | .por .. => outOk_execPor h
  | .pxor .. => outOk_execPxor h
  | .pnot .. => outOk_execPnot h
  | .pmask .. => outOk_execPmask h
  | .pset .. => outOk_execPset h
  | .sadd .. => outOk_execSadd h
  | .ssub .. => outOk_execSsub h
  | .smul .. => outOk_execSmul h
  | .smulh .. => outOk_execSmulh h
  | .sdiv .. => outOk_execSdiv h
  | .srem .. => outOk_execSrem h
  | .sand .. => outOk_execSand h
  | .sor .. => outOk_execSor h
  | .sxor .. => outOk_execSxor h
  | .sshl .. => outOk_execSshl h
  | .sshr .. => outOk_execSshr h
  | .ssar .. => outOk_execSsar h
  | .smov .. => outOk_execSmov h
  | .slea .. => outOk_execSlea h
  | .smin .. => outOk_execSmin h
  | .smax .. => outOk_execSmax h
  | .scmp .. => outOk_execScmp h
  | .sbfx .. => outOk_execSbfx h
  | .sbfi .. => outOk_execSbfi h
  | .sclz .. => outOk_execSclz h
  | .spopc .. => outOk_execSpopc h
  | .sfmul .. => outOk_execSfmul h
  | .sfadd .. => outOk_execSfadd h
  | .sfma .. => outOk_execSfma h
  | .saddi .. => outOk_execSaddi h
  | .br .. => outOk_execBr h
  | .brl .. => outOk_execBrl h
  | .brx .. => outOk_execBrx h
  | .ret .. => outOk_execRet h
  | .pushm .. => outOk_execPushm h
  | .elsem .. => outOk_execElsem h
  | .popm .. => outOk_execPopm h
  | .brany .. => outOk_execBrany h
  | .brall .. => outOk_execBrall h
  | .loop .. => outOk_execLoop h
  | .ld .. => outOk_execLd h
  | .st .. => outOk_execSt h
  | .lds .. => outOk_execLds h
  | .sts .. => outOk_execSts h
  | .ldq .. => outOk_execLdq h
  | .stx .. => outOk_execStx h
  | .qpop .. => outOk_execQpop h
  | .qpeek .. => outOk_execQpeek h
  | .qstat .. => outOk_execQstat h
  | .qdrop .. => outOk_execQdrop h
  | .tagl .. => outOk_execTagl h
  | .tagw .. => outOk_execTagw h
  | .tagi .. => outOk_execTagi h
  | .atom .. => outOk_execAtom h
  | .atomx .. => outOk_execAtomx h
  | .fence .. => outOk_execFence h
  | .jfar .. => outOk_execJfar h
  | .cfar .. => outOk_execCfar h
  | .rfar .. => outOk_execRfar h
  | .fork .. => outOk_execFork h
  | .exit .. => outOk_execExit h
  | .yield .. => outOk_execYield h
  | .send .. => outOk_execSend h
  | .chbind .. => outOk_execChbind h
  | .chw .. => outOk_execChw h
  | .chclose .. => outOk_execChclose h
  | .chstat .. => outOk_execChstat h
  | .chunbind .. => outOk_execChunbind h
  | .barc .. => outOk_execBarc h
  | .bara .. => outOk_execBara h
  | .barw .. => outOk_execBarw h
  | .bart .. => outOk_execBart h
  | .gang .. => outOk_execGang h
  | .step .. => outOk_execStep h
  | .stepend .. => outOk_execStepend h
  | .slack .. => outOk_execSlack h
  | .sleept .. => outOk_execSleept h
  | .tdset .. => outOk_execTdset h
  | .tdget .. => outOk_execTdget h
  | .mma .. => outOk_execMma h
  | .accz .. => outOk_execAccz h
  | .accld .. => outOk_execAccld h
  | .accst .. => outOk_execAccst h
  | .twset .. => outOk_execTwset h
  | .twgo .. => outOk_execTwgo h
  | .twmap .. => outOk_execTwmap h
  | .twtest .. => outOk_execTwtest h
  | .twwait .. => outOk_execTwwait h
  | .nop .. => outOk_execNop h
  | .trap .. => outOk_execTrap h
  | .svc .. => outOk_execSvc h
  | .mfs .. => outOk_execMfs h
  | .mts .. => outOk_execMts h
  | .ckpt .. => outOk_execCkpt h
  | .brk .. => outOk_execBrk h
  | .once .. => outOk_execOnce h
  | .inboxArrival .. => outOk_execInboxArrival h
  | .setFormation .. => outOk_execSetFormation h
  | .gatherWindowExpiry .. => outOk_execGatherWindowExpiry h
  | .startMessage .. => outOk_execStartMessage h
  | .startAck .. => outOk_execStartAck h
  | .bankWrite .. => outOk_execBankWrite h
  | .homeAccess .. => outOk_execHomeAccess h
  | .queueResponse .. => outOk_execQueueResponse h
  | .stxErrorResponse .. => outOk_execStxErrorResponse h
  | .sendRefused .. => outOk_execSendRefused h
  | .resumeNotification .. => outOk_execResumeNotification h
  | .targetSwitchedOut .. => outOk_execTargetSwitchedOut h
  | .countIncrement .. => outOk_execCountIncrement h
  | .forkAck .. => outOk_execForkAck h
  | .forkChildInject .. => outOk_execForkChildInject h
  | .countDecrement .. => outOk_execCountDecrement h
  | .jobDone .. => outOk_execJobDone h
  | .barrierArrival .. => outOk_execBarrierArrival h
  | .barrierStateReply .. => outOk_execBarrierStateReply h
  | .phaseUpdate .. => outOk_execPhaseUpdate h
  | .joinMatch .. => outOk_execJoinMatch h
  | .mmaRetire .. => outOk_execMmaRetire h
  | .twChunkComplete .. => outOk_execTwChunkComplete h
  | .twHandlePush .. => outOk_execTwHandlePush h
  | .twFault .. => outOk_execTwFault h
  | .twWriteRefused .. => outOk_execTwWriteRefused h
  | .channelElementArrival .. => outOk_execChannelElementArrival h
  | .channelRefill .. => outOk_execChannelRefill h
  | .closeMarkArrival .. => outOk_execCloseMarkArrival h
  | .roomNotification .. => outOk_execRoomNotification h
  | .inboxRefill .. => outOk_execInboxRefill h
  | .poolAppend .. => outOk_execPoolAppend h
  | .poolPopRequest .. => outOk_execPoolPopRequest h
  | .poolRingRefill .. => outOk_execPoolRingRefill h
  | .sluiceSample .. => outOk_execSluiceSample h
  | .kick .. => outOk_execKick h
  | .replayStart .. => outOk_execReplayStart h
  | .nodeStart .. => outOk_execNodeStart h
  | .copyComplete .. => outOk_execCopyComplete h
  | .replayEnd .. => outOk_execReplayEnd h
  | .slotArm .. => outOk_execSlotArm h
  | .reserveContexts .. => outOk_execReserveContexts h
  | .dispatchRelease .. => outOk_execDispatchRelease h
  | .stationInject .. => outOk_execStationInject h
  | .class0Reserve .. => outOk_execClass0Reserve h
  | .displacement cell => (outOk_execDisplacement h : OutOk (execDisplacement cell s))
  | .displacedRestore .. => outOk_execDisplacedRestore h
  | .watchdog .. => outOk_execWatchdog h
  | .preemptRequest .. => outOk_execPreemptRequest h
  | .preemptStopped .. => outOk_execPreemptStopped h
  | .cellResume .. => outOk_execCellResume h
  | .sleeptWake .. => outOk_execSleeptWake h
  | .fenceTimeout .. => outOk_execFenceTimeout h
  | .stepRegistration .. => outOk_execStepRegistration h
  | .stepRetirement .. => outOk_execStepRetirement h
  | .workReport .. => outOk_execWorkReport h
  | .governorPeriod .. => outOk_execGovernorPeriod h
  | .clusterBid .. => outOk_execClusterBid h
  | .weirClear .. => outOk_execWeirClear h
  | .grantArrival .. => outOk_execGrantArrival h
  | .meterWindow .. => outOk_execMeterWindow h
  | .railStep .. => outOk_execRailStep h
  | .quiesceDrained .. => outOk_execQuiesceDrained h
  | .quiesceTimeout .. => outOk_execQuiesceTimeout h
  | .thermalSample .. => outOk_execThermalSample h
  | .promenadeCopyDone .. => outOk_execPromenadeCopyDone h
  | .tlbFillRequest .. => outOk_execTlbFillRequest h
  | .tlbFillReply .. => outOk_execTlbFillReply h
  | .invalidation .. => outOk_execInvalidation h
  | .invalidationComplete .. => outOk_execInvalidationComplete h
  | .svcVersion .. => outOk_execSvcVersion h
  | .svcInvalPage .. => outOk_execSvcInvalPage h
  | .svcInvalAsid .. => outOk_execSvcInvalAsid h
  | .svcMap .. => outOk_execSvcMap h
  | .svcUnmap .. => outOk_execSvcUnmap h
  | .svcQuote .. => outOk_execSvcQuote h
  | .faultRecord .. => outOk_execFaultRecord h
  | .verdict .. => outOk_execVerdict h
  | .jobDrop .. => outOk_execJobDrop h
  | .cellQuarantine .. => outOk_execCellQuarantine h
  | .hbmError .. => outOk_execHbmError h
  | .partitionStop .. => outOk_execPartitionStop h
  | .machineCheck .. => outOk_execMachineCheck h
  | .ckptTimeout .. => outOk_execCkptTimeout h
  | .partCreate .. => outOk_execPartCreate h
  | .partDestroy .. => outOk_execPartDestroy h
  | .partSetRail .. => outOk_execPartSetRail h
  | .partSetFaultsrv .. => outOk_execPartSetFaultsrv h
  | .partPreempt .. => outOk_execPartPreempt h
  | .partResume .. => outOk_execPartResume h
  | .asidAlloc .. => outOk_execAsidAlloc h
  | .asidRelease .. => outOk_execAsidRelease h
  | .memMap .. => outOk_execMemMap h
  | .attestQuote .. => outOk_execAttestQuote h
  | .attestPublicKey .. => outOk_execAttestPublicKey h
  | .graphLoad .. => outOk_execGraphLoad h
  | .graphUnload .. => outOk_execGraphUnload h
  | .ckptPart .. => outOk_execCkptPart h
  | .ckptDevice .. => outOk_execCkptDevice h
  | .restorePart .. => outOk_execRestorePart h
  | .debugHalt .. => outOk_execDebugHalt h
  | .debugResume .. => outOk_execDebugResume h
  | .traceConfig .. => outOk_execTraceConfig h
  | .powerCapSet .. => outOk_execPowerCapSet h
  | .queryIdentity .. => outOk_execQueryIdentity h
  | .queryPartitionStatus .. => outOk_execQueryPartitionStatus h
  | .queryViolationLog .. => outOk_execQueryViolationLog h
  | .queryReelPorts .. => outOk_execQueryReelPorts h
  | .reelBind .. => outOk_execReelBind h
  | .reelUnbind .. => outOk_execReelUnbind h
  | .verdictDoorbell .. => outOk_execVerdictDoorbell h
  | .devreset .. => outOk_execDevreset h
  | .i3cReset .. => outOk_execI3cReset h
  | .hooklen .. => outOk_execHooklen h
  | .hookWindowExpiry .. => outOk_execHookWindowExpiry h
  | .powerGood .. => outOk_execPowerGood h
  | .bar2Access .. => outOk_execBar2Access h
  | .registerWrite .. => outOk_execRegisterWrite h
  | .reelFlitReceive .. => outOk_execReelFlitReceive h
  | .reelControlFlit .. => outOk_execReelControlFlit h
  | .reelShed .. => outOk_execReelShed h
  | .reelRetrainDone .. => outOk_execReelRetrainDone h
  | .reelRetrainTimer .. => outOk_execReelRetrainTimer h
  | .illegalEncoding .. => outOk_execIllegalEncoding h
  | .unknownOpcode .. => outOk_execUnknownOpcode h
  | .writeAcknowledgement .. => outOk_execWriteAcknowledgement h
  | .tailraceReadLanded .. => outOk_execTailraceReadLanded h
  | .scratchCorrected .. => outOk_execScratchCorrected h
  | .walkerTimeLimit .. => outOk_execWalkerTimeLimit h
  | .entdaa .. => outOk_execEntdaa h
  | .powerRemoval .. => outOk_execPowerRemoval h

/-! ### What happens in a step -/

theorem memOk_forCtxs {f : State → Who → State} (hf : ∀ s v, s.memOk = true → (f s v).memOk = true) (h : s.memOk = true) :
    (s.forCtxs f).memOk = true :=
  memOk_foldl (fun _ _ h1 => memOk_foldl (fun _ _ h2 => hf _ _ h2) h1) h

theorem memOk_forCells {f : State → ℕ → State} (hf : ∀ s v, s.memOk = true → (f s v).memOk = true) (h : s.memOk = true) :
    (s.forCells f).memOk = true :=
  memOk_foldl (fun _ _ h1 => hf _ _ h1) h

theorem memOk_forParts {f : State → ℕ → State} (hf : ∀ s v, s.memOk = true → (f s v).memOk = true) (h : s.memOk = true) :
    (s.forParts f).memOk = true :=
  memOk_foldl (fun _ _ h1 => hf _ _ h1) h

theorem memOk_endEmpty (h : s.memOk = true) {w} : (s.endEmpty w).memOk = true :=
  memOk_ite (memOk_ite h (memOk_setCtx h)) (memOk_ite (memOk_ite (memOk_setCtx h) h) (memOk_ite (memOk_endIfDone h) h))
theorem memOk_endOnce (h : s.memOk = true) {w} : (s.endOnce w).memOk = true := memOk_ite (memOk_onceAfter (memOk_setCtx h)) h
theorem memOk_sentTaken (h : s.memOk = true) {w} : (s.sentTaken w).memOk = true := memOk_ite h (memOk_setCtx h)
theorem memOk_engines (h : s.memOk = true) {cell} : (s.engines cell).memOk = true :=
  memOk_ite h (memOk_foldl (fun _ _ h1 => memOk_ite h1 (memOk_engineNext h1)) h)
theorem memOk_copies (h : s.memOk = true) {pn} : (s.copies pn).memOk = true := memOk_ite h (memOk_foldl (fun _ _ h1 => memOk_copyStep h1) h)
theorem memOk_askPools (h : s.memOk = true) : s.askPools.memOk = true :=
  memOk_foldl (fun _ _ h1 => memOk_foldl (fun _ _ h2 => memOk_ite (memOk_askPool h2) h2) h1) h

theorem memOk_flow (h : s.memOk = true) : s.flow.memOk = true := by
  unfold State.flow
  extract_lets s1 s2 s3 s4 s5 s6 s7 s8 s9 s10 s11 s12 s13 s14 s15 s16 s17
  have h3 : s3.memOk = true := memOk_forCtxs (fun _ _ h => memOk_endOnce h)
    (memOk_forCtxs (fun _ _ h => memOk_sentTaken h) (memOk_reachStations h))
  have h5 : s5.memOk = true := memOk_reachPorts (memOk_forCtxs (fun _ _ h => memOk_pump h) h3)
  have h6 : s6.memOk = true := memOk_forCtxs (fun _ _ h => memOk_endEmpty h) h5
  have h7 : s7.memOk = true := memOk_forCells (fun _ _ h => memOk_engines h) h6
  have h8 : s8.memOk = true := memOk_forParts (fun _ _ h => memOk_copies h) h7
  have h9 : s9.memOk = true := memOk_askPools h8
  have h10 : s10.memOk = true := memOk_forCells (fun _ _ h => memOk_paySubs h) h9
  have h11 : s11.memOk = true := memOk_forCells (fun _ _ h => memOk_chooseDisplaced h) h10
  have h12 : s12.memOk = true := memOk_forCells (fun _ _ h => memOk_cellStops h) h11
  have h13 : s13.memOk = true := memOk_forCells (fun _ _ h => memOk_tripOut h) h12
  have h14 : s14.memOk = true := memOk_forCells (fun _ _ h => memOk_xwaits h) h13
  have h15 : s15.memOk = true := memOk_forParts (fun _ _ h => memOk_reportWork h) h14
  have h17 : s17.memOk = true := memOk_forParts (fun _ _ h => memOk_cutPart h) (memOk_thienoPreempts h15)
  exact memOk_transmit (memOk_finishCmds h17)

theorem memOk_tick (h : s.memOk = true) {cell n issuer reserve zero} : (s.tick cell n issuer reserve zero).memOk = true :=
  memOk_ite h (memOk_setCell h)
theorem memOk_elapse (h : s.memOk = true) {issuer reserve zero} : (s.elapse issuer reserve zero).memOk = true :=
  memOk_with (memOk_foldl (fun _ _ h1 => memOk_tick h1) h)

theorem memOk_issuedAt (h : s.memOk = true) {w lane mma zero steps} : (s.issuedAt w lane mma zero steps).memOk = true := by
  unfold State.issuedAt
  extract_lets _ _ s1
  have h1 : s1.memOk = true := memOk_setCell h
  exact memOk_ite h (memOk_ite h1 (memOk_addUnits h1))

theorem memOk_spare (h : s.memOk = true) {w yield} : (s.spare w yield).memOk = true := memOk_ite (memOk_setCtx h) h
theorem memOk_afterIssue {s0 : State} {w lane mma yield} (h : s.memOk = true) : (s0.afterIssue w lane mma yield s).memOk = true :=
  memOk_onceAfter (memOk_spare (memOk_elapse (memOk_issuedAt h)))

theorem outOk_thenNext {o : Out} (ho : OutOk o) {k : State → State} (hk : ∀ s, s.memOk = true → (k s).memOk = true) :
    OutOk (thenNext o k) := by
  cases o with
  | next s => exact hk _ ho
  | fault f => trivial
  | refused r => trivial

theorem outOk_runIssue (h : s.memOk = true) {w} : OutOk (s.runIssue w) := by
  unfold State.runIssue
  extract_lets s1
  have h1 : s1.memOk = true := memOk_with h
  split
  · exact outOk_thenNext (outOk_exec h1 _) fun _ h2 => memOk_afterIssue h2
  · exact outOk_thenNext (outOk_exec h1 _) fun _ h3 => memOk_afterIssue h3

theorem outOk_run (h : s.memOk = true) {c} : OutOk (s.run c) := by
  unfold State.run
  split
  · exact outOk_thenNext (outOk_exec h _) fun _ h1 => memOk_elapse h1
  · exact outOk_thenNext (outOk_exec (memOk_with h) _) fun _ h2 => memOk_elapse h2
  · exact outOk_runIssue h

theorem outOk_next (h : s.memOk = true) {l} : OutOk (s.next l) := by
  unfold State.next
  split
  · exact memOk_elapse h
  · exact outOk_run h
  · exact outOk_run h

/-! ### The step of the machine -/

theorem outOk_step (h : s.memOk = true) : OutOk (step s) := outOk_next (memOk_flow h)

end

/-! ### The obligation -/

/-- Settles O57: every operation that a step may take keeps the memories in canonical form, by the lemma of each (`outOk_step`). -/
theorem memoryStaysCanonical : Obligations.MemoryStaysCanonical := by
  unfold Obligations.MemoryStaysCanonical
  intro s t h e
  exact (outOk_step h).next e

end Sys2Proof.Machine
end

section
/-! SUPPORT. How an instruction that is no boundary completes, and the statements about the power-on state, the system registers, and
CKPT, SVC, TRAP and BRK. -/

namespace Sys2Proof.Machine
open Sys2Proof.Claims

/-! ### Outcomes of an instruction that is no boundary -/

theorem State.me_setMyCell (s : State) {c : Cell} (hc : c.ctxs = s.myCell.ctxs) : (s.setMyCell c).me = s.me := by
  have h : (s.setMyCell c).me = (s.setMyCell c).myCell.ctx s.cur.ctx := rfl
  rw [h, State.myCell_setMyCell, Cell.ctx, hc]
  rfl

theorem State.setMe_setMyCell (s : State) (c : Cell) (x : Ctx) :
    (s.setMyCell c).setMe x = s.setMyCell (c.setCtx s.cur.ctx x) := by
  simp [State.setMyCell, State.setMe, State.setCtx]

/-- A state is reached from s by writing the issuing context alone. -/
theorem onlyIssuer_setMe (s : State) (x : Ctx) : OnlyIssuer s (s.setMe x) :=
  ⟨by simp, fun _ => rfl⟩

theorem past_of_pc {x y : Ctx} (n : Nat) (h : y.r.pc = x.r.pc) : Past x (y.past n) n := by
  simp [Past, Ctx.past, h]

/-- An instruction that has only written the issuing context completes. -/
theorem completes_setMe {s : State} {n : Nat} {y : Ctx} {P : Ctx → Prop} (hpc : y.r.pc = s.me.r.pc) (hP : P (y.past n)) :
    Completes s n (finishLen n (.done (s.setMe y))) P := by
  refine ⟨_, finishLen_done n _, ?_, ?_, ?_⟩
  · simpa using onlyIssuer_setMe s (y.past n)
  · simpa using past_of_pc n hpc
  · simpa using hP

/-- An instruction that has written nothing completes. -/
theorem completes_done {s : State} {n : Nat} {P : Ctx → Prop} (hP : P (s.me.past n)) :
    Completes s n (finishLen n (.done s)) P := by
  refine ⟨_, finishLen_done n s, onlyIssuer_setMe s _, ?_, ?_⟩
  · simpa using past_of_pc n rfl
  · simpa using hP

/-- A trap that is no violation of a partition has no record of its own in the log (R391). -/
theorem State.logTrap_other (s : State) (w : Who) {t : Trap} (h : t.cause ≠ causePartitionViolation) : s.logTrap w t = s := by
  simp [State.logTrap, h]

theorem finish_trap_other {s : State} {t : Trap} (k : State → State) (h : t.cause ≠ causePartitionViolation) :
    finish (.trap t s) k = .next (s.takeTrap s.cur t) := by
  simp [State.logTrap_other s s.cur h]

theorem finishLen_trap_other {s : State} {t : Trap} (n : Nat) (h : t.cause ≠ causePartitionViolation) :
    finishLen n (.trap t s) = .next (s.takeTrap s.cur t) := finish_trap_other _ h

@[simp] theorem finishLen_wait (n : Nat) (w : Wait) (s : State) :
    finishLen n (.wait w s) = .next (s.setMe { s.me with wait := some w }) := rfl

/-! ### Contexts that differ in registers alone -/

theorem regsOnly_past (x : Ctx) (n : Nat) (vs ss ps ks : List Nat) : RegsOnly x (x.past n) vs ss ps ks :=
  ⟨rfl, fun _ _ => rfl, fun _ _ => rfl, fun _ _ => rfl, fun _ _ => rfl⟩

theorem regsOnly_setS_past (x : Ctx) (d : Nat) (v : W64) (n : Nat) : RegsOnly x ((x.setS d v).past n) [] [d] [] [] := by
  refine ⟨?_, fun _ _ => ?_, fun r hr => ?_, fun _ _ => ?_, fun _ _ => ?_⟩
  · by_cases h : d = 0 <;> simp [Ctx.setS, Ctx.past, h]
  · by_cases h : d = 0 <;> simp [Ctx.setS, h, Ctx.v]
  · simpa using Ctx.s_setS_ne x v (by simpa using hr)
  · by_cases h : d = 0 <;> simp [Ctx.setS, h, Ctx.p]
  · by_cases h : d = 0 <;> simp [Ctx.setS, h, Ctx.k]

/-- An instruction that has written only fields of the issuing cell beside its contexts. -/
theorem done_setMyCell (s : State) (n : Nat) {c : Cell} (hc : c.ctxs = s.myCell.ctxs) :
    ∃ u, finishLen n (.done (s.setMyCell c)) = .next u ∧ OnlyCell s u ∧ RegsOnly s.me u.me [] [] [] [] ∧ Past s.me u.me n ∧
      u.myCell = c.setCtx s.cur.ctx u.me := by
  have hme := State.me_setMyCell s hc
  refine ⟨_, finishLen_done n _, ⟨?_, fun _ => rfl⟩, ?_, ?_, ?_⟩ <;> rw [hme]
  · simp [State.setMe_setMyCell]
  · simpa using regsOnly_past s.me n [] [] [] []
  · simpa using past_of_pc n rfl
  · rw [State.me_setMe, State.setMe_setMyCell, State.myCell_setMyCell]

theorem setS_reg_past (x : Ctx) (d : Reg) (v : W64) (n : Nat) :
    ((x.setS d.toNat v).past n).s d.toNat = if d = 0 then 0 else v := by
  by_cases h : d = 0
  · simp [h]
  · have hd : d.toNat ≠ 0 := fun e => h (BitVec.eq_of_toNat_eq (by simpa using e))
    rw [Ctx.s_past, Ctx.s_setS x v hd, if_neg h]

/-! ### The machine as its power comes up -/

/-- Settles O54: each field of the power-on state is a literal. -/
theorem resetMachine : Obligations.ResetMachine := by
  refine ⟨rfl, rfl, rfl, rfl, rfl, fun _ => rfl, fun _ => rfl, fun w => ⟨rfl, fun _ _ => rfl, fun r => ?_, fun r hr => ?_, rfl, rfl,
    rfl, rfl, rfl⟩⟩
  · show (if r = 0 then 0 else 0 : W64) = 0
    simp
  · have h7 : r ≠ 7 := by omega
    exact ⟨if_neg h7, if_neg h7⟩

/-! ### System registers -/

theorem sreg_eq_systemRegister (s : State) (n : BitVec 6) : s.sreg n.toNat = systemRegister s n := by
  have hn : n.toNat < 64 := n.isLt
  have hof : BitVec.ofNat 6 n.toNat = n := BitVec.ofNat_toNat 6 n |>.trans (BitVec.setWidth_eq n)
  rw [← hof]
  generalize n.toNat = k at hn
  simp only [BitVec.toNat_ofNat, Nat.mod_eq_of_lt hn]
  interval_cases k <;> rfl

theorem sregPrivileged_iff (n : BitVec 6) : sregPrivileged n = true ↔ n = 0x04 ∨ n = 0x16 := by
  simp [sregPrivileged]

/-- What R223 lets a context read or write. -/
theorem sregDenied_eq_false {n : BitVec 6} {b : Bool} (hp : ¬ ((n = 0x04 ∨ n = 0x16) ∧ b = false)) :
    (sregPrivileged n && !b) = false := by
  rw [Bool.and_eq_false_iff]
  by_cases h : sregPrivileged n = true
  · have hb : b ≠ false := fun e => hp ⟨(sregPrivileged_iff n).1 h, e⟩
    exact .inr (by simpa using hb)
  · exact .inl (by simpa using h)

theorem sregDenied_eq_true {n : BitVec 6} {b : Bool} (hp : (n = 0x04 ∨ n = 0x16) ∧ b = false) :
    (sregPrivileged n && !b) = true := by
  simp [(sregPrivileged_iff n).2 hp.1, hp.2]

section
variable {h : Head} {n : BitVec 6} {d ra : Reg} {s : State}

theorem mfs_denied (hp : (n = 0x04 ∨ n = 0x16) ∧ s.me.priv = false) : Traps s (exec (.mfs h n d) s) causePrivileged := by
  simp only [Traps, exec, execMfs, sregDenied_eq_true hp, if_true]
  exact finishLen_trap_other _ (by decide)

theorem mts_denied (hp : (n = 0x04 ∨ n = 0x16) ∧ s.me.priv = false) : Traps s (exec (.mts h n ra) s) causePrivileged := by
  simp only [Traps, exec, execMts, sregDenied_eq_true hp, if_true]
  exact finishLen_trap_other _ (by decide)

/-- MFS of a register that is not per lane (R222). -/
theorem mfs_scalar (hp : ¬ ((n = 0x04 ∨ n = 0x16) ∧ s.me.priv = false)) (h0 : n ≠ 0x00) (h8 : n ≠ 0x08) (h14 : n ≠ 0x14) :
    exec (.mfs h n d) s = finishLen (lenOf h false)
      (if s.me.active h = 0 then .done s
       else if n = 0x0B then .done (s.readTbc.2.setMe (s.readTbc.2.me.setS d.toNat (BitVec.ofNat 64 s.readTbc.1)))
       else .done (s.setMe (s.me.setS d.toNat (systemRegister s n)))) := by
  simp only [exec, execMfs, sregDenied_eq_false hp, beq_eq_false_iff_ne.2 h0, beq_eq_false_iff_ne.2 h8, beq_eq_false_iff_ne.2 h14,
    sreg_eq_systemRegister, beq_iff_eq, Bool.false_eq_true, if_false]

/-- A read of the timebase changes what the context has read alone (R20). -/
theorem readTbc_state (s : State) : s.readTbc.2 = s.setMe { s.me with lastTbc := s.readTbc.1 } := rfl

theorem readTbc_bounds (s : State) :
    s.tbc ≤ s.readTbc.1 ∧ s.me.lastTbc ≤ s.readTbc.1 ∧ (s.me.lastTbc ≤ s.tbc + 2 → s.readTbc.1 ≤ s.tbc + 2) := by
  simp only [State.readTbc]
  split <;> omega

/-- MTS with a true guard (R222). -/
theorem mts_allowed (hp : ¬ ((n = 0x04 ∨ n = 0x16) ∧ s.me.priv = false)) :
    exec (.mts h n ra) s = finishLen (lenOf h false)
      (if s.me.guard h = false then .done s
       else match n.toNat with
        | 0x0D => .done (s.setMe { s.me with fpctl := (s.me.s ra.toNat).extractLsb' 0 8 })
        | 0x0E => .done (s.setMe { s.me with fpflags := (s.me.s ra.toNat).extractLsb' 0 6 })
        | 0x15 => .done (s.setMe { s.me with
            qcfg := (s.me.qcfg.extractLsb' 8 8 &&& ~~~((s.me.s ra.toNat).extractLsb' 8 8)) ++ (s.me.s ra.toNat).extractLsb' 0 8 })
        | 0x16 => .done (s.setMyCell { s.myCell with inboxCfg := (s.me.s ra.toNat).extractLsb' 0 8 })
        | _ => .trap { cause := causeReservedField } s) := by
  simp only [exec, execMts, sregDenied_eq_false hp, Bool.not_eq_true']
  rfl

end

/-- The written QCFG: its lower half is the value, and its upper half is cleared by the ones of the value (R176). -/
theorem qcfg_bits (q : BitVec 16) (v : W64) (k : Nat) (hk : k < 16) :
    ((q.extractLsb' 8 8 &&& ~~~(v.extractLsb' 8 8)) ++ v.extractLsb' 0 8 : BitVec 16).getLsbD k =
      if k < 8 then v.getLsbD k else q.getLsbD k && !v.getLsbD k := by
  refine (BitVec.getLsbD_append ..).trans ?_
  by_cases h : k < 8
  · simp [h]
  · have h1 : k - 8 < 8 := by omega
    have h2 : 8 + (k - 8) = k := by omega
    simp [h, h1, h2]

/-- Settles O39, by the branches of MFS and MTS. -/
theorem systemRegisters : Obligations.SystemRegisters := by
  unfold Obligations.SystemRegisters
  intro h n d ra s len x mfs mts v
  refine ⟨completes_done (regsOnly_past _ _ _ _ _ _), fun hp => ⟨mfs_denied hp, mts_denied hp⟩, fun hp => ⟨fun h0 h8 h14 => ?_, ?_, ?_⟩⟩
  · have hm : mfs = _ := mfs_scalar (d := d) hp h0 h8 h14
    rw [hm]
    refine ⟨fun ha => ?_, fun ha hb => ?_, fun ha hb => ?_⟩
    · rw [if_pos ha]
      exact completes_done (regsOnly_past _ _ _ _ _ _)
    · rw [if_neg ha, if_neg hb]
      exact completes_setMe (by simp) ⟨regsOnly_setS_past _ _ _ _, setS_reg_past _ _ _ _⟩
    · obtain ⟨h1, h2, h3⟩ := readTbc_bounds s
      refine ⟨s.readTbc.1, h1, h2, h3, ?_⟩
      rw [if_neg ha, if_pos hb, readTbc_state, State.setMe_setMe, State.me_setMe]
      exact completes_setMe (by simp) ⟨regsOnly_setS_past _ _ _ _, setS_reg_past _ _ _ _⟩
  · intro hg
    have hm : mts = _ := mts_allowed (ra := ra) hp
    rw [hm, if_pos hg]
    exact completes_done (regsOnly_past _ _ _ _ _ _)
  · intro hg
    have hm : mts = _ := mts_allowed (ra := ra) hp
    rw [hm, if_neg (by rw [hg]; decide)]
    refine ⟨?_, ?_, ?_, ?_⟩
    · rintro rfl
      exact completes_setMe rfl (regsOnly_past _ _ _ _ _ _)
    · rintro rfl
      exact completes_setMe rfl (regsOnly_past _ _ _ _ _ _)
    · rintro rfl
      exact completes_setMe rfl ⟨regsOnly_past _ _ _ _ _ _, qcfg_bits x.qcfg v⟩
    · rintro rfl
      exact done_setMyCell s len (c := { s.myCell with inboxCfg := v.extractLsb' 0 8 }) rfl

/-! ### CKPT, SVC, TRAP and BRK -/

/-- A boundary instruction whose commit need not wait for an acquire, and leaves a lane, does its own work (R42). -/
theorem boundary_of_live {s : State} (n : Nat) (body : State → Res) (hw : s.me.commitWaits = false)
    (hl : s.commitBefore.me.r.live ≠ 0) :
    boundary n s body = finish (body s.commitBefore) fun s => (s.setMe (s.me.past n)).commit s.cur 3 := by
  rw [boundary, if_neg (by simp [hw]), if_neg (by simpa using hl)]

/-- Settles O40, by the guard of each instruction. -/
theorem boundariesAndTraps : Obligations.BoundariesAndTraps := by
  unfold Obligations.BoundariesAndTraps
  refine ⟨fun h n s => ?_, fun h code s => ?_⟩
  · intro len
    refine ⟨fun hg hw => ?_, fun hg => ?_, ?_⟩
    · simp [exec, execCkpt, hg, hw, len]
    · have he : exec (.ckpt h) s = finishLen (lenOf h false) (.done s) := by simp [exec, execCkpt, hg]
      rw [he]
      exact completes_done (regsOnly_past _ _ _ _ _ _)
    · intro c hw hl
      refine ⟨fun hg => ?_, fun hg => ⟨c, ?_, rfl⟩⟩ <;> simp only [exec, execSvc, boundary_of_live _ _ hw hl]
      · rw [if_neg (by simp [show s.commitBefore.me.guard h = true from hg])]
        rfl
      · rw [if_pos (by simp [show s.commitBefore.me.guard h = false from hg])]
        rfl
  · refine ⟨fun hg => ⟨?_, fun ha => ?_, fun ha => ?_⟩, fun hg => ⟨?_, ?_⟩⟩
    · have he : exec (.trap h code) s = finishLen (lenOf h false)
          (.trap { cause := causeSoftwareTrap, addr := some (code.setWidth 64) } s) := by simp [exec, execTrap, hg]
      rw [he]
      exact finishLen_trap_other _ (show causeSoftwareTrap ≠ causePartitionViolation by decide)
    · have he : exec (.brk h code) s = finishLen (lenOf h false)
          (.trap { cause := causeDebugBreak, addr := some (code.setWidth 64) } s) := by simp [exec, execBrk, hg, ha]
      rw [he]
      exact finishLen_trap_other _ (show causeDebugBreak ≠ causePartitionViolation by decide)
    · have he : exec (.brk h code) s = finishLen (lenOf h false) (.done (s.setMyCell { s.myCell with halted := true })) := by
        simp [exec, execBrk, hg, ha]
      rw [he]
      exact done_setMyCell s (lenOf h false) (c := { s.myCell with halted := true }) rfl
    · have he : exec (.trap h code) s = finishLen (lenOf h false) (.done s) := by simp [exec, execTrap, hg]
      rw [he]
      exact completes_done (regsOnly_past _ _ _ _ _ _)
    · have he : exec (.brk h code) s = finishLen (lenOf h false) (.done s) := by simp [exec, execBrk, hg]
      rw [he]
      exact completes_done (regsOnly_past _ _ _ _ _ _)

end Sys2Proof.Machine
end

section
/-! The statement about faults and verdicts (O49) fails: a verdict that discards the work of a parked context does not free it where a
send that it released before is back-pressed. The model keeps such a context as `Ctx.ended` says (R39, R44, R341): blocked, until the send
has left. -/

namespace Sys2Proof.Machine
open Sys2Proof.Claims Sys2Proof.Tests

/-- A verdict of action 2 on trap 7. -/
def discard7 : W64 := 0x2000000000000007

/-- The message that brings it. -/
def discardMsg : Smsg := { cls := 2, payload := discard7 }

/-- Context 0 of cell 0 is parked, with trap 7 pending and its verdict on the way; the strand that the context has released to cell 1
cannot leave, since cell 1 is switched out and its tailrace has no room. -/
def parkedStuck : State :=
  let s := sPend discard7
  let strand : SendBody := .strand { dest := 0x10000 } false
  (s.setMe { s.me with released := [{ body := strand }] }).setCell 1 { s.cell 1 with out := true, tailQuota := 0 }

theorem parkedStuck_verdict_arrives : Arrives parkedStuck 0 (.dmc 0) (.cell 0) (.parcel (.msg discardMsg)) :=
  ⟨by decide +kernel, .system, rfl, by decide +kernel⟩

theorem parkedStuck_accepts :
    (parkedStuck.cell 0).out = false ∧ (parkedStuck.cell 0).canAccept (.msg discardMsg) = true ∧
    (parkedStuck.cell 0).trapOf discard7 = some trap7 := by
  decide +kernel

/-- The context is left running, and waits for its send to leave. -/
theorem parkedStuck_keeps_running :
    after (exec (.verdict 0) parkedStuck) (fun t => decide ((t.ctx ⟨0, 0⟩).status = .running)) = true := by
  decide +kernel

/-- Refutes O49: in `parkedStuck` the verdict discards the work of context 0, and the context is not free afterwards. -/
theorem not_faultSteps : ¬ Obligations.FaultSteps := by
  unfold Obligations.FaultSteps
  intro h
  obtain ⟨hout, hacc, htrap⟩ := parkedStuck_accepts
  obtain ⟨-, hverdict, -⟩ := h parkedStuck 0 0 0 (.dmc 0)
  obtain ⟨-, hparked⟩ := hverdict 0 discardMsg parkedStuck_verdict_arrives rfl hout hacc
  obtain ⟨t, ht, -, -, hfree⟩ := hparked trap7 htrap rfl (by decide)
  have hf : (t.ctx ⟨0, 0⟩).status = .free := hfree (by decide)
  have hr := parkedStuck_keeps_running
  rw [ht] at hr
  exact absurd (of_decide_eq_true hr) (by rw [hf]; decide)

end Sys2Proof.Machine
end

section
/-! The statement about the platform (O50) fails: a retrain that leaves a Reel port down completes the accesses that wait at the port, and
a read of a cell comes behind the local stores that its context had queued before it (R273), so these are performed and memory changes. -/

namespace Sys2Proof.Machine
open Sys2Proof.Claims Sys2Proof.Tests

/-- A read of a peer's memory that context 0 of cell 0 has sent, and whose translation has been taken away since (R400). That makes its
error known, whichever port leads to the peer. -/
def peerRead : Access := { op := .read, key := 2 ^ 66, id := 9, gone := some causeRemoteError }

/-- Reel port 0 retrains with that read waiting, and a local store of 5 that the same context made before it is still queued at its bank. -/
def retrainWithStore : State :=
  (s0.setMyCell { s0.myCell with bankQ := [{ ctx := 0, off := 0, size := 8, data := 5 }] }).setReel 0
    { lanes := 4, retraining := true, waiting := [[peerRead]] }

theorem retrainWithStore_before : mread retrainWithStore.mem (cellKey 0 0) = 0 := by decide +kernel

theorem retrainWithStore_after :
    after (exec (.reelRetrainDone 0 0) retrainWithStore) (fun t => mread t.mem (cellKey 0 0)) = 5 := by decide +kernel

/-- Refutes O50: in `retrainWithStore` the port goes down, and a byte of the scratchpad of cell 0 changes from 0 to 5. -/
theorem not_platformSteps : ¬ Obligations.PlatformSteps := by
  unfold Obligations.PlatformSteps
  intro h
  obtain ⟨-, -, -, -, -, -, -, -, -, -, -, -, -, hdone, -⟩ := h retrainWithStore .pf 0 0 0 0 0
  obtain ⟨t, ht, hmem, -⟩ := hdone 0 (by decide) (by decide +kernel)
  have ha := retrainWithStore_after
  rw [ht] at ha
  have hb : mread t.mem (cellKey 0 0) = 5 := ha
  rw [hmem, retrainWithStore_before] at hb
  exact absurd hb (by decide)

end Sys2Proof.Machine
end

section
/-! GANG, MMA and ONCE present their joins (O33). -/

namespace Sys2Proof.Machine
open Sys2Proof.Claims

/-! ### The place of a join -/

/-- The first place that a test picks is taken. -/
theorem mem_presentJoin_go (j : Join) (p : Join → Bool) {l : List Join} (h : l.any p = true) : j ∈ presentJoin.go j p l := by
  induction l with
  | nil => simp at h
  | cons y ys ih =>
    simp only [presentJoin.go]
    split
    · exact List.mem_cons_self
    · rename_i hy
      exact List.mem_cons_of_mem _ (ih (by simpa [hy] using h))

theorem mem_presentJoin (j : Join) (l : List Join) : j ∈ presentJoin j l := by
  unfold presentJoin
  split
  · exact mem_presentJoin_go _ _ ‹_›
  · split
    · exact mem_presentJoin_go _ _ ‹_›
    · simp

/-- Where every place is kept, and none is kept by the activation of the join without being presented, the join stands last. -/
theorem presentJoin_last {j : Join} {l : List Join} (h : ∀ y ∈ l, y.owned = true ∧ (y.present = true ∨ y.act ≠ j.act)) :
    presentJoin j l = l ++ [j] := by
  have h1 : l.any (fun y => !y.present && y.owned && y.act == j.act) = false := by
    rw [List.any_eq_false]
    intro y hy
    obtain ⟨-, hp | ha⟩ := h y hy
    · simp [hp]
    · simp [ha]
  have h2 : l.any (fun y => !y.owned) = false := by
    rw [List.any_eq_false]
    intro y hy
    simp [(h y hy).1]
  simp [presentJoin, h1, h2]

theorem Cell.setJoins_ctxs (c : Cell) (w : Wire) (l : List Join) : (c.setJoins w l).ctxs = c.ctxs := by
  cases w <;> rfl

/-! ### Presenting -/

theorem State.settle_cur (s : State) (n : Nat) : (s.settle n).cur = s.cur := by
  simp only [State.settle]
  split
  · rfl
  · rw [performAll_only]
    rfl

theorem finish_present (s : State) (kind : JoinKind) (cluster : Bool) (n : Nat) (k : State → State) :
    Presents s (finish (present s kind cluster n) k) kind (wireOf s.cur.cell cluster) n := by
  refine ⟨presentJoin { kind, ctx := s.cur.ctx, act := s.me.act, len := n } (s.myCell.joins (wireOf s.cur.cell cluster)), ?_,
    mem_presentJoin _ _, fun h => presentJoin_last h⟩
  rw [present, finish_wait, State.me_setMyCell s (Cell.setJoins_ctxs _ _ _)]

/-- Settles O33: each of the three is a boundary instruction, whose own work is `present`. -/
theorem joinsPresent : Obligations.JoinsPresent := by
  unfold Obligations.JoinsPresent
  intro h s0 s row hw hl
  refine ⟨fun hg => ⟨fun sc => ?_, fun ta tb acc tda tdb => ?_⟩, fun cl => ?_⟩
  · have he : exec (.gang h sc) s0 = finish (present s .gang (sc == .cluster) (lenOf h false))
        fun s => (s.setMe (s.me.past (lenOf h false))).commit s.cur 3 := by
      simp only [exec, execGang, boundary_of_live _ _ hw hl]
      rw [if_neg (by simpa using hg)]
    rw [he]
    have hp := finish_present s .gang (sc == .cluster) (lenOf h false)
      fun s => (s.setMe (s.me.past (lenOf h false))).commit s.cur 3
    by_cases hc : sc = .cluster
    · simpa [hc, wireOf] using hp
    · simpa [hc, wireOf, row] using hp
  · intro o hacq
    have ho : o = finish (if s.myCell.mma.isSome || s.myCell.rowJoins.any (fun j => j.isMma none) then .wait .mmaTurn s
        else present (s.settle s.cur.cell) (.mma { ta, tb, acc, tda, tdb }) false (lenOf h false))
        fun s => (s.setMe (s.me.past (lenOf h false))).commit s.cur 3 := by
      simp only [o, exec, execMma, boundary_of_live _ _ hw hl]
      rw [if_neg (by simpa using hg), if_neg (by simpa using hacq)]
    rw [ho]
    refine ⟨fun hm hj => ?_, fun hm => ?_⟩
    · rw [if_neg (by simp [hm, hj])]
      have hp := finish_present (s.settle s.cur.cell) (.mma { ta, tb, acc, tda, tdb }) false (lenOf h false)
        fun s => (s.setMe (s.me.past (lenOf h false))).commit s.cur 3
      rwa [State.settle_cur] at hp
    · rw [if_pos (by simp [Option.isSome_iff_ne_none.2 hm])]
      rfl
  · cases hf : s0.follower s0.cur with
    | inl f =>
      have he : exec (.once cl) s0 = finish (present s .once cl (1 + f.2)) fun s => (s.setMe (s.me.past (1 + f.2))).commit s.cur 3 := by
        simp only [exec, execOnce, hf, boundary_of_live _ _ hw hl]
        rfl
      rw [he]
      exact finish_present s .once cl (1 + f.2) _
    | inr cause =>
      intro hc
      have he : exec (.once cl) s0 = finish (.trap { cause } s0) id := by simp only [exec, execOnce, hf]
      rw [he]
      exact finish_trap_other _ hc

end Sys2Proof.Machine
end

section
/-! SUPPORT. What the units beside the cells leave unchanged: fault records, the violation log, and the trace unit (R391, R417, R440). -/

namespace Sys2Proof.Machine

/-! ### Replacing an entry of a table -/

/-- Writing one key splits the table at its place: a new entry is put there, whatever is written, or the entry of the key is replaced. -/
theorem tset_split {α : Type} (t : Tbl α) (k : Nat) (d : α) :
    (∃ l r, t = l ++ r ∧ ∀ y, tset t k y = l ++ (k, y) :: r) ∨
    ∃ l r, t = l ++ (k, tget d t k) :: r ∧ ∀ y, tset t k y = l ++ (k, y) :: r := by
  induction t with
  | nil => exact .inl ⟨[], [], rfl, fun _ => rfl⟩
  | cons e t ih =>
    obtain ⟨j, z⟩ := e
    by_cases h1 : k < j
    · exact .inl ⟨[], (j, z) :: t, rfl, fun y => by simp [tset, h1]⟩
    · by_cases h2 : k = j
      · subst h2
        exact .inr ⟨[], t, by simp [tget], fun y => by simp [tset]⟩
      · have ht : ∀ y, tset ((j, z) :: t) k y = (j, z) :: tset t k y := fun y => by simp [tset, h1, h2]
        have hg : tget d ((j, z) :: t) k = tget d t k := by simp [tget, Ne.symm h2]
        obtain ⟨l, r, e1, e2⟩ | ⟨l, r, e1, e2⟩ := ih
        · exact .inl ⟨(j, z) :: l, r, by rw [e1]; rfl, fun y => by rw [ht, e2]; rfl⟩
        · refine .inr ⟨(j, z) :: l, r, ?_, fun y => by rw [ht, e2]; rfl⟩
          rw [hg]
          exact congrArg ((j, z) :: ·) e1

/-- Some value can be written at a key such that what is read of the entries in order does not change. -/
theorem exists_tset_flatMap {α β : Type} (f : α → List β) (d : α) (hd : f d = []) (t : Tbl α) (k : Nat) :
    ∃ x, (tset t k x).flatMap (fun e => f e.2) = t.flatMap fun e => f e.2 := by
  obtain ⟨l, r, e1, e2⟩ | ⟨l, r, e1, e2⟩ := tset_split t k d
  · exact ⟨d, by rw [e2, e1]; simp [hd]⟩
  · exact ⟨tget d t k, by rw [e2, ← e1]⟩

/-! ### The partition of a cell -/

/-- From s to t the partition of cell n is the same, but for the number of its next record and its free blocks. -/
structure SamePart (n : Nat) (s t : State) : Prop where
  partNo : t.partNo n = s.partNo n
  part : ∃ seq freeBlocks, t.part (s.partNo n) = { s.part (s.partNo n) with seq, freeBlocks }

theorem SamePart.of_parts {n : Nat} {s t : State} (h : t.parts = s.parts) : SamePart n s t := by
  have hp : ∀ k, t.part k = s.part k := fun k => by simp [State.part, h]
  exact ⟨by simp [State.partNo, State.partOf, State.clusterPart, h], _, _, hp _⟩

theorem SamePart.refl (n : Nat) (s : State) : SamePart n s s := .of_parts rfl

theorem SamePart.trans {n : Nat} {s t u : State} (h : SamePart n s t) (g : SamePart n t u) : SamePart n s u := by
  obtain ⟨hn, q, b, hp⟩ := h
  obtain ⟨gn, q', b', gp⟩ := g
  refine ⟨gn.trans hn, q', b', ?_⟩
  rw [hn, hp] at gp
  exact gp

section
variable {n : Nat} {s t : State} (h : SamePart n s t)
include h

theorem SamePart.clusters : (t.part (s.partNo n)).clusters = (s.part (s.partNo n)).clusters := by
  obtain ⟨-, q, b, hp⟩ := h
  rw [hp]

theorem SamePart.partAt : ∃ seq freeBlocks, t.partAt n = { s.partAt n with seq, freeBlocks } := by
  obtain ⟨hn, hp⟩ := h
  simpa [State.partAt, hn] using hp

theorem SamePart.endpOf (w : W64) : (t.partAt n).endpOf w = (s.partAt n).endpOf w := by
  obtain ⟨q, b, hp⟩ := h.partAt
  rw [hp]
  rfl

theorem SamePart.relOf : t.relOf n = s.relOf n := by
  obtain ⟨q, b, hp⟩ := h.partAt
  rw [State.relOf, hp]
  rfl

theorem SamePart.serverOf (hd : t.dies = s.dies) : t.serverOf (t.partNo n) = s.serverOf (s.partNo n) := by
  obtain ⟨hn, q, b, hp⟩ := h
  have hl : ∀ die lane, t.laneAt { s.part (s.partNo n) with seq := q, freeBlocks := b } die lane =
      s.laneAt (s.part (s.partNo n)) die lane := fun die lane => by
    simp only [State.laneAt, State.die, hd]
    rfl
  have hc : ∀ w, checkPlace t (s.partNo n) w false = checkPlace s (s.partNo n) w false := fun w => by
    simp only [checkPlace, hp, hl]
    rfl
  rw [hn]
  simp only [State.serverOf, hc, hp]
  rfl

end

/-- A value read from a table that a test picks is an entry's. -/
theorem find?_ne_none_of_tget {α : Type} {f : α → Bool} {d : α} (hd : f d = false) {t : Tbl α} {k : Nat} (h : f (tget d t k) = true) :
    t.find? (fun e => f e.2) ≠ none := by
  induction t with
  | nil => simp [hd] at h
  | cons e t ih =>
    obtain ⟨j, z⟩ := e
    by_cases hk : j = k
    · simp only [tget, hk, if_true] at h
      simp [h]
    · simp only [tget, hk, if_false] at h
      cases hz : f z with
      | true => simp [hz]
      | false => simpa [hz] using ih h

/-- The first entry that a test picks has the same key where an entry of that key, or one that no entry has passed, is written with a
value that passes the test as the one before. -/
theorem find?_tset_key {α : Type} {f : α → Bool} {d y : α} (hd : f d = false) {t : Tbl α} {k : Nat} (hy : f y = f (tget d t k))
    (h : (t.find? fun e => f e.2).map (·.1) = some k ∨ t.find? (fun e => f e.2) = none) :
    ((tset t k y).find? fun e => f e.2).map (·.1) = (t.find? fun e => f e.2).map (·.1) := by
  obtain ⟨l, r, e1, e2⟩ | ⟨l, r, e1, e2⟩ := tset_split t k d
  · rw [e2 y]
    cases hf : f y with
    | false => simp [e1, List.find?_append, hf]
    | true =>
      have hn := find?_ne_none_of_tget hd (hy.symm.trans hf)
      have hk : (t.find? fun e => f e.2).map (·.1) = some k := h.resolve_right hn
      rw [hk]
      cases hl : l.find? fun e => f e.2 with
      | none => simp [List.find?_append, hl, hf]
      | some z =>
        have ht : (t.find? fun e => f e.2) = some z := by simp [e1, List.find?_append, hl]
        simpa [List.find?_append, hl, ht] using hk
  · rw [e2 y]
    conv_rhs => rw [e1]
    cases hl : l.find? fun e => f e.2 with
    | none => cases hf : f y <;> simp [List.find?_append, hl, hf, ← hy]
    | some z => simp [List.find?_append, hl]

/-- A partition's entry is written, with the same clusters: its cell still belongs to it. -/
theorem SamePart.setPart (n : Nat) (s : State) (seq : W64) (freeBlocks : List Nat) :
    SamePart n s (s.setPart (s.partNo n) { s.part (s.partNo n) with seq, freeBlocks }) := by
  refine ⟨?_, seq, freeBlocks, by simp⟩
  simp only [State.partNo, State.partOf, State.clusterPart, State.setPart]
  refine congrArg (Option.getD · 0x3F) (find?_tset_key (f := fun p : Part => p.clusters.contains (n / 16)) (d := {}) rfl rfl ?_)
  cases hf : s.parts.find? fun x => x.2.clusters.contains (n / 16) with
  | none => exact .inr rfl
  | some z => exact .inl (by simp)

/-! ### The units beside the cells -/

/-- From s to t some unit beside the cells has worked for cell n: no cell has changed, its partition is the same, and messages have been sent. -/
structure Beside (n : Nat) (s t : State) : Prop where
  cells : t.cells = s.cells
  cur : t.cur = s.cur
  dies : t.dies = s.dies
  part : SamePart n s t
  net : ∃ l, t.net = s.net ++ l

theorem Beside.of_eqs {n : Nat} {s t : State} (hc : t.cells = s.cells) (hu : t.cur = s.cur) (hd : t.dies = s.dies)
    (hp : t.parts = s.parts) (hn : t.net = s.net) : Beside n s t :=
  ⟨hc, hu, hd, .of_parts hp, [], by simp [hn]⟩

theorem Beside.refl (n : Nat) (s : State) : Beside n s s := .of_eqs rfl rfl rfl rfl rfl

theorem Beside.trans {n : Nat} {s t u : State} (h : Beside n s t) (g : Beside n t u) : Beside n s u := by
  obtain ⟨hc, hu, hd, hp, l, hl⟩ := h
  obtain ⟨gc, gu, gd, gp, m, gl⟩ := g
  exact ⟨gc.trans hc, gu.trans hu, gd.trans hd, hp.trans gp, l ++ m, by rw [gl, hl, List.append_assoc]⟩

theorem Beside.ite {n : Nat} {s t u : State} {p : Prop} [Decidable p] (h : Beside n s t) (g : Beside n s u) :
    Beside n s (if p then t else u) := by
  split
  · exact h
  · exact g

theorem Beside.foldl {n : Nat} {α : Type} {f : State → α → State} (h : ∀ s a, Beside n s (f s a)) (l : List α) (s : State) :
    Beside n s (l.foldl f s) := by
  induction l generalizing s with
  | nil => exact .refl n s
  | cons a l ih => exact (h s a).trans (ih _)

theorem beside_post (n : Nat) (s : State) (m : Msg) : Beside n s (s.post m) := ⟨rfl, rfl, rfl, .of_parts rfl, [m], rfl⟩

theorem beside_report {n : Nat} {s : State} {pn : Nat} (h : pn = s.partNo n) (src : Endp) (r : Frec) :
    Beside n s (s.report pn src r) := by
  subst h
  refine Beside.trans ?_ (beside_post n _ _)
  exact .ite ⟨rfl, rfl, rfl, .setPart n s _ _, [], by simp [State.setPart]⟩ (.refl n s)

theorem beside_reportLimited {n : Nat} {s : State} {pn : Nat} (h : pn = s.partNo n) (src : Endp) (r : Frec) :
    Beside n s (s.reportLimited pn src r) := by
  unfold State.reportLimited
  refine .ite (.of_eqs rfl rfl rfl rfl rfl) ?_
  refine Beside.trans (t := { s with sentAt := tset s.sentAt (64 * (128 * src.code + r.cause.toNat) + pn) (s.tbc + 1),
                                     heldBack := tset s.heldBack (64 * (128 * src.code + r.cause.toNat) + pn) 0 })
    (.of_eqs rfl rfl rfl rfl rfl) (beside_report ?_ src _)
  exact h

theorem beside_logViolation (n : Nat) (s : State) (v : Violation) : Beside n s (s.logViolation v) :=
  .ite (.of_eqs rfl rfl rfl rfl rfl) (.of_eqs rfl rfl rfl rfl rfl)

theorem beside_written (n : Nat) (s : State) (pa k : Nat) : Beside n s (s.written pa k) :=
  .ite (.refl n s) (.of_eqs rfl rfl rfl rfl rfl)

theorem beside_hbmWrite (n : Nat) (s : State) (pa k v : Nat) : Beside n s (s.hbmWrite pa k v) :=
  Beside.trans (t := { s with mem := writeLE s.mem (hbmKey pa) k v }) (.of_eqs rfl rfl rfl rfl rfl) (beside_written n _ _ _)

theorem beside_hbmBytes (n : Nat) (s : State) (pa : Nat) (b : List Byte) : Beside n s (s.hbmBytes pa b) :=
  Beside.trans (t := { s with mem := writeBytes s.mem (hbmKey pa) b }) (.of_eqs rfl rfl rfl rfl rfl) (beside_written n _ _ _)

theorem beside_noteRel (n : Nat) (s : State) (key k : Nat) (r : Option RelDep) : Beside n s (s.noteRel key k r) :=
  .ite (.refl n s) (.of_eqs rfl rfl rfl rfl rfl)

theorem beside_traceLost (n : Nat) (s : State) (va : Nat) : Beside n s (s.traceLost n va) := by
  unfold State.traceLost
  split
  · exact (beside_logViolation n s _).trans (beside_report (beside_logViolation n s _).part.partNo.symm _ _)
  · exact beside_logViolation n s _
  · exact .refl n s

theorem beside_traceAll (n : Nat) (s : State) (l : List (Nat × W64)) : Beside n s (s.traceAll n l) := by
  unfold State.traceAll
  split
  · exact beside_traceLost n s _
  · refine .foldl (fun t y => ?_) l s
    split
    · exact (beside_hbmWrite n t _ _ _).trans (beside_noteRel n _ _ _ _)
    · exact .refl n t

end Sys2Proof.Machine
end

section
/-! SUPPORT. The trace unit (R440): what it reads of its cell, what it leaves, and a record among other writes of the issuing context. -/

namespace Sys2Proof.Machine
open Sys2Proof.Claims

/-! ### What contexts and the partition of a cell keep -/

/-- From s to t no context has changed, and cell n has the same partition and drops the same jobs. -/
structure Kept (n : Nat) (s t : State) : Prop where
  ctx : ∀ w, t.ctx w = s.ctx w
  cur : t.cur = s.cur
  dies : t.dies = s.dies
  part : SamePart n s t
  dropping : (t.cell n).dropping = (s.cell n).dropping

theorem Kept.refl (n : Nat) (s : State) : Kept n s s := ⟨fun _ => rfl, rfl, rfl, .refl n s, rfl⟩

theorem Kept.trans {n : Nat} {s t u : State} (h : Kept n s t) (g : Kept n t u) : Kept n s u :=
  ⟨fun w => (g.ctx w).trans (h.ctx w), g.cur.trans h.cur, g.dies.trans h.dies, h.part.trans g.part, g.dropping.trans h.dropping⟩

theorem Kept.ite {n : Nat} {s t u : State} {p : Prop} [Decidable p] (h : Kept n s t) (g : Kept n s u) : Kept n s (if p then t else u) := by
  split
  · exact h
  · exact g

theorem Kept.foldl {n : Nat} {α : Type} {f : State → α → State} (h : ∀ s a, Kept n s (f s a)) (l : List α) (s : State) :
    Kept n s (l.foldl f s) := by
  induction l generalizing s with
  | nil => exact .refl n s
  | cons a l ih => exact (h s a).trans (ih _)

theorem State.cell_of_cells {s t : State} (h : t.cells = s.cells) (n : Nat) : t.cell n = s.cell n := by
  rw [State.cell, State.cell, h]

theorem Beside.kept {n : Nat} {s t : State} (h : Beside n s t) : Kept n s t :=
  ⟨fun w => by rw [State.ctx, State.ctx, State.cell_of_cells h.cells], h.cur, h.dies, h.part, by rw [State.cell_of_cells h.cells]⟩

theorem State.ctx_setCell (s : State) {m : Nat} {c : Cell} (hc : c.ctxs = (s.cell m).ctxs) (w : Who) : (s.setCell m c).ctx w = s.ctx w := by
  by_cases h : w.cell = m
  · simp [State.ctx, h, Cell.ctx, hc]
  · simp [State.ctx, h]

theorem kept_setCell (n : Nat) (s : State) {m : Nat} {c : Cell} (hc : c.ctxs = (s.cell m).ctxs) (hd : c.dropping = (s.cell m).dropping) :
    Kept n s (s.setCell m c) := by
  refine ⟨State.ctx_setCell s hc, rfl, rfl, .of_parts rfl, ?_⟩
  by_cases h : n = m
  · simp [h, hd]
  · simp [h]

/-! ### What the trace unit reads of its cell -/

/-- Two values of a cell that its trace unit does not tell apart. -/
structure TraceAlike (c c' : Cell) : Prop where
  trace : c'.trace = c.trace
  tlb : c'.tlb = c.tlb
  casid : c'.casid = c.casid
  cyc : c'.cyc = c.cyc
  cycOff : c'.cycOff = c.cycOff
  msgId : c'.msgId = c.msgId
  liveIds : c'.liveIds = c.liveIds

theorem walk_setCell (s : State) (n : Nat) (c : Cell) (pn : Nat) (asid : BitVec 12) (va : Nat) (k : AccKind) (l : List WalkEntry) :
    (s.setCell n c).walk pn asid va k l = s.walk pn asid va k l := rfl

theorem logViolation_setCell (s : State) (n : Nat) (c : Cell) (v : Violation) :
    (s.setCell n c).logViolation v = (s.logViolation v).setCell n c := by
  by_cases h : s.violations.length < 1024
  · rw [State.logViolation, State.logViolation, if_pos h, if_pos (show (s.setCell n c).violations.length < 1024 from h)]
    rfl
  · rw [State.logViolation, State.logViolation, if_neg h, if_neg (show ¬ (s.setCell n c).violations.length < 1024 from h)]
    rfl

theorem report_setCell (s : State) (n : Nat) (c : Cell) (pn : Nat) (src : Endp) (r : Frec) :
    (s.setCell n c).report pn src r = (s.report pn src r).setCell n c := by
  cases h : serverKind (s.part pn).faultSrv == 3 <;> simp only [State.report, State.part_setCell, h] <;> rfl

/-- A write of the trace unit noted, which reads no cell. -/
theorem writeNoted_setCell (s : State) (n : Nat) (c : Cell) (pa v : Nat) :
    ((s.setCell n c).hbmWrite pa 8 v).noteRel (hbmKey pa) 8 none = ((s.hbmWrite pa 8 v).noteRel (hbmKey pa) 8 none).setCell n c := by
  have hw : (s.setCell n c).hbmWrite pa 8 v = (s.hbmWrite pa 8 v).setCell n c := by
    cases h : s.clusters.all fun c => c.2.poisoned.isEmpty <;>
      simp only [State.hbmWrite, State.written, State.setCell_clusters, h] <;> rfl
  rw [hw]
  cases h : (s.hbmWrite pa 8 v).relDeps.isEmpty <;> simp only [State.noteRel, State.setCell_relDeps, h] <;> rfl

section
variable {s : State} {n : Nat} {c : Cell} (h : TraceAlike (s.cell n) c)
include h

theorem tracePa_setCell (va : Nat) : (s.setCell n c).tracePa n va = s.tracePa n va := by
  simp only [State.tracePa, translateVa, State.cell_setCell, Cell.tlbHit, h.tlb, h.casid, walk_setCell]
  rfl

theorem traceOk_setCell (va : Nat) : (s.setCell n c).traceOk n va = s.traceOk n va := by
  simp only [State.traceOk, tracePa_setCell h]
  rfl

theorem recAt_setCell (pn : Nat) (cause : BitVec 7) (src : BitVec 2) :
    (s.setCell n c).recAt pn (some n) cause src = s.recAt pn (some n) cause src := by
  simp only [State.recAt, State.cell_setCell, Cell.idleId, h.liveIds, h.msgId]
  rfl

theorem traceLost_setCell (va : Nat) : (s.setCell n c).traceLost n va = (s.traceLost n va).setCell n c := by
  simp only [State.traceLost, tracePa_setCell h, recAt_setCell h]
  split
  · rw [← report_setCell, State.logAway, State.logAway, ← logViolation_setCell]
    rfl
  · rw [State.logAway, State.logAway, ← logViolation_setCell]
    rfl
  · rfl

theorem traceAll_setCell (l : List (Nat × W64)) : (s.setCell n c).traceAll n l = (s.traceAll n l).setCell n c := by
  simp only [State.traceAll, traceOk_setCell h]
  split
  · exact traceLost_setCell h _
  · clear * - h
    induction l generalizing s with
    | nil => rfl
    | cons y l ih =>
      simp only [List.foldl_cons, traceOk_setCell h]
      cases hk : s.traceOk n y.1 with
      | none => exact ih h
      | some pa =>
        have hb := (beside_hbmWrite n s pa 8 y.2.toNat).trans (beside_noteRel n _ (hbmKey pa) 8 none)
        exact (congrArg (List.foldl _ · l) (writeNoted_setCell s n c pa y.2.toNat)).trans
          (ih (by rwa [State.cell_of_cells hb.cells]))

end

/-! ### A trace record as writes (R440) -/

/-- The doublewords of a record of context k. -/
def Cell.traceWords (c : Cell) (k type : Nat) (pc : PC) (rest : List W64) : List W64 :=
  (BitVec.ofNat 4 type ++ BitVec.ofNat 3 k ++ BitVec.ofBool (!rest.isEmpty) ++ pc ++ BitVec.ofNat 42 (c.cyc + c.cycOff)) :: rest

/-- The buffer behind n further doublewords. -/
def Trace.behind (t : Trace) (n : Nat) : Trace := { t with wr := t.wr + 8 * n }

/-- Where the doublewords of a record go. -/
def Trace.ring (t : Trace) (l : List W64) : List (Nat × W64) :=
  (number 0 l).map fun y => (t.va.toNat + 64 + (t.wr + 8 * y.1) % (t.bytes - 64), y.2)

/-- The write of WRPTR behind them, where they complete 64 bytes. -/
def Trace.head (t : Trace) (n : Nat) : List (Nat × W64) :=
  if (t.behind n).wr / 64 != t.wr / 64 then [(t.va.toNat, BitVec.ofNat 64 (t.behind n).wr)] else []

/-- Whether the unit leaves records of a type out. -/
def Trace.omits (t : Trace) (type : Nat) : Bool := t.bytes == 0 || !t.mask.getLsbD (type - 1)

theorem trace_eq_writes (s : State) (w : Who) (type : Nat) (pc : PC) (rest : List W64) :
    s.trace w type pc rest =
      if (s.cell w.cell).trace.omits type then s
      else
        let t := (s.cell w.cell).trace
        let l := (s.cell w.cell).traceWords w.ctx type pc rest
        let u := (s.traceAll w.cell (t.ring l)).traceAll w.cell (t.head l.length)
        u.setCell w.cell { u.cell w.cell with trace := t.behind l.length } := by
  by_cases h0 : (s.cell w.cell).trace.omits type
  · rw [if_pos h0]
    exact if_pos h0
  · rw [if_neg h0]
    refine (if_neg h0).trans ?_
    have hh : ∀ (u : State) (t : Trace) (n : Nat),
        (if (t.behind n).wr / 64 != t.wr / 64 then u.traceAll w.cell [(t.va.toNat, BitVec.ofNat 64 (t.behind n).wr)] else u) =
          u.traceAll w.cell (t.head n) := fun u t n => by
      simp only [Trace.head]
      split <;> rfl
    exact congrArg (fun u : State => u.setCell w.cell { u.cell w.cell with trace := (s.cell w.cell).trace.behind _ }) (hh _ _ _)

theorem trace_setCell {s : State} {n : Nat} {c : Cell} (h : TraceAlike (s.cell n) c) (k type : Nat) (pc : PC) (rest : List W64) :
    (s.setCell n c).trace ⟨n, k⟩ type pc rest =
      (s.trace ⟨n, k⟩ type pc rest).setCell n { c with trace := ((s.trace ⟨n, k⟩ type pc rest).cell n).trace } := by
  have hw : c.traceWords k type pc rest = (s.cell n).traceWords k type pc rest := by simp only [Cell.traceWords, h.cyc, h.cycOff]
  have h1 : ∀ l, TraceAlike ((s.traceAll n l).cell n) c := fun l => by rwa [State.cell_of_cells (beside_traceAll n s l).cells]
  rw [trace_eq_writes, trace_eq_writes]
  simp only [State.cell_setCell, h.trace, hw, traceAll_setCell h, traceAll_setCell (h1 _)]
  split
  · rw [← h.trace]
  · simp

/-! ### What the trace unit leaves -/

/-- A trace record changes the trace unit's own place in its buffer, and nothing else of any cell. -/
theorem trace_cases (s : State) (w : Who) (type : Nat) (pc : PC) (rest : List W64) :
    s.trace w type pc rest = s ∨
    (s.cell w.cell).trace.bytes ≠ 0 ∧ ∃ t tr, Beside w.cell s t ∧
      s.trace w type pc rest = t.setCell w.cell { s.cell w.cell with trace := tr } := by
  rw [trace_eq_writes]
  by_cases h0 : (s.cell w.cell).trace.omits type
  · exact .inl (if_pos h0)
  · rw [if_neg h0]
    let t := (s.cell w.cell).trace
    let l := (s.cell w.cell).traceWords w.ctx type pc rest
    have hb := (beside_traceAll w.cell s (t.ring l)).trans (beside_traceAll w.cell _ (t.head l.length))
    refine .inr ⟨fun e => h0 (by simp [Trace.omits, e]), _, t.behind l.length, hb, ?_⟩
    exact congrArg (fun c : Cell => State.setCell _ w.cell { c with trace := t.behind l.length }) (State.cell_of_cells hb.cells w.cell)

theorem trace_cell (s : State) (w : Who) (type : Nat) (pc : PC) (rest : List W64) :
    (s.trace w type pc rest).cell w.cell = { s.cell w.cell with trace := ((s.trace w type pc rest).cell w.cell).trace } := by
  obtain h | ⟨-, t, tr, -, h⟩ := trace_cases s w type pc rest
  · rw [h]
  · rw [h, State.cell_setCell]

theorem trace_eq_self {s : State} {w : Who} (h : (s.cell w.cell).trace.bytes = 0) (type : Nat) (pc : PC) (rest : List W64) :
    s.trace w type pc rest = s := by
  simp [State.trace, h]

theorem kept_trace (s : State) (w : Who) (type : Nat) (pc : PC) (rest : List W64) : Kept w.cell s (s.trace w type pc rest) := by
  obtain h | ⟨-, t, tr, hb, h⟩ := trace_cases s w type pc rest
  · rw [h]
    exact .refl _ s
  · rw [h]
    have hc := State.cell_of_cells hb.cells w.cell
    exact hb.kept.trans (kept_setCell _ t (by rw [hc]) (by rw [hc]))

theorem trace_net (s : State) (w : Who) (type : Nat) (pc : PC) (rest : List W64) :
    ∃ l, ((s.cell w.cell).trace.bytes = 0 → l = []) ∧ (s.trace w type pc rest).net = s.net ++ l := by
  obtain h | ⟨h0, t, tr, hb, h⟩ := trace_cases s w type pc rest
  · exact ⟨[], fun _ => rfl, by rw [h]; simp⟩
  · obtain ⟨l, hl⟩ := hb.net
    exact ⟨l, fun e => absurd e h0, by rw [h]; exact hl⟩

/-! ### A trace record among other writes of the issuing context -/

/-- Some value of a context leaves its cell as the trace unit sees it: the one it has, or where it is not listed, the reset value. -/
theorem exists_setCtx_traceAlike (c : Cell) (k : Nat) : ∃ x, TraceAlike c (c.setCtx k x) := by
  obtain ⟨x, hx⟩ := exists_tset_flatMap (fun x : Ctx => x.hdrs.map (fun h => h.2.msgId) ++ x.trigger.map (·.id)) {} rfl c.ctxs k
  refine ⟨x, rfl, rfl, rfl, rfl, rfl, rfl, ?_⟩
  have h : (((c.setCtx k x).ctxs.map (·.2)).flatMap fun x => x.hdrs.map (fun h => h.2.msgId) ++ x.trigger.map (·.id)) =
      (c.ctxs.map (·.2)).flatMap fun x => x.hdrs.map (fun h => h.2.msgId) ++ x.trigger.map (·.id) := by
    rw [List.flatMap_map, List.flatMap_map]
    exact hx
  simp only [Cell.liveIds, List.flatMap_append, h]
  rfl

/-- A trace record of the issuing context, after which it is written. -/
theorem traced_setMe (s : State) (type : Nat) (pc : PC) (rest : List W64) (y : Ctx) :
    Traced s ((s.trace s.cur type pc rest).setMe y) := by
  have hcur : (s.trace s.cur type pc rest).cur = s.cur := (kept_trace s s.cur type pc rest).cur
  have hme : ((s.trace s.cur type pc rest).setMe y).me = y := State.me_setMe _ _
  refine ⟨?_, fun h0 => ?_⟩
  · obtain ⟨x, hx⟩ := exists_setCtx_traceAlike s.myCell s.cur.ctx
    refine ⟨x, [(type, pc, rest)], ?_⟩
    have ht : (s.setMe x).trace s.cur type pc rest = _ := trace_setCell hx s.cur.ctx type pc rest
    rw [hme, List.foldl_cons, List.foldl_nil, State.setMe_cur, ht]
    have hc : ∀ (u : State), u.cur = s.cur → u.cell s.cur.cell = { s.myCell with trace := (u.cell s.cur.cell).trace } →
        u.setMe y = (u.setCell s.cur.cell { s.myCell.setCtx s.cur.ctx x with trace := (u.cell s.cur.cell).trace }).setMe y := by
      intro u hu he
      simp only [State.setMe, State.setCtx, State.setCell_cur, hu, State.cell_setCell, State.setCell_setCell]
      conv_lhs => rw [he]
      simp [Cell.setCtx]
    exact hc _ hcur (trace_cell s s.cur type pc rest)
  · rw [trace_eq_self h0]
    exact onlyIssuer_setMe s y

end Sys2Proof.Machine
end

section
/-! Far branches, EXIT and FORK (O24, O25, O26). -/

namespace Sys2Proof.Machine
open Sys2Proof.Claims

/-! ### Sends held -/

theorem map_snd_number {α : Type} (n : Nat) (l : List α) : (number n l).map (·.2) = l := by
  induction l generalizing n with
  | nil => rfl
  | cons a l ih => simp [number, ih]

/-- Sends held stand behind those held before, and keep their bodies. -/
theorem hold_held (x : Ctx) (l : List Send) : ∃ new, (x.hold l).held = x.held ++ new ∧ new.map (·.body) = l.map (·.body) := by
  refine ⟨_, rfl, ?_⟩
  conv_rhs => rw [← map_snd_number 0 l]
  simp [Function.comp_def]

theorem withRoomOf_fits {s : State} {need : State → Nat × Nat} (h : s.me.fits (need s).1 (need s).2 = true) (k : State → Res) :
    withRoomOf s need k = k s := if_pos h

theorem withRoom_fits {s : State} {bytes recs : Nat} (h : s.me.fits bytes recs = true) (k : State → Res) :
    withRoom s bytes recs k = k s := withRoomOf_fits h k

/-! ### Lanes that end (R39, R137) -/

theorem lanesEnded_done (n : Nat) (u : State) : lanesEnded n (.done u) = .next (afterLanes n u) := by
  have hme : (u.setMe { u.me with lastPc := u.me.r.pc }).ctx u.cur = { u.me with lastPc := u.me.r.pc } := State.ctx_setCtx _ _ _
  by_cases h : u.me.r.live = 0
  · have h' : (({ u.me with lastPc := u.me.r.pc } : Ctx).r.live != 0) = false := by simp [h]
    simp only [lanesEnded, finish_done, afterLanes, State.endIfDone, hme, h', beq_iff_eq.2 h, if_true, if_neg (not_not.2 h),
      Bool.false_eq_true, if_false, State.me_setMe]
    rfl
  · have h' : (u.me.r.live == 0) = false := beq_eq_false_iff_ne.2 h
    simp only [lanesEnded, finish_done, afterLanes, h', if_pos h, Bool.false_eq_true, if_false]

theorem lanesEnded_trap {s : State} {t : Trap} (n : Nat) (h : t.cause ≠ causePartitionViolation) :
    lanesEnded n (.trap t s) = .next (s.takeTrap s.cur t) := finish_trap_other _ h

/-- With no lane ended, the instruction passes. -/
theorem lanesEnded_none {s : State} (n : Nat) (h : s.me.r.live ≠ 0) :
    Completes s n (lanesEnded n (.done s)) fun y => RegsOnly s.me y [] [] [] [] := by
  have he : lanesEnded n (.done s) = finishLen n (.done s) := by
    rw [lanesEnded_done, finishLen_done, afterLanes, if_pos h]
  rw [he]
  exact completes_done (regsOnly_past _ _ _ _ _ _)

theorem lanesEnd_endLanes {x y : Ctx} (m : W32) (h : y = { x with held := y.held }) : LanesEnd x (y.endLanes m) m := by
  rw [h]
  rfl

/-- A record of a far transfer leaves the issuing context and its partition. -/
theorem kept_traceFar (s : State) (kind : BitVec 3) (dest : Option W64) (act : W32) : Kept s.cur.cell s (s.traceFar kind dest act) :=
  kept_trace s s.cur _ _ _

theorem Kept.me {n : Nat} {s t : State} (h : Kept n s t) : t.me = s.me := by
  rw [State.me, h.cur, h.ctx]
  rfl

/-! ### Far branches (R201) -/

/-- A place word fails its checks with one of two causes (R28). -/
theorem checkPlace_cause {s : State} {pn : Nat} {w : W64} {b : Bool} {c : BitVec 7} (h : checkPlace s pn w b = some c) :
    c = causePlaceInvalid ∨ c = causePoolLane := by
  simp only [checkPlace] at h
  split_ifs at h <;> simp_all

/-- Each far branch is one operation with its own place and return stack. -/
theorem exec_far {i : Instr} {k : FarRule} (h : farRule i = some k) : ∃ f : Far, ∀ s,
    exec i s = farBranch s k.head f k.words k.live (k.place s) ∧ (f == .rfar) = k.pops ∧
    ∀ L, f.rets (s.returnPlace k.words) (s.me.hdr L).rets = k.rets s L := by
  unfold farRule at h
  split at h
  · cases h
    exact ⟨.jfar, fun s => ⟨rfl, rfl, fun L => rfl⟩⟩
  · cases h
    exact ⟨.cfar, fun s => ⟨rfl, rfl, fun L => rfl⟩⟩
  · cases h
    exact ⟨.rfar, fun s => ⟨rfl, rfl, fun L => rfl⟩⟩
  · cases h
    exact ⟨.yield, fun s => ⟨rfl, rfl, fun L => rfl⟩⟩
  · cases h

/-- The trap of a far branch is that of the first lane that fails. -/
theorem farTrap_eq {s : State} {k : FarRule} {f : Far} (hf : (f == .rfar) = k.pops) (l : List Nat) :
    farTrap s f (k.place s) l = (l.findSome? (farFails s k)).map fun cause => { cause } := by
  induction l with
  | nil => rfl
  | cons L ls ih =>
    simp only [farTrap, hf, List.findSome?_cons, farFails, ih]
    split
    · rfl
    · cases checkPlace s (s.partNo s.cur.cell) (k.place s L) false <;> rfl

theorem farFails_cause {s : State} {k : FarRule} {L : Nat} {c : BitVec 7} (h : farFails s k L = some c) : c ≠ causePartitionViolation := by
  unfold farFails at h
  split at h
  · cases h
    decide
  · obtain rfl | rfl := checkPlace_cause h <;> decide

/-- The strand of a lane reads nothing that a trace record changes. -/
theorem farStrand_kept {s t : State} (h : Kept s.cur.cell s t) (f : Far) (ret place : W64) (live : W32) (L : Nat) :
    t.farStrand f ret place live L = s.farStrand f ret place live L := by
  simp only [State.farStrand, h.me, h.cur, h.part.relOf, h.part.partNo]

theorem farStrand_eq {s : State} {k : FarRule} {f : Far} {L : Nat}
    (h : f.rets (s.returnPlace k.words) (s.me.hdr L).rets = k.rets s L) :
    s.farStrand f (s.returnPlace k.words) (k.place s L) k.live L = strandOf s k L := by
  rw [State.farStrand, h]
  rfl

theorem lanes_pairwise (m : W32) : (lanes m).Pairwise (· < ·) := (List.pairwise_lt_range).filter _

theorem lanes_eq_nil {m : W32} : lanes m = [] ↔ m = 0 := by
  refine ⟨fun h => BitVec.eq_of_getLsbD_eq fun i hi => ?_, fun h => by simp [h, lanes]⟩
  have hm := List.filter_eq_nil_iff.1 h i (List.mem_range.2 hi)
  simpa using hm

/-! The branches of the operation. -/

/-- The sends of a far branch: increments for the jobs of lanes that are not counted, and behind them a strand for each lane (R375). -/
def State.farSends (s : State) (f : Far) (ret : W64) (live : W32) (place : Nat → W64) (incs : List (W32 × Nat)) (l : List Nat) : List Send :=
  (incs.map fun j => ({ bytes := 16, body := .incr j.1 j.2 } : Send)) ++
    l.map fun L => { bytes := strandSpace live
                     body := .strand (s.farStrand f ret (place L) live L) (!(s.me.hdr L).counted) }

section
variable {s : State} {h : Head} (f : Far) (n : Nat) {live : W32} {place : Nat → W64}

theorem farBranch_idle (ha : s.me.active h = 0) : farBranch s h f n live place = lanesEnded n (.done s) := by
  simp [farBranch, ha]

theorem farBranch_liveSet (ha : s.me.active h ≠ 0) (hp : 16 < popCount live) :
    farBranch s h f n live place = lanesEnded n (.trap { cause := causeLiveSet } s) := by
  simp only [farBranch, beq_eq_false_iff_ne.2 ha, Bool.false_eq_true, if_false, if_pos hp]

theorem farBranch_trap {t : Trap} (ha : s.me.active h ≠ 0) (hp : popCount live ≤ 16)
    (ht : farTrap s f place (lanes (s.me.active h)) = some t) : farBranch s h f n live place = lanesEnded n (.trap t s) := by
  have ht' : farTrap s f place (lanesOf (s.me.active h)) = some t := ht
  simp only [farBranch, beq_eq_false_iff_ne.2 ha, Bool.false_eq_true, if_false, if_neg (Nat.not_lt.2 hp), ht']

theorem farBranch_go (ha : s.me.active h ≠ 0) (hp : popCount live ≤ 16) (ht : farTrap s f place (lanes (s.me.active h)) = none)
    (hfit : s.me.fits (strandSpace live * (lanes (s.me.active h)).length +
      16 * (countJobs (((lanes (s.me.active h)).filter fun L => !(s.me.hdr L).counted).map fun L => (s.me.hdr L).job)).length) 0 = true) :
    let act := s.me.active h
    let incs := countJobs (((lanes act).filter fun L => !(s.me.hdr L).counted).map fun L => (s.me.hdr L).job)
    let u := s.traceFar f.code ((lanes act).head?.map place) act
    farBranch s h f n live place =
      .next (afterLanes n (u.setMe ((u.me.hold (u.farSends f (s.returnPlace n) live place incs (lanes act))).endLanes act))) := by
  have ht' : farTrap s f place (lanesOf (s.me.active h)) = none := ht
  simp only [farBranch, beq_eq_false_iff_ne.2 ha, Bool.false_eq_true, if_false, if_neg (Nat.not_lt.2 hp), ht']
  exact (congrArg (lanesEnded n) (withRoom_fits hfit _)).trans (lanesEnded_done n _)
end

/-- In a list of rising numbers, the first that a partial function maps is the one below which it maps none. -/
theorem findSome?_of_first {β : Type} {g : Nat → Option β} {l : List Nat} (hl : l.Pairwise (· < ·)) {L : Nat} {b : β} (hL : L ∈ l)
    (hn : ∀ j ∈ l, j < L → g j = none) (hb : g L = some b) : l.findSome? g = some b := by
  obtain ⟨l1, l2, rfl⟩ := List.append_of_mem hL
  rw [List.findSome?_append, List.findSome?_cons, hb]
  have h1 : l1.findSome? g = none := by
    rw [List.findSome?_eq_none_iff]
    intro j hj
    exact hn j (by simp [hj]) ((List.pairwise_append.1 hl).2.2 j hj L List.mem_cons_self)
  rw [h1]
  rfl

/-- Settles O24: a far branch traps at its first failing lane, and otherwise holds its strands and ends its lanes. -/
theorem farBranches : Obligations.FarBranches := by
  unfold Obligations.FarBranches
  intro i k s hk act jobs
  obtain ⟨f, hf⟩ := exec_far hk
  obtain ⟨he, hpop, hrets⟩ := hf s
  rw [he]
  refine ⟨fun ha hl => ?_, fun ha hp => ?_, fun L hL cause hp hbefore hcause => ?_, fun ha hp hgood hfit => ?_⟩
  · rw [farBranch_idle f _ ha]
    exact lanesEnded_none _ hl
  · rw [farBranch_liveSet f _ ha hp]
    exact lanesEnded_trap _ (show causeLiveSet ≠ causePartitionViolation by decide)
  · have ha : act ≠ 0 := fun e => by simp [lanes_eq_nil.2 e] at hL
    have ht : farTrap s f (k.place s) (lanes act) = some { cause } := by
      rw [farTrap_eq hpop, findSome?_of_first (lanes_pairwise act) hL hbefore hcause]
      rfl
    rw [farBranch_trap f _ ha hp ht]
    exact lanesEnded_trap _ (show cause ≠ causePartitionViolation from farFails_cause hcause)
  · have ht : farTrap s f (k.place s) (lanes act) = none := by
      rw [farTrap_eq hpop, List.findSome?_eq_none_iff.2 hgood]
      rfl
    rw [farBranch_go f _ ha hp ht hfit]
    have hkept := kept_traceFar s f.code ((lanes act).head?.map (k.place s)) act
    refine ⟨_, rfl, traced_setMe s _ _ _ _, ?_, ?_⟩
    · rw [State.me_setMe, hkept.me]
      exact lanesEnd_endLanes act rfl
    · rw [State.me_setMe, hkept.me, Ctx.endLanes_held]
      obtain ⟨new, h1, h2⟩ := hold_held s.me ((s.traceFar f.code ((lanes act).head?.map (k.place s)) act).farSends f
        (s.returnPlace k.words) k.live (k.place s) jobs (lanes act))
      refine ⟨new, h1, h2.trans ?_⟩
      simp only [State.farSends, List.map_append, List.map_map]
      congr 1
      refine List.map_congr_left fun L _ => ?_
      simp only [Function.comp, farStrand_kept hkept, hkept.me, farStrand_eq (hrets L)]

/-! ### EXIT (R203) -/

/-- The jobs of a list, each once, with how often it stands there. -/
theorem countJobs_spec (l : List W32) :
    ((countJobs l).map (·.1)).Nodup ∧ (∀ j, j ∈ (countJobs l).map (·.1) ↔ j ∈ l) ∧ ∀ y ∈ countJobs l, y.2 = l.count y.1 := by
  induction l with
  | nil => simp [countJobs]
  | cons j js ih =>
    obtain ⟨hd, hm, hc⟩ := ih
    simp only [countJobs]
    split
    · rename_i z hz
      have hj : j ∈ js := by
        rw [← hm]
        have h1 := List.find?_some hz
        exact List.mem_map.2 ⟨z, List.mem_of_find?_eq_some hz, by simpa using h1⟩
      have hk : ((countJobs js).map fun x => if x.1 == j then (x.1, x.2 + 1) else x).map (·.1) = (countJobs js).map (·.1) := by
        rw [List.map_map]
        refine List.map_congr_left fun y _ => ?_
        simp only [Function.comp]
        split <;> rfl
      refine ⟨hk ▸ hd, fun i => ?_, fun y hy => ?_⟩
      · rw [hk, hm]
        constructor
        · exact List.mem_cons_of_mem _
        · intro h
          obtain rfl | h := List.mem_cons.1 h
          · exact hj
          · exact h
      · obtain ⟨x, hx, rfl⟩ := List.mem_map.1 hy
        have hxc := hc x hx
        by_cases e : x.1 = j
        · subst e
          simp [hxc]
        · simp [e, hxc, Ne.symm e]
    · rename_i hz
      have hj : j ∉ js := by
        rw [← hm]
        intro h
        obtain ⟨y, hy, e⟩ := List.mem_map.1 h
        exact absurd (List.find?_eq_none.1 hz y hy) (by simp [e])
      refine ⟨?_, fun i => ?_, fun y hy => ?_⟩
      · exact List.nodup_cons.2 ⟨fun h => hj ((hm j).1 h), hd⟩
      · simp [hm]
      · obtain rfl | hy := List.mem_cons.1 hy
        · simp [List.count_eq_zero_of_not_mem hj]
        · have hne : j ≠ y.1 := fun e => hj ((hm j).1 (List.mem_map.2 ⟨y, hy, e.symm⟩))
          simp [hc y hy, hne]

theorem heldDecr_eq (x : Ctx) (j : W32) : x.heldDecr j = (decrements x.held j).sum := by
  unfold Ctx.heldDecr decrements
  induction x.held with
  | nil => rfl
  | cons sd l ih =>
    rw [List.map_cons, List.sum_cons, ih, List.filterMap_cons]
    cases sd.body with
    | decr k n => by_cases h : k = j <;> simp [h]
    | _ => simp

theorem decrements_append (l m : List Send) (j : W32) : decrements (l ++ m) j = decrements l j ++ decrements m j :=
  List.filterMap_append

/-- Whether a send is another than a decrement of a job. -/
def Send.spares (job : W32) (sd : Send) : Bool :=
  match sd.body with
  | .decr k _ => k != job
  | _ => true

theorem filter_spares_isDecr (l : List Send) (job : W32) :
    (l.filter (·.spares job)).filter (fun sd => !isDecr sd) = l.filter (fun sd => !isDecr sd) := by
  rw [List.filter_filter]
  refine List.filter_congr fun sd _ => ?_
  unfold isDecr Send.spares
  cases sd.body <;> simp

theorem decrements_filter_spares (l : List Send) (job j : W32) :
    decrements (l.filter (·.spares job)) j = if j = job then [] else decrements l j := by
  unfold decrements
  rw [List.filterMap_filter]
  split
  · rename_i hj
    rw [List.filterMap_eq_nil_iff]
    intro sd _
    unfold Send.spares
    cases sd.body <;> simp [hj]
  · rename_i hj
    congr 1
    funext sd
    unfold Send.spares
    cases sd.body with
    | decr k n =>
      by_cases hk : k = job
      · simp [hk, Ne.symm hj]
      · simp [hk]
    | _ => rfl

/-- One decrement moved behind the others: its job has that one alone, and no other send changes. -/
theorem holdDecr_held (x : Ctx) (y : W32 × Nat) :
    (x.holdDecr y).held.filter (fun sd => !isDecr sd) = x.held.filter (fun sd => !isDecr sd) ∧
    ∀ j, decrements (x.holdDecr y).held j = if j = y.1 then [y.2 + (decrements x.held j).sum] else decrements x.held j := by
  obtain ⟨new, h1, h2⟩ := hold_held { x with held := x.held.filter (·.spares y.1) }
    [{ bytes := 16, body := .decr y.1 (y.2 + x.heldDecr y.1) }]
  have hx : (x.holdDecr y).held = x.held.filter (·.spares y.1) ++ new := h1
  obtain ⟨sd, rfl, hsd⟩ : ∃ sd, new = [sd] ∧ sd.body = .decr y.1 (y.2 + x.heldDecr y.1) := List.map_eq_singleton_iff.1 h2
  have hd : isDecr sd = true := by simp [isDecr, hsd]
  rw [hx]
  refine ⟨?_, fun j => ?_⟩
  · rw [List.filter_append, filter_spares_isDecr, List.filter_singleton, hd]
    simp
  · rw [decrements_append, decrements_filter_spares]
    by_cases hj : j = y.1
    · subst hj
      simp [decrements, hsd, heldDecr_eq]
    · simp [decrements, hsd, hj, Ne.symm hj]

theorem foldl_holdDecr_eq (l : List (W32 × Nat)) (x : Ctx) : l.foldl Ctx.holdDecr x = { x with held := (l.foldl Ctx.holdDecr x).held } := by
  induction l generalizing x with
  | nil => rfl
  | cons y l ih => exact ih (x.holdDecr y)

theorem foldl_holdDecr_held (l : List (W32 × Nat)) (hl : (l.map (·.1)).Nodup) (x : Ctx) :
    (l.foldl Ctx.holdDecr x).held.filter (fun sd => !isDecr sd) = x.held.filter (fun sd => !isDecr sd) ∧
    (∀ j, j ∉ l.map (·.1) → decrements (l.foldl Ctx.holdDecr x).held j = decrements x.held j) ∧
    ∀ y ∈ l, decrements (l.foldl Ctx.holdDecr x).held y.1 = [y.2 + (decrements x.held y.1).sum] := by
  induction l generalizing x with
  | nil => simp
  | cons z l ih =>
    obtain ⟨hz, hl⟩ := List.nodup_cons.1 hl
    obtain ⟨h1, h2, h3⟩ := ih hl (x.holdDecr z)
    obtain ⟨g1, g2⟩ := holdDecr_held x z
    refine ⟨h1.trans g1, fun j hj => ?_, fun y hy => ?_⟩
    · obtain ⟨hjz, hj⟩ := not_or.1 (mt List.mem_cons.2 hj)
      rw [List.foldl_cons, h2 j hj, g2, if_neg hjz]
    · obtain rfl | hy := List.mem_cons.1 hy
      · rw [List.foldl_cons, h2 _ hz, g2, if_pos rfl]
      · have hne : y.1 ≠ z.1 := fun e => hz (List.mem_map.2 ⟨y, hy, e⟩)
        rw [List.foldl_cons, h3 y hy, g2, if_neg hne]

/-- Settles O25: EXIT moves one decrement for each job of its counted lanes behind the held sends, and ends the lanes. -/
theorem exitEnds : Obligations.ExitEnds := by
  unfold Obligations.ExitEnds
  intro h s act jobs
  refine ⟨fun ha hl => ?_, fun ha hfit => ?_⟩
  · have he : exec (.exit h) s = lanesEnded (lenOf h false) (.done s) := by
      have ha' : s.me.active h = 0 := ha
      simp [exec, execExit, ha']
    rw [he]
    exact lanesEnded_none _ hl
  · have hkept := kept_traceFar s 4 none act
    have he : exec (.exit h) s = .next (afterLanes (lenOf h false) ((s.traceFar 4 none act).setMe
        (((countJobs jobs).foldl Ctx.holdDecr (s.traceFar 4 none act).me).endLanes act))) := by
      simp only [exec, execExit, beq_eq_false_iff_ne.2 (show s.me.active h ≠ 0 from ha), Bool.false_eq_true, if_false]
      refine (congrArg (lanesEnded _) (withRoomOf_fits ?_ _)).trans (lanesEnded_done _ _)
      simp only [heldDecr_eq]
      exact hfit
    obtain ⟨hd, hm, hc⟩ := countJobs_spec jobs
    obtain ⟨h1, h2, h3⟩ := foldl_holdDecr_held (countJobs jobs) hd s.me
    refine ⟨_, he, traced_setMe s _ _ _ _, ?_, ?_, fun j => ?_⟩ <;> rw [State.me_setMe, hkept.me]
    · exact lanesEnd_endLanes act (foldl_holdDecr_eq _ _)
    · exact h1
    · rw [Ctx.endLanes_held]
      split
      · rename_i hj
        obtain ⟨y, hy, rfl⟩ := List.mem_map.1 ((hm j).2 hj)
        rw [h3 y hy, hc y hy]
      · rename_i hj
        exact h2 j fun e => hj ((hm j).1 e)

/-! ### FORK (R204) -/

/-- The increments of a FORK are sent behind the other messages, and nothing else changes. -/
theorem sendIncrements_eq (w : Who) (p : Part) (l : List (W32 × Nat)) (s : State) :
    sendIncrements w p l s = { s with net := s.net ++ l.map fun j =>
      { vn := .request, src := .cell w.cell, dst := p.jobHome j.1
        body := .countAdd j.1 j.2 (some w) true none (p.jobLine (j.1.toNat % 4096)) } } := by
  induction l generalizing s with
  | nil => simp [sendIncrements]
  | cons y l ih => simp [sendIncrements, ih, State.post]

theorem execFork_go {h : Head} {ra : Reg} {b : SrcB} {c : Reg} {live : W32} {s0 : State} (hw : s0.me.commitWaits = false)
    (hl : s0.commitBefore.me.r.live ≠ 0) :
    let s := s0.commitBefore
    let act := s.me.active h
    let n := (s.me.scalarB b).toNat
    let place := s.me.s ra.toNat
    let p := s.partAt s.cur.cell
    let jobs := (countJobs ((lanes act).map fun L => (s.me.hdr L).job)).map fun j => (j.1, n * j.2)
    let fork : Fork := { awaited := jobs.length, children := (lanes act).flatMap fun L => s.forkChildren place c live n L, place
                         len := lenOf h (litB b) }
    let u := (s.setMe { s.me with fork := some fork }).traceFar 5 (some place) act
    act ≠ 0 → n ≠ 0 → popCount live ≤ 16 → n ≤ 65535 → checkPlace s (s.partNo s.cur.cell) place false = none →
    (jobs.any fun j => s.barred s.cur.cell (p.jobHome j.1)) = false →
    exec (.fork h ra b c live) s0 =
      .next ((sendIncrements u.cur p jobs u).setMe { (sendIncrements u.cur p jobs u).me with wait := some .forkAcks }) := by
  intro s act n place p jobs fork u ha hn hp hmax hplace hbar
  have h0 : (s0.commitBefore.me.active h == 0 || (s0.commitBefore.me.scalarB b).toNat == 0) = false := by
    rw [Bool.or_eq_false_iff]
    exact ⟨beq_eq_false_iff_ne.2 ha, beq_eq_false_iff_ne.2 hn⟩
  have hplace' : checkPlace s0.commitBefore (s0.commitBefore.partNo s0.commitBefore.cur.cell) (s0.commitBefore.me.s ra.toNat) false = none :=
    hplace
  simp only [exec, execFork, boundary_of_live _ _ hw hl, h0, Bool.false_eq_true, if_false, if_neg (Nat.not_lt.2 hp),
    if_neg (Nat.not_lt.2 (show (s0.commitBefore.me.scalarB b).toNat ≤ 65535 from hmax)), hplace']
  exact congrArg (finish · _) (if_neg (ne_true_of_eq_false hbar))

theorem traceFar_net (s : State) (kind : BitVec 3) (dest : Option W64) (act : W32) :
    ∃ l, (s.myCell.trace.bytes = 0 → l = []) ∧ (s.traceFar kind dest act).net = s.net ++ l :=
  trace_net s s.cur _ _ _

/-- What a FORK has sent and noted in s, where it goes to wait. -/
theorem fork_sends (s : State) (f : Fork) (place : W64) (act : W32) (p : Part) (jobs : List (W32 × Nat)) :
    let u := (s.setMe { s.me with fork := some f }).traceFar 5 (some place) act
    let t := (sendIncrements u.cur p jobs u).setMe { (sendIncrements u.cur p jobs u).me with wait := some .forkAcks }
    t.me = { s.me with fork := some f, wait := some .forkAcks } ∧
    ∃ l, (s.myCell.trace.bytes = 0 → l = []) ∧ t.net = s.net ++ l ++ jobs.map fun j =>
      { vn := .request, src := .cell s.cur.cell, dst := p.jobHome j.1
        body := .countAdd j.1 j.2 (some s.cur) true none (p.jobLine (j.1.toNat % 4096)) } := by
  intro u t
  have hkept := kept_traceFar (s.setMe { s.me with fork := some f }) 5 (some place) act
  obtain ⟨l, hl, hnet⟩ := traceFar_net (s.setMe { s.me with fork := some f }) 5 (some place) act
  have hmine : (sendIncrements u.cur p jobs u).me = u.me := by
    rw [sendIncrements_eq]
    rfl
  refine ⟨?_, l, fun h0 => hl (by rwa [State.myCell_setMe]), ?_⟩
  · rw [State.me_setMe, hmine, hkept.me, State.me_setMe]
  · have hcur : u.cur = s.cur := hkept.cur
    rw [State.setMe_net, sendIncrements_eq, hcur]
    exact congrArg (· ++ _) hnet

/-- Settles O26: FORK is a boundary instruction, which passes with no child to make, and otherwise sends its increments and waits. -/
theorem forkAsks : Obligations.ForkAsks := by
  unfold Obligations.ForkAsks
  intro h ra b c live s0 s x act n place p jobs hw hl
  refine ⟨fun h0 => ⟨s, ?_, rfl⟩, fun ha hn hp hmax hplace hbar => ?_⟩
  · have h0' : (s0.commitBefore.me.active h == 0 || (s0.commitBefore.me.scalarB b).toNat == 0) = true := by simpa using h0
    simp only [exec, execFork, boundary_of_live _ _ hw hl, h0', if_true, finish_done]
    rfl
  · have hgo := execFork_go (c := c) hw hl ha hn hp hmax hplace hbar
    obtain ⟨hme, hnet⟩ := fork_sends s { awaited := jobs.length, children := (lanes act).flatMap fun L => s.forkChildren place c live n L
                                         place, len := lenOf h (litB b) } place act p jobs
    refine ⟨_, hgo, ?_, ⟨_, congrArg Ctx.fork hme, rfl, rfl, rfl, rfl⟩, hnet⟩
    exact hme.trans (by rw [congrArg Ctx.fork hme])

end Sys2Proof.Machine
end

section
/-! SUPPORT. What the engines of channels, the inbox and the send buffer leave unchanged (R196, R209, R273, R330, R336). -/

namespace Sys2Proof.Machine

/-! ### What the engines leave of their cell -/

/-- Two values of a cell with the same activations, bins and pending traps, jobs it drops, and place of the trace. -/
structure Alike (c c' : Cell) : Prop where
  ctxs : c'.ctxs = c.ctxs
  displaced : c'.displaced = c.displaced
  bins : c'.bins = c.bins
  pending : c'.pending = c.pending
  dropping : c'.dropping = c.dropping
  traceBytes : c'.trace.bytes = c.trace.bytes

theorem Alike.refl (c : Cell) : Alike c c := ⟨rfl, rfl, rfl, rfl, rfl, rfl⟩

theorem Alike.trans {c d e : Cell} (h : Alike c d) (g : Alike d e) : Alike c e :=
  ⟨g.ctxs.trans h.ctxs, g.displaced.trans h.displaced, g.bins.trans h.bins, g.pending.trans h.pending,
    g.dropping.trans h.dropping, g.traceBytes.trans h.traceBytes⟩

/-- What `Kept` says, and the activations, bins and pending traps of cell n have not changed. -/
structure KeptCell (n : Nat) (s t : State) : Prop extends Kept n s t where
  alike : Alike (s.cell n) (t.cell n)

theorem KeptCell.refl (n : Nat) (s : State) : KeptCell n s s := ⟨.refl n s, .refl _⟩

theorem KeptCell.trans {n : Nat} {s t u : State} (h : KeptCell n s t) (g : KeptCell n t u) : KeptCell n s u :=
  ⟨h.toKept.trans g.toKept, h.alike.trans g.alike⟩

theorem KeptCell.ite {n : Nat} {s t u : State} {p : Prop} [Decidable p] (h : KeptCell n s t) (g : KeptCell n s u) :
    KeptCell n s (if p then t else u) := by
  split
  · exact h
  · exact g

theorem KeptCell.foldl {n : Nat} {α : Type} {f : State → α → State} (h : ∀ s a, KeptCell n s (f s a)) (l : List α) (s : State) :
    KeptCell n s (l.foldl f s) := by
  induction l generalizing s with
  | nil => exact .refl n s
  | cons a l ih => exact (h s a).trans (ih _)

theorem Beside.keptCell {n : Nat} {s t : State} (h : Beside n s t) : KeptCell n s t :=
  ⟨h.kept, by rw [State.cell_of_cells h.cells]; exact .refl _⟩

theorem keptCell_setCell (n : Nat) (s : State) {m : Nat} {c : Cell} (h : Alike (s.cell m) c) : KeptCell n s (s.setCell m c) := by
  refine ⟨kept_setCell n s h.ctxs h.dropping, ?_⟩
  by_cases e : n = m
  · subst e
    simpa using h
  · rw [State.cell_setCell_ne s c e]
    exact .refl _

/-! ### The engines of channels -/

theorem keptCell_post (n : Nat) (s : State) (m : Msg) : KeptCell n s (s.post m) := (beside_post n s m).keptCell

theorem keptCell_setWcopy (n : Nat) (s : State) (cell id : Nat) (w : Option WCopy) : KeptCell n s (s.setWcopy cell id w) :=
  keptCell_setCell n s ⟨rfl, rfl, rfl, rfl, rfl, rfl⟩

theorem keptCell_setRcopy (n : Nat) (s : State) (cell id : Nat) (r : Option RCopy) : KeptCell n s (s.setRcopy cell id r) :=
  keptCell_setCell n s ⟨rfl, rfl, rfl, rfl, rfl, rfl⟩

theorem keptCell_chanWord (n : Nat) (s : State) (p : Part) (id k v : Nat) : KeptCell n s (s.chanWord p id k v) := (beside_hbmWrite n s _ _ _).keptCell

theorem keptCell_chanWords (n : Nat) (p : Part) (id : Nat) (l : List Nat) (k : Nat) (s : State) : KeptCell n s (chanWords p id k l s) := by
  induction l generalizing k s with
  | nil => exact .refl n s
  | cons v l ih => exact (keptCell_chanWord n s p id k v).trans (ih _ _)

theorem keptCell_writeBackW (n : Nat) (s : State) (cell id : Nat) (w : WCopy) : KeptCell n s (s.writeBackW cell id w) := by
  simp only [State.writeBackW]
  refine (keptCell_chanWord n s _ id 2 _).trans (.ite ?_ (.refl n _))
  exact (keptCell_chanWord n _ _ id 0 _).trans (keptCell_chanWord n _ _ id 7 _)

theorem keptCell_writeBackR (n : Nat) (s : State) (cell id : Nat) (r : RCopy) : KeptCell n s (s.writeBackR cell id r) := by
  simp only [State.writeBackR]
  exact (keptCell_chanWords n _ id _ 3 s).trans (.ite (keptCell_chanWord n _ _ id 0 _) (.refl n _))

theorem keptCell_syncW (n : Nat) (s : State) (cell id : Nat) : KeptCell n s (s.syncW cell id) :=
  .ite (.refl n s) (keptCell_writeBackW n s cell id _)

theorem keptCell_syncR (n : Nat) (s : State) (cell id : Nat) : KeptCell n s (s.syncR cell id) :=
  .ite (.refl n s) (keptCell_writeBackR n s cell id _)

theorem keptCell_dropCopies (n : Nat) (s : State) (p : Part) (d : Desc) : KeptCell n s (s.dropCopies p d) := by
  refine .ite (.refl n s) ?_
  have h : KeptCell n s (if (s.cell (p.dev d.writer)).pushPending d.id then s else s.setWcopy (p.dev d.writer) d.id none) :=
    .ite (.refl n s) (keptCell_setWcopy n s _ _ _)
  exact h.trans (.ite (.refl n _) (keptCell_setRcopy n _ _ _ _))

theorem keptCell_releaseEnd (n : Nat) (s : State) (cell id : Nat) (rdr : Bool) : KeptCell n s (s.releaseEnd cell id rdr) := by
  have h : KeptCell n s (if rdr then s.syncR cell id else s.syncW cell id) := .ite (keptCell_syncR n s cell id) (keptCell_syncW n s cell id)
  exact h.trans (keptCell_dropCopies n _ _ _)

theorem keptCell_tidyW (n : Nat) (s : State) (cell id : Nat) : KeptCell n s (s.tidyW cell id) :=
  .ite (.refl n s) (.ite (keptCell_syncW n s cell id) (keptCell_releaseEnd n s cell id false))

theorem keptCell_takeEnd (n : Nat) (s : State) (cell id : Nat) (rdr : Bool) : KeptCell n s (s.takeEnd cell id rdr) :=
  .ite (keptCell_setRcopy n s _ _ _) (keptCell_setWcopy n s _ _ _)

theorem keptCell_retirePops (n : Nat) (s : State) (cell id k : Nat) : KeptCell n s (s.retirePops cell id k) := by
  refine .ite (.refl n s) (KeptCell.trans ?_ (keptCell_post n _ _))
  exact .ite ((keptCell_setRcopy n s _ _ _).trans (keptCell_syncR n _ _ _)) (keptCell_writeBackR n s _ _ _)

theorem keptCell_retireChans (w : Who) (l : List Nat) (s : State) : KeptCell w.cell s (retireChans w l s) := by
  induction l generalizing s with
  | nil => exact .refl _ s
  | cons id ids ih => exact (keptCell_retirePops w.cell s w.cell id _).trans (ih _)

theorem keptCell_noteReleases (n cell : Nat) (l : List Send) (s : State) : KeptCell n s (noteReleases cell l s) := by
  induction l generalizing s with
  | nil => exact .refl n s
  | cons sd l ih =>
    refine KeptCell.trans ?_ (ih _)
    split
    · exact keptCell_setWcopy n s _ _ _
    · exact keptCell_setWcopy n s _ _ _
    · exact .refl n s

/-! ### Strands subtracted from their jobs (R311) -/

theorem keptCell_subtractOne (n : Nat) (s : State) (cell : Nat) (j : W32 × Nat) : KeptCell n s (s.subtractOne cell j) :=
  .ite (keptCell_setCell n s ⟨rfl, rfl, rfl, rfl, rfl, rfl⟩) (keptCell_post n s _)

theorem keptCell_subtract (n : Nat) (s : State) (cell : Nat) (l : List W32) : KeptCell n s (s.subtract cell l) :=
  .foldl (fun t j => keptCell_subtractOne n t cell j) _ s

/-! ### The inbox (R32, R36, R340) -/

theorem Cell.binPut_ctxs (c : Cell) (a : Arrival) : (c.binPut a).ctxs = c.ctxs ∧ (c.binPut a).dropping = c.dropping := by
  simp only [Cell.binPut]
  split
  · exact ⟨rfl, rfl⟩
  · split <;> exact ⟨rfl, rfl⟩

theorem Cell.enter_ctxs (c : Cell) (a : Arrival) : (c.enter a).ctxs = c.ctxs ∧ (c.enter a).dropping = c.dropping := by
  simp only [Cell.enter]
  split
  · exact ⟨rfl, rfl⟩
  · exact c.binPut_ctxs a

theorem Cell.accept_ctxs (c : Cell) (p : Parcel) : (c.accept p).ctxs = c.ctxs ∧ (c.accept p).dropping = c.dropping := by
  simp only [Cell.accept]
  split
  · exact ⟨rfl, rfl⟩
  · exact Cell.enter_ctxs _ _

/-- A block taken from the free list of the partition of cell n. -/
theorem kept_takeBlock {n : Nat} {s : State} {pn : Nat} (h : pn = s.partNo n) (used res : Nat) : Kept n s (s.takeBlock pn used res).2 := by
  subst h
  unfold State.takeBlock
  split
  · exact ⟨fun _ => rfl, rfl, rfl, .setPart n s _ _, rfl⟩
  · exact .refl n s

/-- A chain with the block that an entry behind its k needs, when it gets one. -/
def State.chainGrow (s : State) (pn : Nat) (ch : Chain) (k res : Nat) : Chain × State :=
  if (ch.head + k) / 32 < ch.blocks.length then (ch, s)
  else match s.takeBlock pn ch.blocks.length res with
  | (some blk, t) =>
    ({ ch with blocks := ch.blocks ++ [blk] }, match ch.blocks.getLast? with
      | some last => t.linkBlock (s.part pn) last blk
      | none => t)
  | (none, t) => (ch, t)

theorem chainPut_snd (s : State) (pn : Nat) (ch : Chain) (k res : Nat) (b : List Byte) :
    (s.chainPut pn ch k res b).2 =
      match (s.chainGrow pn ch k res).1.blocks[(ch.head + k) / 32]? with
      | some blk => (s.chainGrow pn ch k res).2.hbmBytes
          ((s.part pn).blockAt blk (16 * (((s.chainGrow pn ch k res).1.head + k) % 32))) b
      | none => (s.chainGrow pn ch k res).2 := rfl

theorem kept_chainGrow {n : Nat} {s : State} {pn : Nat} (h : pn = s.partNo n) (ch : Chain) (k res : Nat) :
    Kept n s (s.chainGrow pn ch k res).2 := by
  have htake := kept_takeBlock h ch.blocks.length res
  unfold State.chainGrow
  split
  · exact .refl n s
  · split
    · rename_i blk t ht
      rw [ht] at htake
      refine htake.trans ?_
      show Kept n t (match ch.blocks.getLast? with
        | some last => t.linkBlock (s.part pn) last blk
        | none => t)
      split
      · exact (beside_hbmWrite n t _ _ _).kept
      · exact .refl n t
    · rename_i t ht
      rw [ht] at htake
      exact htake

theorem kept_chainPut {n : Nat} {s : State} {pn : Nat} (h : pn = s.partNo n) (ch : Chain) (k res : Nat) (b : List Byte) :
    Kept n s (s.chainPut pn ch k res b).2 := by
  rw [chainPut_snd]
  split
  · exact (kept_chainGrow h ch k res).trans (beside_hbmBytes n _ _ _).kept
  · exact kept_chainGrow h ch k res

theorem kept_spilled (n : Nat) (s : State) (k : Nat) (p : Parcel) : Kept n s (s.spilled n k p) :=
  (kept_chainPut rfl _ _ _ _).trans (kept_setCell n _ rfl rfl)

theorem kept_accept (n : Nat) (s : State) (p : Parcel) : Kept n s (s.accept n p) := by
  obtain ⟨h1, h2⟩ := (s.cell n).accept_ctxs p
  have h := kept_setCell n s h1 h2
  exact .ite (h.trans (kept_spilled n _ _ p)) h

theorem kept_inboxTakes (n : Nat) (s : State) (p : Parcel) : Kept n s (s.inboxTakes n p) := by
  have htake : Kept n s (s.setCell n ((s.cell n).takeId p).1) := kept_setCell n s rfl rfl
  unfold State.inboxTakes
  split
  · exact .ite (htake.trans (keptCell_subtract n _ n _).toKept) (kept_accept n s _)
  · refine .ite (kept_accept n s _) (htake.trans (beside_reportLimited rfl _ _).kept)
  · exact kept_accept n s _

end Sys2Proof.Machine
end

section
/-! What a commit does to its context (O59). -/

namespace Sys2Proof.Machine
open Sys2Proof.Claims

/-! ### Sends that leave (R40, R196) -/

/-- From s to t sends of context w have left: of the contexts, only what w waits for has changed. -/
structure Leaves (w : Who) (s t : State) : Prop where
  other : ∀ v, v ≠ w → t.ctx v = s.ctx v
  own : ∃ out sent incsAwaited, t.ctx w = { s.ctx w with out, sent, incsAwaited }
  part : SamePart w.cell s t

theorem Kept.leaves {w : Who} {s t : State} (h : Kept w.cell s t) : Leaves w s t :=
  ⟨fun v _ => h.ctx v, ⟨_, _, _, h.ctx w⟩, h.part⟩

theorem Leaves.refl (w : Who) (s : State) : Leaves w s s := (Kept.refl w.cell s).leaves

theorem Leaves.trans {w : Who} {s t u : State} (h : Leaves w s t) (g : Leaves w t u) : Leaves w s u := by
  obtain ⟨ho, ⟨a, b, c, hw⟩, hp⟩ := h
  obtain ⟨go, ⟨a', b', c', gw⟩, gp⟩ := g
  exact ⟨fun v hv => (go v hv).trans (ho v hv), ⟨a', b', c', by rw [gw, hw]⟩, hp.trans gp⟩

theorem leaves_setCtx (w : Who) (s : State) (out : List Pending) (sent : List (Msg × Nat)) (incsAwaited : Nat) :
    Leaves w s (s.setCtx w { s.ctx w with out, sent, incsAwaited }) :=
  ⟨fun _ hv => State.ctx_setCtx_ne s _ hv, ⟨out, sent, incsAwaited, State.ctx_setCtx s w _⟩, .of_parts rfl⟩

theorem leaves_post (w : Who) (s : State) (m : Msg) : Leaves w s (s.post m) := (keptCell_post w.cell s m).leaves

theorem kept_fresh (n : Nat) (s : State) : Kept n s s.fresh.2 := ⟨fun _ => rfl, rfl, rfl, .of_parts rfl, rfl⟩

theorem leaves_noteOut (w : Who) (s : State) (sd : Send) (home : Endp) (write : Bool) : Leaves w s (s.noteOut w sd home write).2 := by
  exact (kept_fresh w.cell s).leaves.trans (leaves_setCtx w s.fresh.2 _ _ _)

theorem leaves_postSent (w : Who) (s : State) (bytes : Nat) (m : Msg) : Leaves w s (s.postSent w bytes m) :=
  (leaves_setCtx w s _ _ _).trans (leaves_post w _ m)

theorem leaves_sendParcel (w : Who) (s : State) (place : W64) (p : Parcel) : Leaves w s (s.sendParcel w.cell place p) := by
  simp only [State.sendParcel]
  split
  · exact (kept_inboxTakes w.cell s p).leaves
  · exact leaves_post w s _

theorem leaves_leave {w : Who} {s t : State} {sd : Send} (h : s.leave w sd = some t) : Leaves w s t := by
  unfold State.leave at h
  simp only at h
  split at h
  · cases h
  split at h
  · split at h
    · cases h
      exact .refl w s
    · cases h
  · split at h
    · cases h
    · cases h
      exact leaves_sendParcel w s _ _
  · split at h
    · cases h
    · split at h
      · cases h
        exact leaves_sendParcel w s _ _
      · cases h
        exact leaves_postSent w s _ _
  · split at h
    · cases h
    · cases h
      exact (leaves_noteOut w s sd _ true).trans (leaves_post w _ _)
  · split at h
    · cases h
    · cases h
      exact (leaves_noteOut w s sd _ true).trans (leaves_post w _ _)
  · split at h
    · cases h
    · cases h
      exact (leaves_noteOut w s sd _ false).trans (leaves_post w _ _)
  · split at h
    · cases h
    · cases h
      exact (leaves_noteOut w s sd _ false).trans (leaves_post w _ _)
  · cases h
    exact (leaves_setCtx w s _ _ _).trans (leaves_post w _ _)
  · split at h
    · cases h
    · cases h
      exact leaves_postSent w s _ _
  · cases h
    exact leaves_post w s _
  · cases h
    exact leaves_post w s _

/-- Whether a send is a strand to the own cell does not change while sends leave. -/
theorem SamePart.ownStrand {w : Who} {s t : State} (h : SamePart w.cell s t) (sd : Send) : t.ownStrand w sd = s.ownStrand w sd := by
  unfold State.ownStrand State.destOf
  cases sd.body with
  | strand m c => simp only [h.endpOf]
  | _ => rfl

/-- What stays of a list of released sends: a part of it, with every send but strands to the own cell. -/
def Stays (o : Send → Bool) (l rest : List Send) : Prop := rest.Sublist l ∧ rest.filter (fun sd => !o sd) = l.filter fun sd => !o sd

theorem Stays.refl (o : Send → Bool) (l : List Send) : Stays o l l := ⟨.refl l, rfl⟩

theorem Stays.cons {o : Send → Bool} {l rest : List Send} (h : Stays o l rest) (sd : Send) : Stays o (sd :: l) (sd :: rest) :=
  ⟨h.1.cons_cons sd, by simp [List.filter_cons, h.2]⟩

theorem Stays.drop {o : Send → Bool} {l rest : List Send} (h : Stays o l rest) {sd : Send} (hd : o sd = true) : Stays o (sd :: l) rest :=
  ⟨h.1.cons sd, by simp [h.2, hd]⟩

theorem leaveOwn_spec (w : Who) (o : Send → Bool) (l : List Send) (s : State) (ho : ∀ sd, s.ownStrand w sd = o sd) :
    Leaves w s (leaveOwn w l s).2 ∧ Stays o l (leaveOwn w l s).1 := by
  induction l generalizing s with
  | nil => exact ⟨.refl w s, .refl o []⟩
  | cons sd l ih =>
    have hstop : Leaves w s s ∧ Stays o (sd :: l) (sd :: l) := ⟨.refl w s, .refl o _⟩
    simp only [leaveOwn]
    split
    · exact hstop
    · exact hstop
    · split
      · exact ⟨(ih s ho).1, (ih s ho).2.cons sd⟩
      · rename_i hown
        split
        · rename_i t ht
          have hl := leaves_leave ht
          obtain ⟨h1, h2⟩ := ih t fun sd => (hl.part.ownStrand sd).trans (ho sd)
          refine ⟨hl.trans h1, h2.drop ?_⟩
          rw [← ho]
          simpa using hown
        · exact hstop

theorem leaveAll_spec (w : Who) (o : Send → Bool) (l : List Send) (s : State) (ho : ∀ sd, s.ownStrand w sd = o sd) :
    Leaves w s (leaveAll w l s).2 ∧ ∃ gone rest, l = gone ++ rest ∧ Stays o rest (leaveAll w l s).1 := by
  induction l generalizing s with
  | nil => exact ⟨.refl w s, [], [], rfl, .refl o []⟩
  | cons sd l ih =>
    have hstop : Leaves w s s ∧ ∃ gone rest, sd :: l = gone ++ rest ∧ Stays o rest (sd :: l) := ⟨.refl w s, [], _, rfl, .refl o _⟩
    simp only [leaveAll]
    split
    · rename_i t ht
      have hl := leaves_leave ht
      obtain ⟨h1, gone, rest, e, h2⟩ := ih t fun sd => (hl.part.ownStrand sd).trans (ho sd)
      exact ⟨hl.trans h1, sd :: gone, rest, by rw [e]; rfl, h2⟩
    · split
      · exact hstop
      · exact hstop
      · split
        · exact hstop
        · obtain ⟨h1, h2⟩ := leaveOwn_spec w o l s ho
          exact ⟨h1, [], sd :: l, rfl, h2.cons sd⟩

/-- The released sends pumped into the network: some leave, and those that stay are what `Stays` says. -/
theorem pump_spec (s : State) (w : Who) :
    (∀ v, v ≠ w → (s.pump w).ctx v = s.ctx v) ∧
    ∃ gone rest stay out sent incsAwaited, (s.ctx w).released = gone ++ rest ∧ Stays (s.ownStrand w) rest stay ∧
      (s.pump w).ctx w = { s.ctx w with released := stay, out, sent, incsAwaited } := by
  simp only [State.pump]
  split
  · rename_i he
    have hnil : (s.ctx w).released = [] := by simpa using he
    exact ⟨fun _ _ => rfl, [], [], [], _, _, _, hnil, .refl _ [], by rw [← hnil]⟩
  · obtain ⟨⟨ho, ⟨a, b, c, hw⟩, -⟩, gone, rest, e, hs⟩ := leaveAll_spec w (s.ownStrand w) (s.ctx w).released s fun _ => rfl
    have hk : ∀ (l : List Nat) (t : State), Kept w.cell t (l.foldl (fun s id => s.tidyW w.cell id) t) :=
      fun l t => .foldl (fun t id => (keptCell_tidyW w.cell t w.cell id).toKept) l t
    refine ⟨fun v hv => ?_, gone, rest, _, a, b, c, e, hs, ?_⟩
    · rw [(hk _ _).ctx, State.ctx_setCtx_ne _ _ hv, ho v hv]
    · rw [(hk _ _).ctx, State.ctx_setCtx, hw]

/-! ### The commit itself (R40) -/

theorem dropMask_nil (x : Ctx) : x.dropMask [] = 0 := by
  have h : (fun L => x.r.live.getLsbD L && (x.hdr L).counted && ([] : List W32).contains (x.hdr L).job) = fun _ => false := by
    funext L
    simp
  rw [Ctx.dropMask, h]
  rfl

theorem dropLanes_nil (x : Ctx) : x.dropLanes [] = x := by
  simp [Ctx.dropLanes, dropMask_nil]

/-- A context as its commit leaves it, before any of its sends has left. -/
def Ctx.committed (x : Ctx) (order turn : Nat) : Ctx :=
  { x with
    qs := tmap (fun _ q => { q with shadow := [], entries := q.entries.map fun e => { e with thisSegment := false } }) x.qs
    eps := tmap (fun _ e => { e with shadow := [] }) x.eps
    held := [], released := x.released ++ x.held.map fun sd => { sd with order }, journal := [], first := false, trigger := []
    snap := x.r, snapBudget := x.budget, begun := turn }

theorem Cell.binFree_ctxs (c : Cell) (e : PC) : (c.binFree e).ctxs = c.ctxs ∧ (c.binFree e).dropping = c.dropping := by
  unfold Cell.binFree
  split
  · exact ⟨rfl, rfl⟩
  · split
    · exact ⟨rfl, rfl⟩
    · simp only
      split <;> exact ⟨rfl, rfl⟩

theorem Cell.firstDone_ctxs (c : Cell) (e : PC) : (c.firstDone e).ctxs = c.ctxs ∧ (c.firstDone e).dropping = c.dropping := by
  unfold Cell.firstDone
  split
  · exact Cell.binFree_ctxs _ e
  · exact ⟨rfl, rfl⟩

/-- A commit of a cell that drops no job: it writes its context, and pumps. -/
theorem commit_eq {s : State} {w : Who} (why : Nat) (hd : (s.cell w.cell).dropping = []) :
    ∃ u order turn, (∀ v, v ≠ w → u.ctx v = s.ctx v) ∧ u.ctx w = (s.ctx w).committed order turn ∧ SamePart w.cell s u ∧
      s.commit w why = u.pump w := by
  have h1 := (keptCell_retireChans w (s.ctx w).popChans s).toKept
  let s1 := retireChans w (s.ctx w).popChans s
  have hx : (s1.ctx w).dropLanes (s1.cell w.cell).dropping = s.ctx w := by rw [h1.dropping, hd, dropLanes_nil, h1.ctx]
  let s2 := if (s.ctx w).held.isEmpty then s1 else noteReleases w.cell (s.ctx w).held s1.fresh.2
  have h2 : Kept w.cell s s2 := h1.trans (.ite (.refl _ _) ((kept_fresh _ s1).trans (keptCell_noteReleases _ _ _ _).toKept))
  let s3 := s2.setCtx w ((s.ctx w).committed s2.nextId s2.turn)
  let s4 := if (s.ctx w).first then s3.setCell w.cell ((s3.cell w.cell).firstDone (plEntry (s.ctx w).entry)) else s3
  have h4 : Kept w.cell s3 s4 :=
    .ite (kept_setCell _ s3 (Cell.firstDone_ctxs _ _).1 (Cell.firstDone_ctxs _ _).2) (.refl _ s3)
  have h5 := h4.trans (kept_trace s4 w 4 (s.ctx w).r.pc [BitVec.ofNat 64 (why * 2 ^ 62 + (s.ctx w).heldBytes / 16 % 2 ^ 16 * 2 ^ 32)])
  have hp3 : SamePart w.cell s2 s3 := .of_parts rfl
  refine ⟨_, s2.nextId, s2.turn, fun v hv => ?_, ?_, (h2.part.trans hp3).trans h5.part, ?_⟩
  · rw [h5.ctx, State.ctx_setCtx_ne _ _ hv, h2.ctx]
  · rw [h5.ctx, State.ctx_setCtx]
  · simp only [State.commit]
    rw [show ((retireChans w (s.ctx w).popChans s).ctx w).dropLanes ((retireChans w (s.ctx w).popChans s).cell w.cell).dropping = s.ctx w
      from hx]
    rfl

theorem tget_tmap {α β : Type} (d' : β) (f : Nat → α → β) (t : Tbl α) (k : Nat) (P : β → Prop) (hd : P d')
    (hf : ∀ k v, P (f k v)) : P (tget d' (tmap f t) k) := by
  induction t with
  | nil => exact hd
  | cons e t ih =>
    show P (if e.1 = k then f e.1 e.2 else tget d' (tmap f t) k)
    split
    · exact hf _ _
    · exact ih

/-- Settles O59: the commit writes the context as `Ctx.committed` says, and what is then pumped changes only what has left. -/
theorem commitEffects : Obligations.CommitEffects := by
  unfold Obligations.CommitEffects
  intro s w why hd x y
  obtain ⟨u, order, turn, hother, hown, hpart, hc⟩ := commit_eq why hd
  obtain ⟨hp, gone, rest, stay, out, sent, incs, hrel, hstay, hw⟩ := pump_spec u w
  rw [hown] at hw hrel
  have hy : y = { x.committed order turn with released := stay, out, sent, incsAwaited := incs } := by
    rw [← hw, ← hc]
  have ho : u.ownStrand w = s.ownStrand w := funext hpart.ownStrand
  rw [ho] at hstay
  rw [hy]
  refine ⟨rfl, rfl, rfl, rfl, rfl, rfl, rfl, rfl, rfl, rfl, ⟨order, gone, rest, hrel, hstay.1, hstay.2⟩, fun q => ?_, fun k hk => ?_⟩
  · exact tget_tmap {} (fun _ (q : DataQ) => { q with shadow := [], entries := q.entries.map fun e => { e with thisSegment := false } })
      x.qs q (fun q : DataQ => q.shadow = []) rfl fun _ _ => rfl
  · have hv : (⟨w.cell, k⟩ : Who) ≠ w := fun e => hk (congrArg Who.ctx e)
    rw [hc, hp _ hv, hother _ hv]

end Sys2Proof.Machine
end

section
/-! What taking a trap does (O60). -/

namespace Sys2Proof.Machine
open Sys2Proof.Claims

/-! ### Rollback, step by step (R43, R171, R413) -/

/-- From s to t the bins, the pending traps and the dropped jobs of cell n are the same, and its partition is. -/
structure Records (n : Nat) (s t : State) : Prop where
  bins : (t.cell n).bins = (s.cell n).bins
  pending : (t.cell n).pending = (s.cell n).pending
  dropping : (t.cell n).dropping = (s.cell n).dropping
  traceBytes : (t.cell n).trace.bytes = (s.cell n).trace.bytes
  part : SamePart n s t
  dies : t.dies = s.dies

theorem Records.refl (n : Nat) (s : State) : Records n s s := ⟨rfl, rfl, rfl, rfl, .refl n s, rfl⟩

theorem Records.trans {n : Nat} {s t u : State} (h : Records n s t) (g : Records n t u) : Records n s u :=
  ⟨g.bins.trans h.bins, g.pending.trans h.pending, g.dropping.trans h.dropping, g.traceBytes.trans h.traceBytes,
    h.part.trans g.part, g.dies.trans h.dies⟩

/-- What `Records` says, and no context of the cell has changed but w. -/
structure OwnOnly (w : Who) (s t : State) : Prop extends Records w.cell s t where
  other : ∀ k, k ≠ w.ctx → t.ctx ⟨w.cell, k⟩ = s.ctx ⟨w.cell, k⟩

theorem OwnOnly.refl (w : Who) (s : State) : OwnOnly w s s := ⟨.refl _ s, fun _ _ => rfl⟩

theorem OwnOnly.trans {w : Who} {s t u : State} (h : OwnOnly w s t) (g : OwnOnly w t u) : OwnOnly w s u :=
  ⟨h.toRecords.trans g.toRecords, fun k hk => (g.other k hk).trans (h.other k hk)⟩

theorem KeptCell.ownOnly {w : Who} {s t : State} (h : KeptCell w.cell s t) : OwnOnly w s t :=
  ⟨⟨h.alike.bins, h.alike.pending, h.alike.dropping, h.alike.traceBytes, h.part, h.dies⟩, fun _ _ => h.ctx _⟩

theorem ownOnly_setCtx (w : Who) (s : State) (x : Ctx) : OwnOnly w s (s.setCtx w x) := by
  refine ⟨⟨?_, ?_, ?_, ?_, .of_parts rfl, rfl⟩, fun k hk => State.ctx_setCtx_ne s x fun e => hk (congrArg Who.ctx e)⟩ <;>
    simp [State.setCtx, Cell.setCtx]

theorem cells_performAll (m : Nat) (l : List BankWrite) (s : State) : (performAll m l s).cells = s.cells := by
  induction l generalizing s with
  | nil => rfl
  | cons b l ih => exact ih (s.perform m b)

/-- Queued stores performed, and the queue of the cell written. -/
theorem keptCell_performed (n m : Nat) (l bankQ : List BankWrite) (s : State) :
    KeptCell n s ((performAll m l s).setCell m { s.cell m with bankQ }) := by
  have h : KeptCell n s (performAll m l s) := by
    induction l generalizing s with
    | nil => exact .refl n s
    | cons b l ih => exact KeptCell.trans (t := s.perform m b) ⟨⟨fun _ => rfl, rfl, rfl, .of_parts rfl, rfl⟩, .refl _⟩ (ih _)
  refine h.trans (keptCell_setCell n _ ?_)
  rw [State.cell_of_cells (cells_performAll m l s)]
  exact ⟨rfl, rfl, rfl, rfl, rfl, rfl⟩

theorem keptCell_settleWhere (n m : Nat) (s : State) (need : BankWrite → Bool) : KeptCell n s (s.settleWhere m need) :=
  .ite (.refl n s) (keptCell_performed n m _ _ s)

theorem keptCell_settle (n m : Nat) (s : State) : KeptCell n s (s.settle m) :=
  .ite (.refl n s) (keptCell_performed n m _ _ s)

theorem keptCell_undo (n m : Nat) (s : State) (j : JRec) : KeptCell n s (s.undo m j) := by
  have h : ∀ c : Cell, Alike (s.cell m) c → KeptCell n s (s.setCell m c) := fun c hc => keptCell_setCell n s hc
  cases j with
  | word off old => exact ⟨⟨fun _ => rfl, rfl, rfl, .of_parts rfl, rfl⟩, .refl _⟩
  | arrival b phase => exact .ite (h _ ⟨rfl, rfl, rfl, rfl, rfl, rfl⟩) (.refl n s)
  | _ => exact h _ ⟨rfl, rfl, rfl, rfl, rfl, rfl⟩

theorem keptCell_undoAll (n m : Nat) (l : List JRec) (s : State) : KeptCell n s (undoAll m l s) := by
  induction l with
  | nil => exact .refl n s
  | cons j l ih => exact ih.trans (keptCell_undo n m _ j)

theorem keptCell_returnCredits (n m : Nat) (l : List Send) (s : State) : KeptCell n s (returnCredits m l s) := by
  fun_induction returnCredits m l s with
  | case1 => exact .refl n _
  | case2 =>
    rename_i ih
    exact (keptCell_setWcopy n _ _ _ _).trans ih
  | case3 =>
    rename_i ih
    exact ih

theorem mem_returnCredits (m : Nat) (l : List Send) (s : State) : (returnCredits m l s).mem = s.mem := by
  fun_induction returnCredits m l s with
  | case1 => rfl
  | case2 => rename_i ih; exact ih
  | case3 => rename_i ih; exact ih

theorem keptCell_trace (s : State) (w : Who) (type : Nat) (pc : PC) (rest : List W64) : KeptCell w.cell s (s.trace w type pc rest) := by
  rw [trace_eq_writes]
  refine .ite (.refl _ s) ?_
  have hb := (beside_traceAll w.cell s ((s.cell w.cell).trace.ring ((s.cell w.cell).traceWords w.ctx type pc rest))).trans
    (beside_traceAll w.cell _ ((s.cell w.cell).trace.head ((s.cell w.cell).traceWords w.ctx type pc rest).length))
  refine hb.keptCell.trans (keptCell_setCell _ _ ⟨rfl, rfl, rfl, rfl, rfl, ?_⟩)
  rw [State.cell_of_cells hb.cells]
  rfl

/-! ### Ends taken back from other activations (R200, R208) -/

theorem heldByOther_alike {c c' : Cell} (h : Alike c c') (k id : Nat) (rdr : Bool) : c'.heldByOther k id rdr = c.heldByOther k id rdr := by
  rw [Cell.heldByOther, h.ctxs, h.displaced]
  rfl

theorem heldByOther_setCtx (c : Cell) (k id : Nat) (rdr : Bool) (x : Ctx) : (c.setCtx k x).heldByOther k id rdr = c.heldByOther k id rdr := by
  refine congrArg (· || _) ?_
  show (tset c.ctxs k x).any _ = _
  obtain ⟨l, r, e1, e2⟩ | ⟨l, r, e1, e2⟩ := tset_split c.ctxs k ({} : Ctx)
  · rw [e2, e1]
    simp
  · rw [e2]
    conv_rhs => rw [e1]
    simp

theorem oust_eq_self {s : State} {w : Who} {e : Bind} (h : (s.cell w.cell).heldByOther w.ctx e.chan e.reader = false) : s.oust w e = s :=
  if_pos (by rw [h]; rfl)

/-- A table with every other entry but one key's mapped by a function that leaves the default value as it is. -/
theorem tget_tmap_of_default {α : Type} (d : α) (f : Nat → α → α) (t : Tbl α) (k : Nat) (hd : f k d = d) :
    tget d (tmap f t) k = f k (tget d t k) := by
  induction t with
  | nil => exact hd.symm
  | cons e t ih =>
    show (if e.1 = k then f e.1 e.2 else tget d (tmap f t) k) = f k (if e.1 = k then e.2 else tget d t k)
    split
    · rename_i h
      rw [h]
    · exact ih

/-- A context that has lost bindings: it differs in its bindings and its endpoints alone. -/
def Ctx.Loosened (x y : Ctx) : Prop := ∃ binds eps, y = { x with r := { x.r with binds }, eps }

theorem Ctx.Loosened.refl (x : Ctx) : x.Loosened x := ⟨_, _, rfl⟩

theorem Ctx.Loosened.trans {x y z : Ctx} (h : x.Loosened y) (g : y.Loosened z) : x.Loosened z := by
  obtain ⟨_, _, rfl⟩ := h
  obtain ⟨_, _, rfl⟩ := g
  exact ⟨_, _, rfl⟩

theorem loosened_unhold (x : Ctx) (id : Nat) (rdr : Bool) : x.Loosened (x.unhold id rdr) := by
  cases rdr <;> exact ⟨_, _, rfl⟩

theorem oust_spec (s : State) (w : Who) (e : Bind) :
    Records w.cell s (s.oust w e) ∧ (s.oust w e).ctx w = s.ctx w ∧
    ∀ k, k ≠ w.ctx → (s.ctx ⟨w.cell, k⟩).Loosened ((s.oust w e).ctx ⟨w.cell, k⟩) := by
  simp only [State.oust]
  split
  · exact ⟨.refl _ s, rfl, fun _ _ => .refl _⟩
  · have hd : ∀ k, (if k == w.ctx then ({} : Ctx) else ({} : Ctx).unhold e.chan e.reader) = {} := fun k => by
      cases e.reader <;> simp [Ctx.unhold, Ctx.untake, tmap]
    refine ⟨⟨?_, ?_, ?_, ?_, .of_parts rfl, rfl⟩, ?_, fun k hk => ?_⟩
    all_goals simp only [State.cell_setCell, State.ctx, Cell.ctx]
    · rw [tget_tmap_of_default _ _ _ _ (hd _)]
      simp
    · rw [tget_tmap_of_default _ _ _ _ (hd _), if_neg (by simpa using hk)]
      exact loosened_unhold _ _ _

/-- Ends taken back one after the other: the other contexts of the cell lose bindings at most, and none where none of them holds one. -/
theorem takeBack_spec (w : Who) (l : List Bind) (s : State) :
    let t := l.foldl (fun s e => (s.oust w e).takeEnd w.cell e.chan e.reader) s
    Records w.cell s t ∧ t.ctx w = s.ctx w ∧
    (∀ k, k ≠ w.ctx → (s.ctx ⟨w.cell, k⟩).Loosened (t.ctx ⟨w.cell, k⟩)) ∧
    ((∀ e ∈ l, (s.cell w.cell).heldByOther w.ctx e.chan e.reader = false) → OwnOnly w s t) := by
  induction l generalizing s with
  | nil => exact ⟨.refl _ s, rfl, fun _ _ => .refl _, fun _ => .refl w s⟩
  | cons e l ih =>
    obtain ⟨h1, h2, h3⟩ := oust_spec s w e
    have hk := keptCell_takeEnd w.cell (s.oust w e) w.cell e.chan e.reader
    obtain ⟨g1, g2, g3, g4⟩ := ih ((s.oust w e).takeEnd w.cell e.chan e.reader)
    refine ⟨(h1.trans hk.ownOnly.toRecords).trans g1, g2.trans ((hk.ctx w).trans h2), fun k hk' => ?_, fun hl => ?_⟩
    · have h := g3 k hk'
      rw [hk.ctx] at h
      exact (h3 k hk').trans h
    · have he := oust_eq_self (hl e List.mem_cons_self)
      rw [he] at hk g4
      refine (congrArg (OwnOnly w s) ?_).mp (hk.ownOnly.trans (g4 fun e' he' => ?_))
      · rw [List.foldl_cons, he]
      · rw [heldByOther_alike hk.alike]
        exact hl e' (List.mem_cons_of_mem _ he')

/-- No other activation of the cell of w holds an end that the snapshot of w has bound. -/
def State.keepsEnds (s : State) (w : Who) : Prop :=
  ∀ b ∈ (s.ctx w).snap.binds, ∀ e, b.2 = some e → (s.cell w.cell).heldByOther w.ctx e.chan e.reader = false

theorem rebind_eq_self {s : State} {w : Who} (h : (s.ctx w).r.binds = (s.ctx w).snap.binds) : s.rebind w = s :=
  if_pos (by simpa using h)

theorem rebind_spec (s : State) (w : Who) :
    Records w.cell s (s.rebind w) ∧ (s.rebind w).ctx w = { s.ctx w with r := { (s.ctx w).r with binds := (s.ctx w).snap.binds } } ∧
    (∀ k, k ≠ w.ctx → (s.ctx ⟨w.cell, k⟩).Loosened ((s.rebind w).ctx ⟨w.cell, k⟩)) ∧
    (s.keepsEnds w → OwnOnly w s (s.rebind w)) := by
  by_cases hb : (s.ctx w).r.binds = (s.ctx w).snap.binds
  · rw [rebind_eq_self hb]
    exact ⟨.refl _ s, by rw [← hb], fun _ _ => .refl _, fun _ => .refl w s⟩
  · let x := s.ctx w
    let s1 := s.setCtx w { x with r := { x.r with binds := x.snap.binds } }
    let s2 := (x.snap.binds.filterMap (·.2)).foldl (fun s e => (s.oust w e).takeEnd w.cell e.chan e.reader) s1
    have hu : s.rebind w = (x.r.binds.filterMap (·.2)).foldl (fun s e => s.releaseEnd w.cell e.chan e.reader) s2 :=
      if_neg (by simpa using hb)
    have h1 := ownOnly_setCtx w s { x with r := { x.r with binds := x.snap.binds } }
    obtain ⟨hr, ho, hl, hk⟩ := takeBack_spec w (x.snap.binds.filterMap (·.2)) s1
    have h3 : KeptCell w.cell s2 (s.rebind w) := by
      rw [hu]
      exact .foldl (fun t (e : Bind) => keptCell_releaseEnd w.cell t w.cell e.chan e.reader) _ s2
    refine ⟨(h1.toRecords.trans hr).trans h3.ownOnly.toRecords, ?_, fun k hk' => ?_, fun he => ?_⟩
    · rw [h3.ctx, ho, State.ctx_setCtx]
    · have h := hl k hk'
      rwa [h1.other k hk', ← h3.ctx] at h
    · refine (h1.trans (hk fun e hm => ?_)).trans h3.ownOnly
      obtain ⟨b, hb, hbe⟩ := List.mem_filterMap.1 hm
      rw [show s1.cell w.cell = (s.cell w.cell).setCtx w.ctx _ from State.cell_setCell s _ _, heldByOther_setCtx]
      exact he b hb e hbe

/-! ### The rollback as a whole (R43, R413) -/

/-- A context rolled back to the start of its segment. -/
def Ctx.rolledBack (x : Ctx) : Ctx :=
  { x with
    r := x.snap, budget := x.snapBudget, spared := x.spared && x.snapBudget == 0, held := [], journal := [], wait := none, fork := none
    qs := tmap (fun _ q => { entries := (q.shadow ++ q.entries).filter fun e => !e.thisSegment, shadow := [] }) x.qs
    eps := tmap (fun _ _ => {}) x.eps }

theorem onceMaster_eq_none {s : State} {w : Who} (h : (s.ctx w).inOnce = false) : s.onceMaster w = none := by
  unfold State.onceMaster
  unfold Ctx.inOnce at h
  split at h
  · cases h
  · rename_i hw
    cases hx : (s.ctx w).wait with
    | none => rfl
    | some z => cases z with
      | joined wire => exact absurd hx (hw wire)
      | _ => rfl

/-- From s to t, context w has rolled back. -/
structure RollsBack (w : Who) (s t : State) : Prop extends Records w.cell s t where
  own : t.ctx w = (s.ctx w).rolledBack
  other : ∀ k, k ≠ w.ctx → (s.ctx ⟨w.cell, k⟩).Loosened (t.ctx ⟨w.cell, k⟩)
  kept : (s.ctx w).r.binds = (s.ctx w).snap.binds ∨ s.keepsEnds w → OwnOnly w s t
  journal : ∀ off old js, (s.ctx w).r.binds = (s.ctx w).snap.binds → (s.ctx w).journal = .word off old :: js →
    readLE t.mem (cellKey w.cell off) 8 = old.toNat

theorem keepsEnds_of_keptCell {w : Who} {s t : State} (h : KeptCell w.cell s t) (hs : s.keepsEnds w) : t.keepsEnds w := by
  intro b hb e he
  rw [h.ctx] at hb
  rw [heldByOther_alike h.alike]
  exact hs b hb e he

/-- The first journal record is undone last: its word holds its old value. -/
theorem readLE_undoAll_word (n : Nat) (s : State) (off : Nat) (old : W64) (js : List JRec) :
    readLE (undoAll n (.word off old :: js) s).mem (cellKey n off) 8 = old.toNat := by
  refine (readLE_writeLE _ _ 8 old.toNat).trans (Nat.mod_eq_of_lt ?_)
  have := old.isLt
  omega

theorem rollback_eq {s : State} {w : Who} (ho : (s.ctx w).once = none) (hm : (s.ctx w).inOnce = false) :
    ∃ s2 s3 : State, KeptCell w.cell s s3 ∧ s3.mem = s2.mem ∧
      (∀ off old js, (s.ctx w).journal = .word off old :: js → readLE s2.mem (cellKey w.cell off) 8 = old.toNat) ∧
      s.rollback w = ((s3.rebind w).setCtx w ((s3.rebind w).ctx w).rolledBack).setCell w.cell
        ((((s3.rebind w).setCtx w ((s3.rebind w).ctx w).rolledBack).cell w.cell).withdraw ((s3.rebind w).ctx w).act false) := by
  have h1 := keptCell_settle w.cell w.cell s
  have h2 := keptCell_undoAll w.cell w.cell ((s.settle w.cell).ctx w).journal (s.settle w.cell)
  let s2 := undoAll w.cell ((s.settle w.cell).ctx w).journal (s.settle w.cell)
  refine ⟨s2, _, (h1.trans h2).trans (keptCell_returnCredits w.cell w.cell (s2.ctx w).held s2), mem_returnCredits _ _ _,
    fun off old js hj => ?_, ?_⟩
  · rw [show s2 = undoAll w.cell (.word off old :: js) (s.settle w.cell) by rw [← hj, ← h1.ctx w]]
    exact readLE_undoAll_word w.cell _ off old js
  · have hu : s.unmatch w = s := by simp only [State.unmatch, ho]
    simp only [State.rollback, onceMaster_eq_none hm, State.rollbackOne, hu]
    rfl

theorem rollback_spec {s : State} {w : Who} (ho : (s.ctx w).once = none) (hm : (s.ctx w).inOnce = false) :
    RollsBack w s (s.rollback w) := by
  obtain ⟨s2, s3, h3, hmem, hj, hs⟩ := rollback_eq ho hm
  obtain ⟨hr, hown, hother, hkept⟩ := rebind_spec s3 w
  have hself : (s.ctx w).r.binds = (s.ctx w).snap.binds → s3.rebind w = s3 := fun hb => rebind_eq_self (by rw [h3.ctx]; exact hb)
  generalize s3.rebind w = s4 at hs hr hown hother hkept hself
  have h5 := ownOnly_setCtx w s4 (s4.ctx w).rolledBack
  have h6 : KeptCell w.cell (s4.setCtx w (s4.ctx w).rolledBack) (s.rollback w) := by
    rw [hs]
    exact keptCell_setCell _ _ ⟨rfl, rfl, rfl, rfl, rfl, rfl⟩
  have h56 := h5.trans h6.ownOnly
  refine ⟨(h3.ownOnly.toRecords.trans hr).trans h56.toRecords, ?_, fun k hk => ?_, fun hb => ?_, fun off old js hb hjs => ?_⟩
  · rw [h6.ctx, State.ctx_setCtx, hown, h3.ctx]
    rfl
  · have h := hother k hk
    rwa [h3.ctx, ← h56.other k hk] at h
  · refine (h3.ownOnly.trans ?_).trans h56
    obtain hb | hb := hb
    · rw [hself hb]
      exact .refl w s3
    · exact hkept (keepsEnds_of_keptCell h3 hb)
  · rw [hs]
    show readLE s4.mem _ _ = _
    rw [hself hb, hmem]
    exact hj off old js hjs

/-! ### Bins that take their messages back (R36) -/

theorem insertArrival_perm (a : Arrival) (l : List Arrival) : (insertArrival a l).Perm (a :: l) := by
  induction l with
  | nil => exact .refl _
  | cons b l ih =>
    rw [insertArrival]
    split
    · exact .refl _
    · exact (ih.cons b).trans (.swap a b l)

/-- In arrival order. -/
def InOrder (l : List Arrival) : Prop := l.Pairwise fun a a' => a.seq ≤ a'.seq

theorem insertArrival_inOrder (a : Arrival) {l : List Arrival} (h : InOrder l) : InOrder (insertArrival a l) := by
  induction l with
  | nil => exact List.pairwise_singleton _ a
  | cons b l ih =>
    obtain ⟨hb, hl⟩ := List.pairwise_cons.1 h
    rw [insertArrival]
    split
    · rename_i hab
      have hab : a.seq < b.seq := by simpa [Arrival.before] using hab
      refine List.pairwise_cons.2 ⟨fun c hc => ?_, h⟩
      obtain rfl | hc := List.mem_cons.1 hc
      · exact Nat.le_of_lt hab
      · exact Nat.le_trans (Nat.le_of_lt hab) (hb c hc)
    · rename_i hab
      have hab : b.seq ≤ a.seq := by simpa [Arrival.before] using hab
      refine List.pairwise_cons.2 ⟨fun c hc => ?_, ih hl⟩
      obtain rfl | hc := List.mem_cons.1 ((insertArrival_perm a l).mem_iff.1 hc)
      · exact hab
      · exact hb c hc

theorem insertAll_spec (msgs l : List Arrival) :
    (msgs.foldl (fun l a => insertArrival a l) l).Perm (msgs ++ l) ∧
    (InOrder l → InOrder (msgs.foldl (fun l a => insertArrival a l) l)) := by
  induction msgs generalizing l with
  | nil => exact ⟨.refl _, id⟩
  | cons a msgs ih =>
    obtain ⟨h1, h2⟩ := ih (insertArrival a l)
    exact ⟨h1.trans (((insertArrival_perm a l).append_left msgs).trans List.perm_middle), fun h => h2 (insertArrival_inOrder a h)⟩

/-- A cell with the bin of an entry held for one more trap, whose messages are back in it. -/
def Cell.holdBin (c : Cell) (e : PC) (msgs : List Arrival) : Cell :=
  match c.bin? e with
  | some b => c.setBin { b with msgs := msgs.foldl (fun l a => insertArrival a l) b.msgs, held := b.held + 1, firstSegs := b.firstSegs - 1 }
  | none =>
    if c.bins.length < 16 then
      let b := c.newBin e []
      { c with bins := c.bins ++ [{ b with msgs := msgs.foldl (fun l a => insertArrival a l) b.msgs, held := b.held + 1 }] }
    else c

theorem holdBin_ctxs (c : Cell) (e : PC) (msgs : List Arrival) :
    (c.holdBin e msgs).ctxs = c.ctxs ∧ (c.holdBin e msgs).pending = c.pending := by
  unfold Cell.holdBin
  split
  · exact ⟨rfl, rfl⟩
  · split <;> exact ⟨rfl, rfl⟩

theorem bin?_setBin {c : Cell} {e : PC} {b b' : Bin} (h : c.bin? e = some b) (he : b'.entry = b.entry) :
    (c.setBin b').bin? e = some b' := by
  have hb : b.entry = e := by simpa using List.find?_some h
  unfold Cell.bin? at h ⊢
  show (c.bins.map _).find? _ = _
  rw [List.find?_map]
  have hf : ((fun b : Bin => b.entry == e) ∘ fun x => if x.entry == b'.entry then b' else x) = fun b : Bin => b.entry == e := by
    funext x
    by_cases hx : x.entry = b'.entry <;> simp [hx]
  rw [hf, h]
  simp [he]

theorem holdBin_spec {c : Cell} {e : PC} (msgs : List Arrival) (h : c.bin? e ≠ none ∨ c.bins.length < 16) :
    ∃ b l, (c.holdBin e msgs).bin? e = some b ∧ b.msgs.Perm (msgs ++ l) ∧ 0 < b.held ∧
      (∀ z, c.bin? e = some z → l = z.msgs) ∧ (InOrder l → InOrder b.msgs) := by
  cases hb : c.bin? e with
  | some b =>
    obtain ⟨h1, h2⟩ := insertAll_spec msgs b.msgs
    refine ⟨{ b with msgs := msgs.foldl (fun l a => insertArrival a l) b.msgs, held := b.held + 1, firstSegs := b.firstSegs - 1 },
      b.msgs, ?_, h1, Nat.succ_pos _, fun z hz => ?_, h2⟩
    · simp only [Cell.holdBin, hb]
      exact bin?_setBin hb rfl
    · cases hz
      rfl
  | none =>
    have hl := h.resolve_left (fun hn => hn hb)
    obtain ⟨h1, h2⟩ := insertAll_spec msgs (c.newBin e []).msgs
    refine ⟨{ c.newBin e [] with
        msgs := msgs.foldl (fun l a => insertArrival a l) (c.newBin e []).msgs, held := (c.newBin e []).held + 1 },
      _, ?_, h1, Nat.succ_pos _, fun z hz => (nomatch hz), h2⟩
    simp only [Cell.holdBin, hb, if_pos hl]
    unfold Cell.bin? at hb ⊢
    rw [List.find?_append, hb]
    simp [Cell.newBin]

/-! ### The trap itself (R414) -/

theorem ownOnly_unbind (s : State) (w : Who) (q : Nat) : OwnOnly w s (s.unbind w q) := by
  unfold State.unbind
  simp only
  split
  · exact .refl w s
  · exact (ownOnly_setCtx w s _).trans (keptCell_releaseEnd w.cell _ w.cell _ _).ownOnly

theorem ownOnly_unbindAll (w : Who) (l : List Nat) (s : State) : OwnOnly w s (unbindAll w l s) := by
  induction l generalizing s with
  | nil => exact .refl w s
  | cons q l ih => exact (ownOnly_unbind s w q).trans (ih _)

/-- A context rolled back, with its trap registers written. -/
def Ctx.trapped (x : Ctx) (tr : TrapRegs) : Ctx := { x.rolledBack with trap := tr }

theorem Ctx.trapped_first (x : Ctx) (tr : TrapRegs) : (x.trapped tr).first = x.first := rfl
theorem Ctx.trapped_entry (x : Ctx) (tr : TrapRegs) : (x.trapped tr).entry = x.entry := rfl
theorem Ctx.trapped_trigger (x : Ctx) (tr : TrapRegs) : (x.trapped tr).trigger = x.trigger := rfl
theorem Ctx.trapped_trap (x : Ctx) (tr : TrapRegs) : (x.trapped tr).trap = tr := rfl

/-- What a trap writes into the trap registers of its context, and a record of it. -/
theorem trapRegs_spec {s : State} {w : Who} (t : Trap) (pc : PC) (ho : (s.ctx w).once = none) (hm : (s.ctx w).inOnce = false) :
    ∃ tr : TrapRegs, tr.cause = t.cause ∧ tr.pc = pc ∧ (∀ a, t.addr = some a → tr.addr = a) ∧
      RollsBack w s (s.rollback w) ∧ (s.trapRegs w t pc).ctx w = (s.ctx w).trapped tr ∧
      OwnOnly w (s.rollback w) (s.trapRegs w t pc) ∧
      ((s.cell w.cell).trace.bytes = 0 → (s.trapRegs w t pc).mem = (s.rollback w).mem) := by
  have hr := rollback_spec ho hm
  obtain ⟨tr, rest, he, h1, h2, h3⟩ : ∃ (tr : TrapRegs) (rest : List W64),
      s.trapRegs w t pc = ((s.rollback w).setCtx w { (s.rollback w).ctx w with trap := tr }).trace w 5 pc rest ∧
      tr.cause = t.cause ∧ tr.pc = pc ∧ ∀ a, t.addr = some a → tr.addr = a :=
    ⟨_, _, rfl, rfl, rfl, fun a ha => by simp [ha]⟩
  have hk := keptCell_trace ((s.rollback w).setCtx w { (s.rollback w).ctx w with trap := tr }) w 5 pc rest
  have hset := ownOnly_setCtx w (s.rollback w) { (s.rollback w).ctx w with trap := tr }
  refine ⟨tr, h1, h2, h3, hr, ?_, ?_, fun h0 => ?_⟩
  · rw [he, hk.ctx, State.ctx_setCtx, hr.own]
    rfl
  · rw [he]
    exact hset.trans hk.ownOnly
  · rw [he, trace_eq_self (by rw [hset.traceBytes, hr.traceBytes, h0])]
    rfl

/-- A trap's record is the last message, to the fault server. -/
theorem report_spec (s : State) (w : Who) (r : Frec) :
    OwnOnly w s (s.report (s.partNo w.cell) (.cell w.cell) r) ∧
    (s.report (s.partNo w.cell) (.cell w.cell) r).ctx w = s.ctx w ∧
    (s.report (s.partNo w.cell) (.cell w.cell) r).cell w.cell = s.cell w.cell ∧
    (s.report (s.partNo w.cell) (.cell w.cell) r).mem = s.mem ∧
    ∃ l seq d, (s.report (s.partNo w.cell) (.cell w.cell) r).net = l ++
      [{ vn := .system, src := .cell w.cell, dst := s.serverOf (s.partNo w.cell), body := .parcel (.record { r with seq } d) }] := by
  have hb := beside_report (s := s) (n := w.cell) rfl (.cell w.cell) r
  refine ⟨hb.keptCell.ownOnly, hb.keptCell.ctx w, State.cell_of_cells hb.cells _, ?_, ?_⟩
  all_goals
    simp only [State.report]
    split
  · rfl
  · rfl
  · have hp := SamePart.setPart w.cell s ((s.part (s.partNo w.cell)).seq + 1) (s.part (s.partNo w.cell)).freeBlocks
    have hs := hp.serverOf rfl
    rw [hp.partNo] at hs
    exact ⟨s.net, _, _, by rw [← hs]; rfl⟩
  · exact ⟨s.net, r.seq, _, rfl⟩

/-- The messages of an activation in its first segment that a trap returns to their bin (R36, R422). -/
def State.returns (s : State) (w : Who) : List Arrival := (s.ctx w).trigger.filter fun a => !(s.cell w.cell).drops a

/-- What a trap t of context w comes to before its record r leaves: the state v, in which the cell has the value c but for the new pending
trap p. -/
structure TrapEnds (s : State) (w : Who) (t : Trap) (v : State) (c : Cell) (p : PendTrap) (r : Frec) : Prop where
  own : OwnOnly w (s.rollback w) v
  ctxs : c.ctxs = (v.cell w.cell).ctxs
  pending : c.pending = (v.cell w.cell).pending
  record : r.cause = t.cause ∧ r.vreq = true ∧ r.first = (s.ctx w).first ∧ r.pc = (s.ctx w).r.pc ∧ r.ctx = BitVec.ofNat 3 w.ctx ∧
    r.xid = t.xid ∧ r.subcause = t.sub ∧ ∀ a, t.addr = some a → r.addr = a
  trap : p.ctx = BitVec.ofNat 3 w.ctx ∧ p.regs.cause = t.cause ∧ p.regs.pc = (s.ctx w).r.pc ∧ ∀ a, t.addr = some a → p.regs.addr = a
  first : (s.ctx w).first = true → p.bin = some (plEntry (s.ctx w).entry) ∧ p.msgs = s.returns w ∧ (v.ctx w).status = .free ∧
    ∃ c0 : Cell, c0.bins = (s.cell w.cell).bins ∧ c = c0.holdBin (plEntry (s.ctx w).entry) (s.returns w)
  later : (s.ctx w).first = false → p.bin = none ∧
    v.ctx w = { (s.ctx w).trapped p.regs with status := .parked, stopNext := false } ∧
    ((s.cell w.cell).trace.bytes = 0 → v.mem = (s.rollback w).mem)

theorem trapOne_spec {s : State} {w : Who} (t : Trap) (ho : (s.ctx w).once = none) (hm : (s.ctx w).inOnce = false) :
    ∃ v c p r, TrapEnds s w t v c p r ∧
      let u := v.setCell w.cell { c with pending := c.pending ++ [p] }
      s.trapOne w t (s.ctx w).r.pc = u.report (u.partNo w.cell) (.cell w.cell) r := by
  obtain ⟨tr, h1, h2, h3, hr, hx, hown, hmem⟩ := trapRegs_spec t (s.ctx w).r.pc ho hm
  unfold State.trapOne
  extract_lets s1 x r e sUnbound sFreed cFreed msgs sSub b cHeld pFirst sParked cParked pLater s2
  have hx : x = (s.ctx w).trapped tr := hx
  have hfirst : x.first = (s.ctx w).first := by rw [hx, Ctx.trapped_first]
  have he : e = plEntry (s.ctx w).entry := by
    show plEntry x.entry = _
    rw [hx, Ctx.trapped_entry]
  have htrig : x.trigger = (s.ctx w).trigger := by rw [hx, Ctx.trapped_trigger]
  have htr : x.trap = tr := by rw [hx, Ctx.trapped_trap]
  have hrec : r.cause = t.cause ∧ r.vreq = true ∧ r.first = (s.ctx w).first ∧ r.pc = (s.ctx w).r.pc ∧ r.ctx = BitVec.ofNat 3 w.ctx ∧
      r.xid = t.xid ∧ r.subcause = t.sub ∧ ∀ a, t.addr = some a → r.addr = a :=
    ⟨rfl, rfl, hfirst, rfl, rfl, rfl, rfl, fun a ha => (congrArg TrapRegs.addr htr).trans (h3 a ha)⟩
  have hregs : x.trap.cause = t.cause ∧ x.trap.pc = (s.ctx w).r.pc ∧ ∀ a, t.addr = some a → x.trap.addr = a := by
    rw [htr]
    exact ⟨h1, h2, h3⟩
  have hother : ∀ b, (s.ctx w).first = b → x.first = !b → False := fun b hb hn => by
    rw [hfirst, hb] at hn
    cases b <;> cases hn
  cases hf : x.first with
  | true =>
    have hfreed : OwnOnly w (s.rollback w) sFreed := (hown.trans (ownOnly_unbindAll w endpoints s1)).trans (ownOnly_setCtx w sUnbound _)
    have hsub : KeptCell w.cell sFreed sSub := keptCell_subtract w.cell sFreed w.cell _
    have hmsgs : msgs = s.returns w := by
      have hd : cFreed.drops = (s.cell w.cell).drops := by
        funext a
        rw [Cell.drops, Cell.drops, hfreed.dropping, hr.dropping]
      rw [State.returns, ← htrig, ← hd]
    have hbins : cFreed.bins = (s.cell w.cell).bins := hfreed.bins.trans hr.bins
    have hctxs : (sSub.cell w.cell).ctxs = cFreed.ctxs := hsub.alike.ctxs
    have hpend : (sSub.cell w.cell).pending = cFreed.pending := hsub.alike.pending
    have hfree : (sSub.ctx w).status = .free := by
      rw [hsub.ctx, State.ctx_setCtx]
      rfl
    have hs2 : s2 = sSub.setCell w.cell { cHeld with pending := cHeld.pending ++ [pFirst] } := if_pos hf
    have hown := hfreed.trans hsub.ownOnly
    clear hsub hfreed
    clear_value sSub cFreed
    have hheld : cHeld = cFreed.holdBin e msgs := rfl
    obtain ⟨hc, hp⟩ := holdBin_ctxs cFreed e msgs
    refine ⟨sSub, cHeld, pFirst, r, ⟨hown, ?_, ?_, hrec, ⟨rfl, hregs⟩, fun _ => ⟨?_, hmsgs, hfree, cFreed, hbins, ?_⟩,
      fun h => (hother _ h hf).elim⟩, by rw [hs2]⟩
    · rw [hheld, hc, hctxs]
    · rw [hheld, hp, hpend]
    · rw [← he]
    · rw [hheld, he, hmsgs]
  | false =>
    have hs2 : s2 = sParked.setCell w.cell { cParked with pending := cParked.pending ++ [pLater] } := if_neg (by simp [hf])
    have hv : OwnOnly w s1 sParked := ownOnly_setCtx w s1 _
    refine ⟨sParked, cParked, pLater, r, ⟨hown.trans hv, rfl, rfl, hrec, ⟨rfl, hregs⟩, fun h => (hother _ h hf).elim,
      fun _ => ⟨rfl, ?_, hmem⟩⟩, by rw [hs2]⟩
    have hp : pLater.regs = tr := htr
    rw [hp, State.ctx_setCtx, hx]

theorem takeTrap_eq_trapOne {s : State} {w : Who} (t : Trap) (ho : (s.ctx w).once = none) (hw : (s.ctx w).wait ≠ some .mma) :
    s.takeTrap w t = s.trapOne w t (s.ctx w).r.pc := by
  simp only [State.takeTrap, ho]
  exact if_neg (by simpa using hw)

/-- Settles O60: the trap rolls its segment back (`rollback_spec`), frees or parks its context (`trapOne_spec`), and its record leaves last. -/
theorem trapsAreTaken : Obligations.TrapsAreTaken := by
  unfold Obligations.TrapsAreTaken
  intro s w t x u msgs ho hmma hm
  have hr := rollback_spec ho hm
  obtain ⟨v, c, p, r, hv, he⟩ := trapOne_spec t ho hm
  have hu : u = s.trapOne w t (s.ctx w).r.pc := takeTrap_eq_trapOne t ho hmma
  rw [← hu] at he
  generalize hm0 : v.setCell w.cell { c with pending := c.pending ++ [p] } = m at he
  have hmctx : ∀ k, m.ctx ⟨w.cell, k⟩ = v.ctx ⟨w.cell, k⟩ := fun k => by
    rw [← hm0]
    refine State.ctx_setCell v ?_ _
    exact hv.ctxs
  have hmcell : m.cell w.cell = { c with pending := c.pending ++ [p] } := by rw [← hm0, State.cell_setCell]
  have hmpart : SamePart w.cell v m := by
    rw [← hm0]
    exact .of_parts rfl
  have hmdies : m.dies = v.dies := by rw [← hm0]; rfl
  have hmmem : m.mem = v.mem := by rw [← hm0]; rfl
  have hvs := hr.toRecords.trans hv.own.toRecords
  obtain ⟨hro, hrx, hrc, hrm, l, seq, d, hnet⟩ := report_spec m w r
  rw [← he] at hro hrx hrc hrm hnet
  have hux : u.ctx w = v.ctx w := hrx.trans (hmctx w.ctx)
  refine ⟨⟨l, { r with seq }, d, ?_, hv.record⟩, ⟨p, ?_, hv.trap.1, hv.trap.2.1, hv.trap.2.2.1, hv.trap.2.2.2, fun hf => ?_, fun hf => ?_⟩,
    fun hf => ⟨?_, fun hbin => ?_⟩, fun hf => ?_, fun k hk => ⟨?_, fun hb => ?_⟩⟩
  · rw [hnet, ((hvs.part.trans hmpart)).serverOf (hmdies.trans hvs.dies)]
  · rw [hrc, hmcell, ← hvs.pending, ← hv.pending]
  · obtain ⟨h1, h2, -, -⟩ := hv.first hf
    exact ⟨h1, h2⟩
  · obtain ⟨h1, h2, -⟩ := hv.later hf
    exact ⟨h1, by rw [hux, h2, Ctx.trapped]⟩
  · obtain ⟨-, -, h3, -⟩ := hv.first hf
    rw [hux, h3]
  · obtain ⟨-, -, -, c0, hc0, hc⟩ := hv.first hf
    have hb0 : c0.bin? = (s.cell w.cell).bin? := by
      funext e
      rw [Cell.bin?, Cell.bin?, hc0]
    obtain ⟨b, l, g1, g2, g3, g4, g5⟩ := holdBin_spec (c := c0) (s.returns w) (by rw [hb0, hc0]; exact hbin)
    refine ⟨b, l, ?_, g2, g3, fun z hz => g4 z (by rw [hb0]; exact hz), g5⟩
    rw [hrc, hmcell, hc]
    exact g1
  · obtain ⟨-, hx, hmem⟩ := hv.later hf
    rw [hux, hx]
    refine ⟨rfl, rfl, rfl, rfl, rfl, rfl, rfl, fun off old js hb h0 hj => ?_⟩
    rw [hrm, hmmem, hmem h0]
    exact hr.journal off old js hb hj
  · obtain ⟨binds, eps, hz⟩ := hr.other k hk
    rw [hro.other k hk, hmctx, hv.own.other k hk, hz]
  · rw [hro.other k hk, hmctx, hv.own.other k hk, (hr.kept hb).other k hk]

end Sys2Proof.Machine
end

section
/-! BARA (O31). -/

namespace Sys2Proof.Machine
open Sys2Proof.Claims

/-! ### Queued stores performed before a later access of the context (R171, R273) -/

theorem keptCell_settleNear (n : Nat) (s : State) (w : Who) (l : List (Nat × Nat)) : KeptCell n s (s.settleNear w l) :=
  keptCell_settleWhere n w.cell s _

/-- Of the fields of its cell, stores that are performed change only their queue. -/
theorem settleWhere_cell (s : State) (n : Nat) (need : BankWrite → Bool) :
    ∃ bankQ, (s.settleWhere n need).cell n = { s.cell n with bankQ } := by
  simp only [State.settleWhere]
  split
  · exact ⟨_, rfl⟩
  · exact ⟨_, by rw [State.cell_setCell]⟩

theorem settleNear_me (s : State) (l : List (Nat × Nat)) : (s.settleNear s.cur l).me = s.me := (keptCell_settleNear s.cur.cell s s.cur l).me

theorem settleNear_cur (s : State) (w : Who) (l : List (Nat × Nat)) : (s.settleNear w l).cur = s.cur := (keptCell_settleNear w.cell s w l).cur

theorem settleNear_myCell (s : State) (l : List (Nat × Nat)) : ∃ bankQ, (s.settleNear s.cur l).myCell = { s.myCell with bankQ } := by
  obtain ⟨q, hq⟩ := settleWhere_cell s s.cur.cell fun b => b.ctx == s.cur.ctx || l.any fun y => b.touches y.1 y.2
  exact ⟨q, by rw [State.myCell, settleNear_cur]; exact hq⟩

theorem settleNear_bar (s : State) (l : List (Nat × Nat)) (b : Nat) : (s.settleNear s.cur l).myCell.bar b = s.myCell.bar b := by
  obtain ⟨q, hq⟩ := settleNear_myCell s l
  rw [hq]
  rfl

/-! ### Barriers and arrival records (R213, R214) -/

theorem bar_setBar (c : Cell) (b : Nat) (x : Barrier) : (c.setBar b x).bar b = x := tget_tset _ _ _ _

theorem bar_setBar_ne (c : Cell) {b j : Nat} (x : Barrier) (h : j ≠ b) : (c.setBar b x).bar j = c.bar j := tget_tset_ne _ _ _ h

theorem bar_setCtx (c : Cell) (k : Nat) (x : Ctx) (b : Nat) : (c.setCtx k x).bar b = c.bar b := rfl

/-- A context whose arrival record of a barrier holds a phase. -/
def Ctx.arrived (x : Ctx) (b : Nat) (phase : W32) : Ctx := { x with r := { x.r with arrs := tset x.r.arrs b (some phase) } }

theorem arrival_arrived (x : Ctx) (b : Nat) (phase : W32) : (x.arrived b phase).arrival b = some phase := tget_tset _ _ _ _

theorem arrival_arrived_ne (x : Ctx) {b j : Nat} (phase : W32) (h : j ≠ b) : (x.arrived b phase).arrival j = x.arrival j :=
  tget_tset_ne _ _ _ h

theorem recordArrival_eq (s : State) (b : Nat) : s.recordArrival b = s.setMe (s.me.arrived b (s.myCell.bar b).phase) := rfl

/-- A barrier whose phase the arrival does not complete counts it, and one whose phase it completes starts the next. -/
theorem arrive_cases (x : Barrier) (member : Nat) (deps : List Nat) :
    (x.arrivals + 1 = x.parties → (x.arrive member deps).2 = true ∧ (x.arrive member deps).1.arrivals = 0 ∧
      (x.arrive member deps).1.phase = x.phase + 1) ∧
    (x.arrivals + 1 ≠ x.parties → (x.arrive member deps).2 = false ∧ (x.arrive member deps).1.arrivals = x.arrivals + 1 ∧
      (x.arrive member deps).1.phase = x.phase) := by
  refine ⟨fun h => ?_, fun h => ?_⟩
  · rw [Barrier.arrive, if_pos (beq_iff_eq.2 h)]
    exact ⟨rfl, rfl, rfl⟩
  · rw [Barrier.arrive, if_neg (fun e => h (beq_iff_eq.1 e))]
    exact ⟨rfl, rfl, rfl⟩

theorem barTrap_overrun {s : State} {b : Nat} {sc : Scope} (hp : (s.myCell.bar b).parties ≠ 0)
    (hs : (s.myCell.bar b).span = 0 ∨ sc ≠ .cell) (ha : s.me.arrival b = some (s.myCell.bar b).phase) :
    barTrap s b sc true = some { cause := causeBarrierOverrun } := by
  have hc : ((s.myCell.bar b).span != 0 && sc == .cell) = false := by
    obtain h | h := hs <;> simp [h]
  simp only [barTrap, beq_eq_false_iff_ne.2 hp, hc, ha, beq_self_eq_true, Bool.and_self, Bool.false_eq_true, if_false, if_true]

theorem barTrap_none {s : State} {b : Nat} {sc : Scope} (hp : (s.myCell.bar b).parties ≠ 0)
    (hs : (s.myCell.bar b).span = 0 ∨ sc ≠ .cell) (ha : s.me.arrival b ≠ some (s.myCell.bar b).phase) :
    barTrap s b sc true = none := by
  have hc : ((s.myCell.bar b).span != 0 && sc == .cell) = false := by
    obtain h | h := hs <;> simp [h]
  simp only [barTrap, beq_eq_false_iff_ne.2 hp, hc, beq_eq_false_iff_ne.2 ha, Bool.and_false, Bool.false_eq_true, if_false]

/-! ### An arrival at CELL scope (R214) -/

section
variable {n : Nat} {h : Head} {b : Nat} {ord : Order} {s : State} (hg : s.me.guard h = true) (hq : s.me.acquiring = false)
  (hp : (s.myCell.bar b).parties ≠ 0) (hs : (s.myCell.bar b).span = 0)
include hg hq hp hs

theorem baraHere_overrun (ha : s.me.arrival b = some (s.myCell.bar b).phase) :
    Traps s (baraHere n h b ord s) causeBarrierOverrun := by
  simp only [Traps, baraHere, hg, hq, barTrap_overrun hp (.inl hs) ha, Bool.not_true, Bool.false_eq_true, if_false]
  exact finishLen_trap_other _ (by decide)

theorem baraHere_holds (ha : s.me.arrival b ≠ some (s.myCell.bar b).phase) (hr : ord.rel = true) (ho : s.holdsOwn s.cur = true) :
    Waits (s.commit s.cur 1) (baraHere n h b ord s) (.releases (some .cell)) := by
  simp only [Waits, baraHere, hg, hq, barTrap_none hp (.inl hs) ha, hr, ho, Bool.not_true, Bool.false_eq_true, if_false, Bool.and_true,
    if_true, finishLen_wait]

theorem baraHere_releases (ha : s.me.arrival b ≠ some (s.myCell.bar b).phase) (hr : ord.rel = true) (ho : s.holdsOwn s.cur = false)
    (hc : s.relClear s.cur .cell = false) : Waits s (baraHere n h b ord s) (.releases (some .cell)) := by
  simp only [Waits, baraHere, hg, hq, barTrap_none hp (.inl hs) ha, hr, ho, hc, Bool.not_true, Bool.not_false, Bool.false_eq_true,
    if_false, Bool.and_true, Bool.and_false, if_true, finishLen_wait]

theorem baraHere_go (ha : s.me.arrival b ≠ some (s.myCell.bar b).phase)
    (hr : ord.rel = true → s.holdsOwn s.cur = false ∧ s.relClear s.cur .cell = true) :
    ∃ deps, baraHere n h b ord s =
      let t := s.settleNear s.cur []
      if ((t.myCell.bar b).arrive t.cur.cell deps).2 then
        let t := t.recordArrival b
        finish (.done (t.setMyCell (t.myCell.setBar b ((t.myCell.bar b).arrive t.cur.cell deps).1)))
          fun s => (s.setMe (s.me.past n)).commit s.cur 1
      else finishLen n (withRoom t 0 2 fun t =>
        let t := (t.journal (.arrival b (t.myCell.bar b).phase)).recordArrival b
        .done (t.setMyCell (t.myCell.setBar b ((t.myCell.bar b).arrive t.cur.cell deps).1))) := by
  have h1 : (ord.rel && s.holdsOwn s.cur) = false := by
    cases hrel : ord.rel with
    | false => rfl
    | true => simp [(hr hrel).1]
  have h2 : (ord.rel && !s.relClear s.cur .cell) = false := by
    cases hrel : ord.rel with
    | false => rfl
    | true => simp [(hr hrel).2]
  refine ⟨if ord.rel then (s.settleNear s.cur []).relDepsOf (s.settleNear s.cur []).cur (s.settleNear s.cur []).me.deps else [], ?_⟩
  simp only [baraHere, hg, hq, barTrap_none hp (.inl hs) ha, h1, h2, Bool.not_true, Bool.false_eq_true, if_false]

end

theorem bar_setMe (t : State) (y : Ctx) (b : Nat) : (t.setMe y).myCell.bar b = t.myCell.bar b := by
  have h : (t.setMe y).myCell = t.myCell.setCtx t.cur.ctx y := State.cell_setCell _ _ _
  rw [h, bar_setCtx]

theorem onlyCell_setMe {s t : State} (h : OnlyCell s t) (y : Ctx) : OnlyCell s (t.setMe y) := by
  obtain ⟨ht, hm⟩ := h
  refine ⟨?_, hm⟩
  have hcur : t.cur = s.cur := by rw [ht]; rfl
  have hcell : (t.setMe y).myCell = t.myCell.setCtx t.cur.ctx y := State.cell_setCell _ _ _
  rw [hcell]
  conv_lhs => rw [ht]
  simp [State.setMe, State.setCtx, State.setMyCell, hcur]

/-- A state in which the issuing context has been written, and then a barrier of its cell. -/
def State.countIn (t : State) (y : Ctx) (b : Nat) (x : Barrier) : State :=
  (t.setMe y).setMyCell ((t.setMe y).myCell.setBar b x)

theorem countIn_me (t : State) (y : Ctx) (b : Nat) (x : Barrier) : (t.countIn y b x).me = y := by
  have h : (t.countIn y b x).me = (t.setMe y).me := State.me_setMyCell (t.setMe y) rfl
  rw [h, State.me_setMe]

theorem countIn_myCell (t : State) (y : Ctx) (b : Nat) (x : Barrier) : (t.countIn y b x).myCell = (t.setMe y).myCell.setBar b x :=
  State.myCell_setMyCell _ _

theorem countIn_bar (t : State) (y : Ctx) (b : Nat) (x : Barrier) : (t.countIn y b x).myCell.bar b = x := by
  rw [countIn_myCell, bar_setBar]

theorem countIn_bar_ne (t : State) (y : Ctx) {b j : Nat} (x : Barrier) (h : j ≠ b) : (t.countIn y b x).myCell.bar j = t.myCell.bar j := by
  rw [countIn_myCell, bar_setBar_ne _ _ h, bar_setMe]

theorem onlyCell_countIn (t : State) (y : Ctx) (b : Nat) (x : Barrier) : OnlyCell t (t.countIn y b x) := by
  refine ⟨?_, fun _ => rfl⟩
  rw [countIn_myCell]
  simp [State.countIn, State.setMyCell, State.setMe, State.setCtx]

/-- A context with one more journal record. -/
def Ctx.withRecord (x : Ctx) (j : JRec) : Ctx := { x with journal := x.journal ++ [j] }

theorem journal_eq (s : State) (j : JRec) : s.journal j = s.setMe (s.me.withRecord j) := rfl

theorem journal_recordArrival (t : State) (j : JRec) (b : Nat) :
    (t.journal j).recordArrival b = t.setMe ((t.me.withRecord j).arrived b (t.myCell.bar b).phase) := by
  rw [recordArrival_eq, journal_eq, bar_setMe, State.me_setMe, State.setMe_setMe]

/-- An arrival that does not complete its phase. -/
theorem bara_journals {t : State} {n b : Nat} {x : Barrier} {deps : List Nat} (hbar : t.myCell.bar b = x) (hne : x.arrivals + 1 ≠ x.parties) :
    ∃ u, (let v := (t.journal (.arrival b (t.myCell.bar b).phase)).recordArrival b
        finishLen n (.done (v.setMyCell (v.myCell.setBar b ((v.myCell.bar b).arrive v.cur.cell deps).1)))) = .next u ∧
      OnlyCell t u ∧ Past t.me u.me n ∧ u.me.arrival b = some x.phase ∧ (u.myCell.bar b).arrivals = x.arrivals + 1 ∧
      (u.myCell.bar b).phase = x.phase ∧ (∀ j, j ≠ b → u.myCell.bar j = t.myCell.bar j ∧ u.me.arrival j = t.me.arrival j) ∧
      u.me = ((t.me.withRecord (.arrival b x.phase)).arrived b x.phase).past n := by
  obtain ⟨-, harr, hph⟩ := (arrive_cases x t.cur.cell deps).2 hne
  have hv : (let v := (t.journal (.arrival b (t.myCell.bar b).phase)).recordArrival b
      v.setMyCell (v.myCell.setBar b ((v.myCell.bar b).arrive v.cur.cell deps).1)) =
      t.countIn ((t.me.withRecord (.arrival b x.phase)).arrived b x.phase) b (x.arrive t.cur.cell deps).1 := by
    simp only [journal_recordArrival, bar_setMe, hbar, State.setMe_cur]
    rfl
  have hme := countIn_me t ((t.me.withRecord (.arrival b x.phase)).arrived b x.phase) b (x.arrive t.cur.cell deps).1
  refine ⟨_, (congrArg (fun v => finishLen n (.done v)) hv).trans (finishLen_done n _), onlyCell_setMe (onlyCell_countIn _ _ _ _) _, ?_⟩
  rw [hme, State.me_setMe, bar_setMe, countIn_bar]
  refine ⟨past_of_pc n rfl, arrival_arrived _ _ _, harr, hph, fun j hj => ⟨?_, arrival_arrived_ne _ _ hj⟩, rfl⟩
  rw [bar_setMe, countIn_bar_ne _ _ _ hj]

/-- An arrival that completes its phase. -/
theorem bara_completes {t : State} {n b : Nat} {x : Barrier} {deps : List Nat} (hbar : t.myCell.bar b = x) (heq : x.arrivals + 1 = x.parties) :
    ∃ u, (let v := t.recordArrival b
        finish (.done (v.setMyCell (v.myCell.setBar b ((v.myCell.bar b).arrive v.cur.cell deps).1)))
          fun s => (s.setMe (s.me.past n)).commit s.cur 1) = .next ((u.setMe (u.me.past n)).commit u.cur 1) ∧
      OnlyCell t u ∧ u.me.arrival b = some x.phase ∧ (u.myCell.bar b).arrivals = 0 ∧ (u.myCell.bar b).phase = x.phase + 1 ∧
      ∀ j, j ≠ b → u.myCell.bar j = t.myCell.bar j ∧ u.me.arrival j = t.me.arrival j := by
  obtain ⟨-, harr, hph⟩ := (arrive_cases x t.cur.cell deps).1 heq
  have hv : (let v := t.recordArrival b
      v.setMyCell (v.myCell.setBar b ((v.myCell.bar b).arrive v.cur.cell deps).1)) =
      t.countIn (t.me.arrived b x.phase) b (x.arrive t.cur.cell deps).1 := by
    simp only [recordArrival_eq, bar_setMe, hbar, State.setMe_cur]
    rfl
  refine ⟨_, congrArg (fun v : State => (.next ((v.setMe (v.me.past n)).commit v.cur 1) : Out)) hv, onlyCell_countIn _ _ _ _, ?_⟩
  rw [countIn_me, countIn_bar]
  exact ⟨arrival_arrived _ _ _, harr, hph, fun j hj => ⟨countIn_bar_ne _ _ _ hj, arrival_arrived_ne _ _ hj⟩⟩

/-- Settles O31: the checks first; then the arrival is counted by `Barrier.arrive` and recorded at CELL scope, and above it is held. -/
theorem barrierArrivals : Obligations.BarrierArrivals := by
  unfold Obligations.BarrierArrivals
  intro h bar ord s b n x
  refine ⟨fun hsc hg hq hp hs => ?_, fun hsc => ?_⟩
  · have hex : exec (.bara h bar ord) s = baraHere n h b ord s := by
      simp only [exec, execBara, hsc]
      rfl
    rw [hex]
    refine ⟨baraHere_overrun hg hq hp hs, fun ha hr => ⟨baraHere_holds hg hq hp hs ha hr, baraHere_releases hg hq hp hs ha hr⟩,
      fun ha hr => ?_⟩
    obtain ⟨deps, hgo⟩ := baraHere_go (n := n) hg hq hp hs ha hr
    rw [hgo]
    have hbar := settleNear_bar s []
    have hme := settleNear_me s []
    generalize s.settleNear s.cur [] = t at hbar hme ⊢
    obtain ⟨h1, h2⟩ := arrive_cases x t.cur.cell deps
    have hb : t.myCell.bar b = x := hbar b
    simp only [hb]
    refine ⟨fun hne hfits => ?_, fun heq => ?_⟩
    · obtain ⟨hf, -, -⟩ := h2 hne
      simp only [hf, Bool.false_eq_true, if_false]
      rw [withRoom_fits (by rw [hme]; exact hfits)]
      obtain ⟨u, h1, h2, h3, h4, h5, h6, h7, h8⟩ := bara_journals (n := n) (deps := deps) hb hne
      rw [hme] at h3 h8
      simp only [hme, hbar] at h7
      exact ⟨u, h1, h2, h3, h4, h5, h6, h7, by rw [h8]; rfl⟩
    · obtain ⟨hf, -, -⟩ := h1 heq
      simp only [hf, if_true]
      obtain ⟨u, h1, h2, h3, h4, h5, h6⟩ := bara_completes (n := n) (deps := deps) hb heq
      simp only [hme, hbar] at h6
      exact ⟨u, h1, h2, h3, h4, h5, h6⟩
  · intro c y hw hlive hg hq hp
    have hex : exec (.bara h bar ord) s = finish (afterAcquire c (match barTrap c b ord.scope true with
        | some t => .trap t c
        | none => withRoom c 16 0 fun s => .done (s.setMe ((s.me.arrived b (s.myCell.bar b).phase).hold
            [{ bytes := 16, rel := if ord.rel then some ord.scope else none, body := .arrive b (s.myCell.bar b).config }]))))
        fun s => (s.setMe (s.me.past n)).commit s.cur 3 := by
      have hg : s.commitBefore.me.guard h = true := hg
      simp only [exec, execBara, beq_eq_false_iff_ne.2 hsc, Bool.false_eq_true, if_false, boundary_of_live _ _ hw hlive, hg, Bool.not_true,
        recordArrival_eq, bar_setMe, State.me_setMe, State.setMe_setMe]
      rfl
    have hq : afterAcquire c = id := by
      funext k
      exact if_neg (by rw [hq]; simp)
    rw [hex, hq]
    refine ⟨fun ha => ?_, fun ha hfits => ?_⟩
    · rw [barTrap_overrun hp (.inr hsc) ha]
      exact finish_trap_other _ (by decide)
    · rw [barTrap_none hp (.inr hsc) ha]
      simp only [withRoom_fits hfits]
      refine ⟨_, rfl, onlyIssuer_setMe c _, ?_⟩
      rw [State.me_setMe]
      exact ⟨arrival_arrived _ _ _, _, rfl, rfl, rfl⟩

end Sys2Proof.Machine
end

section
/-! TWSET and TWGO (O37). -/

namespace Sys2Proof.Machine
open Sys2Proof.Claims

/-! ### The engine of a transfer (R238, R240) -/

/-- A transfer that waits for a word, or whose word has failed. -/
def Xfer.Moved (x y : Xfer) : Prop :=
  ∃ awaited failing faultCause subcause faultAddr, y = { x with awaited, failing, faultCause, subcause, faultAddr }

theorem Xfer.Moved.refl (x : Xfer) : x.Moved x := ⟨_, _, _, _, _, rfl⟩

theorem xfer_setXfer (s : State) (n slot : Nat) (x : Xfer) : ((s.setXfer n slot x).cell n).xfer slot = x := by
  rw [State.setXfer, State.cell_setCell]
  exact tget_tset _ _ _ _

theorem keptCell_setXfer (n : Nat) (s : State) (slot : Nat) (x : Xfer) : KeptCell n s (s.setXfer n slot x) :=
  keptCell_setCell n s ⟨rfl, rfl, rfl, rfl, rfl, rfl⟩

/-- From s to t the engine of a slot of cell n has asked for a word, or has failed to. -/
structure EngineAsks (n slot : Nat) (s t : State) : Prop where
  kept : KeptCell n s t
  moved : ((s.cell n).xfer slot).Moved ((t.cell n).xfer slot)

theorem EngineAsks.refl (n slot : Nat) (s : State) : EngineAsks n slot s s := ⟨.refl n s, .refl _⟩

theorem engineAsks_setXfer {s : State} {n slot : Nat} {x : Xfer} (h : ((s.cell n).xfer slot).Moved x) : EngineAsks n slot s (s.setXfer n slot x) :=
  ⟨keptCell_setXfer n s slot x, by rw [xfer_setXfer]; exact h⟩

theorem EngineAsks.post {n slot : Nat} {s t : State} (h : EngineAsks n slot s t) (m : Msg) : EngineAsks n slot s (t.post m) :=
  ⟨h.kept.trans (keptCell_post n t m), h.moved⟩

theorem engineAsks_engineSend (s : State) (n slot : Nat) (op : AccOp) (k : AccKind) (a data : W64) :
    EngineAsks n slot s (s.engineSend n slot op k a data) := by
  unfold State.engineSend
  simp only
  split
  · exact engineAsks_setXfer ⟨_, _, _, _, _, rfl⟩
  · exact (engineAsks_setXfer ⟨_, _, _, _, _, rfl⟩).post _
  · split
    · exact engineAsks_setXfer ⟨_, _, _, _, _, rfl⟩
    · exact (engineAsks_setXfer ⟨_, _, _, _, _, rfl⟩).post _

theorem engineAsks_engineNext (s : State) (n slot : Nat) : EngineAsks n slot s (s.engineNext n slot) := by
  unfold State.engineNext
  simp only
  split
  · exact .refl n slot s
  · split
    · exact .refl n slot s
    · split
      · exact .refl n slot s
      · split
        · exact engineAsks_engineSend s n slot _ _ _ _
        · exact engineAsks_engineSend s n slot _ _ _ _

/-- A transfer as TWGO arms it. -/
def State.armed (s : State) (x : Xfer) (ord : Order) (noPromise : Bool) : Xfer :=
  let p := s.partAt s.cur.cell
  let j := x.firstOpen
  let left := x.total - 512 * j
  let g := if noPromise then 0 else s.grantable p { x with busy := true, state := 0 }
  let L := s.me.low
  { x.openChunk j with
    busy := true, state := if j == x.chunks then 3 else 0, failing := false, faultAddr := 0, faultCause := 0, subcause := 0
    rel := ord.rel, scope := ord.scope, rate := g
    promise := if g = 0 then 0xFFFFFFFFFFFFFFFF else BitVec.ofNat 64 (s.tbc + 2000 + (left + g - 1) / g)
    starter := s.cur, act := s.me.act, deps := if ord.rel then s.relDepsOf s.cur s.me.deps else []
    olds := if ord.rel then [] else s.olds
    job := (s.me.hdr L).job, step := s.me.step L, wid := (s.me.hdr L).wid }

theorem armXfer_eq (s : State) (slot : Nat) (x : Xfer) (ord : Order) (noPromise : Bool) :
    s.armXfer slot x ord noPromise = (s.setXfer s.cur.cell slot (s.armed x ord noPromise)).engineNext s.cur.cell slot := rfl

theorem armXfer_spec (s : State) (slot : Nat) (x : Xfer) (ord : Order) (noPromise : Bool) :
    (s.armXfer slot x ord noPromise).me = s.me ∧ (s.armed x ord noPromise).Moved ((s.armXfer slot x ord noPromise).myCell.xfer slot) := by
  rw [armXfer_eq]
  obtain ⟨hk, hm⟩ := engineAsks_engineNext (s.setXfer s.cur.cell slot (s.armed x ord noPromise)) s.cur.cell slot
  rw [xfer_setXfer] at hm
  have h := (keptCell_setXfer s.cur.cell s slot (s.armed x ord noPromise)).trans hk
  refine ⟨h.toKept.me, ?_⟩
  rw [State.myCell, h.cur]
  exact hm

/-- A transfer of which no chunk is complete starts at its first chunk. -/
theorem firstOpen_of_done_nil {x : Xfer} (hd : x.done = []) (h : 0 < x.total) : x.firstOpen = 0 ∧ x.chunks ≠ 0 := by
  have hc : x.chunks ≠ 0 := by
    unfold Xfer.chunks
    omega
  obtain ⟨m, hm⟩ := Nat.exists_eq_succ_of_ne_zero hc
  refine ⟨?_, hc⟩
  simp [Xfer.firstOpen, hm, List.range_succ_eq_map, Xfer.bit, hd]

theorem total_pos_of_twDescBad {s : State} {x : Xfer} {g : W64} (h : s.twDescBad x g = false) : 0 < x.total := by
  simp only [State.twDescBad, Bool.or_eq_false_iff, beq_eq_false_iff_ne] at h
  obtain ⟨⟨⟨⟨⟨⟨⟨⟨-, hrows⟩, hbytes⟩, -⟩, -⟩, -⟩, -⟩, -⟩, -⟩ := h
  exact Nat.mul_pos (Nat.pos_of_ne_zero hrows) (Nat.pos_of_ne_zero hbytes)

/-! ### What TWGO does behind its checks (R239 to R241) -/

/-- A transfer as it takes a slot: the slot has one more use. -/
def Cell.newXfer (c : Cell) (slot : Nat) (x : Xfer) : Xfer := { x with uses := (c.xfer slot).uses + 1, order := c.xferOrder }

/-- The issuing cell with one more transfer numbered. -/
def State.nextOrder (s : State) : State := s.setMyCell { s.myCell with xferOrder := s.myCell.xferOrder + 1 }

theorem nextOrder_me (s : State) : s.nextOrder.me = s.me := by
  refine State.me_setMyCell s ?_
  rfl

/-- A TWGO whose releases are performed goes on, behind the queued stores of its context where it has REL. -/
theorem twRelease_go {s : State} {ord : Order} (h : ord.rel = true → s.relClear s.cur ord.scope = true) :
    ∃ t bankQ, t.me = s.me ∧ t.cur = s.cur ∧ t.myCell = { s.myCell with bankQ } ∧ ∀ k, twRelease s ord k = k t := by
  cases hr : ord.rel with
  | false => exact ⟨s, s.myCell.bankQ, rfl, rfl, rfl, fun k => by simp [twRelease, hr]⟩
  | true =>
    obtain ⟨q, hq⟩ := settleNear_myCell s []
    exact ⟨s.settleNear s.cur [], q, settleNear_me s [], settleNear_cur s s.cur [], hq, fun k => by simp [twRelease, hr, h hr]⟩

/-- The context that an armed transfer leaves: only its destination register has changed. -/
theorem armXfer_setS (t : State) (slot : Nat) (x : Xfer) (ord : Order) (noPromise : Bool) (d : Reg) (v : W64) :
    let u := (t.setMe (t.me.setS d.toNat v)).armXfer slot x ord noPromise
    u.me = t.me.setS d.toNat v ∧ RegsOnly t.me (u.me.past 0) [] [d.toNat] [] [] ∧ (d ≠ 0 → u.me.s d.toNat = v) ∧
    ((t.setMe (t.me.setS d.toNat v)).armed x ord noPromise).Moved (u.myCell.xfer slot) := by
  obtain ⟨hme, hm⟩ := armXfer_spec (t.setMe (t.me.setS d.toNat v)) slot x ord noPromise
  rw [State.me_setMe] at hme
  refine ⟨hme, ?_, fun hd => ?_, hm⟩
  · rw [hme]
    exact regsOnly_setS_past t.me d.toNat v 0
  · rw [hme]
    have h := setS_reg_past t.me d v 0
    rwa [if_neg hd, Ctx.s_past] at h

section
variable {h : Head} {ord : Order} {d : Reg} {s0 : State} (hw : s0.me.commitWaits = false) (hl : s0.commitBefore.me.r.live ≠ 0)
  (hg : s0.commitBefore.me.guard h = true) (hq : s0.commitBefore.me.acquiring = false)
  (hctl : (s0.commitBefore.me.shadow 6).extractLsb' 3 61 = 0) (hrid : (s0.commitBefore.me.shadow 7).extractLsb' 16 48 = 0)
include hw hl hg hq hctl hrid

omit hrid in
/-- A TWGO for a new transfer that passes its checks. -/
theorem execTwgo_new (hnew : (s0.commitBefore.me.shadow 6).getLsbD 2 = false) (h0 : s0.commitBefore.me.shadow 7 = 0)
    (hbad : s0.commitBefore.twDescBad s0.commitBefore.me.transfer (s0.commitBefore.me.shadow 2) = false)
    (hrows : ∀ r ∈ s0.commitBefore.me.transfer.checkRows,
      rowForeign (s0.commitBefore.partAt s0.commitBefore.cur.cell).cellCount r.1 = false ∧
      rowOut s0.commitBefore.me.transfer.rowBytes r.1 r.2 = false) :
    exec (.twgo h ord d) s0 = finish (match s0.commitBefore.myCell.freeSlot with
      | none => .wait .slot s0.commitBefore
      | some slot => twRelease s0.commitBefore ord fun s =>
        let x := s.myCell.newXfer slot s0.commitBefore.me.transfer
        .done ((s.nextOrder.setMe (s.nextOrder.me.setS d.toNat ((x.idOf slot).setWidth 64))).armXfer slot x ord
          ((s0.commitBefore.me.shadow 6).getLsbD 1)))
      fun s => (s.setMe (s.me.past (lenOf h false))).commit s.cur 3 := by
  have hf : (s0.commitBefore.me.transfer.checkRows.find? fun r =>
      rowForeign (s0.commitBefore.partAt s0.commitBefore.cur.cell).cellCount r.1) = none := by
    simpa using fun a b hr => (hrows (a, b) hr).1
  have ha : (s0.commitBefore.me.transfer.checkRows.any fun r => rowOut s0.commitBefore.me.transfer.rowBytes r.1 r.2) = false := by
    simpa using fun a b hr => (hrows (a, b) hr).2
  simp only [exec, execTwgo, boundary_of_live _ _ hw hl]
  generalize s0.commitBefore = s at *
  simp only [hg, hq, hctl, hnew, h0, hbad, hf, ha]
  rfl

/-- A TWGO that resubmits a faulted transfer. -/
theorem execTwgo_again (hre : (s0.commitBefore.me.shadow 6).getLsbD 2 = true) {y : Xfer}
    (hy : s0.commitBefore.myCell.live? ((s0.commitBefore.me.shadow 7).extractLsb' 0 16) = some y) (hst : y.state = 2) :
    exec (.twgo h ord d) s0 = finish (twRelease s0.commitBefore ord fun s =>
        .done ((s.setMe (s.me.setS d.toNat (s0.commitBefore.me.shadow 7))).armXfer ((s0.commitBefore.me.shadow 7).toNat % 16) y ord
          ((s0.commitBefore.me.shadow 6).getLsbD 1)))
      fun s => (s.setMe (s.me.past (lenOf h false))).commit s.cur 3 := by
  simp only [exec, execTwgo, boundary_of_live _ _ hw hl]
  generalize s0.commitBefore = s at *
  simp only [hg, hq, hctl, hrid, hre, hy, hst, bne_self_eq_false, Bool.not_true, Bool.and_false, Bool.or_self, Bool.false_eq_true, if_false, if_true]

end

/-- A destination register of a TWSET. -/
theorem shadow_set (x : Ctx) (f : Nat) (v : W64) (j : Nat) :
    ({ x with tw := tset x.tw f v } : Ctx).shadow j = if j = f then v else x.shadow j := by
  by_cases h : j = f
  · subst h
    rw [if_pos rfl]
    exact tget_tset _ _ _ _
  · rw [if_neg h]
    exact tget_tset_ne _ _ _ h

/-- Settles O37: TWSET writes the context alone; what TWGO arms is `State.armed`, of which its engine changes no field named here. -/
theorem transfersStart : Obligations.TransfersStart := by
  unfold Obligations.TransfersStart
  intro h f ra ord d s0
  refine ⟨fun hg => ?_, ?_⟩
  · simp only [exec, execTwset, hg, if_true]
    exact completes_setMe rfl ⟨⟨rfl, fun _ _ => rfl, fun _ _ => rfl, fun _ _ => rfl, fun _ _ => rfl⟩,
      fun j => shadow_set s0.me f.toNat (s0.me.s ra.toNat) j⟩
  · intro s x ctl rid o hw hl hg hq hctl hrid
    refine ⟨fun hnew h0 hbad hrows => ?_, fun hre y hy hst hrel => ?_⟩
    · have ho : o = _ := execTwgo_new (d := d) (ord := ord) hw hl hg hq hctl hnew h0 hbad hrows
      refine ⟨fun hfree => ?_, fun slot hfree hrel => ?_⟩
      · rw [ho, show s0.commitBefore.myCell.freeSlot = none from hfree]
        rfl
      · obtain ⟨t, q, hme, hcur, hcell, hgo⟩ := twRelease_go hrel
        rw [show s0.commitBefore.myCell.freeSlot = some slot from hfree] at ho
        refine ⟨_, ho.trans (congrArg (finish · _) (hgo _)), ?_⟩
        have huses : (t.myCell.newXfer slot x.transfer).uses = (s.myCell.xfer slot).uses + 1 := by rw [hcell]; rfl
        have hz : (t.myCell.newXfer slot x.transfer).total = x.transfer.total := rfl
        have hdone : (t.myCell.newXfer slot x.transfer).done = [] := rfl
        obtain ⟨hfirst, hchunks⟩ := firstOpen_of_done_nil hdone (hz ▸ total_pos_of_twDescBad hbad)
        obtain ⟨-, hregs, hs, a, b, c, e, g, hm⟩ := armXfer_setS t.nextOrder slot (t.myCell.newXfer slot x.transfer) ord (ctl.getLsbD 1) d
          (((t.myCell.newXfer slot x.transfer).idOf slot).setWidth 64)
        rw [nextOrder_me, hme] at hregs
        refine ⟨by rw [nextOrder_me, hme]; exact hregs, fun hd => (hs hd).trans ?_, ?_⟩
        · rw [hm]
          rfl
        · rw [hm]
          refine ⟨rfl, ?_, huses, rfl, rfl, rfl, rfl, rfl, rfl, rfl, rfl, hdone, fun hp => ?_, rfl, rfl, ?_⟩
          · show (if (t.myCell.newXfer slot x.transfer).firstOpen == (t.myCell.newXfer slot x.transfer).chunks then 3 else 0) = 0
            rw [hfirst, if_neg (by simpa using Ne.symm hchunks)]
          · rw [hp]
            rfl
          · exact hcur
    · have ho : o = _ := execTwgo_again (d := d) (ord := ord) hw hl hg hq hctl hrid hre hy hst
      obtain ⟨t, q, hme, hcur, hcell, hgo⟩ := twRelease_go hrel
      rw [hgo] at ho
      refine ⟨_, ho, ?_⟩
      obtain ⟨-, -, hs, a, b, c, e, g, hm⟩ := armXfer_setS t (rid.toNat % 16) y ord (ctl.getLsbD 1) d rid
      refine ⟨hs, ?_⟩
      rw [hm]
      refine ⟨rfl, ?_, rfl, rfl, rfl, rfl⟩
      show (if y.firstOpen == y.chunks then 3 else 0) ≠ 2
      split <;> decide

end Sys2Proof.Machine
end

section
/-! LDQ and ATOMX (O15). -/

namespace Sys2Proof.Machine
open Sys2Proof.Claims

/-! ### Memory behind the queued stores (R171) -/

theorem mem_performAll (n : Nat) (l : List BankWrite) {s t : State} (h : t.mem = s.mem) : (performAll n l t).mem = (performAll n l s).mem := by
  induction l generalizing s t with
  | nil => exact h
  | cons b l ih => exact ih (by simp only [State.perform, h])

/-- What a byte will be depends on memory and the stores queued in the issuing cell alone. -/
theorem byteOf_congr {s t : State} (hm : t.mem = s.mem) (hc : t.cur = s.cur) (hq : t.myCell.bankQ = s.myCell.bankQ) (a : Nat) :
    Claims.byteOf t a = Claims.byteOf s a := by
  have h : (t.settle t.cur.cell).mem = (s.settle s.cur.cell).mem := by
    rw [State.myCell, State.myCell, hc] at hq
    simp only [State.settle, hc, hq]
    split
    · exact hm
    · exact mem_performAll _ _ hm
  rw [Claims.byteOf, Claims.byteOf, h]

theorem byteOf_setMe (s : State) (y : Ctx) (a : Nat) : Claims.byteOf (s.setMe y) a = Claims.byteOf s a := by
  refine byteOf_congr (s := s) (t := s.setMe y) rfl rfl ?_ a
  have h : (s.setMe y).myCell = s.myCell.setCtx s.cur.ctx y := State.cell_setCell _ _ _
  rw [h]
  rfl

theorem sizeOf_eq_bytesOf (t : Ty) : Sys2Proof.Machine.sizeOf t = bytesOf t := by
  cases t <;> rfl

/-! ### Requests of lanes (R167, R177) -/

/-- The request of one lane. -/
def State.request (s : State) (mk : Nat → Nat → Access) (y : Nat × Endp × Nat) : Msg :=
  { vn := .request, src := .cell s.cur.cell, dst := y.2.1, body := .access (mk y.1 y.2.2) }

/-- From s to t the issuing context has requests noted, which have left. -/
structure Requests (s t : State) (msgs : List Msg) : Prop where
  net : t.net = s.net ++ msgs
  cur : t.cur = s.cur
  mem : t.mem = s.mem
  bankQ : t.myCell.bankQ = s.myCell.bankQ
  me : ∃ out, t.me = { s.me with out }

theorem sendLanes_spec (mk : Nat → Nat → Access) (write : Bool) (l : List (Nat × Endp × Nat)) (s : State) :
    Requests s (sendLanes mk write l s) (l.map (s.request mk)) := by
  induction l generalizing s with
  | nil => exact ⟨by simp [sendLanes], rfl, rfl, rfl, _, rfl⟩
  | cons y l ih =>
    obtain ⟨L, home, key⟩ := y
    let t := (s.setMe { s.me with out := s.me.out ++ [{ id := (mk L key).id, home, write }] }).post (s.request mk (L, home, key))
    have hme : t.me = { s.me with out := s.me.out ++ [{ id := (mk L key).id, home, write }] } := State.me_setMe s _
    have hcell : t.myCell = s.myCell.setCtx s.cur.ctx { s.me with out := s.me.out ++ [{ id := (mk L key).id, home, write }] } :=
      State.cell_setCell s _ _
    obtain ⟨h1, h2, h3, h4, out, h5⟩ := ih t
    refine ⟨?_, h2, h3, ?_, out, ?_⟩
    · exact h1.trans (by rw [List.map_cons]; exact List.append_assoc _ [_] _)
    · exact h4.trans (by rw [hcell]; rfl)
    · exact h5.trans (by rw [hme])

/-- The lanes of requests that pass their checks have what the checks found. -/
theorem forall₂_request {s : State} {mk : Nat → Nat → Access} {P : Nat × Endp × Nat → Msg → Prop} (l : List (Nat × Endp × Nat))
    (h : ∀ y, P y (s.request mk y)) : List.Forall₂ P l (l.map (s.request mk)) := by
  induction l with
  | nil => exact .nil
  | cons y l ih => exact .cons (h y) ih

/-! ### Entries reserved (R173, R177) -/

theorem queue_pushQ (x : Ctx) (q : Nat) (l : List QEntry) : ((x.pushQ q l).queue q).entries = (x.queue q).entries ++ l := by
  show (tget {} (tset x.qs q _) q).entries = _
  rw [tget_tset]

theorem queue_pushQ_ne (x : Ctx) {q j : Nat} (l : List QEntry) (h : j ≠ q) : (x.pushQ q l).queue j = x.queue j := tget_tset_ne _ _ _ h

/-- The entries of an access: one, or two with consecutive ids, each with its tag. -/
theorem reserveEntries_spec (id awaited : Nat) (scalar two : Bool) :
    (reserveEntries id awaited scalar two).map (·.id) = (List.range (if two then 2 else 1)).map (id + ·) ∧
    ∀ e ∈ reserveEntries id awaited scalar two, e.scalar = scalar ∧ e.awaited = awaited ∧
      e.tag = if awaited = 0 then .null else .valid := by
  cases two with
  | false => exact ⟨rfl, fun e he => by simp [reserveEntries] at he; subst he; exact ⟨rfl, rfl, rfl⟩⟩
  | true =>
    refine ⟨rfl, fun e he => ?_⟩
    simp [reserveEntries] at he
    obtain rfl | rfl := he <;> exact ⟨rfl, rfl, rfl⟩

/-- A context with entries reserved at the tail of a queue, and remembered where they acquire. -/
def Ctx.reserve (x : Ctx) (q id : Nat) (l : List QEntry) (acq two : Bool) : Ctx :=
  if acq then { x.pushQ q l with acquires := (x.pushQ q l).liveAcquires ++ [id] ++ if two then [id + 1] else [] } else x.pushQ q l

theorem reserve_spec (x : Ctx) (q id : Nat) (l : List QEntry) (acq two : Bool) :
    ∃ acquires, x.reserve q id l acq two = { x.pushQ q l with acquires } := by
  cases acq <;> exact ⟨_, rfl⟩

theorem reserve_act (x : Ctx) (q id : Nat) (l : List QEntry) (acq two : Bool) : (x.reserve q id l acq two).act = x.act := by
  obtain ⟨acquires, h⟩ := reserve_spec x q id l acq two
  rw [h]
  rfl

/-- A number taken for an access changes nothing that the access reads. -/
theorem fresh_reads (s : State) :
    s.fresh.2.me = s.me ∧ s.fresh.2.cur = s.cur ∧ s.fresh.2.myCell = s.myCell ∧ (∀ n, s.fresh.2.partNo n = s.partNo n) ∧
    s.fresh.1 = s.nextId :=
  ⟨rfl, rfl, rfl, fun _ => rfl, rfl⟩

/-- The state of an access behind its reservation, with its requests sent. -/
def State.sendReserved (s : State) (q : Nat) (l : List (Nat × Endp × Nat)) (scalar two acq write : Bool) (mk : Nat → Nat → Nat → Access) :
    State :=
  sendLanes (mk s.nextId) write l
    (s.fresh.2.fresh.2.setMe (s.me.reserve q s.nextId (reserveEntries s.nextId l.length scalar two) acq two))

theorem sendReserved_spec (s : State) (q : Nat) (l : List (Nat × Endp × Nat)) (scalar two acq write : Bool) (mk : Nat → Nat → Nat → Access) :
    let u := s.sendReserved q l scalar two acq write mk
    (∀ a, Claims.byteOf u a = Claims.byteOf s a) ∧ u.net = s.net ++ l.map (s.request (mk s.nextId)) ∧
    ∃ qs out acquires, u.me = { s.me with qs, out, acquires } ∧ (∀ j, j ≠ q → u.me.queue j = s.me.queue j) ∧
      ∃ new, (u.me.queue q).entries = (s.me.queue q).entries ++ new ∧
        new.map (·.id) = (List.range (if two then 2 else 1)).map (s.nextId + ·) ∧
        ∀ e ∈ new, e.scalar = scalar ∧ e.awaited = l.length ∧ e.tag = if l = [] then .null else .valid := by
  let x := s.me.reserve q s.nextId (reserveEntries s.nextId l.length scalar two) acq two
  have hr := sendLanes_spec (mk s.nextId) write l (s.fresh.2.fresh.2.setMe x)
  obtain ⟨hnet, hcur, hmem, hq, out, hme⟩ := hr
  obtain ⟨acquires, hx⟩ := reserve_spec s.me q s.nextId (reserveEntries s.nextId l.length scalar two) acq two
  obtain ⟨hid, hnew⟩ := reserveEntries_spec s.nextId l.length scalar two
  have hme' : (s.sendReserved q l scalar two acq write mk).me = { s.me.pushQ q (reserveEntries s.nextId l.length scalar two) with out, acquires } :=
    hme.trans (by rw [State.me_setMe, show x = _ from hx])
  have hbank : (s.fresh.2.fresh.2.setMe x).myCell.bankQ = s.myCell.bankQ := by
    have h : (s.fresh.2.fresh.2.setMe x).myCell = s.myCell.setCtx s.cur.ctx x := State.cell_setCell _ _ _
    rw [h]
    rfl
  refine ⟨fun a => byteOf_congr (s := s) hmem hcur (hq.trans hbank) a, hnet, _, out, acquires, hme', fun j hj => ?_,
    reserveEntries s.nextId l.length scalar two, ?_, hid, fun e he => ?_⟩
  · rw [hme']
    exact queue_pushQ_ne s.me _ hj
  · rw [hme']
    exact queue_pushQ s.me q _
  · obtain ⟨h1, h2, h3⟩ := hnew e he
    exact ⟨h1, h2, by rw [h3]; simp⟩

/-! ### LDQ and ATOMX -/

/-- Settles O15: what each does behind its checks is `State.sendReserved`. -/
theorem remoteReserves : Obligations.RemoteReserves := by
  unfold Obligations.RemoteReserves
  refine ⟨fun h t sform ord q m s l => ?_, fun h op t ord q m c e s0 l => ?_⟩
  · intro x acq who addr k hq hl hb hk
    let r := x.reserve q.toNat s.nextId (reserveEntries s.nextId l.length sform (t.wide && !sform)) ord.acq (t.wide && !sform)
    let mk := fun id L key => ({ op := .read, ea := addr L, key, size := bytesOf t, part := s.partNo s.cur.cell, who := s.cur
                                 act := r.act, q := q.toNat, id, lane := L, ty := t, half := t.wide && !sform, priv := r.priv
                                 asid := s.myCell.casid, acq } : Access)
    have hex : exec (.ldq h t sform ord q m) s =
        finishLen (lenOf h (litB m.idx)) (.done (s.sendReserved q.toNat l sform (t.wide && !sform) ord.acq false mk)) := by
      have hl' : checkLanes s .load addr (Sys2Proof.Machine.sizeOf t)
          (if s.me.active h == 0 then [] else if sform then [0] else lanesOf (s.me.active h)) = .ok l s := by
        rw [sizeOf_eq_bytesOf, ← hl]
        simp only [beq_iff_eq]
        rfl
      have hb' : (l.any fun y => s.barred s.cur.cell y.2.1) = false := by simpa using hb
      have hk' : (if (t.wide && !sform) = true then 2 else 1) ≤ (s.me.queue q.toNat).free := hk
      simp only [exec, execLdq, afterAcquire, show s.me.acquiring = false from hq, Bool.false_eq_true, if_false]
      rw [show (if sform = true then fun _ => s.me.scalarAddr m else s.me.laneAddr m) = addr from rfl, hl']
      simp only [Got.then, unbarred, hb', withSlots, hk', Bool.false_eq_true, if_false, if_true, sizeOf_eq_bytesOf, fresh_reads]
      rfl
    obtain ⟨hbytes, hnet, qs, out, acquires, hme, hother, new, hnew, hid, hent⟩ :=
      sendReserved_spec s q.toNat l sform (t.wide && !sform) ord.acq false mk
    rw [hex]
    refine ⟨_, finishLen_done _ _, ?_⟩
    rw [hme, State.me_setMe]
    rw [hme] at hother hnew
    refine ⟨regsOnly_past { x with qs, out, acquires } _ [] [] [] [], past_of_pc _ rfl, fun a => ?_, hother,
      s.nextId, new, _, hnew, hid, hent, hnet, forall₂_request l fun y => ?_⟩
    · rw [byteOf_setMe, hbytes]
    · exact ⟨rfl, rfl, _, rfl, rfl, rfl, rfl, reserve_act _ _ _ _ _ _, rfl, rfl, rfl, rfl, rfl, rfl, rfl⟩
  · intro s x k hw hlive hq hl hb hk hrel
    let deps := if ord.rel then s.relDepsOf s.cur s.me.deps else []
    let rel := if ord.rel then some ord.scope else none
    let r := x.reserve q.toNat s.nextId (reserveEntries s.nextId l.length false t.wide) ord.acq t.wide
    let mk := fun id L key => ({ op := .atomic op t, ea := r.laneAddr m L, key, size := bytesOf t, data := r.laneR c t.wide L
                                 cmp := r.laneR e t.wide L, part := s.partNo s.cur.cell, who := s.cur, act := r.act
                                 q := q.toNat, id, lane := L, ty := t, half := t.wide, priv := r.priv, asid := s.myCell.casid, rel, deps
                                 acq := if ord.acq then some ord.scope else none } : Access)
    have hex : exec (.atomx h op t ord q m c e) s0 =
        finish (.done (s.sendReserved q.toNat l false t.wide ord.acq true mk))
          fun s => (s.setMe (s.me.past (lenOf h (litB m.idx)))).commit s.cur 3 := by
      have hl' : checkLanes s0.commitBefore .atomic (s0.commitBefore.me.laneAddr m) (bytesOf t)
          (lanesOf (s0.commitBefore.me.active h)) = .ok l s0.commitBefore := hl
      have hb' : (l.any fun y => s0.commitBefore.barred s0.commitBefore.cur.cell y.2.1) = false := by
        simp only [List.any_eq_false, Bool.not_eq_true]
        exact fun y hy => by simpa using (Bool.and_eq_true_iff.1 (List.all_eq_true.1 hb y hy)).1
      have hown : (l.find? fun y => s0.commitBefore.owes s0.commitBefore.cur.cell y.2.1) = none := by
        simp only [List.find?_eq_none, Bool.not_eq_true]
        exact fun y hy => by simpa using (Bool.and_eq_true_iff.1 (List.all_eq_true.1 hb y hy)).2
      have hk' : (if t.wide = true then 2 else 1) ≤ (s0.commitBefore.me.queue q.toNat).free := hk
      have hst : (!l.isEmpty && !s0.commitBefore.storesLeft s0.commitBefore.cur .system) = false := by
        obtain h | ⟨h, -⟩ := hrel
        · simp [h]
        · simp [show s0.commitBefore.storesLeft s0.commitBefore.cur .system = true from h]
      have hrl : (!l.isEmpty && ord.rel && !s0.commitBefore.relClear s0.commitBefore.cur ord.scope) = false := by
        obtain h | ⟨-, h⟩ := hrel
        · simp [h]
        · cases hr : ord.rel with
          | false => simp
          | true => simp [show s0.commitBefore.relClear s0.commitBefore.cur ord.scope = true from h hr]
      simp only [exec, execAtomx, boundary_of_live _ _ hw hlive, afterAcquire, show s0.commitBefore.me.acquiring = false from hq,
        Bool.false_eq_true, if_false, hl', Got.then, unbarred, hb', withSlots, hk', if_true, hst, hrl, hown, sizeOf_eq_bytesOf, fresh_reads]
      rfl
    obtain ⟨hbytes, hnet, qs, out, acquires, hme, hother, new, hnew, hid, hent⟩ :=
      sendReserved_spec s q.toNat l false t.wide ord.acq true mk
    obtain ⟨acqs, hr⟩ := reserve_spec x q.toNat s.nextId (reserveEntries s.nextId l.length false t.wide) ord.acq t.wide
    refine ⟨_, hex, hbytes, s.nextId, new, _, hnew, hid, hent, hnet, forall₂_request l fun y => ⟨rfl, rfl, _, rfl, rfl, rfl, rfl, ?_, rfl,
      rfl, rfl, ?_, rfl, ?_, ?_, rfl, rfl, rfl⟩⟩
    · exact reserve_act _ _ _ _ _ _
    · show r.laneAddr m y.1 = _
      rw [show r = _ from hr]
      rfl
    · show r.laneR c t.wide y.1 = _
      rw [show r = _ from hr]
      rfl
    · show r.laneR e t.wide y.1 = _
      rw [show r = _ from hr]
      rfl

end Sys2Proof.Machine
end

section
/-! SUPPORT. What the inbox of a cell does with an arrival (R32, R36, R340). -/

namespace Sys2Proof.Machine
open Sys2Proof.Claims

/-! ### The blocks of a tailrace (R338) -/

/-- From s to t no cell has changed, and no message has been sent. -/
def SameCells (s t : State) : Prop := t.cells = s.cells ∧ t.net = s.net

theorem SameCells.refl (s : State) : SameCells s s := ⟨rfl, rfl⟩

theorem SameCells.trans {s t u : State} (h : SameCells s t) (g : SameCells t u) : SameCells s u := ⟨g.1.trans h.1, g.2.trans h.2⟩

theorem sameCells_written (s : State) (pa k : Nat) : SameCells s (s.written pa k) := by
  unfold State.written
  split <;> exact ⟨rfl, rfl⟩

theorem sameCells_hbmWrite (s : State) (pa k v : Nat) : SameCells s (s.hbmWrite pa k v) :=
  SameCells.trans (t := { s with mem := writeLE s.mem (hbmKey pa) k v }) ⟨rfl, rfl⟩ (sameCells_written _ _ _)

theorem sameCells_hbmBytes (s : State) (pa : Nat) (b : List Byte) : SameCells s (s.hbmBytes pa b) :=
  SameCells.trans (t := { s with mem := writeBytes s.mem (hbmKey pa) b }) ⟨rfl, rfl⟩ (sameCells_written _ _ _)

theorem sameCells_takeBlock (s : State) (pn used res : Nat) : SameCells s (s.takeBlock pn used res).2 := by
  unfold State.takeBlock
  split <;> exact ⟨rfl, rfl⟩

theorem sameCells_chainGrow (s : State) (pn : Nat) (ch : Chain) (k res : Nat) : SameCells s (s.chainGrow pn ch k res).2 := by
  have htake := sameCells_takeBlock s pn ch.blocks.length res
  unfold State.chainGrow
  split
  · exact .refl s
  · split
    · rename_i blk t ht
      rw [ht] at htake
      refine htake.trans ?_
      show SameCells t (match ch.blocks.getLast? with
        | some last => t.linkBlock (s.part pn) last blk
        | none => t)
      split
      · exact sameCells_hbmWrite t _ _ _
      · exact .refl t
    · rename_i t ht
      rw [ht] at htake
      exact htake

theorem sameCells_chainPut (s : State) (pn : Nat) (ch : Chain) (k res : Nat) (b : List Byte) : SameCells s (s.chainPut pn ch k res b).2 := by
  rw [chainPut_snd]
  split
  · exact (sameCells_chainGrow s pn ch k res).trans (sameCells_hbmBytes _ _ _)
  · exact sameCells_chainGrow s pn ch k res

/-- An entry spilled: of its cell, the chain of its tailrace alone changes. -/
theorem spilled_spec (s : State) (n k : Nat) (p : Parcel) :
    (∃ tailChain, (s.spilled n k p).cell n = { s.cell n with tailChain }) ∧ (∀ j, j ≠ n → (s.spilled n k p).cell j = s.cell j) ∧
    (s.spilled n k p).net = s.net := by
  obtain ⟨hc, hn⟩ := sameCells_chainPut s (s.partNo n) (s.cell n).tailChain k (blocksFor (s.cell n).tailQuota 0 32) p.image
  refine ⟨⟨(s.chainPut (s.partNo n) (s.cell n).tailChain k (blocksFor (s.cell n).tailQuota 0 32) p.image).1, ?_⟩, fun j hj => ?_, hn⟩
  · simp only [State.spilled, State.cell_setCell]
    rw [State.cell_of_cells hc]
  · simp only [State.spilled]
    rw [State.cell_setCell_ne _ _ hj, State.cell_of_cells hc]

/-! ### An arrival put into its bin, or with a reservation (R36, R316) -/

/-- Two values of a cell that differ in what its inbox holds alone. -/
structure InboxOnly (c c' : Cell) : Prop where
  msgId : c'.msgId = c.msgId
  accepted : c'.accepted = c.accepted
  entries : c'.entries = c.entries

theorem mem_insertArrival (a : Arrival) (l : List Arrival) : a ∈ insertArrival a l := by
  rw [(insertArrival_perm a l).mem_iff]
  exact List.mem_cons_self

theorem mem_insertOverflow (e : PC) (a : Arrival) (l : List (PC × Arrival)) : (e, a) ∈ insertOverflow e a l := by
  induction l with
  | nil => exact List.mem_cons_self
  | cons b l ih =>
    rw [insertOverflow]
    split
    · exact List.mem_cons_self
    · exact List.mem_cons_of_mem _ ih

theorem mem_newBin {c : Cell} {e : PC} {a : Arrival} : a ∈ (c.newBin e [a]).msgs := by
  rw [Cell.newBin, (insertAll_spec _ [a]).1.mem_iff]
  simp

theorem bin?_mem {c : Cell} {e : PC} {b : Bin} (h : c.bin? e = some b) : b ∈ c.bins ∧ b.entry = e :=
  ⟨List.mem_of_find?_eq_some h, by simpa using List.find?_some h⟩

theorem mem_setBin {c : Cell} {b b' : Bin} (h : b ∈ c.bins) (he : b'.entry = b.entry) : b' ∈ (c.setBin b').bins :=
  List.mem_map.2 ⟨b, h, if_pos (by simp [he])⟩

theorem binPut_spec (c : Cell) (a : Arrival) : InboxOnly c (c.binPut a) ∧ InInbox (c.binPut a) a := by
  simp only [Cell.binPut]
  split
  · rename_i b hb
    obtain ⟨hm, he⟩ := bin?_mem hb
    have hput := mem_setBin (b' := { b with msgs := insertArrival a b.msgs }) hm rfl
    exact ⟨⟨rfl, rfl, rfl⟩, .inr (.inl ⟨_, hput, he, mem_insertArrival a _⟩)⟩
  · split
    · exact ⟨⟨rfl, rfl, rfl⟩, .inr (.inl ⟨_, List.mem_append_right _ List.mem_cons_self, rfl, mem_newBin⟩)⟩
    · exact ⟨⟨rfl, rfl, rfl⟩, .inr (.inr (.inl (mem_insertOverflow _ a _)))⟩

/-- What `findIdx` finds passes its test, and can be replaced in the list. -/
theorem findIdx_go_spec {α : Type} {p : α → Bool} {l : List α} {m k : Nat} {x : α} (h : findIdx.go p m l = some (k, x)) :
    p x = true ∧ ∃ i, k = m + i ∧ ∀ y, y ∈ setAt l i y := by
  induction l generalizing m with
  | nil => cases h
  | cons z l ih =>
    rw [findIdx.go] at h
    split at h
    · rename_i hz
      cases h
      exact ⟨hz, 0, rfl, fun y => List.mem_cons_self⟩
    · obtain ⟨hx, i, hk, hi⟩ := ih h
      exact ⟨hx, i + 1, by omega, fun y => List.mem_cons_of_mem _ (hi y)⟩

theorem findIdx_spec {α : Type} {p : α → Bool} {l : List α} {k : Nat} {x : α} (h : findIdx p l = some (k, x)) :
    p x = true ∧ ∀ y, y ∈ setAt l k y := by
  obtain ⟨hx, i, hk, hi⟩ := findIdx_go_spec h
  exact ⟨hx, by simpa [hk] using hi⟩

theorem claims_entry {r : Reserv} {a : Arrival} (h : r.claims a = true) : r.entry = plEntry a.place := by
  simp only [Reserv.claims, Bool.and_eq_true, beq_iff_eq] at h
  exact h.1.1

theorem enter_spec (c : Cell) (a : Arrival) : InboxOnly c (c.enter a) ∧ InInbox (c.enter a) a := by
  simp only [Cell.enter]
  split
  · rename_i k r hk
    obtain ⟨hc, hm⟩ := findIdx_spec hk
    have hlast : a ∈ r.waiting ++ [a] := List.mem_append_right _ List.mem_cons_self
    exact ⟨⟨rfl, rfl, rfl⟩, .inr (.inr (.inr ⟨{ r with waiting := r.waiting ++ [a] }, hm _, claims_entry (r := r) hc, hlast⟩))⟩
  · exact binPut_spec c a

theorem accept_spec (c : Cell) (p : Parcel) :
    (c.accept p).msgId = c.msgId + 1 ∧ (c.accept p).accepted = c.accepted + 1 ∧ (c.accept p).entries = c.entries ∧
    InInbox (c.accept p) (c.takeId p).2 := by
  simp only [Cell.accept]
  split
  · exact ⟨rfl, rfl, rfl, .inl (List.mem_append_right _ List.mem_cons_self)⟩
  · obtain ⟨⟨h1, h2, h3⟩, h⟩ := enter_spec (c.takeId p).1 (c.takeId p).2
    exact ⟨h1, h2, h3, h⟩

/-! ### The cell's inbox in the device -/

/-- From s to t cell n has taken one arrival, and no other cell has changed. -/
structure TakesOne (n : Nat) (s t : State) : Prop where
  msgId : (t.cell n).msgId = (s.cell n).msgId + 1
  accepted : (t.cell n).accepted = (s.cell n).accepted + 1
  other : ∀ k, k ≠ n → t.cell k = s.cell k

/-- An arrival accepted into the inbox; memory changes only where it is spilled. -/
theorem state_accept_spec (s : State) (n : Nat) (p : Parcel) :
    TakesOne n s (s.accept n p) ∧ (s.accept n p).net = s.net ∧ InInbox ((s.accept n p).cell n) ((s.cell n).takeId p).2 ∧
    ((p.onStrandNet && (s.cell n).mustSpill p) = false → (s.accept n p).mem = s.mem) := by
  obtain ⟨h1, h2, -, h4⟩ := accept_spec (s.cell n) p
  simp only [State.accept]
  split
  · rename_i hs
    obtain ⟨⟨ch, hc⟩, ho, hn⟩ := spilled_spec (s.setCell n ((s.cell n).accept p)) n (s.cell n).tail.length p
    rw [State.cell_setCell] at hc
    refine ⟨⟨by rw [hc, ← h1], by rw [hc, ← h2], fun k hk => by rw [ho k hk, State.cell_setCell_ne _ _ hk]⟩, hn,
      by rw [hc]; exact h4, fun h => ?_⟩
    rw [h] at hs
    cases hs
  · exact ⟨⟨by rw [State.cell_setCell, h1], by rw [State.cell_setCell, h2], fun k hk => State.cell_setCell_ne _ _ hk⟩, rfl,
      by rw [State.cell_setCell]; exact h4, fun _ => rfl⟩

/-- An arrival that is not put into the inbox has taken its id all the same. -/
theorem takesOne_takeId (s : State) (n : Nat) (p : Parcel) : TakesOne n s (s.setCell n ((s.cell n).takeId p).1) :=
  ⟨by rw [State.cell_setCell]; rfl, by rw [State.cell_setCell]; rfl, fun k hk => State.cell_setCell_ne _ _ hk⟩

/-- Strands subtracted from their jobs: of the cell, only the subtractions that it still owes change. -/
theorem subtract_spec (s : State) (n : Nat) (l : List W32) :
    (∃ owedSubs, (s.subtract n l).cell n = { s.cell n with owedSubs }) ∧ (∀ k, k ≠ n → (s.subtract n l).cell k = s.cell k) ∧
    (s.subtract n l).mem = s.mem := by
  unfold State.subtract
  generalize countJobs l = jobs
  induction jobs generalizing s with
  | nil => exact ⟨⟨_, rfl⟩, fun _ _ => rfl, rfl⟩
  | cons j jobs ih =>
    obtain ⟨⟨o, h1⟩, h2, h3⟩ := ih (s.subtractOne n j)
    have hone : (∃ o, (s.subtractOne n j).cell n = { s.cell n with owedSubs := o }) ∧
        (∀ k, k ≠ n → (s.subtractOne n j).cell k = s.cell k) ∧ (s.subtractOne n j).mem = s.mem := by
      simp only [State.subtractOne]
      split
      · exact ⟨⟨_, by rw [State.cell_setCell]⟩, fun k hk => State.cell_setCell_ne _ _ hk, rfl⟩
      · exact ⟨⟨_, rfl⟩, fun _ _ => rfl, rfl⟩
    obtain ⟨⟨o', g1⟩, g2, g3⟩ := hone
    exact ⟨⟨o, by rw [List.foldl_cons, h1, g1]⟩, fun k hk => (h2 k hk).trans (g2 k hk), h3.trans g3⟩

theorem mem_reportLimited (s : State) (pn : Nat) (src : Endp) (r : Frec) : (s.reportLimited pn src r).mem = s.mem := by
  simp only [State.reportLimited]
  split
  · rfl
  · simp only [State.report]
    split <;> rfl

/-- The inbox takes an arrival: it stands in the inbox, but for a message without a handler and a strand of a job that is dropped. -/
theorem inboxTakes_spec (s : State) (n : Nat) (p : Parcel) :
    TakesOne n s (s.inboxTakes n p) ∧
    ((p.onStrandNet && (s.cell n).mustSpill p) = false → (s.inboxTakes n p).mem = s.mem) ∧
    ((∀ m, p = .msg m → (s.cell n).hasHandler m.cls.toNat = true) → (∀ m, p = .strand m → (s.cell n).dropping.contains m.job = false) →
      (s.inboxTakes n p).net = s.net ∧ InInbox ((s.inboxTakes n p).cell n) ((s.cell n).takeId p).2) := by
  obtain ⟨h1, h2, h3, h4⟩ := state_accept_spec s n p
  have hid := takesOne_takeId s n p
  have hacc : ∀ t, t = s.accept n p → TakesOne n s t ∧ ((p.onStrandNet && (s.cell n).mustSpill p) = false → t.mem = s.mem) ∧
      ((∀ m, p = .msg m → (s.cell n).hasHandler m.cls.toNat = true) → (∀ m, p = .strand m → (s.cell n).dropping.contains m.job = false) →
        t.net = s.net ∧ InInbox (t.cell n) ((s.cell n).takeId p).2) := fun t ht => by
    rw [ht]
    exact ⟨h1, h4, fun _ _ => ⟨h2, h3⟩⟩
  cases p with
  | strand m =>
    cases hd : (s.cell n).dropping.contains m.job with
    | false => exact hacc _ (by simp only [State.inboxTakes, hd, Bool.false_eq_true, if_false])
    | true =>
      have he : s.inboxTakes n (.strand m) = (s.setCell n ((s.cell n).takeId (.strand m)).1).subtract n [m.job] := by
        simp only [State.inboxTakes, hd, if_true]
      obtain ⟨⟨o, hc⟩, ho, hm⟩ := subtract_spec (s.setCell n ((s.cell n).takeId (.strand m)).1) n [m.job]
      rw [he]
      refine ⟨⟨by rw [hc, ← hid.msgId], by rw [hc, ← hid.accepted], fun k hk => (ho k hk).trans (hid.other k hk)⟩,
        fun _ => hm, fun _ h => ?_⟩
      have := h m rfl
      rw [hd] at this
      cases this
  | msg m =>
    cases hh : (s.cell n).hasHandler m.cls.toNat with
    | true => exact hacc _ (by simp only [State.inboxTakes, hh, if_true])
    | false =>
      obtain ⟨r, he⟩ : ∃ r, s.inboxTakes n (.msg m) = (s.setCell n ((s.cell n).takeId (.msg m)).1).reportLimited (s.partNo n) (.cell n) r := by
        simp only [State.inboxTakes, hh, Bool.false_eq_true, if_false]
        exact ⟨_, rfl⟩
      have hb := beside_reportLimited (s := s.setCell n ((s.cell n).takeId (.msg m)).1) (n := n) (pn := s.partNo n) rfl (.cell n) r
      rw [he]
      refine ⟨⟨?_, ?_, fun k hk => ?_⟩, fun _ => mem_reportLimited _ _ _ _, fun h => ?_⟩
      · rw [State.cell_of_cells hb.cells, hid.msgId]
      · rw [State.cell_of_cells hb.cells, hid.accepted]
      · rw [State.cell_of_cells hb.cells, hid.other k hk]
      · have := h m rfl
        rw [hh] at this
        cases this
  | record r d => exact hacc _ rfl

end Sys2Proof.Machine
end

section
/-! SUPPORT. What a set that forms puts into its context (R11, R34, R37, R206, R419). -/

namespace Sys2Proof.Machine
open Sys2Proof.Claims

/-! ### Values put into lanes -/

theorem tget_number {α : Type} (d : α) (l : List α) (n i : Nat) {a : α} (h : l[i]? = some a) : tget d (number n l) (n + i) = a := by
  induction l generalizing n i with
  | nil => simp at h
  | cons x l ih =>
    show (if n = n + i then x else tget d (number (n + 1) l) (n + i)) = a
    cases i with
    | zero => simpa using h
    | succ i =>
      rw [if_neg (by omega), show n + (i + 1) = n + 1 + i by omega]
      exact ih (n + 1) i (by simpa using h)

/-- The value in a table built from a list of keys. -/
theorem tget_map_key {α : Type} (d : α) (f : Nat → α) (ks : List Nat) (r : Nat) :
    tget d (ks.map fun r => (r, f r)) r = if r ∈ ks then f r else d := by
  induction ks with
  | nil => rfl
  | cons k ks ih =>
    show (if k = r then f k else tget d (ks.map fun r => (r, f r)) r) = _
    by_cases h : k = r
    · subst h
      simp
    · rw [if_neg h, ih]
      simp [Ne.symm h]

/-- The value that an arrival puts into a register of its lane; zero where it carries none. -/
def Arrival.reg (a : Arrival) (r : Nat) : W32 :=
  match (a.lane.2.2).find? fun x => x.1 == r with
  | some x => x.2
  | none => 0

/-- The registers of a set: each lane has those of its arrival. -/
theorem lane_setRegs {l : List Arrival} {L r : Nat} {a : Arrival} (hL : L < 32) (hr : r < 32) (h : l[L]? = some a) :
    lane (tget [] (setRegs l) r) L = a.reg r := by
  have hp : (l.map fun a => a.lane.2.2).getD L [] = a.lane.2.2 := by simp [List.getD, h]
  rw [setRegs, tget_map_key]
  split
  · rw [lane_mkLanes _ hL, hp]
    rfl
  · rename_i hn
    have hnone : (a.lane.2.2).find? (fun x => x.1 == r) = none := by
      refine List.find?_eq_none.2 fun x hx hxr => hn ?_
      refine List.mem_filter.2 ⟨List.mem_range.2 hr, List.any_eq_true.2 ⟨a.lane.2.2, ?_, List.any_eq_true.2 ⟨x, hx, hxr⟩⟩⟩
      exact List.mem_map.2 ⟨a, List.mem_of_getElem? h, rfl⟩
    rw [Arrival.reg, hnone]
    rfl

/-! ### The registers that a strand carries (R34) -/

theorem getLsbD_lowMask {r i : Nat} (hr : r < 32) (hi : i < 32) : (lowMask r).getLsbD i = decide (i < r) := by
  rw [lowMask, if_neg (by omega)]
  rw [BitVec.getLsbD_ofNat, Nat.testBit_two_pow_sub_one]
  simp [hi]

theorem range_32_split {r : Nat} (hr : r < 32) : ∃ k, r + k = 31 ∧ List.range 32 = List.range r ++ (List.range (k + 1)).map (r + ·) :=
  ⟨31 - r, by omega, by rw [← List.range_add, show r + (31 - r + 1) = 32 by omega]⟩

/-- The live registers below one, counted by a mask. -/
theorem popCount_below (m : W32) {r : Nat} (hr : r < 32) :
    popCount (m &&& lowMask r) = ((List.range r).filter fun i => m.getLsbD i).length := by
  obtain ⟨k, hk31, hk⟩ := range_32_split hr
  have hlow : (List.range r).filter (fun i => (m &&& lowMask r).getLsbD i) = (List.range r).filter fun i => m.getLsbD i := by
    refine List.filter_congr fun i hi => ?_
    have hir := List.mem_range.1 hi
    rw [BitVec.getLsbD_and, getLsbD_lowMask hr (by omega)]
    simp [hir]
  have hhigh : ((List.range (k + 1)).map (r + ·)).filter (fun i => (m &&& lowMask r).getLsbD i) = [] := by
    refine List.filter_eq_nil_iff.2 fun i hi => ?_
    obtain ⟨j, hj, rfl⟩ := List.mem_map.1 hi
    have := List.mem_range.1 hj
    rw [BitVec.getLsbD_and, getLsbD_lowMask hr (by omega)]
    simp
  rw [popCount, hk, List.filter_append, hlow, hhigh, List.append_nil]

/-- The set bits of a mask around one of them. -/
theorem lanesOf_split {m : W32} {r : Nat} (hr : r < 32) (hb : m.getLsbD r = true) :
    ∃ ls, lanesOf m = ((List.range r).filter fun i => m.getLsbD i) ++ r :: ls := by
  obtain ⟨k, -, hk⟩ := range_32_split hr
  rw [lanesOf, hk, List.filter_append, List.range_succ_eq_map, List.map_cons, List.filter_cons_of_pos (by simpa using hb)]
  exact ⟨_, rfl⟩

/-- What stands at the place of a key among keys paired with values. -/
theorem find?_zip_of_split {ks ls : List Nat} (hk : ∀ x ∈ ks, x ≠ r) (vals : List W32) :
    ((ks ++ r :: ls).zip vals).find? (fun x => x.1 == r) = (vals[ks.length]?).map fun v => (r, v) := by
  induction ks generalizing vals with
  | nil => cases vals <;> simp
  | cons k ks ih =>
    cases vals with
    | nil => simp
    | cons v vals =>
      have hkr : (k == r) = false := beq_eq_false_iff_ne.2 (hk k List.mem_cons_self)
      simp only [List.cons_append, List.zip_cons_cons, List.find?_cons, hkr, List.length_cons, List.getElem?_cons_succ]
      exact ih (fun x hx => hk x (List.mem_cons_of_mem _ hx)) vals

theorem reg_strand {a : Arrival} {m : Strand} (ha : a.parcel = .strand m) {r : Nat} (hr : r < 32) :
    a.reg r = if m.live.getLsbD r then m.vals.getD (popCount (m.live &&& lowMask r)) 0 else 0 := by
  have hl : a.lane.2.2 = (lanesOf m.live).zip m.vals := by rw [Arrival.lane, ha]; rfl
  rw [Arrival.reg, hl]
  cases hb : m.live.getLsbD r with
  | true =>
    obtain ⟨ls, hls⟩ := lanesOf_split hr hb
    rw [popCount_below m.live hr, hls, find?_zip_of_split fun x hx => Nat.ne_of_lt (List.mem_range.1 (List.mem_filter.1 hx).1)]
    cases hv : m.vals[((List.range r).filter fun i => m.live.getLsbD i).length]? with
    | none => simp [List.getD, hv]
    | some v => simp [List.getD, hv]
  | false =>
    have hnone : ((lanesOf m.live).zip m.vals).find? (fun x => x.1 == r) = none := by
      refine List.find?_eq_none.2 fun x hx hxr => ?_
      have hx1 := (List.mem_filter.1 (List.of_mem_zip hx).1).2
      rw [beq_iff_eq.1 hxr, hb] at hx1
      cases hx1
    rw [hnone]
    rfl

theorem reg_msg {a : Arrival} {m : Smsg} (ha : a.parcel = .msg m) {r : Nat} (hr : r < 32) :
    a.reg r = if r < 2 then m.payload.extractLsb' (32 * r) 32 else if r = 2 then m.origin.setWidth 32
      else if r = 3 then m.cls.setWidth 32 else 0 := by
  have hl : a.lane.2.2 = [(0, m.payload.extractLsb' 0 32), (1, m.payload.extractLsb' 32 32), (2, m.origin.setWidth 32),
      (3, m.cls.setWidth 32)] := by rw [Arrival.lane, ha]
  rw [Arrival.reg, hl]
  match r with
  | 0 => rfl
  | 1 => rfl
  | 2 => rfl
  | 3 => rfl
  | r + 4 => simp

theorem reg_record {a : Arrival} {f : Frec} {d : W64} (ha : a.parcel = .record f d) {r : Nat} (hr : r < 32) :
    a.reg r = if r < 16 then (f.words.getD (r / 2) 0).extractLsb' (32 * (r % 2)) 32 else 0 := by
  have hl : a.lane.2.2 = (List.range 8).flatMap fun k =>
      [(2 * k, (f.words.getD k 0).extractLsb' 0 32), (2 * k + 1, (f.words.getD k 0).extractLsb' 32 32)] := by rw [Arrival.lane, ha]
  rw [Arrival.reg, hl]
  interval_cases r <;> rfl

/-! ### A context as its activation begins (R11) -/

/-- The lane of an arrival of a set holds what it brings. -/
theorem lands_of_lane {x : Ctx} {L : Nat} {a : Arrival} (hh : x.hdr L = a.lane.1) (hs : x.step L = a.lane.2.1)
    (hv : ∀ r < 32, x.vl r L = a.reg r) : Lands x L a := by
  obtain ⟨id, place, parcel, cyc, seq⟩ := a
  cases parcel with
  | strand m =>
    refine ⟨?_, hs, ?_, ?_, ?_, fun r hr => (hv r hr).trans (reg_strand rfl hr)⟩ <;> rw [hh] <;> rfl
  | msg m =>
    refine ⟨?_, hs, ?_, ?_, fun r hr => (hv r hr).trans (reg_msg rfl hr)⟩ <;> rw [hh] <;> rfl
  | record f d =>
    refine ⟨?_, hs, ?_, ?_, fun r hr => (hv r hr).trans (reg_record rfl hr)⟩ <;> rw [hh] <;> rfl

theorem entryRec_entry (c : Cell) (e : PC) : (c.entryRec e).entry = e := by
  unfold Cell.entryRec
  cases h : c.entries.find? fun r => r.entry == e with
  | none => rfl
  | some r => simpa using List.find?_some h

theorem begun_beginCtx (c : Cell) (l : List Arrival) (cores : Bool) (stamp act : Nat) (regs : Option TrapRegs) (old : Ctx) :
    let place := (l.head?.map (·.place)).getD 0
    Begun { beginCtx (c.entryRec (plEntry place)) place l cores stamp act regs with
      released := old.released, out := old.out, sent := old.sent, incsAwaited := old.incsAwaited, lastTbc := old.lastTbc } l := by
  refine ⟨rfl, rfl, rfl, rfl, rfl, rfl, entryRec_entry _ _, rfl, rfl, fun r => ?_, rfl, rfl, rfl, rfl, rfl, rfl, fun r hr => ⟨?_, ?_⟩,
    fun _ _ => rfl, fun L hL a ha => lands_of_lane ?_ ?_ fun r hr => lane_setRegs hL hr ha⟩
  · show (if r = 0 then 0 else 0 : W64) = 0
    simp
  · exact if_neg (by omega)
  · exact if_neg (by omega)
  · have h := tget_number ({} : LaneHdr) (l.map fun a => a.lane.1) 0 L (a := a.lane.1) (by simp [ha])
    rwa [Nat.zero_add] at h
  · have h := tget_number (0 : W32) (l.map fun a => a.lane.2.1) 0 L (a := a.lane.2.1) (by simp [ha])
    rwa [Nat.zero_add] at h

theorem keptCell_fresh (n : Nat) (s : State) : KeptCell n s s.fresh.2 := ⟨kept_fresh n s, .refl _⟩

/-- A set put into a context: only that context, and the record of its begin, are new. -/
theorem begin_spec (s : State) (n k : Nat) (l : List Arrival) (cores : Bool) (regs : Option TrapRegs) :
    let t := s.begin_ n k l cores regs
    Begun (t.ctx ⟨n, k⟩) l ∧ (t.ctx ⟨n, k⟩).cores = cores ∧ (∀ j, j ≠ k → t.ctx ⟨n, j⟩ = s.ctx ⟨n, j⟩) ∧
    (t.cell n).bins = (s.cell n).bins ∧ ((s.cell n).trace.bytes = 0 → t.net = s.net) := by
  let c := s.cell n
  let place := (l.head?.map (·.place)).getD 0
  let old := c.ctx k
  let x := { beginCtx (c.entryRec (plEntry place)) place l cores s.fresh.2.turn s.fresh.1 regs with
    released := old.released, out := old.out, sent := old.sent, incsAwaited := old.incsAwaited, lastTbc := old.lastTbc }
  let s1 := s.fresh.2.setCtx ⟨n, k⟩ x
  obtain ⟨rest, ht⟩ : ∃ rest, s.begin_ n k l cores regs =
      (s1.setCell n { s1.cell n with issuedSince := true }).trace ⟨n, k⟩ 1 (plEntry place) rest := ⟨_, rfl⟩
  have h2 : KeptCell n s1 (s1.setCell n { s1.cell n with issuedSince := true }) := keptCell_setCell n s1 ⟨rfl, rfl, rfl, rfl, rfl, rfl⟩
  have h3 := keptCell_trace (s1.setCell n { s1.cell n with issuedSince := true }) ⟨n, k⟩ 1 (plEntry place) rest
  rw [← ht] at h3
  have h23 := h2.trans h3
  have h1 : OwnOnly ⟨n, k⟩ s s1 := (keptCell_fresh n s).ownOnly.trans (ownOnly_setCtx ⟨n, k⟩ s.fresh.2 x)
  have hx : (s.begin_ n k l cores regs).ctx ⟨n, k⟩ = x := by rw [h23.ctx, State.ctx_setCtx]
  refine ⟨?_, ?_, fun j hj => ?_, ?_, fun h0 => ?_⟩
  · rw [hx]
    exact begun_beginCtx c l cores _ _ regs old
  · rw [hx]
    rfl
  · rw [h23.ctx, h1.other j hj]
  · rw [h23.alike.bins, h1.bins]
  · rw [ht, trace_eq_self (by rw [h2.alike.traceBytes, h1.traceBytes, h0])]
    rfl

/-! ### What a sample picks (R37) -/

theorem oldestBin_mem {l : List Bin} {b : Bin} (h : oldestBin l = some b) : b ∈ l := by
  induction l generalizing b with
  | nil => cases h
  | cons x l ih =>
    have hcase : b = x ∨ oldestBin l = some b := by
      unfold oldestBin at h
      split at h
      · exact .inl (Option.some.inj h).symm
      · rename_i b' hb'
        split at h
        · split at h
          · exact .inr (hb'.trans h)
          · exact .inl (Option.some.inj h).symm
        · exact .inl (Option.some.inj h).symm
    obtain rfl | h := hcase
    · exact List.mem_cons_self
    · exact List.mem_cons_of_mem _ (ih h)

theorem chooseBin_mem {l : List Bin} {b : Bin} (h : chooseBin l = some b) : b ∈ l := by
  unfold chooseBin at h
  split at h
  · rename_i b' hb'
    cases h
    exact List.mem_of_mem_filter (oldestBin_mem hb')
  · exact oldestBin_mem h

theorem qualifying_mem {c : Cell} {ready : Bool} {b : Bin} (h : b ∈ c.qualifying ready) : b ∈ c.bins := by
  simp only [Cell.qualifying] at h
  split at h
  · exact List.mem_of_mem_filter h
  · exact List.mem_of_mem_filter h

theorem sample_bin_mem {s : State} {n k : Nat} {b : Bin} (h : s.sample n = some (.bin k b)) : b ∈ (s.cell n).bins := by
  simp only [State.sample] at h
  split at h
  · cases h
  · split at h
    · rename_i hz
      cases h
      exact qualifying_mem (List.mem_of_mem_filter (List.mem_of_mem_filter (chooseBin_mem hz)))
    · split at h <;> cases h
    · split at h
      · cases h
      · obtain ⟨b', hb', e⟩ := Option.map_eq_some_iff.1 h
        cases e
        exact qualifying_mem (List.mem_of_mem_filter (chooseBin_mem hb'))
    · cases h

end Sys2Proof.Machine
end

section
/-! The steps of inboxes, banks and refused sends (O41). -/

namespace Sys2Proof.Machine
open Sys2Proof.Claims

/-! ### Steps that take a message (R24, R36) -/

/-- A step that takes a message which arrives. -/
theorem arrived_of_arrives {s : State} {i : Nat} {src dst : Endp} {b : Body} (h : Arrives s i src dst b) :
    ∃ vn, ∀ name k, arrived name i s k = event name (k { vn, src, dst, body := b } (s.take i)) := by
  obtain ⟨hd, vn, hm, hr⟩ := h
  refine ⟨vn, fun name k => ?_⟩
  simp only [arrived, arrivedIf, hd, if_true, hm, hr, beq_self_eq_true]

/-- A step that takes a message which its target refuses. -/
theorem arrivedIf_of_turnedAway {s : State} {i : Nat} {src dst : Endp} {b : Body} (h : TurnedAway s i src dst b) :
    ∃ vn, ∀ name k, arrivedIf name true i s k = event name (k { vn, src, dst, body := b } (s.take i)) := by
  obtain ⟨hd, vn, hm, hr⟩ := h
  refine ⟨vn, fun name k => ?_⟩
  simp only [arrivedIf, hd, if_true, hm, hr, beq_self_eq_true]

theorem happens_event {name : String} {t : State} {P : State → Prop} (h : P t) : Happens (event name (some t)) P := ⟨t, rfl, h⟩

/-- A cell counts a pop of a pool: nothing that its inbox looks at changes. -/
theorem popped_eq (c : Cell) (src : Endp) (p : Parcel) : ∃ popOpen, c.popped src p = { c with popOpen } := by
  unfold Cell.popped
  split
  · exact ⟨_, rfl⟩
  · exact ⟨c.popOpen, rfl⟩

/-! ### Arrivals and sets (R32, R36, R37) -/

theorem inboxArrival_spec {s : State} {i n : Nat} {src : Endp} {p : Parcel} (h : Arrives s i src (.cell n) (.parcel p))
    (hs : p.special = false) (ha : (s.cell n).canAccept p = true) :
    Happens (exec (.inboxArrival i) s) fun t => TakesOne n s t ∧
      ((p.onStrandNet && (s.cell n).mustSpill p) = false → t.mem = s.mem) ∧
      ((∀ m, p = .msg m → (s.cell n).hasHandler m.cls.toNat = true) → (∀ m, p = .strand m → (s.cell n).dropping.contains m.job = false) →
        t.net = (s.take i).net ∧ InInbox (t.cell n) ((s.cell n).takeId p).2) := by
  obtain ⟨vn, he⟩ := arrived_of_arrives h
  obtain ⟨o, ho⟩ := popped_eq ((s.take i).cell n) src p
  have ha' : ((s.take i).cell n).canAccept p = true := ha
  obtain ⟨h1, h2, h3⟩ := inboxTakes_spec ((s.take i).setCell n { (s.take i).cell n with popOpen := o }) n p
  rw [State.cell_setCell] at h2 h3
  simp only [exec, execInboxArrival, he, hs, ha', ho, Bool.not_false, Bool.and_self, if_true]
  refine happens_event ⟨⟨?_, ?_, fun k hk => ?_⟩, h2, h3⟩
  · rw [h1.msgId, State.cell_setCell]
    rfl
  · rw [h1.accepted, State.cell_setCell]
    rfl
  · rw [h1.other k hk, State.cell_setCell_ne _ _ hk]
    rfl

/-- A set formed from a state of its cell in which only the inbox is not as before. -/
theorem begin_after_setCell (s : State) (n k : Nat) {c : Cell} (hc : c.ctxs = (s.cell n).ctxs) (ht : c.trace.bytes = (s.cell n).trace.bytes)
    (l : List Arrival) (cores : Bool) (regs : Option TrapRegs) :
    let t := (s.setCell n c).begin_ n k l cores regs
    Begun (t.ctx ⟨n, k⟩) l ∧ (t.ctx ⟨n, k⟩).cores = cores ∧ (∀ j, j ≠ k → t.ctx ⟨n, j⟩ = s.ctx ⟨n, j⟩) ∧ 
    (t.cell n).bins = c.bins ∧
    ((s.cell n).trace.bytes = 0 → t.net = s.net) := by
  obtain ⟨h1, h2, h3, h4, h5⟩ := begin_spec (s.setCell n c) n k l cores regs
  rw [State.cell_setCell] at h4 h5
  exact ⟨h1, h2, fun j hj => (h3 j hj).trans (State.ctx_setCell s hc _), h4, fun h0 => h5 (ht.trans h0)⟩

theorem setFormation_bin {s : State} {n k : Nat} {b : Bin} (h : s.sample n = some (.bin k b)) :
    Happens (exec (.setFormation n) s) fun t =>
      Begun (t.ctx ⟨n, k⟩) (b.msgs.take 32) ∧ (∀ j, j ≠ k → t.ctx ⟨n, j⟩ = s.ctx ⟨n, j⟩) ∧
      (∃ b' ∈ (t.cell n).bins, b'.entry = b.entry ∧ b'.msgs = b.msgs.drop 32) ∧ ((s.cell n).trace.bytes = 0 → t.net = s.net) := by
  let b' : Bin := { b with msgs := b.msgs.drop 32, firstSegs := b.firstSegs + 1, due := false, regs := none }
  obtain ⟨h1, -, h3, h4, h5⟩ := begin_after_setCell s n k (c := (s.cell n).setBin b') rfl rfl (b.msgs.take 32) false b.regs
  simp only [exec, execSetFormation, h, Option.map_some]
  refine happens_event ⟨h1, h3, ⟨b', ?_, rfl, rfl⟩, h5⟩
  have hb := mem_setBin (b' := b') (sample_bin_mem h) rfl
  rw [← h4] at hb
  exact hb

theorem setFormation_group {s : State} {n j k : Nat} {r : Reserv} (h : s.sample n = some (.group j k r)) :
    Happens (exec (.setFormation n) s) fun t =>
      Begun (t.ctx ⟨n, k⟩) (r.waiting.take (min r.strands r.size)) ∧ (t.ctx ⟨n, k⟩).cores = true ∧
      ((s.cell n).trace.bytes = 0 → t.net = s.net) := by
  have hmin : (if r.strands < r.size then r.strands else r.size) = min r.strands r.size := by
    split <;> omega
  have hg : ∃ c : Cell, c.ctxs = (s.cell n).ctxs ∧ c.trace.bytes = (s.cell n).trace.bytes ∧
      s.formGroup n j k r = (s.setCell n c).begin_ n k (r.waiting.take (min r.strands r.size)) true none := by
    unfold State.formGroup
    extract_lets c0 m r' c1 b c2
    have hm : m = min r.strands r.size := hmin
    have hctxs : c1.ctxs = (s.cell n).ctxs := rfl
    have htrace : c1.trace.bytes = (s.cell n).trace.bytes := rfl
    have hc2 : c2.ctxs = c1.ctxs ∧ c2.trace.bytes = c1.trace.bytes := by
      clear_value c1
      unfold c2
      split
      · exact ⟨rfl, rfl⟩
      · split <;> exact ⟨rfl, rfl⟩
    exact ⟨c2, hc2.1.trans hctxs, hc2.2.trans htrace, by rw [hm]⟩
  obtain ⟨c, hc, ht, he⟩ := hg
  obtain ⟨h1, h2, -, -, h5⟩ := begin_after_setCell s n k hc ht (r.waiting.take (min r.strands r.size)) true none
  simp only [exec, execSetFormation, h, Option.map_some, he]
  exact happens_event ⟨h1, h2, h5⟩

theorem gatherWindowExpiry_eq {s : State} {n : Nat} {e : PC} {b : Bin} {a : Arrival} (hb : (s.cell n).bin? e = some b)
    (ho : (s.cell n).binOpen b = true) (hd : b.due = false) (ha : b.msgs.head? = some a)
    (hg : ((s.cell n).entryRec b.entry).gather.toNat ≤ (s.cell n).cyc - a.cyc) :
    exec (.gatherWindowExpiry n e) s = .next (s.setCell n ((s.cell n).setBin { b with due := true })) := by
  simp only [exec, execGatherWindowExpiry, hb, Option.bind_some, Cell.windowOver, ho, hd, ha, hg, Bool.not_false, Bool.and_self,
    decide_true, if_true]
  rfl

theorem inboxRefill_eq {s : State} {n : Nat} (ho : (s.cell n).out = false) (ht : 2 * (s.cell n).occupancy < (s.cell n).threshold)
    (hc : refillCount ((s.cell n).threshold - (s.cell n).occupancy) (s.cell n).tail ≠ 0) (hr : s.refilling n = false)
    (hb : s.barred n (.home ((s.partAt n).blockAt ((s.cell n).tailChain.blocks.headD 0) 0 / 2 ^ 32)) = false) :
    exec (.inboxRefill n) s = .next (s.post
      { vn := .response, src := .home ((s.partAt n).blockAt ((s.cell n).tailChain.blocks.headD 0) 0 / 2 ^ 32), dst := .cell n
        body := .tailRead none [] [] ((s.cell n).tail.take (refillCount ((s.cell n).threshold - (s.cell n).occupancy) (s.cell n).tail)) }) := by
  simp only [exec, execInboxRefill, ho, ht, hr, hb, bne_iff_ne.2 hc, Bool.not_false, decide_true, Bool.and_self, if_true]
  rfl

theorem startMessage_spec {s : State} {i n : Nat} {src : Endp} {p : Smsg} (h : Arrives s i src (.cell n) (.parcel (.msg p))) (hp : p.cls = 6)
    (ha : (s.cell n).canAccept (.msg p) = true) :
    Happens (exec (.startMessage i) s) fun t => InCell s t n ∧ (∀ r ∈ (t.cell n).entries, r.hold = false) ∧
      t.net = (s.take i).net ++ [{ vn := .response, src := .cell n, dst := src, body := .startAck (p.payload.extractLsb' 32 32) n }] := by
  obtain ⟨vn, he⟩ := arrived_of_arrives h
  obtain ⟨o, ho⟩ := popped_eq ((s.take i).cell n) src (.msg p)
  have ha' : ({ (s.take i).cell n with popOpen := o } : Cell).canAccept (.msg p) = true := ha
  let c0 : Cell := { (s.take i).cell n with popOpen := o, entries := ((s.take i).cell n).entries.map fun (r : EntryRec) => { r with hold := false } }
  let c := if c0.hasHandler 6 then c0.accept (.msg p) else (c0.takeId (.msg p)).1
  have hent : c.entries = c0.entries := by
    show (if c0.hasHandler 6 then c0.accept (.msg p) else (c0.takeId (.msg p)).1).entries = _
    split
    · exact (accept_spec c0 (.msg p)).2.2.1
    · rfl
  simp only [exec, execStartMessage, he, ho, ha', hp, beq_self_eq_true, Bool.and_self, if_true]
  refine happens_event (t := ((s.take i).setCell n c).post _) ⟨⟨rfl, fun k hk => ?_⟩, fun r hr => ?_, rfl⟩
  · exact State.cell_setCell_ne _ _ hk
  · have hc : ∀ m, (((s.take i).setCell n c).post m).cell n = c := fun _ => State.cell_setCell _ _ _
    rw [hc, hent] at hr
    obtain ⟨r', -, rfl⟩ := List.mem_map.1 hr
    rfl

theorem bankWrite_eq {s : State} {n : Nat} {b : BankWrite} {bs : List BankWrite} (h : (s.cell n).bankQ = b :: bs) :
    exec (.bankWrite n) s = .next ({ s.setCell n { s.cell n with bankQ := bs } with
      mem := writeLE s.mem (cellKey n b.off) b.size b.data.toNat } : State) := by
  simp only [exec, execBankWrite, h]
  rfl

/-! ### What a switched-out cell refuses (R182, R246, R342, R425, R426) -/

theorem add_spec (r : Refusals) (e : Endp) : e ∈ (r.add e).listed ∨ (r.add e).overflow = true := by
  simp only [Refusals.add]
  split
  · rename_i h
    exact .inl (by simpa using h)
  · split
    · exact .inl (List.mem_append_right _ List.mem_cons_self)
    · exact .inr rfl

theorem sendRefused_spec {s : State} {i n : Nat} {src : Endp} {b : Body} (h : TurnedAway s i src (.cell n) b) (hb : b.engineWord? = none) :
    Happens (exec (.sendRefused i) s) fun t => InCell s t n ∧ t.net = (s.take i).net ∧
      (∃ vn, t.refused = s.refused ++ [({ vn, src, dst := .cell n, body := b }, s.tbc)]) ∧
      (src ∈ (t.cell n).refusals.listed ∨ (t.cell n).refusals.overflow = true) := by
  obtain ⟨vn, he⟩ := arrivedIf_of_turnedAway h
  simp only [exec, execSendRefused, he, hb, Option.isNone_none, if_true]
  refine happens_event ⟨⟨rfl, fun k hk => State.cell_setCell_ne _ _ hk⟩, rfl, ⟨vn, rfl⟩, ?_⟩
  rw [State.noteRefusal, State.cell_setCell]
  exact add_spec _ src

theorem xfer_noteRefusal (s : State) (n k slot : Nat) (e : Endp) : ((s.noteRefusal n e).cell k).xfer slot = (s.cell k).xfer slot := by
  by_cases h : k = n
  · subst h
    rw [State.noteRefusal, State.cell_setCell]
    rfl
  · rw [State.noteRefusal, State.cell_setCell_ne _ _ h]

theorem twWriteRefused_spec {s : State} {i k n slot word : Nat} {a : Access} (h : TurnedAway s i (.cell k) (.cell n) (.access a))
    (ha : a.op = .engineWrite slot word) (hb : ((s.cell k).xfer slot).busy = true) (hs : ((s.cell k).xfer slot).state = 0) :
    Happens (exec (.twWriteRefused i) s) fun t => t.mem = s.mem ∧ t.net = (s.take i).net ∧
      let y := (t.cell k).xfer slot
      y.busy = true ∧ y.state = 1 ∧ y.kept = some (.cell n, a) ∧ y.todo = ((s.cell k).xfer slot).todo := by
  obtain ⟨vn, he⟩ := arrivedIf_of_turnedAway h
  have hw : Body.engineWord? (.access a) = some (slot, a) := by simp only [Body.engineWord?, ha]
  have hb' : (((s.take i).cell k).xfer slot).busy = true := hb
  have hs' : (((s.take i).cell k).xfer slot).state = 0 := hs
  simp only [exec, execTwWriteRefused, he, hw, hb', hs', beq_self_eq_true, Bool.and_self, if_true]
  refine happens_event ⟨rfl, rfl, ?_⟩
  rw [xfer_noteRefusal, xfer_setXfer]
  exact ⟨rfl, rfl, rfl, rfl⟩

/-- The words of an engine that are sent again: nothing that is sent already is lost. -/
theorem resendWords_spec (cell : Nat) (t : Endp) (l : Tbl Xfer) (s : State) :
    (resendWords cell t l s).mem = s.mem ∧ (resendWords cell t l s).refused = s.refused ∧
    ∃ new, (resendWords cell t l s).net = s.net ++ new := by
  induction l generalizing s with
  | nil => exact ⟨rfl, rfl, [], (List.append_nil _).symm⟩
  | cons e l ih =>
    obtain ⟨slot, x⟩ := e
    have hstep : ∀ u : State, u.mem = s.mem → u.refused = s.refused → (∃ new, u.net = s.net ++ new) →
        (resendWords cell t l u).mem = s.mem ∧ (resendWords cell t l u).refused = s.refused ∧
        ∃ new, (resendWords cell t l u).net = s.net ++ new := fun u h1 h2 h3 => by
      obtain ⟨g1, g2, new', g3⟩ := ih u
      obtain ⟨new, h3⟩ := h3
      exact ⟨g1.trans h1, g2.trans h2, new ++ new', by rw [g3, h3, List.append_assoc]⟩
    simp only [resendWords]
    split
    · split
      · exact hstep _ rfl rfl ⟨_, rfl⟩
      · exact hstep s rfl rfl ⟨[], (List.append_nil _).symm⟩
    · exact hstep s rfl rfl ⟨[], (List.append_nil _).symm⟩

theorem resendTo_spec (s : State) (e t : Endp) :
    (s.resendTo e t).mem = s.mem ∧ (∀ y ∈ (s.resendTo e t).refused, ¬ (y.1.src = e ∧ y.1.dst = t)) ∧
    ∀ y ∈ s.refused, if y.1.src = e ∧ y.1.dst = t then y.1 ∈ (s.resendTo e t).net else y ∈ (s.resendTo e t).refused := by
  let l := s.refused.filter fun y => y.1.src == e && y.1.dst == t
  let u : State := { s with refused := s.refused.filter fun y => !(y.1.src == e && y.1.dst == t), net := l.map (·.1) ++ s.net }
  have hu : (s.resendTo e t).mem = u.mem ∧ (s.resendTo e t).refused = u.refused ∧ ∃ new, (s.resendTo e t).net = u.net ++ new := by
    simp only [State.resendTo]
    split
    · exact resendWords_spec _ t _ u
    · exact ⟨rfl, rfl, [], (List.append_nil _).symm⟩
  obtain ⟨h1, h2, new, h3⟩ := hu
  refine ⟨h1, fun y hy hne => ?_, fun y hy => ?_⟩
  · rw [h2] at hy
    have := (List.mem_filter.1 hy).2
    simp [hne.1, hne.2] at this
  · split
    · rename_i hm
      rw [h3]
      refine List.mem_append_left _ (List.mem_append_left _ (List.mem_map.2 ⟨y, List.mem_filter.2 ⟨hy, ?_⟩, rfl⟩))
      simp [hm.1, hm.2]
    · rename_i hm
      rw [h2]
      refine List.mem_filter.2 ⟨hy, ?_⟩
      rw [Bool.not_eq_true', Bool.and_eq_false_imp]
      exact fun h1 => beq_eq_false_iff_ne.2 fun h2 => hm ⟨beq_iff_eq.1 h1, h2⟩

theorem resumeNotification_spec {s : State} {i n : Nat} {src dst : Endp} (h : Arrives s i src dst (.resume n)) :
    Happens (exec (.resumeNotification i) s) fun t => t.mem = s.mem ∧ (∀ y ∈ t.refused, ¬ (y.1.src = dst ∧ y.1.dst = .cell n)) ∧
      ∀ y ∈ s.refused, if y.1.src = dst ∧ y.1.dst = .cell n then y.1 ∈ t.net else y ∈ t.refused := by
  obtain ⟨vn, he⟩ := arrived_of_arrives h
  simp only [exec, execResumeNotification, he]
  exact happens_event (resendTo_spec (s.take i) dst (.cell n))

/-- A record sent: no cell changes, and the record is the one message. -/
theorem reports_report (s : State) (pn : Nat) (src : Endp) (r : Frec) :
    (s.report pn src r).mem = s.mem ∧ (s.report pn src r).cells = s.cells ∧ (s.report pn src r).refused = s.refused ∧
    ∃ seq d dst, (s.report pn src r).net = s.net ++ [{ vn := .system, src, dst, body := .parcel (.record { r with seq } d) }] := by
  simp only [State.report]
  split
  · exact ⟨rfl, rfl, rfl, _, _, _, rfl⟩
  · exact ⟨rfl, rfl, rfl, r.seq, _, _, rfl⟩

theorem targetSwitchedOut_spec {s : State} {n target : Nat} (h : s.targetOut n target = true) :
    Happens (exec (.targetSwitchedOut n target) s) fun t =>
      t.mem = s.mem ∧ t.cells = s.cells ∧ t.refused = s.refused ∧ Reports s t causeTargetSwitchedOut fun r =>
        r.tbc = BitVec.ofNat 64 s.tbc ∧ r.addr = BitVec.ofNat 64 ((s.part (s.partNo target)).rel target) := by
  obtain ⟨e, own, src, he⟩ : ∃ e own src, exec (.targetSwitchedOut n target) s = event "TARGET_SWITCHED_OUT" (some
      (let u : State := { s with sentAt := tset s.sentAt (targetKey n target) (s.tbc + 1) }
       u.report (s.partNo target) e { u.recAt (s.partNo target) own causeTargetSwitchedOut src with
         addr := BitVec.ofNat 64 ((s.part (s.partNo target)).rel target) })) := by
    simp only [exec, execTargetSwitchedOut, h, if_true]
    exact ⟨_, _, _, rfl⟩
  rw [he]
  obtain ⟨h1, h2, h3, seq, d, dst, h4⟩ := reports_report { s with sentAt := tset s.sentAt (targetKey n target) (s.tbc + 1) } (s.partNo target) e
    { State.recAt { s with sentAt := tset s.sentAt (targetKey n target) (s.tbc + 1) } (s.partNo target) own causeTargetSwitchedOut src with
      addr := BitVec.ofNat 64 ((s.part (s.partNo target)).rel target) }
  exact happens_event ⟨h1, h2, h3, _, d, e, dst, h4, rfl, rfl, rfl⟩

/-- Settles O41: each step by its own lemma above. -/
theorem arrivalSteps : Obligations.ArrivalSteps := by
  unfold Obligations.ArrivalSteps
  intro s i n src u c
  refine ⟨fun p h hs ha => ?_, fun k b h => setFormation_bin h, fun j k r h => setFormation_group h,
    fun e b a hb ho hd hm hg => gatherWindowExpiry_eq hb ho hd hm hg, fun ho ht hc hr => inboxRefill_eq ho ht hc hr,
    fun p h hp ha => startMessage_spec h hp ha, fun b bs h => bankWrite_eq h, fun b h hb => sendRefused_spec h hb,
    fun k slot a word h ha hb hs => twWriteRefused_spec h ha hb hs, fun dst h => resumeNotification_spec h,
    fun target h => targetSwitchedOut_spec h⟩
  obtain ⟨t, ht, h1, h2, h3⟩ := inboxArrival_spec h hs ha
  exact ⟨t, ht, h1.other, h1.msgId, h2, h3, h1.accepted⟩

end Sys2Proof.Machine
end

section
/-! SUPPORT. A step runs what the words at the program counter decode to, and the registers that read as constants. -/

namespace Sys2Proof.Machine
open Sys2Proof.Claims

/-! ### The machine as a whole -/

/-- What `next` does is one of the candidates: the only one, or the one that the free value picks. -/
theorem next_mem (s : State) {l : List Cand} (h : l ≠ []) : ∃ c ∈ l, s.next l = s.run c := by
  match l, h with
  | [c], _ => exact ⟨c, List.mem_singleton_self c, rfl⟩
  | c :: d :: l, _ =>
    have hlt : Config.choice s.turn % (l.length + 2) < (c :: d :: l).length := Nat.mod_lt _ (Nat.succ_pos _)
    refine ⟨(c :: d :: l)[Config.choice s.turn % (l.length + 2)], List.getElem_mem hlt, ?_⟩
    rw [State.next, ← List.getElem_eq_getD (h := hlt)]

/-- The issue of a context whose words decode runs the instruction that they decode to. -/
theorem runIssue_ok {s : State} {w : Who} {i : Instr} {n : Nat} (h : ({ s with cur := w } : State).fetch w = .ok i n) :
    s.runIssue w =
      thenNext (exec i { s with cur := w }) (State.afterIssue { s with cur := w } w (!scalarClass i) (isMma i) (isYield i)) := by
  simp only [State.runIssue, h]

/-- Settles O53: by the number of the candidates. -/
theorem stepRunsDecoded : Obligations.StepRunsDecoded := by
  intro s
  rw [step]
  generalize s.flow = u
  refine ⟨fun w i n hc hf => ?_, fun i hc => ?_, fun i hc => ?_, fun hc => ?_, next_mem u⟩ <;> rw [hc]
  · exact runIssue_ok hf
  · rfl
  · rfl
  · rfl

/-! ### Words of the reference, and registers that are constants -/

/-- Settles O55: each decoding is computed. -/
theorem specWordsDecode : Obligations.SpecWordsDecode := by
  refine ⟨?_, ?_, ?_, ?_, ?_, ?_, ?_, ?_⟩ <;> decide

/-- A scalar write whose destination is s0 leaves no trace, whether or not its guard holds (R53). -/
theorem completes_setS_zero (s : State) (g : Bool) (v : W64) (n : Nat) :
    Completes s n (finishLen n (.done (if g then s.setMe (s.me.setS 0 v) else s))) fun y => RegsOnly s.me y [] [] [] [] := by
  cases g
  · exact completes_done (regsOnly_past _ _ _ _ _ _)
  · exact completes_setMe rfl (regsOnly_past _ _ _ _ _ _)

/-- Settles O58: the writes are discarded by the accessors, and what is left of the two instructions is the next program counter. -/
theorem hardWiredRegisters : Obligations.HardWiredRegisters := by
  refine ⟨fun x v act m b => ⟨x.s_zero, x.p_seven, x.k_seven, x.setS_zero v, x.setP_seven act m, x.setK_seven b⟩,
    fun h a pa pb s => ⟨completes_setS_zero s (s.me.guard h) (s.me.scalarB a) _, ?_⟩⟩
  exact completes_setMe (y := s.me.setP 7 (s.me.active h) (s.me.p pa.toNat &&& s.me.p pb.toNat)) rfl (regsOnly_past _ _ _ _ _ _)

end Sys2Proof.Machine
end

section
/-! SUPPORT. What the predicate instructions and the scalar integer instructions write. -/

namespace Sys2Proof.Machine
open Sys2Proof.Claims

/-! ### Predicate instructions (R127 to R129) -/

theorem regsOnly_setP_past (x : Ctx) (d : Nat) (m y : W32) (n : Nat) : RegsOnly x ((x.setP d m y).past n) [] [] [d] [] := by
  refine ⟨?_, fun _ _ => ?_, fun _ _ => ?_, fun r hr => ?_, fun _ _ => ?_⟩
  · by_cases h : d = 7 <;> simp [Ctx.setP, Ctx.past, h]
  · by_cases h : d = 7 <;> simp [Ctx.setP, h, Ctx.v]
  · by_cases h : d = 7 <;> simp [Ctx.setP, h, Ctx.s]
  · simpa using Ctx.p_setP_ne x m y (by simpa using hr)
  · by_cases h : d = 7 <;> simp [Ctx.setP, h, Ctx.k]

/-- A lane predicate takes the new bit in the lanes of the mask, and keeps its bit in the others. -/
theorem getLsbD_setP (x : Ctx) {d : Nat} (m y : W32) (h : d ≠ 7) {L : Nat} (hL : L < 32) :
    ((x.setP d m y).p d).getLsbD L = if m.getLsbD L then y.getLsbD L else (x.p d).getLsbD L := by
  rw [Ctx.p_setP x m y h, BitVec.getLsbD_or, BitVec.getLsbD_and, BitVec.getLsbD_and, BitVec.getLsbD_not, decide_eq_true hL]
  cases m.getLsbD L <;> simp

/-- An instruction that writes the bits f of a lane predicate in Active completes. -/
theorem completes_setP (s : State) (n : Nat) (pd : PReg) (act y : W32) (f : Nat → Bool) (hf : ∀ L < 32, y.getLsbD L = f L) :
    Completes s n (finishLen n (.done (s.setMe (s.me.setP pd.toNat act y)))) fun z => RegsOnly s.me z [] [] [pd.toNat] [] ∧
      ∀ L < 32, pd ≠ 7 → (z.p pd.toNat).getLsbD L = if act.getLsbD L then f L else (s.me.p pd.toNat).getLsbD L := by
  refine completes_setMe (by simp) ⟨regsOnly_setP_past _ _ _ _ _, fun L hL hpd => ?_⟩
  have h7 : pd.toNat ≠ 7 := fun e => hpd (BitVec.eq_of_toNat_eq e)
  rw [Ctx.p_past, getLsbD_setP _ _ _ h7 hL, hf L hL]

/-- Settles O6: each instruction writes one lane predicate, PMASK after reading its source. -/
theorem predicateResults : Obligations.PredicateResults := by
  refine ⟨fun i h pd f s hi => ?_, fun h pd a s s1 v ha => ?_⟩
  · unfold lanePredicate at hi
    split at hi <;> cases hi
    case h_1 pa pb => exact completes_setP s _ pd _ (s.me.p pa.toNat &&& s.me.p pb.toNat) _ fun L _ => BitVec.getLsbD_and
    case h_2 pa pb => exact completes_setP s _ pd _ (s.me.p pa.toNat ||| s.me.p pb.toNat) _ fun L _ => BitVec.getLsbD_or
    case h_3 pa pb =>
      exact completes_setP s _ pd _ (s.me.p pa.toNat ^^^ s.me.p pb.toNat) _ fun L _ => BitVec.getLsbD_xor
    case h_4 pa => exact completes_setP s _ pd _ (~~~s.me.p pa.toNat) _ fun L hL => by simp [hL]
    case h_5 v =>
      refine completes_setP s _ pd _ (if v then 0xFFFFFFFF else 0) _ fun L hL => ?_
      cases v
      · exact BitVec.getLsbD_zero
      · exact (BitVec.getLsbD_allOnes (v := 32)).trans (decide_eq_true hL)
  · simp only [exec, execPmask, ha, Got.then_ok]
    exact completes_setP s1 _ pd _ (v.extractLsb' 0 32) _ fun L hL => by simp [hL]

/-! ### Scalar integer instructions (R130, R132, R134, R135) -/

/-- A scalar instruction with a readable source A writes its value when its guard holds, and writes nothing when it does not. -/
theorem completes_scalarOp {s s1 : State} {h : Head} {d : Reg} {a : SrcA} {v : W64} (f g : Ctx → W64 → W64) (n : Nat)
    (ha : s.scalarA a (s.me.guard h) = .ok v s1) (hf : f s1.me v = g s1.me v) :
    Completes s1 n (finishLen n (scalarOp s h d a f)) fun y => RegsOnly s1.me y [] [d.toNat] [] [] ∧
      y.s d.toNat = if d = 0 then 0 else if s1.me.guard h then g s1.me v else s1.me.s d.toNat := by
  cases hg : s1.me.guard h with
  | true =>
    rw [scalarOp_ok ha hg, hf]
    exact completes_setMe (by simp) ⟨regsOnly_setS_past _ _ _ _, setS_reg_past _ _ _ _⟩
  | false =>
    simp only [scalarOp, ha, Got.then_ok, hg]
    refine completes_done ⟨regsOnly_past _ _ _ _ _ _, ?_⟩
    split
    · next h0 => subst h0; rfl
    · rfl

theorem shiftLeft_eq (v : W64) (n : Nat) : (if n < 64 then v <<< n else 0) = shiftLeft 64 n v.toNat := by
  unfold shiftLeft
  split
  · exact BitVec.eq_of_toNat_eq (by simp [Nat.shiftLeft_eq])
  · rfl

theorem shiftRight_eq (v : W64) (n : Nat) : (if n < 64 then v >>> n else 0) = shiftRight 64 n v.toNat := by
  unfold shiftRight
  split
  · refine BitVec.eq_of_toNat_eq ?_
    have := Nat.lt_of_le_of_lt (Nat.div_le_self v.toNat (2 ^ n)) v.isLt
    rw [BitVec.toNat_ushiftRight, BitVec.toNat_ofNat, Nat.shiftRight_eq_div_pow, Nat.mod_eq_of_lt this]
  · rfl

theorem shiftSigned_eq (v : W64) (n : Nat) : v.sshiftRight (if n < 64 then n else 64) = shiftSigned 64 n v.toInt := by
  have hn : (if n < 64 then n else 64) = min n 64 := by split <;> omega
  rw [shiftSigned, hn, BitVec.sshiftRight, Int.shiftRight_eq_div_pow]
  rfl

theorem effAddr_eq (v b : W64) (scale : BitVec 2) (disp : W32) :
    effAddr v b scale disp = v + BitVec.ofNat 64 (b.toNat * 2 ^ scale.toNat) + disp.signExtend 64 := by
  have h : b <<< scale.toNat = BitVec.ofNat 64 (b.toNat * 2 ^ scale.toNat) :=
    BitVec.eq_of_toNat_eq (by simp [Nat.shiftLeft_eq])
  rw [effAddr, h]

theorem add_eq_ofNat (v b : W64) : v + b = BitVec.ofNat 64 (v.toNat + b.toNat) := BitVec.eq_of_toNat_eq (by simp)

theorem mul_eq_ofNat (v b : W64) : v * b = BitVec.ofNat 64 (v.toNat * b.toNat) := BitVec.eq_of_toNat_eq (by simp)

theorem sub_eq_ofInt (v b : W64) : v - b = BitVec.ofInt 64 ((v.toNat : Int) - b.toNat) := by
  refine BitVec.eq_of_toNat_eq ?_
  rw [BitVec.toNat_sub, BitVec.toNat_ofInt]
  omega

theorem clz_eq (v : W64) : BitVec.ofNat 64 (clzOp 64 v.toNat) = BitVec.ofNat 64 (if v = 0 then 64 else 63 - Nat.log2 v.toNat) := by
  have h : v.toNat = 0 ↔ v = 0 := (BitVec.toNat_eq (x := v) (y := 0)).symm
  simp only [clzOp, h]

/-- Settles O7: each instruction is one scalarOp, whose value is that of its rule. -/
theorem scalarResults : Obligations.ScalarResults := by
  intro i k s s1 v hi ha
  unfold scalarInteger at hi
  split at hi <;> cases hi
  case h_1 => exact completes_scalarOp (fun x v => v + x.scalarB _) _ _ ha (add_eq_ofNat _ _)
  case h_2 => exact completes_scalarOp (fun x v => v - x.scalarB _) _ _ ha (sub_eq_ofInt _ _)
  case h_3 => exact completes_scalarOp (fun x v => v * x.scalarB _) _ _ ha (mul_eq_ofNat _ _)
  case h_8 => exact completes_scalarOp _ _ _ ha (shiftLeft_eq _ _)
  case h_9 => exact completes_scalarOp _ _ _ ha (shiftRight_eq _ _)
  case h_10 => exact completes_scalarOp _ _ _ ha (shiftSigned_eq _ _)
  case h_11 h d b =>
    cases ha
    exact completes_scalarOp (a := .reg 0) (fun x _ => x.scalarB b) _ _ rfl rfl
  case h_12 => exact completes_scalarOp _ _ _ ha (effAddr_eq _ _ _ _)
  case h_17 => exact completes_scalarOp _ _ _ ha (clz_eq _)
  case h_19 h d ra imm =>
    cases ha
    exact completes_scalarOp (a := .reg ra) (fun _ v => v + imm.signExtend 64) _ _ rfl rfl
  all_goals exact completes_scalarOp _ _ _ ha rfl

end Sys2Proof.Machine
end

section
/-! SUPPORT. SEND (R205, R206). -/

namespace Sys2Proof.Machine
open Sys2Proof.Claims

/-- A context that has taken one more send, and passed its instruction, holds it behind the others. -/
theorem holds_hold (x : Ctx) (n : Nat) (l : List Send) : Holds x ((x.hold l).past n) n (l.map (·.body)) := by
  obtain ⟨new, h1, h2⟩ := hold_held x l
  exact ⟨regsOnly_past { x with held := (x.hold l).held } n [] [] [] [], past_of_pc n rfl, new, h1, h2⟩

/-- The message of a SEND reads nothing that a trace record changes. -/
theorem sendMsg_kept {s t : State} (h : Kept s.cur.cell s t) (cls : BitVec 5) (place payload : W64) :
    t.sendMsg cls place payload = s.sendMsg cls place payload := by
  simp only [State.sendMsg, h.me, h.cur, h.part.relOf, h.part.partNo]

/-- A SEND whose class, guard, place and room are good leaves its trace record, holds its message and passes. -/
theorem exec_send_holds {h : Head} {cls : BitVec 5} {ra : Reg} {b : SrcB} {s : State} (hp : ¬ (cls.toNat < 7 ∧ s.me.priv = false))
    (hg : s.me.guard h = true) (hc : checkPlace s (s.partNo s.cur.cell) (s.me.s ra.toNat) true = none) (hf : s.me.fits 32 0 = true) :
    exec (.send h cls ra b) s = .next ((s.traceFar 6 (some (s.me.s ra.toNat)) (s.me.r.cm &&& s.me.r.live)).setMe
      ((s.me.hold [{ bytes := 32, body := .msg (s.sendMsg cls (s.me.s ra.toNat) (s.me.scalarB b)) }]).past (lenOf h (litB b)))) := by
  have hk := kept_traceFar s 6 (some (s.me.s ra.toNat)) (s.me.r.cm &&& s.me.r.live)
  have hp' : (decide (cls.toNat < 7) && !s.me.priv) = false := by simpa using hp
  simp only [exec, execSend, hp', hg, hc, withRoom_fits hf, hk.me, sendMsg_kept hk, finishLen_done, State.me_setMe, State.setMe_setMe,
    Bool.not_true, Bool.false_eq_true, if_false]

/-- Settles O27: the checks in their order, and behind them the message held. -/
theorem sendHolds : Obligations.SendHolds := by
  intro h cls ra b s x place n o
  split
  · next hp =>
    have hp' : (decide (cls.toNat < 7) && !s.me.priv) = true := by simpa using hp
    simp only [Traps, o, exec, execSend, hp', if_true]
    exact finishLen_trap_other _ (show causePrivileged ≠ causePartitionViolation by decide)
  · next hp =>
    have hp' : (decide (cls.toNat < 7) && !s.me.priv) = false := by simpa using hp
    split
    · next hg =>
      have hg' : s.me.guard h = false := hg
      simp only [o, exec, execSend, hp', hg', Bool.not_false, Bool.false_eq_true, if_false, if_true]
      exact completes_done (regsOnly_past _ _ _ _ _ _)
    · next hg =>
      have hg' : s.me.guard h = true := by simpa using hg
      split
      · next cause hc =>
        have hc' : checkPlace s (s.partNo s.cur.cell) (s.me.s ra.toNat) true = some cause := hc
        simp only [Traps, o, exec, execSend, hp', hg', hc', Bool.not_true, Bool.false_eq_true, if_false]
        refine finishLen_trap_other _ ?_
        obtain rfl | rfl := checkPlace_cause hc <;> decide
      · next hc =>
        exact fun hf => ⟨_, exec_send_holds hp hg' hc hf, traced_setMe s _ _ _ _, by rw [State.me_setMe]; exact holds_hold x n _⟩

end Sys2Proof.Machine
end

section
/-! SUPPORT. Reads of a queue: the head, the pop, what is delivered, and what source A reads (R172 to R174, R210). -/

namespace Sys2Proof.Machine
open Sys2Proof.Claims

/-! ### The head of a data queue, and its pop -/

/-- A context whose data queue q has lost its head e, kept in the pop shadow. -/
def Ctx.popped (x : Ctx) (q : Nat) (e : QEntry) (es : List QEntry) : Ctx :=
  { x with qs := tset x.qs q { entries := es, shadow := (x.queue q).shadow ++ [e] } }

@[simp] theorem queue_popped (x : Ctx) (q : Nat) (e : QEntry) (es : List QEntry) :
    (x.popped q e es).queue q = { entries := es, shadow := (x.queue q).shadow ++ [e] } := tget_tset _ _ _ _
theorem queue_popped_ne (x : Ctx) {q j : Nat} (e : QEntry) (es : List QEntry) (h : j ≠ q) :
    (x.popped q e es).queue j = x.queue j := tget_tset_ne _ _ _ h

section
variable {s : State} {q : Nat} {e : QEntry} {es : List QEntry}

theorem headQ_ready (hq : q < 8) (he : (s.me.queue q).entries = e :: es) (h0 : e.awaited = 0) : s.headQ q = .ok e s := by
  simp only [State.headQ, if_pos hq, he, h0, bne_self_eq_false, Bool.false_eq_true, if_false]

/-- An empty queue, or a head that is not ready, makes the reader wait. -/
theorem headQ_wait (hq : q < 8) (h : (s.me.queue q).entries = [] ∨ ∃ e es, (s.me.queue q).entries = e :: es ∧ e.awaited ≠ 0) :
    s.headQ q = .wait (.queue q 1) s := by
  obtain he | ⟨e, es, he, h0⟩ := h
  · simp only [State.headQ, if_pos hq, he]
  · simp only [State.headQ, if_pos hq, he, bne_iff_ne.2 h0, if_true]

theorem popQ_data (hq : q < 8) (he : (s.me.queue q).entries = e :: es) : s.popQ q = s.setMe (s.me.popped q e es) := by
  simp only [State.popQ, if_pos hq, he]
  rfl

/-! ### Delivery (R174, R176) -/

variable {α : Type} (k : State → Got α)

theorem deliver_clean (h : e.tag ≠ .poison) : s.deliver q e k = k s := if_neg (by simpa using h)

theorem deliver_zeroed (h : e.tag = .poison) (hz : s.me.qcfg.getLsbD q = true) :
    s.deliver q e k = k (s.setMe { s.me with qcfg := s.me.qcfg ||| BitVec.ofNat 16 (2 ^ (8 + q)) }) := by
  simp only [State.deliver, h, beq_self_eq_true, hz, if_true]

theorem deliver_poison (h : e.tag = .poison) (hz : ¬ s.me.qcfg.getLsbD q = true) :
    s.deliver q e k = .trap { cause := causeQueuePoison, addr := e.badAddr, sub := e.badCause } s := by
  simp only [State.deliver, h, beq_self_eq_true, hz, if_true, Bool.false_eq_true, if_false]
end

/-! ### What an entry delivers -/

theorem laneVal_scalar {e : QEntry} (wide : Bool) (L : Nat) (h : e.scalar = true) (hp : e.tag ≠ .poison) :
    e.laneVal wide L = if e.tag = .null then 0 else low wide e.value := by
  cases ht : e.tag <;> simp_all [QEntry.laneVal, low]

theorem laneVal_lanes {e : QEntry} (wide : Bool) (L : Nat) (h : e.scalar = false) :
    e.laneVal wide L = if e.tag = .null ∨ e.badLanes.getLsbD L = true then 0 else (lane e.lanes L).setWidth 64 := by
  simp only [QEntry.laneVal, h, Bool.false_eq_true, if_false, Bool.or_eq_true, beq_iff_eq]

theorem laneVal_eq {e : QEntry} (wide : Bool) (L : Nat) (hp : e.tag ≠ .poison) :
    e.laneVal wide L = if e.tag = .null then 0 else if e.scalar then low wide e.value
      else if e.badLanes.getLsbD L then 0 else (lane e.lanes L).setWidth 64 := by
  cases h : e.scalar with
  | true => simp [laneVal_scalar wide L h hp]
  | false => by_cases ht : e.tag = .null <;> simp [laneVal_lanes wide L h, ht]

theorem laneVal_poison {e : QEntry} (wide : Bool) (L : Nat) (hp : e.tag = .poison) :
    e.laneVal wide L = if e.scalar = true ∨ e.badLanes.getLsbD L = true then 0 else (lane e.lanes L).setWidth 64 := by
  cases h : e.scalar with
  | true => simp [QEntry.laneVal, h, hp]
  | false => simp [laneVal_lanes wide L h, hp]

theorem elem_eq (e : QEntry) (wide : Bool) (act : W32) (turn : Nat) {L : Nat}
    (h : act.getLsbD L = true ∨ e.scalar = true ∨ e.tag = .null) : e.elem wide act turn L = e.laneVal wide L := by
  refine if_pos ?_
  simpa [or_assoc] using h

theorem scalarVal_eq {e : QEntry} (hp : e.tag ≠ .poison) : e.scalarVal = if e.tag = .null then 0 else e.value := by
  cases ht : e.tag <;> simp_all [QEntry.scalarVal]

theorem extract_setWidth (w : W32) : (w.setWidth 64).extractLsb' 0 32 = w := by
  rw [← BitVec.setWidth_eq_extractLsb' (by decide), BitVec.setWidth_setWidth_of_le _ (by decide), BitVec.setWidth_eq]

/-- The low word of a lane's value is the word that the lane of a vector holds. -/
theorem low_laneVal {e : QEntry} (L : Nat) (hp : e.tag ≠ .poison) :
    (e.laneVal false L).extractLsb' 0 32 = if e.tag = .null then 0 else if e.scalar then e.value.extractLsb' 0 32
      else if e.badLanes.getLsbD L then 0 else lane e.lanes L := by
  rw [laneVal_eq false L hp]
  split_ifs
  · rfl
  · exact extract_setWidth _
  · rfl
  · exact extract_setWidth _

/-! ### Source A -/

section
variable {s : State} {q : QReg} {e : QEntry} {es : List QEntry} {wide use : Bool} {act : W32}

theorem laneA_queue (s1 : State) (h : s.headQ q.toNat = .ok e s1) :
    s.laneA (.queue q) wide act = if act == 0 then .ok (fun _ => 0) (s1.popQ q.toNat)
      else s1.deliver q.toNat e fun s => .ok (e.elem wide act s.turn) (s.popQ q.toNat) := by
  simp only [State.laneA, h]

theorem scalarA_queue (s1 : State) (h : s.headQ q.toNat = .ok e s1) :
    s.scalarA (.queue q) use = if !use then .ok 0 (s1.popQ q.toNat)
      else if e.noScalar then .trap { cause := causeQueueIndex } s1
      else s1.deliver q.toNat e fun s => .ok e.scalarVal (s.popQ q.toNat) := by
  simp only [State.scalarA, h]

/-- A read that cannot take its entry ends both readers the same way. -/
theorem sourceA_trap {t : Trap} {s1 : State} (h : s.headQ q.toNat = .trap t s1) :
    s.laneA (.queue q) wide act = .trap t s1 ∧ s.scalarA (.queue q) use = .trap t s1 := by
  simp only [State.laneA, State.scalarA, h, and_self]
theorem sourceA_wait {w : Wait} {s1 : State} (h : s.headQ q.toNat = .wait w s1) :
    s.laneA (.queue q) wide act = .wait w s1 ∧ s.scalarA (.queue q) use = .wait w s1 := by
  simp only [State.laneA, State.scalarA, h, and_self]
end

/-- From s to u the head e of data queue q has been taken: the context is x but for its queues, and the other queues are as they were. -/
def Takes (s : State) (q : Nat) (e : QEntry) (es : List QEntry) (x : Ctx) (u : State) : Prop :=
  OnlyIssuer s u ∧ u.me = { x with qs := u.me.qs } ∧
  u.me.queue q = { entries := es, shadow := (s.me.queue q).shadow ++ [e] } ∧ ∀ j, j ≠ q → u.me.queue j = s.me.queue j

theorem takes_popped (s : State) (q : Nat) (e : QEntry) (es : List QEntry) {x : Ctx} (hx : x.qs = s.me.qs) :
    Takes s q e es x (s.setMe (x.popped q e es)) := by
  have hq : ∀ j, x.queue j = s.me.queue j := fun j => by rw [Ctx.queue, hx, Ctx.queue]
  refine ⟨onlyIssuer_setMe s _, ?_, ?_, fun j hj => ?_⟩ <;> rw [State.me_setMe]
  · rfl
  · rw [queue_popped, hq]
  · rw [queue_popped_ne _ _ _ hj, hq]

section
variable {s : State} {q : QReg} {e : QEntry} {es : List QEntry} (hq : q.toNat < 8)
  (he : (s.me.queue q.toNat).entries = e :: es) (h0 : e.awaited = 0)
include hq he h0

theorem laneA_idle (wide : Bool) : ∃ va u, s.laneA (.queue q) wide 0 = .ok va u ∧ Takes s q.toNat e es s.me u := by
  rw [laneA_queue s (headQ_ready hq he h0), popQ_data hq he]
  exact ⟨_, _, rfl, takes_popped s _ e es rfl⟩

theorem scalarA_idle : ∃ w u, s.scalarA (.queue q) false = .ok w u ∧ Takes s q.toNat e es s.me u := by
  rw [scalarA_queue s (headQ_ready hq he h0), popQ_data hq he]
  exact ⟨_, _, rfl, takes_popped s _ e es rfl⟩

theorem laneA_clean (wide : Bool) {act : W32} (ha : act ≠ 0) (hp : e.tag ≠ .poison) :
    s.laneA (.queue q) wide act = .ok (e.elem wide act s.turn) (s.setMe (s.me.popped q.toNat e es)) := by
  rw [laneA_queue s (headQ_ready hq he h0), if_neg (by simpa using ha), deliver_clean _ hp, popQ_data hq he]

theorem scalarA_clean (hs : e.scalar = true) (hp : e.tag ≠ .poison) :
    s.scalarA (.queue q) true = .ok e.scalarVal (s.setMe (s.me.popped q.toNat e es)) := by
  rw [scalarA_queue s (headQ_ready hq he h0), deliver_clean _ hp, popQ_data hq he]
  simp [QEntry.noScalar, hs]

theorem scalarA_lanes (hs : e.scalar = false) (hp : e.tag ≠ .poison) :
    s.scalarA (.queue q) true = .trap { cause := causeQueueIndex } s := by
  rw [scalarA_queue s (headQ_ready hq he h0)]
  simp [QEntry.noScalar, hs, hp]

/-- A POISON entry whose failed lanes QCFG makes zero. -/
theorem sourceA_zeroed (wide : Bool) {act : W32} (hp : e.tag = .poison) (hz : s.me.qcfg.getLsbD q.toNat = true) :
    let x := { s.me with qcfg := s.me.qcfg ||| BitVec.ofNat 16 (2 ^ (8 + q.toNat)) }
    (act ≠ 0 → s.laneA (.queue q) wide act = .ok (e.elem wide act s.turn) (s.setMe (x.popped q.toNat e es))) ∧
    s.scalarA (.queue q) true = .ok 0 (s.setMe (x.popped q.toNat e es)) := by
  intro x
  have hpop : (s.setMe x).popQ q.toNat = s.setMe (x.popped q.toNat e es) := by
    have he' : ((s.setMe x).me.queue q.toNat).entries = e :: es := by rw [State.me_setMe]; exact he
    rw [popQ_data hq he', State.me_setMe, State.setMe_setMe]
  refine ⟨fun ha => ?_, ?_⟩
  · rw [laneA_queue s (headQ_ready hq he h0), if_neg (by simpa using ha), deliver_zeroed _ hp hz, hpop]
    rfl
  · rw [scalarA_queue s (headQ_ready hq he h0), deliver_zeroed _ hp hz, hpop]
    simp [QEntry.noScalar, QEntry.scalarVal, hp]

theorem sourceA_poison (wide : Bool) {act : W32} (hp : e.tag = .poison) (hz : ¬ s.me.qcfg.getLsbD q.toNat = true) :
    let t : Trap := { cause := causeQueuePoison, addr := e.badAddr, sub := e.badCause }
    (act ≠ 0 → s.laneA (.queue q) wide act = .trap t s) ∧ s.scalarA (.queue q) true = .trap t s := by
  refine ⟨fun ha => ?_, ?_⟩
  · rw [laneA_queue s (headQ_ready hq he h0), if_neg (by simpa using ha), deliver_poison _ hp hz]
  · rw [scalarA_queue s (headQ_ready hq he h0), deliver_poison _ hp hz]
    simp [QEntry.noScalar, hp]
end

end Sys2Proof.Machine
end

section
/-! SUPPORT. QPOP, QPEEK, QDROP and QSTAT, and reader endpoints as source A (R184, R185, R210, R273). -/

namespace Sys2Proof.Machine
open Sys2Proof.Claims

/-! ### Lane destinations -/

theorem regsOnly_setV_past (x : Ctx) (r : Nat) (m : W32) (f : Nat → W32) (n : Nat) :
    RegsOnly x ((x.setV r m f).past n) [r] [] [] [] :=
  ⟨rfl, fun k hk => by simpa using Ctx.v_setV_ne x m f (by simpa using hk), fun _ _ => rfl, fun _ _ => rfl, fun _ _ => rfl⟩

theorem regsOnly_setVp_past (x : Ctx) (r : Nat) (m : W32) (f : Nat → W64) (n : Nat) :
    RegsOnly x ((x.setVp r m f).past n) [r, r + 1] [] [] [] := by
  refine ⟨rfl, fun k hk => ?_, fun _ _ => rfl, fun _ _ => rfl, fun _ _ => rfl⟩
  simp only [List.mem_cons, List.not_mem_nil, or_false, not_or] at hk
  simpa using Ctx.v_setVp_ne x m f hk.1 hk.2

/-- A pair that is written keeps its lanes outside the mask. -/
theorem vl_setVp_inactive (x : Ctx) (r : Nat) {m : W32} (f : Nat → W64) {L : Nat} (hL : L < 32) (hm : ¬ m.getLsbD L = true) (k : Nat) :
    (x.setVp r m f).vl k L = x.vl k L := by
  have h : ∀ (y : Ctx) (j : Nat) (g : Nat → W32), (y.setV j m g).vl k L = y.vl k L := fun y j g => by
    by_cases hk : k = j
    · rw [hk, Ctx.vl_setV _ _ _ _ hL, if_neg hm]
    · exact Ctx.vl_setV_ne _ _ _ _ hk
  rw [Ctx.setVp, h, h]

/-! ### A read that is done -/

/-- An instruction of n words that has changed the issuing context alone, from the queues of x: scalar and lane registers, and what P says. -/
def ReadDone (s : State) (n : Nat) (o : Out) (x : Ctx) (vs ss : List Nat) (P : Ctx → Prop) : Prop :=
  ∃ y : Ctx, o = .next (s.setMe y) ∧ y.qs = x.qs ∧ Past s.me y n ∧ RegsOnly x y vs ss [] [] ∧ P y

section
variable {s : State} {n : Nat} {o : Out} {vs ss : List Nat} {P : Ctx → Prop}

/-- A read that pops, as the statement says it. -/
theorem ReadDone.popped {x : Ctx} (h : ReadDone s n o x vs ss P) (hx : x = { s.me with qs := x.qs }) {q : Nat} {l : DataQ}
    (hl : x.queue q = l) :
    ∃ u, o = .next u ∧ OnlyIssuer s u ∧ Past s.me u.me n ∧ RegsOnly { s.me with qs := u.me.qs } u.me vs ss [] [] ∧
      u.me.queue q = l ∧ P u.me := by
  obtain ⟨y, ho, hqs, hpast, hregs, hP⟩ := h
  refine ⟨_, ho, onlyIssuer_setMe s y, ?_⟩
  rw [State.me_setMe, hqs, ← hx]
  exact ⟨hpast, hregs, by rw [← hl, Ctx.queue, hqs, Ctx.queue], hP⟩

/-- A read that leaves the queue, as the statement says it. -/
theorem ReadDone.peeked (h : ReadDone s n o s.me vs ss P) :
    ∃ u, o = .next u ∧ OnlyIssuer s u ∧ Past s.me u.me n ∧ RegsOnly s.me u.me vs ss [] [] ∧ P u.me := by
  obtain ⟨y, ho, -, hpast, hregs, hP⟩ := h
  refine ⟨_, ho, onlyIssuer_setMe s y, ?_⟩
  rw [State.me_setMe]
  exact ⟨hpast, hregs, hP⟩
end

/-! ### QPOP and QPEEK of a data queue -/

/-- The context after a read of the head: popped or not. -/
def Ctx.readIf (x : Ctx) (pop : Bool) (q : Nat) (e : QEntry) (es : List QEntry) : Ctx := if pop then x.popped q e es else x

theorem readIf_eq (x : Ctx) (pop : Bool) (q : Nat) (e : QEntry) (es : List QEntry) :
    x.readIf pop q e es = { x with qs := (x.readIf pop q e es).qs } := by
  cases pop <;> rfl

/-- From s to s1 the issuing context has become x, which differs in its queues alone. -/
structure ReadTo (s s1 : State) (x : Ctx) : Prop where
  me : s1.me = x
  setMe : ∀ y, s1.setMe y = s.setMe y
  qs : x = { s.me with qs := x.qs }

theorem ReadTo.trans {s s1 s2 : State} {x y : Ctx} (h : ReadTo s s1 x) (h' : ReadTo s1 s2 y) : ReadTo s s2 y := by
  refine ⟨h'.me, fun z => (h'.setMe z).trans (h.setMe z), ?_⟩
  have hy := h'.qs
  rw [h.me, h.qs] at hy
  exact hy

/-- The head popped, or left. -/
theorem readTo_popIf {s : State} {pop : Bool} {q : Nat} {e : QEntry} {es : List QEntry} (hq : q < 8)
    (he : pop = true → (s.me.queue q).entries = e :: es) : ReadTo s (popIf pop s q) (s.me.readIf pop q e es) := by
  cases pop with
  | false => exact ⟨rfl, fun _ => rfl, rfl⟩
  | true =>
    have h : popIf true s q = s.setMe (s.me.popped q e es) := popQ_data hq (he rfl)
    rw [h]
    exact ⟨State.me_setMe _ _, fun y => State.setMe_setMe _ _ y, rfl⟩

section
variable {s s1 : State} {x : Ctx} (h : ReadTo s s1 x) {n : Nat} {vs ss : List Nat} {P : Ctx → Prop}
include h

/-- A read that has written its destination with f. -/
theorem ReadTo.done_setMe {f : Ctx → Ctx} (hqs : ∀ x, (f x).qs = x.qs) (hpc : ∀ x, (f x).r.pc = x.r.pc)
    (hr : ∀ x : Ctx, RegsOnly x ((f x).past n) vs ss [] []) (hP : P ((f x).past n)) :
    ReadDone s n (finishLen n (.done (s1.setMe (f s1.me)))) x vs ss P := by
  refine ⟨(f x).past n, ?_, hqs _, past_of_pc n ?_, hr _, hP⟩
  · rw [finishLen_done, h.me, h.setMe, State.me_setMe, State.setMe_setMe]
  · rw [hpc, h.qs]

/-- A read that has written nothing. -/
theorem ReadTo.done (hP : P (x.past n)) : ReadDone s n (finishLen n (.done s1)) x vs ss P := by
  refine ⟨x.past n, ?_, rfl, past_of_pc n ?_, regsOnly_past _ _ _ _ _ _, hP⟩
  · rw [finishLen_done, h.me, h.setMe]
  · rw [h.qs]

/-- Registers are those of s. -/
theorem ReadTo.vl (r L : Nat) : x.vl r L = s.me.vl r L := by rw [h.qs]; rfl
end

/-- A read of one entry: every form but that of `.B64` with a lane destination. -/
theorem readHead_one (s : State) (pop : Bool) (h : Head) {t : Ty} {toS : Bool} (d : Reg) (q : Nat) (ht : t.wide = false ∨ toS = true) :
    readHead s pop h t toS d q = readHead.one s pop t toS d q (s.me.active h) := by
  have h2 : (decide (q < 8) && t.wide && !toS) = false := by obtain h | h := ht <;> simp [h]
  simp only [readHead, h2]

section
variable {s : State} {q : Nat} {e : QEntry} {es : List QEntry} (pop : Bool) (hq : q < 8) (he : (s.me.queue q).entries = e :: es)
  (h0 : e.awaited = 0) (hp : e.tag ≠ .poison)
include hq he h0 hp

/-- A narrow lane destination takes what the head delivers, in the active lanes. -/
theorem readOne_lane {t : Ty} (d : Reg) (n : Nat) (act : W32) (ht : t.wide = false) :
    ReadDone s n (finishLen n (readHead.one s pop t false d q act)) (s.me.readIf pop q e es) [d.toNat] [] fun y =>
      ∀ L < 32, y.vl d.toNat L = if act.getLsbD L then
        (if e.tag = .null then 0 else if e.scalar then e.value.extractLsb' 0 32
          else if e.badLanes.getLsbD L then 0 else lane e.lanes L) else s.me.vl d.toNat L := by
  have hr := readTo_popIf (pop := pop) hq fun _ => he
  by_cases ha : act = 0
  · subst ha
    simp only [readHead.one, headQ_ready hq he h0, Got.then_ok, beq_self_eq_true, if_true]
    refine hr.done fun L _ => ?_
    rw [Ctx.vl_past, hr.vl]
    exact (if_neg (by simp)).symm
  · simp only [readHead.one, headQ_ready hq he h0, Got.then_ok, beq_eq_false_iff_ne.2 ha, Bool.false_eq_true, if_false,
      deliver_clean _ hp, Ctx.put, ht]
    refine hr.done_setMe (f := fun x => x.setV d.toNat act fun L => (e.laneVal false L).extractLsb' 0 32)
      (fun _ => rfl) (fun _ => rfl) (fun x => regsOnly_setV_past x _ _ _ _) fun L hL => ?_
    rw [Ctx.vl_past, Ctx.vl_setV _ _ _ _ hL, hr.vl, low_laneVal L hp]

/-- A scalar register takes the value of a scalar entry. -/
theorem readOne_scalar {t : Ty} (d : Reg) (n : Nat) {act : W32} (ha : act ≠ 0) (hs : e.scalar = true) :
    ReadDone s n (finishLen n (readHead.one s pop t true d q act)) (s.me.readIf pop q e es) [] [d.toNat] fun y =>
      y.s d.toNat = if d = 0 then 0 else low t.wide (if e.tag = .valid then e.value else 0) := by
  have hn : e.noScalar = false := by simp [QEntry.noScalar, hs]
  simp only [readHead.one, headQ_ready hq he h0, Got.then_ok, beq_eq_false_iff_ne.2 ha, Bool.false_eq_true, if_false, if_true,
    deliver_clean _ hp, hn]
  refine (readTo_popIf hq fun _ => he).done_setMe (f := fun x => x.setS d.toNat (low t.wide e.scalarVal)) (fun x => by simp) (fun x => by simp)
    (fun x => regsOnly_setS_past x _ _ _) ?_
  rw [setS_reg_past, QEntry.scalarVal]
  simp only [beq_iff_eq]

/-- A pair of lane registers takes the words of two entries that are read together. -/
theorem readHead_two {h : Head} {t : Ty} {e2 : QEntry} {rest : List QEntry} (d : Reg) (n : Nat) (ht : t.wide = true)
    (hes : es = e2 :: rest) (hs : e.scalar = false) (hs2 : e2.scalar = false) (h02 : e2.awaited = 0) (hp2 : e2.tag ≠ .poison)
    (ha : s.me.active h ≠ 0) :
    let word := fun (e : QEntry) (L : Nat) => if e.tag = .null ∨ e.badLanes.getLsbD L = true then (0 : W32) else lane e.lanes L
    ReadDone s n (finishLen n (readHead s pop h t false d q)) ((s.me.readIf pop q e es).readIf pop q e2 rest)
      [d.toNat, d.toNat + 1] [] fun y =>
        ∀ L < 32, if (s.me.active h).getLsbD L then y.vp d.toNat L = (word e2 L ++ word e L : BitVec 64)
          else ∀ r, y.vl r L = s.me.vl r L := by
  intro word
  have h1 := readTo_popIf (pop := pop) hq fun _ => he
  have hr := h1.trans (readTo_popIf (pop := pop) (e := e2) (es := rest) hq fun h => by
    rw [h1.me, h, Ctx.readIf, if_pos rfl, queue_popped]
    exact hes)
  rw [h1.me] at hr
  have hw : (decide (q < 8) && t.wide && !false) = true := by simp [hq, ht]
  have hword : ∀ (e : QEntry) L, e.scalar = false → (e.laneVal false L).extractLsb' 0 32 = word e L := fun e L hs => by
    rw [laneVal_lanes false L hs]
    simp only [word]
    split
    · rfl
    · exact extract_setWidth _
  rw [hes] at he
  simp only [readHead, hw, he, hs, readTwo, h0, h02, bne_self_eq_false, Bool.or_self, Bool.false_eq_true, if_false,
    beq_eq_false_iff_ne.2 ha, hs2, deliver_clean _ hp, deliver_clean _ hp2, Got.then_ok, Ctx.put, if_true, hword e _ hs, hword e2 _ hs2]
  refine hr.done_setMe (f := fun x => x.setVp d.toNat (s.me.active h) fun L => word e2 L ++ word e L)
    (fun _ => rfl) (fun _ => rfl) (fun x => regsOnly_setVp_past x _ _ _ _) fun L hL => ?_
  split
  · next ha => rw [Ctx.vp_past, Ctx.vp_setVp _ _ _ _ hL ha]
  · next ha => exact fun r => by rw [Ctx.vl_past, vl_setVp_inactive _ _ _ hL ha, hr.vl]
end

/-! ### QPOP, QPEEK and QDROP executed -/

theorem exec_qpop {s : State} {q : QReg} (hq : q.toNat < 8) (h : Head) (t : Ty) (toS : Bool) (d : Reg) :
    exec (.qpop h t toS d q) s = finishLen (lenOf h false) (readHead s true h t toS d q.toNat) := by
  simp only [exec, execQpop, chanRead, if_neg (Nat.not_le.2 hq)]

theorem exec_qpeek {s : State} {q : QReg} (hq : q.toNat < 8) (h : Head) (t : Ty) (toS : Bool) (d : Reg) :
    exec (.qpeek h t toS d q) s = finishLen (lenOf h false) (readHead s false h t toS d q.toNat) := by
  simp only [exec, execQpeek, chanRead, if_neg (Nat.not_le.2 hq)]

theorem exec_qdrop {s : State} {q : QReg} {e : QEntry} {es : List QEntry} (hq : q.toNat < 8)
    (he : (s.me.queue q.toNat).entries = e :: es) (h0 : e.awaited = 0) {h : Head} (hg : s.me.guard h = true) :
    ReadDone s (lenOf h false) (exec (.qdrop h q) s) (s.me.popped q.toNat e es) [] [] fun _ => True := by
  simp only [exec, execQdrop, chanRead, hg, if_neg (Nat.not_le.2 hq), headQ_ready hq he h0, Got.then_ok, Bool.not_true, Bool.false_eq_true,
    if_false]
  exact (readTo_popIf (pop := true) hq fun _ => he).done trivial

end Sys2Proof.Machine
end

section
/-! SUPPORT. QSTAT, reader endpoints as source A, and the statement about queue reads (R185, R210, R273). -/

namespace Sys2Proof.Machine
open Sys2Proof.Claims

/-! ### The word of QSTAT (R185) -/

/-- The word with its three counts and the number x of its three flags. -/
def statWord (ready held shadow x : Nat) : W64 := BitVec.ofNat 64 (ready % 32 + 256 * (held % 32) + 65536 * (shadow % 32) + 2 ^ 24 * x)

theorem toNat_statWord (ready held shadow : Nat) {x : Nat} (hx : x < 8) :
    (statWord ready held shadow x).toNat = ready % 32 + 256 * (held % 32) + 65536 * (shadow % 32) + 16777216 * x := by
  rw [statWord, BitVec.toNat_ofNat, Nat.mod_eq_of_lt (by omega), show 2 ^ 24 = 16777216 from rfl]

theorem extract_toNat (v : W64) (i k m : Nat) (h : v.toNat / 2 ^ i % 2 ^ k = m % 2 ^ k) : v.extractLsb' i k = BitVec.ofNat k m :=
  BitVec.eq_of_toNat_eq (by rw [BitVec.extractLsb'_toNat, BitVec.toNat_ofNat, Nat.shiftRight_eq_div_pow, h])

theorem counts_statWord (ready held shadow : Nat) {x : Nat} (hx : x < 8) : Counts (statWord ready held shadow x) ready held := by
  have h := toNat_statWord ready held shadow hx
  refine ⟨?_, ?_, ?_, ?_, ?_, ?_⟩ <;> refine extract_toNat _ _ _ _ ?_ <;> rw [h] <;> norm_num <;> omega

theorem shadow_statWord (ready held shadow : Nat) {x : Nat} (hx : x < 8) :
    (statWord ready held shadow x).extractLsb' 16 5 = BitVec.ofNat 5 shadow := by
  refine extract_toNat _ _ _ _ ?_
  rw [toNat_statWord _ _ _ hx]
  norm_num
  omega

theorem flag_statWord (ready held shadow : Nat) {x : Nat} (hx : x < 8) {i : Nat} (hi : i < 3) :
    (statWord ready held shadow x).getLsbD (24 + i) = x.testBit i := by
  have h := toNat_statWord ready held shadow hx
  have hd : (statWord ready held shadow x).toNat = 2 ^ 24 * x + (ready % 32 + 256 * (held % 32) + 65536 * (shadow % 32)) := by omega
  rw [BitVec.getLsbD, hd, Nat.testBit_two_pow_mul_add _ (by omega), if_neg (by omega), Nat.add_sub_cancel_left]

theorem readyRun_eq (l : List QEntry) : readyRun l = (l.takeWhile fun e => e.awaited == 0).length := by
  induction l with
  | nil => rfl
  | cons e l ih =>
    rw [readyRun, List.takeWhile_cons]
    by_cases h : e.awaited = 0
    · simp [h, ih, Nat.add_comm]
    · simp [h]

/-- The number of three flags. -/
def flags (a b c : Bool) : Nat := a.toNat + 2 * b.toNat + 4 * c.toNat

theorem flags_lt (a b c : Bool) : flags a b c < 8 := by cases a <;> cases b <;> cases c <;> decide

/-- Whether the head of a queue is ready and has a property. -/
def headIs (d : DataQ) (P : QEntry → Bool) : Bool := (d.entries.head?).any fun e => e.awaited == 0 && P e

/-- A flag of the word, in its place. -/
def flagAt (o : Option QEntry) (P : QEntry → Bool) (k : Nat) : Nat :=
  match o with
  | some e => if P e then 2 ^ k else 0
  | none => 0

theorem flagAt_eq (d : DataQ) (P : QEntry → Bool) (k : Nat) :
    flagAt (d.entries.head?.filter fun e => e.awaited == 0) P k = 2 ^ k * (headIs d P).toNat := by
  unfold headIs
  cases d.entries.head? with
  | none => rfl
  | some e =>
    by_cases h : e.awaited = 0
    · cases hP : P e <;> simp [flagAt, Option.filter, h, hP]
    · simp [flagAt, Option.filter, h]

theorem stat_eq (d : DataQ) :
    d.stat = statWord (d.entries.takeWhile fun e => e.awaited == 0).length d.entries.length d.shadow.length
      (flags (headIs d (·.scalar)) (headIs d (·.tag == .null)) (headIs d (·.tag == .poison))) := by
  let o := d.entries.head?.filter fun e => e.awaited == 0
  have h : d.stat = BitVec.ofNat 64 (readyRun d.entries % 32 + 256 * (d.entries.length % 32) + 65536 * (d.shadow.length % 32)
      + flagAt o (·.scalar) 24 + flagAt o (·.tag == .null) 25 + flagAt o (·.tag == .poison) 26) := rfl
  rw [h, flagAt_eq, flagAt_eq, flagAt_eq, readyRun_eq, statWord, flags]
  congr 1
  omega

/-- The flags of the word are those of the head. -/
theorem testBit_flags (a b c : Bool) : (flags a b c).testBit 0 = a ∧ (flags a b c).testBit 1 = b ∧ (flags a b c).testBit 2 = c := by
  cases a <;> cases b <;> cases c <;> decide

theorem stat_spec (d : DataQ) :
    Counts d.stat (d.entries.takeWhile fun e => e.awaited == 0).length d.entries.length ∧
    d.stat.extractLsb' 16 5 = BitVec.ofNat 5 d.shadow.length ∧ d.stat.getLsbD 24 = headIs d (·.scalar) ∧
    d.stat.getLsbD 25 = headIs d (·.tag == .null) ∧ d.stat.getLsbD 26 = headIs d (·.tag == .poison) := by
  have hx := flags_lt (headIs d (·.scalar)) (headIs d (·.tag == .null)) (headIs d (·.tag == .poison))
  obtain ⟨h0, h1, h2⟩ := testBit_flags (headIs d (·.scalar)) (headIs d (·.tag == .null)) (headIs d (·.tag == .poison))
  rw [stat_eq]
  exact ⟨counts_statWord _ _ _ hx, shadow_statWord _ _ _ hx, (flag_statWord _ _ _ hx (i := 0) (by omega)).trans h0,
    (flag_statWord _ _ _ hx (i := 1) (by omega)).trans h1, (flag_statWord _ _ _ hx (i := 2) (by omega)).trans h2⟩

/-- The word for the elements that a reader endpoint has taken: scalar entries, none of them NULL or POISON. -/
theorem reader_statWord (l : List W64) (shadow : Nat) :
    let v := statWord l.length l.length shadow (flags (decide (l ≠ [])) false false)
    Counts v l.length l.length ∧ v.extractLsb' 16 5 = BitVec.ofNat 5 shadow ∧ v.getLsbD 24 = decide (l ≠ []) ∧ v.extractLsb' 25 2 = 0 := by
  intro v
  have hx := flags_lt (decide (l ≠ [])) false false
  refine ⟨counts_statWord _ _ _ hx, shadow_statWord _ _ _ hx,
    (flag_statWord _ _ _ hx (i := 0) (by omega)).trans (testBit_flags _ _ _).1, ?_⟩
  refine extract_toNat _ _ _ 0 ?_
  rw [toNat_statWord _ _ _ hx]
  have h1 : flags (decide (l ≠ [])) false false < 2 := by cases decide (l ≠ []) <;> decide
  rw [Nat.div_eq_of_lt (by omega)]

/-! ### QSTAT executed -/

section
variable {s : State} {h : Head} (d : Reg) {q : QReg} (hg : s.me.guard h = true)
include hg

theorem completes_qstat_data (hq : q.toNat < 8) :
    Completes s (lenOf h false) (exec (.qstat h d q) s) fun y => RegsOnly s.me y [] [d.toNat] [] [] ∧
      y.s d.toNat = if d = 0 then 0 else (s.me.queue q.toNat).stat := by
  simp only [exec, execQstat, hg, Bool.not_true, Bool.false_eq_true, if_false, if_pos hq]
  exact completes_setMe (by simp) ⟨regsOnly_setS_past _ _ _ _, setS_reg_past _ _ _ _⟩

theorem completes_qstat_reader (hq : 8 ≤ q.toNat) {id : Nat} (hb : tget none s.me.r.binds q.toNat = some ⟨id, true⟩) :
    let m := (s.settleNear s.cur []).takeElems s.cur q.toNat
    let e := tget {} m.me.eps q.toNat
    ∃ shad, (e.shadow.length < 32 → shad = e.shadow.length) ∧
      Completes m (lenOf h false) (exec (.qstat h d q) s) fun y => RegsOnly m.me y [] [d.toNat] [] [] ∧
        y.s d.toNat = if d = 0 then 0 else statWord e.taken.length e.taken.length shad (flags (decide (e.taken ≠ [])) false false) := by
  intro m e
  have hw : ∃ shad, shad < 32 ∧ (e.shadow.length < 32 → shad = e.shadow.length) ∧ exec (.qstat h d q) s = finishLen (lenOf h false)
      (.done (m.setMe (m.me.setS d.toNat
        (statWord e.taken.length e.taken.length shad (flags (decide (e.taken ≠ [])) false false))))) := by
    have ho : exec (.qstat h d q) s = finishLen (lenOf h false) (.done (m.setMe (m.me.setS d.toNat (BitVec.ofNat 64
        (e.taken.length % 32 + 256 * (e.taken.length % 32) +
          65536 * (if e.shadow.length < 32 then e.shadow.length else Config.shadField m.turn % 32) +
          if e.taken.isEmpty then 0 else 2 ^ 24))))) := by
      simp only [exec, execQstat, hg, Bool.not_true, Bool.false_eq_true, if_false, if_neg (Nat.not_lt.2 hq), hb]
      rfl
    refine ⟨if e.shadow.length < 32 then e.shadow.length else Config.shadField m.turn % 32, ?_, fun h => if_pos h, ?_⟩
    · split <;> omega
    · rw [ho, statWord, Nat.mod_eq_of_lt (a := ite _ _ _) (by split <;> omega)]
      cases e.taken <;> rfl
  obtain ⟨shad, -, hs, ho⟩ := hw
  refine ⟨shad, hs, ?_⟩
  rw [ho]
  exact completes_setMe (by simp) ⟨regsOnly_setS_past _ _ _ _, setS_reg_past _ _ _ _⟩

theorem completes_qstat_zero (hq : 8 ≤ q.toNat) (hb : ∀ id, tget none s.me.r.binds q.toNat ≠ some ⟨id, true⟩) :
    Completes s (lenOf h false) (exec (.qstat h d q) s) fun y => RegsOnly s.me y [] [d.toNat] [] [] ∧ y.s d.toNat = 0 := by
  have ho : exec (.qstat h d q) s = finishLen (lenOf h false) (.done (s.setMe (s.me.setS d.toNat 0))) := by
    simp only [exec, execQstat, hg, Bool.not_true, Bool.false_eq_true, if_false, if_neg (Nat.not_lt.2 hq)]
  rw [ho]
  exact completes_setMe (by simp) ⟨regsOnly_setS_past _ _ _ _, (setS_reg_past _ _ _ _).trans (ite_self _)⟩
end

/-! ### Reader endpoints (R210, R273) -/

theorem takeElems_cur (s : State) (w : Who) (q : Nat) : (s.takeElems w q).cur = s.cur := by
  simp only [State.takeElems, State.acquired]
  split
  · split_ifs <;> rfl
  · rfl

theorem acquired_binds (s : State) (l : List Nat) : (s.acquired s.cur l).me.r.binds = s.me.r.binds := by
  simp only [State.acquired]
  split
  · rfl
  · exact congrArg (·.r.binds) (State.me_setMe s _)

/-- Taking elements leaves the bindings of the endpoints. -/
theorem takeElems_binds (s : State) (q : Nat) : (s.takeElems s.cur q).me.r.binds = s.me.r.binds := by
  simp only [State.takeElems]
  split
  · split
    · rfl
    · exact (acquired_binds (s.setCtx s.cur _) _).trans (congrArg (·.r.binds) (State.me_setMe s _))
  · rfl

section
variable {s : State} {q : QReg} (hq : 8 ≤ q.toNat) (ha : s.me.acquiring = false)
include hq ha

theorem headQ_unbound (hb : tget none s.me.r.binds q.toNat = none) : s.headQ q.toNat = .trap { cause := causeChannelNotBound } s := by
  simp only [State.headQ, if_neg (Nat.not_lt.2 hq), ha, hb, Bool.false_eq_true, if_false]

theorem headQ_writer {id : Nat} (hb : tget none s.me.r.binds q.toNat = some ⟨id, false⟩) :
    s.headQ q.toNat = .trap { cause := causeChannelWrongEnd } s := by
  simp only [State.headQ, if_neg (Nat.not_lt.2 hq), ha, hb, Bool.false_eq_true, if_false]

/-- A reader endpoint takes its elements behind the stores of its cell, and then has the first of them, or waits, or is consumed. -/
theorem headQ_reader {id : Nat} (hb : tget none s.me.r.binds q.toNat = some ⟨id, true⟩) :
    let m := (s.settleNear s.cur []).takeElems s.cur q.toNat
    m.cur = s.cur ∧ tget none m.me.r.binds q.toNat = some ⟨id, true⟩ ∧
    (∀ v vs, (tget {} m.me.eps q.toNat).taken = v :: vs → s.headQ q.toNat = .ok { scalar := true, value := v } m) ∧
    ((tget {} m.me.eps q.toNat).taken = [] → s.headQ q.toNat =
      if (m.rcopy s.cur.cell id).consumed (m.nextSeq s.cur.cell id + m.me.takenOf id) then .trap { cause := causeChannelClosed } m
      else .wait (.chan q.toNat) m) := by
  intro m
  have hn : (s.settleNear s.cur []).cur = s.cur := settleNear_cur s _ _
  have hcur : m.cur = s.cur := (takeElems_cur _ _ _).trans hn
  refine ⟨hcur, ?_, fun v vs ht => ?_, fun ht => ?_⟩
  · have h := takeElems_binds (s.settleNear s.cur []) q.toNat
    rw [hn, settleNear_me] at h
    exact (congrArg (fun b => tget (none : Option Bind) b q.toNat) h).trans hb
  · simp only [State.headQ, if_neg (Nat.not_lt.2 hq), ha, hb, Bool.false_eq_true, if_false, show
      (tget {} ((s.settleNear s.cur []).takeElems s.cur q.toNat).me.eps q.toNat).taken = v :: vs from ht]
    rfl
  · simp only [State.headQ, if_neg (Nat.not_lt.2 hq), ha, hb, Bool.false_eq_true, if_false, show
      (tget {} ((s.settleNear s.cur []).takeElems s.cur q.toNat).me.eps q.toNat).taken = [] from ht,
      show ((s.settleNear s.cur []).takeElems s.cur q.toNat).cur = s.cur from hcur]
    rfl

end

/-- The pop of an endpoint: the first element moves to the pop shadow, with the channel that it came from. -/
theorem popQ_reader {m : State} {q : QReg} {id : Nat} {v : W64} {vs : List W64} (hq : 8 ≤ q.toNat)
    (hb : tget none m.me.r.binds q.toNat = some ⟨id, true⟩) (ht : (tget {} m.me.eps q.toNat).taken = v :: vs) :
    m.popQ q.toNat = m.setMe { m.me with
      eps := tset m.me.eps q.toNat { taken := vs, shadow := (tget {} m.me.eps q.toNat).shadow ++ [(id, v)] } } := by
  simp only [State.popQ, if_neg (Nat.not_lt.2 hq), hb, ht]

/-- The entry of a channel element as source A. -/
theorem sourceA_element {s m : State} {q : QReg} {v : W64} {u : State} (hh : s.headQ q.toNat = .ok { scalar := true, value := v } m)
    (hp : m.popQ q.toNat = u) (wide use : Bool) (act : W32) :
    (∃ va, s.laneA (.queue q) wide act = .ok va u ∧ (act ≠ 0 → ∀ L, va L = low wide v)) ∧
    ∃ w, s.scalarA (.queue q) use = .ok w u ∧ (use = true → w = v) := by
  have hc : ({ scalar := true, value := v } : QEntry).tag ≠ .poison := QTag.noConfusion
  rw [laneA_queue m hh, scalarA_queue m hh, hp]
  constructor
  · by_cases ha : act = 0
    · exact ⟨_, if_pos (by simpa using ha), fun h => absurd ha h⟩
    · refine ⟨_, (if_neg (by simpa using ha)).trans ((deliver_clean _ hc).trans (congrArg _ hp)), fun _ L => ?_⟩
      rw [elem_eq _ _ _ _ (.inr (.inl rfl)), laneVal_scalar wide L rfl hc]
      rfl
  · cases use with
    | false => exact ⟨0, rfl, fun h => absurd h (by decide)⟩
    | true =>
      refine ⟨v, ?_, fun _ => rfl⟩
      rw [deliver_clean _ hc, hp]
      rfl

/-! ### The statement -/

/-- The reads of one entry by QPOP, QPEEK and QDROP, and of two entries together. -/
theorem dataQueueReads (h : Head) (t : Ty) (d : Reg) (q : QReg) (s : State) (e : QEntry) (es : List QEntry) (hq : q.toNat < 8)
    (he : (s.me.queue q.toNat).entries = e :: es) (h0 : e.awaited = 0) (hp : e.tag ≠ .poison) :
    (t.wide = false → ∀ pop, ReadDone s (lenOf h false) (finishLen (lenOf h false) (readHead s pop h t false d q.toNat))
      (s.me.readIf pop q.toNat e es) [d.toNat] [] fun y => ∀ L < 32, y.vl d.toNat L = if (s.me.active h).getLsbD L then
        (if e.tag = .null then 0 else if e.scalar then e.value.extractLsb' 0 32
          else if e.badLanes.getLsbD L then 0 else lane e.lanes L) else s.me.vl d.toNat L) ∧
    (e.scalar = true → s.me.active h ≠ 0 →
      ReadDone s (lenOf h false) (finishLen (lenOf h false) (readHead s true h t true d q.toNat)) (s.me.popped q.toNat e es) []
        [d.toNat] fun y => y.s d.toNat = if d = 0 then 0 else low t.wide (if e.tag = .valid then e.value else 0)) := by
  refine ⟨fun ht pop => ?_, fun hs ha => ?_⟩
  · rw [readHead_one s pop h d _ (.inl ht)]
    exact readOne_lane pop hq he h0 hp d _ _ ht
  · rw [readHead_one s true h d _ (.inr rfl)]
    exact readOne_scalar true hq he h0 hp d _ ha hs

/-- Settles O17: the instructions by what a read of the head does, and source A by what the head is. -/
theorem queueReads : Obligations.QueueReads := by
  refine ⟨?_, ?_, ?_, ?_, ?_⟩
  · intro h t d q s e es hq he h0 hp
    obtain ⟨hlane, hscalar⟩ := dataQueueReads h t d q s e es hq he h0 hp
    have hqueue := queue_popped s.me q.toNat e es
    rw [exec_qpop hq, exec_qpop hq, exec_qpeek hq]
    refine ⟨fun ht => ⟨(hlane ht true).popped rfl hqueue, (hlane ht false).peeked⟩,
      fun hs ha => (hscalar hs ha).popped rfl hqueue, fun hg => ?_, ?_⟩
    · obtain ⟨u, h1, h2, h3, h4, h5, -⟩ := (exec_qdrop hq he h0 hg).popped rfl hqueue
      exact ⟨u, h1, h2, h3, h4, h5⟩
    · intro e2 rest ht hes hs hs2 h02 hp2 ha word reads
      have htwo := fun pop => readHead_two pop hq he h0 hp d (lenOf h false) ht hes hs hs2 h02 hp2 ha
      refine ⟨(htwo true).popped rfl ?_, (htwo false).peeked⟩
      show ((s.me.popped q.toNat e es).popped q.toNat e2 rest).queue q.toNat = _
      rw [queue_popped, hqueue, List.append_assoc]
      rfl
  · intro h d q s hg o n
    refine ⟨fun hq => ?_, fun id hq hb => ?_, fun hq hb => completes_qstat_zero d hg hq hb⟩
    · obtain ⟨u, h1, h2, h3, h4, h5⟩ := completes_qstat_data d hg hq
      refine ⟨u, h1, h2, h3, h4, fun hd => ?_⟩
      rw [h5, if_neg hd]
      exact stat_spec _
    · obtain ⟨shad, hshad, u, h1, h2, h3, h4, h5⟩ := completes_qstat_reader d hg hq hb
      refine ⟨u, h1, h2, h3, h4, fun hd => ?_⟩
      rw [h5, if_neg hd]
      obtain ⟨hc, hs, h24, h25⟩ := reader_statWord (tget {} ((s.settleNear s.cur []).takeElems s.cur q.toNat).me.eps q.toNat).taken shad
      exact ⟨hc, fun hlt => hs.trans (congrArg _ (hshad hlt)), h24, h25⟩
  · exact fun s r wide use act => ⟨⟨_, laneA_reg s r wide act, fun _ => rfl⟩, scalarA_reg s r use⟩
  · intro s q wide use act hq ha
    refine ⟨fun hb => sourceA_trap (headQ_unbound hq ha hb), fun id hb => sourceA_trap (headQ_writer hq ha hb), fun id hb => ?_⟩
    obtain ⟨-, hm, htaken, hempty⟩ := headQ_reader hq ha hb
    intro m e
    split
    · next v vs ht =>
      obtain ⟨⟨va, h1, h2⟩, w, h3, h4⟩ := sourceA_element (htaken v vs ht) (popQ_reader hq hm ht) wide use act
      intro takes
      have htakes : takes _ := ⟨onlyIssuer_setMe m _, State.me_setMe _ _⟩
      exact ⟨⟨va, _, h1, htakes, h2⟩, w, _, h3, htakes, h4⟩
    · next ht =>
      have hh := hempty ht
      split
      · next hc => exact sourceA_trap (hh.trans (if_pos hc))
      · next hc => exact sourceA_wait (hh.trans (if_neg hc))
  · intro s q wide use act hq
    refine ⟨fun e es he h0 => ⟨?_, ?_, fun hp => ⟨?_, ?_, ?_⟩, fun hp => ?_⟩, fun hw => ?_⟩
    · rintro rfl
      exact laneA_idle hq he h0 wide
    · rintro rfl
      exact scalarA_idle hq he h0
    · by_cases ha : act = 0
      · subst ha
        obtain ⟨va, u, h1, h2⟩ := laneA_idle hq he h0 wide
        exact ⟨va, u, h1, h2, fun h => absurd rfl h⟩
      · refine ⟨_, _, laneA_clean hq he h0 wide ha hp, takes_popped s _ e es rfl, fun _ L hL => ?_⟩
        rw [elem_eq _ _ _ _ hL, laneVal_eq wide L hp]
    · rintro rfl hs
      exact scalarA_lanes hq he h0 hs hp
    · rintro rfl hs
      exact ⟨_, (scalarA_clean hq he h0 hs hp).trans (by rw [scalarVal_eq hp]), takes_popped s _ e es rfl⟩
    · split
      · next hz =>
        obtain ⟨h1, h2⟩ := sourceA_zeroed hq he h0 wide (act := act) hp hz
        refine ⟨fun ha => ⟨_, _, h1 ha, takes_popped s _ e es rfl, fun L hL => ?_⟩, ?_⟩
        · rw [elem_eq _ _ _ _ (.inl hL), laneVal_poison wide L hp]
        · rintro rfl
          exact ⟨_, h2, takes_popped s _ e es rfl⟩
      · next hz =>
        obtain ⟨h1, h2⟩ := sourceA_poison hq he h0 wide (act := act) hp hz
        exact ⟨h1, fun hu => hu ▸ h2⟩
    · obtain ⟨h1, h2⟩ := sourceA_wait (wide := wide) (act := act) (use := use) (headQ_wait hq hw)
      exact ⟨⟨_, h1⟩, _, h2⟩

end Sys2Proof.Machine
end

section
/-! SUPPORT. What the checks of the decoder say of the fields: what the encoder writes back is what was read (R50 to R70). -/

namespace Sys2Proof

/-! ### Fields written and read back (R50 to R66) -/

@[simp] theorem Ty.ofCode_code (t : Ty) : Ty.ofCode t.code = some t := by cases t <;> rfl
theorem Ty.ofCode_eq_some {c : BitVec 4} {t : Ty} : Ty.ofCode c = some t ↔ c = t.code := by
  constructor
  · revert c t; decide
  · rintro rfl; simp

theorem Raw.head_raw (r : Raw) : r.head.raw r.x r = r := by
  obtain ⟨f, b, a, d, op, neg, idx, ext, lit⟩ := r
  cases ext <;> rfl

@[simp] theorem Head.head_raw (h : Head) (x : Ext) (r : Raw) : (h.raw x r).head = h := by
  obtain ⟨neg, idx, ext⟩ := h
  cases ext <;> rfl

/-- The extension that a word in the short form stands for is the zero one (R58). -/
theorem Head.x_raw {h : Head} {x : Ext} (r : Raw) (hx : h.ext = true ∨ x = {}) : (h.raw x r).x = x := by
  obtain ⟨neg, idx, ext⟩ := h
  rcases hx with rfl | rfl
  · rfl
  · cases ext <;> rfl

theorem Raw.ext_or (r : Raw) : r.ext.isSome = true ∨ r.x = {} := by
  unfold Raw.x
  cases r.ext <;> simp

@[simp] theorem Raw.isQueue_srcA (r : Raw) : r.srcA.isQueue = r.x.xq := by
  unfold Raw.srcA
  cases r.x.xq <;> rfl
@[simp] theorem Raw.queueNo_srcA (r : Raw) : r.srcA.queueNo = if r.x.xq then r.x.qa else 0 := by
  unfold Raw.srcA
  cases r.x.xq <;> rfl
@[simp] theorem Raw.field_srcA (r : Raw) : r.srcA.field = if r.x.xq then 0 else r.a := by
  unfold Raw.srcA
  cases r.x.xq <;> rfl
@[simp] theorem Raw.isReg_srcA (r : Raw) : r.srcA.isReg = !r.x.xq := by
  unfold Raw.srcA
  cases r.x.xq <;> rfl
@[simp] theorem Raw.field_srcB (r : Raw) : r.srcB.field = if r.lit.isSome then 0 else r.b := by
  unfold Raw.srcB
  cases r.lit <;> rfl
@[simp] theorem Raw.lit_srcB (r : Raw) : r.srcB.lit? = r.lit := by
  unfold Raw.srcB
  cases r.lit <;> rfl

/-! ### What the checks ask of the fields (R70) -/

/-- Checks 3 to 5 of R70. -/
def passes (k : Row) (r : Raw) : Bool := checkReserved k r && checkRange k r && checkLiteral k r

/-- The value of a field as the encoder writes it back for its class. -/
def Cls.mask (k : Cls) (v : BitVec 5) : BitVec 5 :=
  match k with
  | .unused => 0
  | .any | .even | .quad => v
  | .low3 => (v.extractLsb' 0 3).zeroExtend 5
  | .chan | .low4 => (v.extractLsb' 0 4).zeroExtend 5
  | .acc => (v.extractLsb' 0 2).zeroExtend 5

/-- A field is in its class, and zero if it is unused, exactly if the encoder writes it back. -/
theorem Cls.mask_eq {k : Cls} {v : BitVec 5} : k.zeroOk v = true ∧ k.ok v = true ↔ k.mask v = v ∧ k.ok v = true := by
  cases k <;> revert v <;> decide

/-- The extension, but for the fields that the row does not use. -/
def Row.ext (k : Row) (x : Ext) : Ext :=
  { scope := if k.scopes = 1 then 0 else x.scope, rel := k.rel && x.rel, acq := k.acq && x.acq, rnd := if k.rnd then x.rnd else 0
    sat := k.sat && x.sat, xq := k.q && x.xq, qa := if k.q && x.xq then x.qa else 0, xf := x.xf, e := k.e.mask x.e, c := k.c.mask x.c
    e1 := x.e1 &&& k.e1 }

/-- The fields, but for those that the row does not use. -/
def Row.masked (k : Row) (r : Raw) : Raw :=
  r.head.raw (k.ext r.x)
    { op := r.op, f := if k.fz then 0 else r.f, d := k.d.mask r.d, a := if k.q && r.x.xq || k.az then 0 else k.a.mask r.a
      b := if r.lit.isSome || k.bz then 0 else k.b.mask r.b, lit := if k.lit.isSome then r.lit else none }

/-- A source A of a class, or a queue. -/
def SrcA.fits (k : Cls) : SrcA → Bool
  | .reg r => k.ok r
  | .queue _ => true

/-- A source B of a class, or a literal that the row takes (R65). -/
def SrcB.fits (k : Cls) (lit : Option Bool) : SrcB → Bool
  | .reg r => k.ok r
  | .lit v => match lit with
    | some wide => (SrcB.lit v).litOk wide
    | none => false

/-- What the checks ask of the fields that a row uses. -/
structure Used (k : Row) (r : Raw) : Prop where
  scope : r.x.scope.toNat < k.scopes
  xf : k.xf = true
  guard : k.guard = false ∨ r.neg = false ∧ r.idx = 7
  d : k.d.ok r.d = true
  a : r.srcA.fits k.a = true
  b : r.srcB.fits k.b k.lit = true
  c : k.c.ok r.x.c = true
  e : k.e.ok r.x.e = true
  dual : k.dual = false ∨ secondField r.second = r.x.c ∧ secondOk (r.d.extractLsb' 0 3) r.second = true

theorem and_not_eq_zero_iff {v m : W32} : v &&& ~~~m = 0 ↔ v &&& m = v := by
  constructor
  · intro h
    calc v &&& m = (v &&& m) ||| (v &&& ~~~m) := by rw [h]; simp
      _ = v &&& (m ||| ~~~m) := BitVec.and_or_distrib_left.symm
      _ = v := by rw [BitVec.or_not_self, BitVec.and_allOnes]
  · intro h
    calc v &&& ~~~m = v &&& (m &&& ~~~m) := by rw [← BitVec.and_assoc, h]
      _ = 0 := by rw [BitVec.and_not_self]; exact BitVec.and_zero

theorem and_eq_right_iff {b c : Bool} : (b && c) = c ↔ b = true ∨ c = false := by
  cases b <;> cases c <;> simp

theorem ite_zero_right_iff {n : Nat} {b : Bool} {v : BitVec n} : (if b then v else 0) = v ↔ b = true ∨ v = 0 := by
  cases b
  · exact ⟨fun h => .inr h.symm, fun h => (h.resolve_left (by decide)).symm⟩
  · exact ⟨fun _ => .inl rfl, fun _ => rfl⟩

theorem ite_zero_left_iff {n : Nat} {b : Bool} {u v : BitVec n} : (if b then 0 else u) = v ↔ (b = true ∧ v = 0) ∨ (b = false ∧ u = v) := by
  cases b
  · exact ⟨fun h => .inr ⟨rfl, h⟩, fun h => (h.resolve_left fun e => absurd e.1 (by decide)).2⟩
  · exact ⟨fun h => .inl ⟨rfl, h.symm⟩, fun h => (h.resolve_right fun e => absurd e.1 (by decide)).2.symm⟩

/-- Scope 0 is the only one of a row that takes one scope. -/
theorem scope_mask {n : Nat} {v : BitVec 3} (h : v.toNat < n) : (if n = 1 then 0 else v) = v := by
  split
  · exact BitVec.eq_of_toNat_eq (by simp; omega)
  · rfl

theorem secondField_second (r : Raw) : secondField r.second = r.x.c ↔
    (r.x.c.getLsbD 3 = true ∨ r.x.c.extractLsb' 0 3 = 0) ∧ r.x.c.getLsbD 4 = false := by
  unfold Raw.second
  generalize r.x.c = c
  revert c
  decide

theorem Cls.zeroOk_zero (k : Cls) : k.zeroOk 0 = true := by cases k <;> rfl

/-- The fields of source A: XQ is 0 where the row takes no queue, A is 0 with a queue, and QA is 0 without one. -/
theorem srcA_checks (k : Row) (r : Raw) :
    ((k.q = true ∨ r.x.xq = false) ∧ (r.x.xq = false ∨ r.a = 0) ∧ (r.x.xq = true ∨ r.x.qa = 0) ∧ (k.az = false ∨ r.a = 0) ∧
      k.a.zeroOk r.a = true ∧ (r.x.xq = true ∨ k.a.ok r.a = true)) ↔
    ((k.q && r.x.xq) = r.x.xq ∧ (if k.q && r.x.xq then r.x.qa else 0) = r.x.qa) ∧
      (if k.q && r.x.xq || k.az then 0 else k.a.mask r.a) = r.a ∧ r.srcA.fits k.a = true := by
  have hs : r.srcA.fits k.a = true ↔ r.x.xq = true ∨ k.a.ok r.a = true := by
    unfold Raw.srcA
    cases r.x.xq <;> simp [SrcA.fits]
  have h0 : r.a = 0 → k.a.zeroOk r.a = true := fun h => h ▸ k.a.zeroOk_zero
  have hm := Cls.mask_eq (k := k.a) (v := r.a)
  rw [hs, and_eq_right_iff, ite_zero_right_iff, ite_zero_left_iff]
  cases k.q <;> cases r.x.xq <;> cases k.az <;> simp only [Bool.and_self, Bool.or_self, Bool.false_eq_true, Bool.true_eq_false,
    Bool.false_and, Bool.and_false, Bool.or_true, Bool.or_false, false_or, or_false, true_or, or_true, true_and, false_and]
  all_goals tauto

/-- The fields of source B: B is 0 with a literal, and a literal stands only where the row takes one. -/
theorem srcB_checks (k : Row) (r : Raw) :
    ((k.bz = false ∨ r.b = 0) ∧ (r.lit.isSome = true ∨ k.b.zeroOk r.b = true) ∧ (r.lit.isSome = true ∨ k.b.ok r.b = true) ∧
      checkLiteral k r = true) ↔
    (if r.lit.isSome || k.bz then 0 else k.b.mask r.b) = r.b ∧ (if k.lit.isSome then r.lit else none) = r.lit ∧
      r.srcB.fits k.b k.lit = true := by
  have h0 : r.b = 0 → k.b.zeroOk r.b = true := fun h => h ▸ k.b.zeroOk_zero
  have hm := Cls.mask_eq (k := k.b) (v := r.b)
  rw [ite_zero_left_iff]
  unfold Raw.srcB checkLiteral
  cases r.lit with
  | none => cases k.bz <;> (simp [SrcB.fits]; tauto)
  | some v => cases k.lit <;> (simp [SrcB.fits, SrcB.litOk]; try tauto)

/-- The unused fields of the extension are zero exactly if the encoder writes it back. -/
theorem ext_checks {k : Row} {x : Ext} (h : x.scope.toNat < k.scopes) :
    x.res = 0 ∧ (k.rel = true ∨ x.rel = false) ∧ (k.acq = true ∨ x.acq = false) ∧ (k.rnd = true ∨ x.rnd = 0) ∧
      (k.sat = true ∨ x.sat = false) ∧ ((k.q && x.xq) = x.xq ∧ (if k.q && x.xq then x.qa else 0) = x.qa) ∧
      k.e.mask x.e = x.e ∧ k.c.mask x.c = x.c ∧ x.e1 &&& ~~~k.e1 = 0 ↔ k.ext x = x := by
  rw [and_not_eq_zero_iff, ← and_eq_right_iff, ← and_eq_right_iff, ← and_eq_right_iff, ← ite_zero_right_iff]
  constructor
  · rintro ⟨res, rel, acq, rnd, sat, ⟨xq, qa⟩, e, c, e1⟩
    rw [Row.ext, scope_mask h, rel, acq, rnd, sat, qa, xq, e, c, e1, ← res]
  · intro e
    refine ⟨?_, congrArg Ext.rel e, congrArg Ext.acq e, congrArg Ext.rnd e, congrArg Ext.sat e, ⟨congrArg Ext.xq e, congrArg Ext.qa e⟩,
      congrArg Ext.e e, congrArg Ext.c e, congrArg Ext.e1 e⟩
    rw [← e]
    rfl

theorem Row.ext_zero (k : Row) : k.ext {} = {} := by
  have hm : ∀ c : Cls, c.mask 0 = 0 := fun c => by cases c <;> rfl
  simpa [Row.ext] using ⟨hm k.e, hm k.c⟩

theorem Row.masked_iff {k : Row} {r : Raw} :
    k.ext r.x = r.x ∧ (if k.fz then 0 else r.f) = r.f ∧ k.d.mask r.d = r.d ∧
      (if k.q && r.x.xq || k.az then 0 else k.a.mask r.a) = r.a ∧ (if r.lit.isSome || k.bz then 0 else k.b.mask r.b) = r.b ∧
      (if k.lit.isSome then r.lit else none) = r.lit ↔ k.masked r = r := by
  constructor
  · rintro ⟨x, f, d, a, b, lit⟩
    rw [Row.masked, x, f, d, a, b, lit]
    exact r.head_raw
  · intro e
    refine ⟨?_, congrArg Raw.f e, congrArg Raw.d e, congrArg Raw.a e, congrArg Raw.b e, congrArg Raw.lit e⟩
    have hx : (k.masked r).x = k.ext r.x := Head.x_raw _ (r.ext_or.imp id fun h => by rw [h, k.ext_zero])
    rw [← hx, e]

theorem dual_checks (k : Row) (r : Raw) :
    (((k.dual = false ∨ r.x.c.getLsbD 3 = true) ∨ r.x.c.extractLsb' 0 3 = 0) ∧
      (k.dual = false ∨ r.x.c.getLsbD 4 = false ∧ secondOk (r.d.extractLsb' 0 3) r.second = true)) ↔
    (k.dual = false ∨ secondField r.second = r.x.c ∧ secondOk (r.d.extractLsb' 0 3) r.second = true) := by
  rw [secondField_second]
  tauto

/-- The checks pass exactly if the unused fields are zero and the used ones fit. -/
theorem passes_iff (k : Row) (r : Raw) : passes k r = true ↔ k.masked r = r ∧ Used k r := by
  rw [← Row.masked_iff, ite_zero_left_iff]
  have hF : (k.fz = true ∧ r.f = 0 ∨ k.fz = false ∧ r.f = r.f) ↔ (k.fz = false ∨ r.f = 0) := by
    cases k.fz <;> simp
  rw [hF]
  constructor
  · intro h
    simp only [passes, checkReserved, checkRange, Bool.and_eq_true, Bool.or_eq_true, beq_iff_eq, decide_eq_true_eq, Bool.not_eq_true',
      and_assoc] at h
    obtain ⟨res, scope, acq, rel, rnd, sat, q, a0, qa, xf, guard, f, az, bz, d0, a1, b1, c0, e0, dual0, e1, d, a, b, e, c, dual, lit⟩ := h
    obtain ⟨hq, ha, ua⟩ := (srcA_checks k r).1 ⟨q, a0, qa, az, a1, a⟩
    obtain ⟨hb, hl, ub⟩ := (srcB_checks k r).1 ⟨bz, b1, b, lit⟩
    have hx := (ext_checks scope).1 ⟨res, rel, acq, rnd, sat, hq, (Cls.mask_eq.1 ⟨e0, e⟩).1, (Cls.mask_eq.1 ⟨c0, c⟩).1, e1⟩
    exact ⟨⟨hx, f, (Cls.mask_eq.1 ⟨d0, d⟩).1, ha, hb, hl⟩, ⟨scope, xf, guard, d, ua, ub, c, e, (dual_checks k r).1 ⟨dual0, dual⟩⟩⟩
  · rintro ⟨⟨hx, f, hd, ha, hb, hl⟩, ⟨scope, xf, guard, d, ua, ub, c, e, dual⟩⟩
    obtain ⟨res, rel, acq, rnd, sat, hq, he, hc, e1⟩ := (ext_checks scope).2 hx
    obtain ⟨q, a0, qa, az, a1, a⟩ := (srcA_checks k r).2 ⟨hq, ha, ua⟩
    obtain ⟨bz, b1, b, lit⟩ := (srcB_checks k r).2 ⟨hb, hl, ub⟩
    obtain ⟨dual0, dual⟩ := (dual_checks k r).2 dual
    simp only [passes, checkReserved, checkRange, Bool.and_eq_true, Bool.or_eq_true, beq_iff_eq, decide_eq_true_eq, Bool.not_eq_true',
      and_assoc]
    exact ⟨res, scope, acq, rel, rnd, sat, q, a0, qa, xf, guard, f, az, bz, (Cls.mask_eq.2 ⟨hd, d⟩).1, a1, b1, (Cls.mask_eq.2 ⟨hc, c⟩).1,
      (Cls.mask_eq.2 ⟨he, e⟩).1, dual0, e1, d, a, b, e, c, dual, lit⟩
end Sys2Proof
end

section
/-! SUPPORT. Codes, address operands and orders read from fields and written back (R54 to R64). -/

namespace Sys2Proof

@[simp] theorem Cls.ok_pairIf (w : Bool) (v : BitVec 5) : (Cls.pairIf w).ok v = (!w || evenReg v) := by cases w <;> rfl
@[simp] theorem Cls.mask_pairIf (w : Bool) (v : BitVec 5) : (Cls.pairIf w).mask v = v := by cases w <;> rfl
@[simp] theorem Cls.mask_unused (v : BitVec 5) : Cls.unused.mask v = 0 := rfl
@[simp] theorem Cls.mask_any (v : BitVec 5) : Cls.any.mask v = v := rfl
@[simp] theorem Cls.mask_even (v : BitVec 5) : Cls.even.mask v = v := rfl
@[simp] theorem Cls.mask_quad (v : BitVec 5) : Cls.quad.mask v = v := rfl
@[simp] theorem Cls.mask_low3 (v : BitVec 5) : Cls.low3.mask v = (v.extractLsb' 0 3).zeroExtend 5 := rfl
@[simp] theorem Cls.mask_low4 (v : BitVec 5) : Cls.low4.mask v = (v.extractLsb' 0 4).zeroExtend 5 := rfl
@[simp] theorem Cls.mask_chan (v : BitVec 5) : Cls.chan.mask v = (v.extractLsb' 0 4).zeroExtend 5 := rfl
@[simp] theorem Cls.mask_acc (v : BitVec 5) : Cls.acc.mask v = (v.extractLsb' 0 2).zeroExtend 5 := rfl
@[simp] theorem SrcA.fits_pairIf (w : Bool) (a : SrcA) : a.fits (.pairIf w) = a.pairOk w := by cases a <;> simp [SrcA.fits, SrcA.pairOk]
@[simp] theorem SrcA.fits_any (a : SrcA) : a.fits .any = true := by cases a <;> rfl
@[simp] theorem SrcA.fits_quad (a : SrcA) : a.fits .quad = a.quadOk := by cases a <;> rfl
@[simp] theorem SrcB.fits_pairIf (w : Bool) (b : SrcB) : b.fits (.pairIf w) (some w) = (b.litOk w && b.pairOk w) := by
  cases b <;> simp [SrcB.fits, SrcB.pairOk, SrcB.litOk]
@[simp] theorem SrcB.fits_any (w : Bool) (b : SrcB) : b.fits .any (some w) = b.litOk w := by cases b <;> rfl

theorem Row.ext_eq {k : Row} {r : Raw} (h : k.masked r = r) : k.ext r.x = r.x := (Row.masked_iff.2 h).1

theorem Raw.short_or {r : Raw} {p : Bool} (h : r.x = {} → p = true) : (r.ext.isSome || p) = true := by
  rcases r.ext_or with hx | hx
  · simp [hx]
  · simp [h hx]

/-- What is so of the row and the instruction that a table answers. -/
def Answers (P : Row → Instr → Prop) (o : Option (Row × Instr)) : Prop := ∀ k i, o = some (k, i) → P k i

theorem answers_none {P : Row → Instr → Prop} : Answers P none := by intro k i h; cases h
theorem answers_some {P : Row → Instr → Prop} {k : Row} {i : Instr} (h : P k i) : Answers P (some (k, i)) := by
  rintro k i ⟨⟩
  exact h
theorem answers_withTy {P : Row → Instr → Prop} {r : Raw} {acc : Ty → Bool} {f : Ty → Row × Instr}
    (h : ∀ t, r.f = t.code → acc t = true → P (f t).1 (f t).2) : Answers P (withTy r acc f) := by
  unfold withTy
  split
  · rename_i t ht
    split
    · exact answers_some (h t (Ty.ofCode_eq_some.1 ht) ‹_›)
    · exact answers_none
  · exact answers_none
theorem Cond.ofCode_eq_some {float : Bool} {c : BitVec 4} {k : Cond} :
    Cond.ofCode float c = some k ↔ c = k.code ∧ (float = true → k.isFloat = true) := by
  constructor
  · cases float <;> (revert c k; decide)
  · rintro ⟨rfl, h⟩
    cases float with
    | false => cases k <;> rfl
    | true =>
      have hk := h rfl
      clear h
      cases k <;> (revert hk; decide)
theorem answers_withCond {P : Row → Instr → Prop} {r : Raw} {float : Bool} {f : Cond → Row × Instr}
    (h : ∀ c, r.f = c.code → (float = true → c.isFloat = true) → P (f c).1 (f c).2) : Answers P (withCond r float f) := by
  intro k i hk
  obtain ⟨c, hc, he⟩ := Option.map_eq_some_iff.1 hk
  obtain ⟨h1, h2⟩ := Cond.ofCode_eq_some.1 hc
  have := h c h1 h2
  rwa [he] at this
theorem answers_withF {P : Row → Instr → Prop} {r : Raw} {n : Nat} {k : Row} {i : Instr} (h : r.f.toNat < n → P k i) :
    Answers P (withF r n (k, i)) := by
  unfold withF
  split
  · exact answers_some (h ‹_›)
  · exact answers_none

theorem op_eq {r : Raw} {n : Nat} (h : r.op.toNat = n) : r.op = BitVec.ofNat 7 n := by
  rw [← h, BitVec.ofNat_toNat, BitVec.setWidth_eq]

theorem f_eq_zero {r : Raw} (h : r.f.toNat < 1) : r.f = 0 := BitVec.eq_of_toNat_eq (by simp; omega)

theorem ShflMode.code_ofCode {xf : BitVec 6} (h : xf.toNat < 4) : (ShflMode.ofCode xf).code = xf := by
  revert xf; decide
theorem RedOp.code_ofCode {xf : BitVec 6} (h : xf.toNat < 6) : (RedOp.ofCode (xf.extractLsb' 0 3)).code = xf := by
  revert xf; decide
theorem RedOp.code_ofCode_excl {xf : BitVec 6} (h : xf.toNat < 16) (h' : xf.toNat % 8 < 6) :
    (RedOp.ofCode (xf.extractLsb' 0 3)).code ||| (bit6 xf[3] <<< 3) = xf := by
  revert xf; decide

theorem Row.rnd_or {k : Row} {r : Raw} (h : k.masked r = r) : k.rnd = true ∨ r.x.rnd = 0 :=
  ite_zero_right_iff.1 (congrArg Ext.rnd (Row.ext_eq h))
@[simp] theorem Raw.neg_head (r : Raw) : r.head.neg = r.neg := rfl
@[simp] theorem Raw.idx_head (r : Raw) : r.head.idx = r.idx := rfl
@[simp] theorem Raw.ext_head (r : Raw) : r.head.ext = r.ext.isSome := rfl
@[simp] theorem ShflMode.ofCode_zero : ShflMode.ofCode 0#6 = .indexed := rfl
@[simp] theorem RedOp.ofCode_zero : RedOp.ofCode 0#3 = .add := rfl
@[simp] theorem evenReg_zero : evenReg 0#5 = true := rfl
theorem imm9_f (r : Raw) : r.imm9.extractLsb' 5 4 = r.f := by
  unfold Raw.imm9
  exact BitVec.extractLsb'_append_eq_left
theorem imm9_b (r : Raw) : r.imm9.extractLsb' 0 5 = r.b := by
  unfold Raw.imm9
  exact BitVec.extractLsb'_append_eq_right

theorem Ty.eq_b32_of_b32only {t : Ty} (h : t.b32only = true) : t = .b32 := by revert h; cases t <;> decide

/-- What holds of a row and its instruction whose checks pass: the instruction has the fields that it was read from. -/
def Sound (r : Raw) (k : Row) (i : Instr) : Prop := k.masked r = r → Used k r → toRaw i = some (k.masked r) ∧ i.wf = true

/-! ### Codes and their readings -/

@[simp] theorem Cls.ok_unused (v : BitVec 5) : Cls.unused.ok v = true := rfl
@[simp] theorem Cls.ok_any (v : BitVec 5) : Cls.any.ok v = true := rfl
@[simp] theorem Cls.ok_even (v : BitVec 5) : Cls.even.ok v = evenReg v := rfl
@[simp] theorem Cls.ok_quad (v : BitVec 5) : Cls.quad.ok v = quadReg v := rfl

@[simp] theorem Rnd.code_ofCode (c : BitVec 2) : (Rnd.ofCode c).code = c := by revert c; decide
@[simp] theorem Rnd.ofCode_zero : Rnd.ofCode 0#2 = .fpctl := rfl
@[simp] theorem AtomOp.code_ofCode (c : BitVec 3) : (AtomOp.ofCode c).code = c := by revert c; decide
theorem Scope.code_ofCode {c : BitVec 3} (h : c.toNat < 5) : (Scope.ofCode c).code = c := by revert c; decide
theorem TagSub.code_ofCode {xf : BitVec 6} (h : xf.toNat < 3) : (TagSub.ofCode xf).code = xf := by revert xf; decide
theorem fcmpCode_ofFcmp {xf : BitVec 6} (h : (xf = 0 ∨ xf = 10) ∨ xf = 11) : fcmpCode (Ty.ofFcmp xf) = xf := by
  obtain (rfl | rfl) | rfl := h <;> rfl
theorem bit6_xf0 {r : Raw} (h : r.x.xf.toNat ≤ 1) : bit6 r.xf0 = r.x.xf := by
  unfold Raw.xf0
  generalize r.x.xf = xf at h
  revert xf
  decide

theorem Ty.eq_f_of_fonly {t : Ty} (h : t.fonly = true) : t = .f := by revert h; cases t <;> decide
theorem Ty.code_ofCodeD {xf : BitVec 6} (h : xf.toNat < 14) : (Ty.ofCodeD (xf.extractLsb' 0 4)).code.zeroExtend 6 = xf := by
  revert xf; decide
theorem Ty.cv_ofCodeD {xf : BitVec 6} (h : 1 ≤ xf.toNat) (h' : xf.toNat < 14) : (Ty.ofCodeD (xf.extractLsb' 0 4)).cv = true := by
  revert xf; decide

/-- The second destination is written back where the row takes one. -/
theorem Used.second {k : Row} {r : Raw} (u : Used k r) (h : k.dual = true) :
    secondField r.second = r.x.c ∧ secondOk (r.d.extractLsb' 0 3) r.second = true :=
  u.dual.resolve_left (by simp [h])

theorem Row.lit_none {k : Row} {r : Raw} (h : k.masked r = r) (hk : k.lit = none) : r.lit = none := by
  have hl := (Row.masked_iff.2 h).2.2.2.2.2
  rw [hk] at hl
  exact hl.symm

theorem Raw.second_none {r : Raw} (h : r.x = {}) : r.second = none := by
  unfold Raw.second
  rw [h]
  rfl
theorem Ty.fl3_ofFcmp (xf : BitVec 6) : (Ty.ofFcmp xf).fl3 = true := by
  revert xf
  decide
theorem bit4_eq {f : BitVec 4} (h : f.toNat < 2) : bit4 (f == 1#4) = f := by
  revert f
  decide

theorem f_eq {r : Raw} {n : Nat} (h : r.f.toNat = n) : r.f = BitVec.ofNat 4 n := by
  rw [← h, BitVec.ofNat_toNat, BitVec.setWidth_eq]

theorem off_f (r : Raw) : r.off.extractLsb' 10 4 = r.f := by
  rw [Raw.off, BitVec.extractLsb'_append_eq_of_le (by decide)]
  exact BitVec.extractLsb'_append_eq_left
theorem off_b (r : Raw) : r.off.extractLsb' 5 5 = r.b := by
  rw [Raw.off, BitVec.extractLsb'_append_eq_of_le (by decide)]
  exact BitVec.extractLsb'_append_eq_right
theorem off_a (r : Raw) : r.off.extractLsb' 0 5 = r.a := BitVec.extractLsb'_append_eq_right

/-- A field of n bits that XF holds, the bits above it zero. -/
theorem xf_low {xf : BitVec 6} {n : Nat} (h : xf.toNat < 2 ^ n) : (xf.extractLsb' 0 n).setWidth 6 = xf := by
  refine BitVec.eq_of_toNat_eq ?_
  rw [BitVec.toNat_setWidth, BitVec.extractLsb'_toNat, Nat.shiftRight_zero, Nat.mod_eq_of_lt h, Nat.mod_eq_of_lt xf.isLt]

@[simp] theorem and_ones (v : W32) : v &&& 4294967295#32 = v := BitVec.and_allOnes

/-! ### Address operands (R64) -/

theorem addr_xf {r : Raw} (h : r.x.xf.toNat < 8) : r.addr.xf = r.x.xf := by
  simp only [Addr.xf, Raw.addr, Raw.noIdx]
  generalize r.x.xf = xf at h
  revert xf
  decide
theorem addr_xf_sform {r : Raw} (h : r.x.xf.toNat < 16) : r.addr.xf ||| bit6 (r.x.xf.getLsbD 3) <<< 3 = r.x.xf := by
  simp only [Addr.xf, Raw.addr, Raw.noIdx]
  generalize r.x.xf = xf at h
  revert xf
  decide
theorem addr_xf_aop (r : Raw) : r.addr.xf ||| (r.x.xf.extractLsb' 3 3).setWidth 6 <<< 3 = r.x.xf := by
  simp only [Addr.xf, Raw.addr, Raw.noIdx]
  generalize r.x.xf = xf
  revert xf
  decide
@[simp] theorem Raw.addr_base (r : Raw) : r.addr.base = r.a := rfl
@[simp] theorem Raw.addr_disp (r : Raw) : r.addr.disp = r.x.e1 := rfl
@[simp] theorem Raw.addr_idx (r : Raw) : r.addr.idx = r.srcB := rfl
@[simp] theorem Raw.addr_noIdx (r : Raw) : r.addr.noIdx = r.noIdx := rfl

/-- B is zero beside a literal, and where a row says so; then no literal stands either. -/
theorem b_fields {k : Row} {r : Raw} {z : Bool} {wide : Bool} (hm : k.masked r = r) (hb : k.b = .any) (hz : k.bz = z)
    (hl : k.lit = if z then none else some wide) :
    (if r.lit.isSome = true then 0#5 else r.b) = r.b ∧ (if r.lit.isSome = true ∨ z = true then 0#5 else r.b) = r.b ∧
    (if z = false then r.lit else none) = r.lit := by
  obtain ⟨-, -, -, -, hB, hL⟩ := Row.masked_iff.2 hm
  rw [hz, hb] at hB
  rw [hl] at hL
  cases z
  · simpa using hB
  · simp only [if_true, Option.isSome_none, Bool.false_eq_true, if_false] at hL
    simp [← hL] at hB ⊢
    exact hB

theorem srcB_zero {k : Row} {r : Raw} (hm : k.masked r = r) (hz : k.bz = true) (hl : k.lit = none) : r.srcB = .reg 0 := by
  have hlit := Row.lit_none hm hl
  have hB := (Row.masked_iff.2 hm).2.2.2.2.1
  simp only [hz, Bool.or_true, if_true] at hB
  simp [Raw.srcB, hlit, ← hB]

/-- An address operand whose B is zero where it has no index, with a literal only where it has one. -/
theorem addr_ok {k : Row} {r : Raw} {scalar : Bool} (hm : k.masked r = r) (u : Used k r) (hz : k.bz = r.noIdx)
    (hl : k.lit = if r.noIdx then none else some scalar) : r.addr.ok scalar = true := by
  unfold Addr.ok
  simp only [Raw.addr_noIdx, Raw.addr_idx]
  cases hn : r.noIdx with
  | false =>
    have hb := u.b
    rw [hl, hn] at hb
    unfold Raw.srcB at hb ⊢
    cases hlit : r.lit with
    | none => rfl
    | some v => simpa [SrcB.fits, hlit] using hb
  | true =>
    rw [srcB_zero hm (hz.trans hn) (hl.trans (if_pos hn))]
    rfl

theorem addr_short {r : Raw} (h : r.x = {}) : r.addr.short = true := by
  simp [Addr.short, Raw.addr, Raw.noIdx, h]

/-! ### Order fields (R60) -/

@[simp] theorem Raw.order_acq (r : Raw) : r.order.acq = r.x.acq := rfl
@[simp] theorem Raw.order_rel (r : Raw) : r.order.rel = r.x.rel := rfl
@[simp] theorem Raw.order_scope (r : Raw) : r.order.scope = Scope.ofCode r.x.scope := rfl
theorem Raw.order_zero {r : Raw} (h : r.x = {}) : r.order = ⟨false, false, .cell⟩ := by
  unfold Raw.order
  rw [h]
  rfl
theorem Scope.ofCode_ne_system {c : BitVec 3} (h : c.toNat < 4) : Scope.ofCode c ≠ .system := by revert c; decide
theorem Scope.near_ofCode {c : BitVec 3} (h : c.toNat < 2) : (Scope.ofCode c).near = true := by revert c; decide
theorem Row.acq_false {k : Row} {r : Raw} (h : k.masked r = r) (hk : k.acq = false) : r.x.acq = false := by
  have hx := congrArg Ext.acq (Row.ext_eq h)
  simpa [Row.ext, hk] using hx.symm
theorem Row.rel_false {k : Row} {r : Raw} (h : k.masked r = r) (hk : k.rel = false) : r.x.rel = false := by
  have hx := congrArg Ext.rel (Row.ext_eq h)
  simpa [Row.ext, hk] using hx.symm

theorem Raw.xf0_false {r : Raw} (h : r.x = {}) : r.xf0 = false := by
  unfold Raw.xf0
  rw [h]
  rfl
theorem xf_lt_three {xf : BitVec 6} (h : xf.toNat < 3) : xf = 0 ∨ xf = 1 ∨ xf = 2 := by revert xf; decide

@[simp] theorem TagSub.ofCode_zero : TagSub.ofCode 0#6 = .one := rfl
@[simp] theorem TagSub.ofCode_one : TagSub.ofCode 1#6 = .all := rfl
@[simp] theorem TagSub.ofCode_two : TagSub.ofCode 2#6 = .region := rfl
theorem AtomOp.ofCode_eq_cas (c : BitVec 3) : AtomOp.ofCode c = .cas ↔ c = 7#3 := by revert c; decide

/-- Field E of an atomic: the register of CAS, and zero for the others. -/
theorem e_field {k : Row} {r : Raw} {c : BitVec 3} {wide : Bool} (hm : k.masked r = r) (u : Used k r)
    (he : k.e = if c == 7 then .pairIf wide else .unused) :
    (if c = 7#3 then Cls.pairIf wide else .unused).mask r.x.e = r.x.e ∧
    if AtomOp.ofCode c = .cas then wide = false ∨ evenReg r.x.e = true else r.x.e = 0#5 := by
  have hE := congrArg Ext.e (Row.ext_eq hm)
  have hok := u.e
  simp only [Row.ext, he, beq_iff_eq] at hE hok
  refine ⟨hE, ?_⟩
  by_cases h : c = 7#3
  · rw [if_pos ((AtomOp.ofCode_eq_cas c).2 h)]
    simpa [h] using hok
  · rw [if_neg (mt (AtomOp.ofCode_eq_cas c).1 h)]
    simpa [h] using hE.symm

/-- Field A of a row that takes no queue. -/
theorem a_ok {k : Row} {r : Raw} (hm : k.masked r = r) (u : Used k r) (hq : k.q = false) : k.a.ok r.a = true := by
  have hx : r.x.xq = false := by simpa [Row.ext, hq] using (congrArg Ext.xq (Row.ext_eq hm)).symm
  have ha := u.a
  simpa [Raw.srcA, hx, SrcA.fits] using ha

/-! Field E1 of the matrix rows: one index of a tile descriptor, or two (R101). -/

theorem ones_low : ∀ i < 32, (63#32).getLsbD i = decide (i < 6) := by decide
theorem ones_mma : ∀ i < 32, (16191#32).getLsbD i = (decide (8 ≤ i ∧ i < 14) || decide (i < 6)) := by decide
theorem e1_td (v : W32) : (v.extractLsb' 0 6).setWidth 32 = v &&& 63#32 := by
  refine BitVec.eq_of_getLsbD_eq fun i hi => ?_
  rw [BitVec.getLsbD_and, ones_low i hi, BitVec.getLsbD_setWidth, BitVec.getLsbD_extractLsb', Nat.zero_add, decide_eq_true hi,
    Bool.true_and, Bool.and_comm]
theorem e1_mma (v : W32) : (v.extractLsb' 8 6).setWidth 32 <<< 8 ||| (v.extractLsb' 0 6).setWidth 32 = v &&& 16191#32 := by
  refine BitVec.eq_of_getLsbD_eq fun i hi => ?_
  rw [e1_td, BitVec.getLsbD_or, BitVec.getLsbD_and, BitVec.getLsbD_and, ones_low i hi, ones_mma i hi, BitVec.getLsbD_shiftLeft,
    BitVec.getLsbD_setWidth, BitVec.getLsbD_extractLsb', Bool.and_or_distrib_left]
  congr 1
  by_cases h8 : i < 8
  · simp [h8]
  · rw [Nat.add_sub_cancel' (Nat.le_of_not_lt h8)]
    have h6 : i - 8 < 6 ↔ i < 14 := by omega
    have h32 : i - 8 < 32 := by omega
    simp [h8, hi, h6, h32, Nat.le_of_not_lt h8, Bool.and_comm]

/-- The type of a code that XF holds. -/
theorem xf_ty {xf : BitVec 6} {t : Ty} (h : xf = t.code.setWidth 6) : Ty.ofCodeD (xf.extractLsb' 0 4) = t := by
  rw [h]
  cases t <;> rfl
theorem mma_xf {xf : BitVec 6} (h : mmaTypes xf = true) :
    xf.extractLsb' 4 2 ++ (Ty.ofCodeD (xf.extractLsb' 0 4)).code = xf := by revert xf; decide

/-- A channel endpoint has a number from 8 to 15. -/
theorem chan_bit {v : BitVec 5} (h : Cls.chan.ok v = true) : (v.extractLsb' 0 4).getLsbD 3 = true := by
  revert v
  decide

end Sys2Proof
end

section
/-! SUPPORT. The lane rows and the floating-point rows answer instructions with the words they were read from (R91 to R93). -/

namespace Sys2Proof

theorem sound_laneRow (r : Raw) : Answers (Sound r) (laneRow r) := by
  unfold laneRow
  split <;> rename_i hop
  case h_35 => exact answers_none
  all_goals replace hop := op_eq hop
  case h_33 =>
    refine answers_some fun hm u => ⟨congrArg some ?_, rfl⟩
    have hx : r.x.xf = 0 := by simpa using u.xf
    have hl := Row.lit_none hm rfl
    simp [Row.masked, Row.ext, hop, hx, hl, imm9_f, imm9_b]
  case h_34 =>
    refine answers_withF fun hf hm u => ⟨congrArg some ?_, ?_⟩
    · have hx : r.x.xf = 0 := by simpa using u.xf
      simp [Row.masked, Row.ext, hop, hx]
    · have hd : evenReg r.d = true := u.d
      simp [Instr.wf, hf, hd]
  case h_30 =>
    refine answers_withTy fun t hf ht hm u => ⟨congrArg some ?_, rfl⟩
    have hx : r.x.xf = 0 := by simpa using u.xf
    simp [Row.masked, Row.ext, hop, hx, hf, Ty.eq_b32_of_b32only ht, Ty.code]
  case h_1 | h_2 | h_3 | h_4 | h_5 | h_7 | h_10 | h_11 =>
    refine answers_withTy fun t hf ht hm u => ?_
    have hw : (!t.isB && r.x.sat) = r.x.sat := congrArg Ext.sat (Row.ext_eq hm)
    have hs : t.isB = false ∨ r.x.sat = false := by simpa using and_eq_right_iff.1 hw
    obtain ⟨-, hxf, -, hd, ha, hb, hc, -, -⟩ := u
    simp at hxf hd ha hb hc
    refine ⟨congrArg some ?_, ?_⟩
    · simp [Row.masked, Row.ext, hop, hf, hxf, hw]
    · rcases r.ext_or with hx | hx <;> simp [Instr.wf, hx, ht, hd, ha, hb, hc, hs.symm]
  all_goals
    refine answers_withTy fun t hf ht hm u => ?_
    obtain ⟨-, hxf, -, hd, ha, hb, hc, -, -⟩ := u
    simp at hxf hd ha hb hc
    refine ⟨congrArg some ?_, ?_⟩
    · simp [Row.masked, Row.ext, hop, hf, hxf, ShflMode.code_ofCode, RedOp.code_ofCode, RedOp.code_ofCode_excl]
    · rcases r.ext_or with hx | hx <;> simp [Instr.wf, hx, ht, hd, ha, hb]

theorem sound_floatRow (r : Raw) : Answers (Sound r) (floatRow r) := by
  unfold floatRow
  split <;> rename_i hop
  case h_22 => exact answers_none
  all_goals replace hop := op_eq hop
  case h_18 =>
    refine answers_withTy fun t hf ht hm u => ?_
    have hrnd := Row.rnd_or hm
    obtain ⟨-, hxf, -, hd, ha, hb, hc, -, -⟩ := u
    simp [Ty.codeWide] at hxf hd ha hb hc hrnd
    have hlt : r.x.xf.toNat < 14 := Nat.lt_succ_of_le hxf.2
    have hext : r.ext.isSome = true := r.ext_or.resolve_right fun hx => by simp [hx] at hxf
    refine ⟨congrArg some ?_, ?_⟩
    · have hr : (if ¬t = Ty.e4 ∧ ¬t = Ty.e5 then r.x.rnd else 0#2) = r.x.rnd := by
        obtain h | h := hrnd <;> simp [h]
      simp [Row.masked, Row.ext, hop, hf, Ty.code_ofCodeD hlt, hr]
    · simpa [Instr.wf, hext, ht, hd, ha, Ty.cv_ofCodeD hxf.1 hlt] using hrnd.symm.imp_left fun h => by rw [h]; rfl
  case h_21 =>
    refine answers_withTy fun t hf ht hm u => ?_
    obtain ⟨-, hxf, -, hd, ha, hb, hc, -, -⟩ := u
    simp at hxf ha
    refine ⟨congrArg some ?_, ?_⟩
    · simp [Row.masked, Row.ext, hop, hf, hxf, Ty.eq_f_of_fonly ht, Ty.code]
    · rcases r.ext_or with hx | hx <;> simp [Instr.wf, hx, ha]
  all_goals
    refine answers_withTy fun t hf ht hm u => ?_
    obtain ⟨-, hxf, -, hd, ha, hb, hc, -, -⟩ := u
    simp at hxf hd ha hb hc
    refine ⟨congrArg some ?_, ?_⟩
    · simp [Row.masked, Row.ext, hop, hf, hxf]
    · rcases r.ext_or with hx | hx <;> simp [Instr.wf, hx, ht, hd, ha, hb]

end Sys2Proof
end

section
/-! SUPPORT. The predicate, scalar and control rows answer instructions with the words they were read from (R94 to R97). -/

namespace Sys2Proof

theorem sound_predRow (r : Raw) : Answers (Sound r) (predRow r) := by
  unfold predRow
  split <;> rename_i hop
  case h_9 => exact answers_none
  all_goals replace hop := op_eq hop
  case h_1 =>
    refine answers_withCond fun c hf _ hm u => ?_
    obtain ⟨hsec, hok⟩ := u.second rfl
    obtain ⟨-, hxf, -, -, ha, hb, -, -, -⟩ := u
    simp at hxf ha hb
    refine ⟨congrArg some ?_, ?_⟩
    · obtain hx | hx := hxf <;> simp [Row.masked, Row.ext, hop, hf, hx, hsec]
    · simp [Instr.wf, ha, hb, hok]
      exact r.ext_or.imp_right fun hx => by simp [hx, Raw.second_none hx]
  case h_2 =>
    refine answers_withCond fun c hf hc hm u => ?_
    obtain ⟨hsec, hok⟩ := u.second rfl
    obtain ⟨-, hxf, -, -, -, hb, -, -, -⟩ := u
    simp at hxf hb
    refine ⟨congrArg some ?_, ?_⟩
    · simp [Row.masked, Row.ext, hop, hf, hsec, fcmpCode_ofFcmp hxf]
    · simp [Instr.wf, hb, hok, hc rfl, Ty.fl3_ofFcmp]
      exact r.ext_or.imp_right fun hx => by simp [hx, Raw.second_none hx, Ty.ofFcmp]
  case h_8 =>
    refine answers_withF fun hf hm u => ?_
    have hxf : r.x.xf = 0 := by simpa using u.xf
    exact ⟨congrArg some (by simp [Row.masked, Row.ext, hop, bit4_eq hf, hxf]), rfl⟩
  all_goals
    refine answers_withF fun hf hm u => ?_
    replace hf := f_eq_zero hf
    have hl := Row.lit_none hm rfl
    have hxf : r.x.xf = 0 := by simpa using u.xf
    refine ⟨congrArg some ?_, ?_⟩
    · simp [Row.masked, Row.ext, hop, hf, hxf, hl]
    · rcases r.ext_or with hx | hx <;> simp [Instr.wf, hx]

theorem sound_scalarRow (r : Raw) : Answers (Sound r) (scalarRow r) := by
  unfold scalarRow
  split <;> rename_i hop
  case h_26 => exact answers_none
  all_goals replace hop := op_eq hop
  case h_25 =>
    refine answers_some fun hm u => ⟨congrArg some ?_, rfl⟩
    have hx : r.x.xf = 0 := by simpa using u.xf
    have hl := Row.lit_none hm rfl
    simp [Row.masked, Row.ext, hop, hx, hl, imm9_f, imm9_b]
  case h_17 =>
    refine answers_withCond fun c hf _ hm u => ?_
    obtain ⟨hsec, hok⟩ := u.second rfl
    have hxf : r.x.xf = 0 := by simpa using u.xf
    refine ⟨congrArg some ?_, ?_⟩
    · simp [Row.masked, Row.ext, hop, hf, hxf, hsec]
    · simp [Instr.wf, hok]
      exact r.ext_or.imp_right fun hx => by simp [hx, Raw.second_none hx]
  case h_14 =>
    refine answers_withF fun hf hm u => ?_
    have hxf : r.x.xf.toNat < 4 := by simpa using u.xf
    refine ⟨congrArg some ?_, ?_⟩
    · simp [Row.masked, Row.ext, hop, f_eq_zero hf, xf_low (n := 2) hxf]
    · rcases r.ext_or with hx | hx <;> simp [Instr.wf, hx]
  case h_22 | h_23 | h_24 =>
    refine answers_withTy fun t hf ht hm u => ?_
    obtain ⟨-, hxf, -, -, -, hb, -, -, -⟩ := u
    simp at hxf hb
    refine ⟨congrArg some ?_, ?_⟩
    · simp [Row.masked, Row.ext, hop, hf, hxf, Ty.eq_f_of_fonly ht, Ty.code]
    · rcases r.ext_or with hx | hx <;> simp [Instr.wf, hx, hb]
  case h_4 | h_5 | h_6 | h_15 | h_16 | h_18 =>
    refine answers_withTy fun t hf ht hm u => ?_
    obtain ⟨-, hxf, -, -, -, hb, -, -, -⟩ := u
    simp at hxf hb
    refine ⟨congrArg some ?_, ?_⟩
    · simp [Row.masked, Row.ext, hop, hf, hxf]
    · rcases r.ext_or with hx | hx <;> simp [Instr.wf, hx, ht, hb]
  all_goals
    refine answers_withF fun hf hm u => ?_
    replace hf := f_eq_zero hf
    obtain ⟨-, hxf, -, -, -, hb, -, -, -⟩ := u
    simp at hxf hb
    refine ⟨congrArg some ?_, ?_⟩
    · simp [Row.masked, Row.ext, hop, hf, hxf]
    · rcases r.ext_or with hx | hx <;> simp [Instr.wf, hx, hb]

theorem sound_controlRow (r : Raw) : Answers (Sound r) (controlRow r) := by
  unfold controlRow
  split <;> rename_i hop
  case h_11 => exact answers_none
  all_goals
    replace hop := op_eq hop
    refine answers_some fun hm u => ?_
    have hxf : r.x.xf = 0 := by simpa using u.xf
    have hl := Row.lit_none hm rfl
    have hg := u.guard
    simp at hg
    refine ⟨congrArg some ?_, ?_⟩
    · simp [Row.masked, Row.ext, hop, hxf, hl, off_f, off_b, off_a]
    · simp [Instr.wf, hg]

end Sys2Proof
end

section
/-! SUPPORT. The memory rows answer instructions with the words they were read from (R98, R99). -/

namespace Sys2Proof

theorem sound_memoryRow (r : Raw) : Answers (Sound r) (memoryRow r) := by
  unfold memoryRow
  split <;> rename_i hop
  case h_17 => exact answers_none
  all_goals replace hop := op_eq hop
  case h_1 | h_2 | h_3 | h_4 =>
    refine answers_withTy fun t hf ht hm u => ?_
    obtain ⟨h1, h2, h3⟩ := b_fields hm rfl rfl rfl
    have hok := addr_ok hm u rfl rfl
    obtain ⟨-, hxf, -, hd, -, -, -, -, -⟩ := u
    simp at hxf hd
    refine ⟨congrArg some ?_, ?_⟩
    · simp [Row.masked, Row.ext, hop, hf, addr_xf hxf, h1, h2, h3]
    · simp [Instr.wf, ht, hd, hok]
      exact r.ext_or.imp_right addr_short
  case h_5 =>
    refine answers_withTy fun t hf ht hm u => ?_
    obtain ⟨h1, h2, h3⟩ := b_fields hm rfl rfl rfl
    have hok := addr_ok hm u rfl rfl
    obtain ⟨hs, hxf, -, -, -, -, -, -, -⟩ := u
    simp at hxf
    have hrel := Row.rel_false hm rfl
    refine ⟨congrArg some ?_, ?_⟩
    · have hx := addr_xf_sform hxf.1
      simp at hx
      simp [Row.masked, Row.ext, hop, hf, hx, h1, h2, h3, Scope.code_ofCode hs, hrel]
    · simp [Instr.wf, ht, hok, hrel, Raw.noIdx, hxf.2]
      exact r.ext_or.imp_right fun hx => ⟨⟨addr_short hx, by simp [hx]⟩, Raw.order_zero hx⟩
  case h_6 =>
    refine answers_withTy fun t hf ht hm u => ?_
    obtain ⟨h1, h2, h3⟩ := b_fields hm rfl rfl rfl
    have hok := addr_ok hm u rfl rfl
    obtain ⟨hs, hxf, -, hd, -, -, -, -, -⟩ := u
    simp at hxf hd
    have hacq := Row.acq_false hm rfl
    refine ⟨congrArg some ?_, ?_⟩
    · simp [Row.masked, Row.ext, hop, hf, addr_xf hxf, h1, h2, h3, Scope.code_ofCode hs, hacq]
    · simp [Instr.wf, ht, hd, hok, hacq]
      exact r.ext_or.imp_right fun hx => ⟨addr_short hx, Raw.order_zero hx⟩
  case h_7 | h_8 =>
    refine answers_withTy fun t hf ht hm u => ?_
    obtain ⟨-, hxf, -, hd, -, -, -, -, -⟩ := u
    simp at hxf hd
    refine ⟨congrArg some ?_, ?_⟩
    · simp [Row.masked, Row.ext, hop, hf, bit6_xf0 hxf]
      cases r.xf0 <;> simp
    · simp [Instr.wf, ht]
      refine ⟨?_, r.ext_or.imp_right Raw.xf0_false⟩
      cases h0 : r.xf0 <;> simp [h0] at hd ⊢
      exact hd
  case h_12 =>
    refine answers_withF fun hf hm u => ?_
    have hxf : r.x.xf = 0 := by simpa using u.xf
    refine ⟨congrArg some ?_, rfl⟩
    simp [Row.masked, Row.ext, hop, hxf, f_eq_zero hf]
  case h_13 =>
    refine answers_withF fun hf hm u => ?_
    have hxf : r.x.xf.toNat < 3 := by simpa using u.xf
    obtain ⟨-, -, -, ha, hb, hl⟩ := Row.masked_iff.2 hm
    obtain hx | hx | hx := xf_lt_three hxf <;> simp [hx] at ha hb hl
    · refine ⟨congrArg some ?_, ?_⟩
      · simp [Row.masked, Row.ext, hop, f_eq_zero hf, TagSub.code, hx, ← hb, ← hl]
      · simp [Instr.wf, Raw.srcB, hx, ← hb, ← hl]
    · have hext : r.ext.isSome = true := r.ext_or.resolve_right fun h => by simp [h] at hx
      refine ⟨congrArg some ?_, ?_⟩
      · simp [Row.masked, Row.ext, hop, f_eq_zero hf, TagSub.code, hx, ← ha, ← hb, ← hl]
      · simp [Instr.wf, hext, Raw.srcB, hx, ← ha, ← hb, ← hl]
    · have hext : r.ext.isSome = true := r.ext_or.resolve_right fun h => by simp [h] at hx
      refine ⟨congrArg some ?_, ?_⟩
      · simp [Row.masked, Row.ext, hop, f_eq_zero hf, TagSub.code, hx]
      · simp [Instr.wf, hext, hx]
  case h_14 =>
    refine answers_withTy fun t hf ht hm u => ?_
    obtain ⟨h1, h2, h3⟩ := b_fields hm rfl rfl rfl
    have hok := addr_ok hm u rfl rfl
    obtain ⟨he, he'⟩ := e_field hm u rfl
    obtain ⟨hs, hxf, -, hd, -, -, hc, -, -⟩ := u
    simp [AtomOp.arith] at hxf hd hc
    refine ⟨congrArg some ?_, ?_⟩
    · have hx := addr_xf_aop r
      simp [Row.masked, Row.ext, hop, hf, hx, h1, h2, h3, he]
    · simp [Instr.wf, ht, hok, hd, hc, he', hxf]
      exact r.ext_or.imp_right fun hx => ⟨⟨⟨addr_short hx, by simp [hx]⟩, by simp [hx]; rfl⟩, by simp [hx]⟩
  case h_15 =>
    refine answers_withTy fun t hf ht hm u => ?_
    obtain ⟨h1, h2, h3⟩ := b_fields hm rfl rfl rfl
    have hok := addr_ok hm u rfl rfl
    obtain ⟨he, he'⟩ := e_field hm u rfl
    obtain ⟨hs, hxf, -, -, -, -, hc, -, -⟩ := u
    simp [AtomOp.arith] at hxf hc
    refine ⟨congrArg some ?_, ?_⟩
    · have hx := addr_xf_aop r
      simp [Row.masked, Row.ext, hop, hf, hx, h1, h2, h3, he, Scope.code_ofCode hs]
    · simp [Instr.wf, ht, hok, hc, he', hxf]
      exact r.ext_or.imp_right fun hx => ⟨⟨⟨⟨addr_short hx, by simp [hx]⟩, by simp [hx]; rfl⟩, by simp [hx]⟩, Raw.order_zero hx⟩
  case h_16 =>
    refine answers_withF fun hf hm u => ?_
    have hxf : r.x.xf = 0 := by simpa using u.xf
    refine ⟨congrArg some ?_, ?_⟩
    · simp [Row.masked, Row.ext, hop, f_eq_zero hf, Scope.code_ofCode u.scope, hxf]
    · simp [Instr.wf]
      exact r.ext_or.imp_right fun hx => by rw [hx]; rfl
  case h_11 =>
    refine answers_withF fun hf hm u => ?_
    have hxf : r.x.xf = 0 := by simpa using u.xf
    exact ⟨congrArg some (by simp [Row.masked, Row.ext, hop, f_eq_zero hf, hxf]), a_ok hm u rfl⟩
  all_goals
    refine answers_withF fun hf hm u => ?_
    have hxf : r.x.xf = 0 := by simpa using u.xf
    exact ⟨congrArg some (by simp [Row.masked, Row.ext, hop, f_eq_zero hf, hxf]), rfl⟩

end Sys2Proof
end

section
/-! SUPPORT. The groups answer instructions with the words they were read from (R89, R100, R101). -/

namespace Sys2Proof

theorem sound_group78 (r : Raw) (hop : r.op = 0x78) : Answers (Sound r) (group78 r) := by
  unfold group78
  split <;> rename_i hf
  case h_8 => exact answers_none
  all_goals
    replace hf := f_eq hf
    refine answers_some fun hm u => ?_
  case h_1 | h_2 =>
    have hxf : r.x.xf.toNat ≤ 1 := Nat.le_of_lt_succ (by simpa using u.xf)
    have ha := a_ok hm u rfl
    refine ⟨congrArg some ?_, ?_⟩
    · simp [Row.masked, Row.ext, hop, hf, bit6_xf0 hxf]
      cases r.xf0 <;> simp
    · cases h0 : r.xf0 <;> simp [h0] at ha
      · simp [Instr.wf, ha]
        exact r.ext_or.imp_right fun hx => by simp [hx]
      · have hext : r.ext.isSome = true := r.ext_or.resolve_right fun hx => by simp [Raw.xf0_false hx] at h0
        simp [Instr.wf, hext]
  case h_7 =>
    obtain ⟨-, hxf, -, -, -, -, -, -, -⟩ := u
    simp at hxf
    have hlow : r.x.xf.toNat < 2 ^ 5 := by omega
    refine ⟨congrArg some ?_, ?_⟩
    · simp [Row.masked, Row.ext, hop, hf, xf_low hlow]
    · have h7 : r.x.xf.extractLsb' 0 5 ≠ 7 := fun h => hxf.2 (by rw [← xf_low hlow, h]; rfl)
      simp at h7
      simp [Instr.wf, h7]
      exact r.ext_or.imp_right fun hx => by simp [hx]
  all_goals
    obtain ⟨-, hxf, -, -, -, -, hc, -, -⟩ := u
    simp at hxf hc
    refine ⟨congrArg some ?_, ?_⟩
    · simp [Row.masked, Row.ext, hop, hf, hxf]
    · rcases r.ext_or with hx | hx <;> simp [Instr.wf, hx, hc]

theorem sound_group79 (r : Raw) (hop : r.op = 0x79) : Answers (Sound r) (group79 r) := by
  unfold group79
  split <;> rename_i hf
  case h_6 => exact answers_none
  all_goals
    replace hf := f_eq hf
    refine answers_some fun hm u => ?_
  case h_1 =>
    have hxf : r.x.xf.toNat ≤ 1 := Nat.le_of_lt_succ (by simpa using u.xf)
    have hd := chan_bit u.d
    refine ⟨congrArg some (by simp [Row.masked, Row.ext, hop, hf, bit6_xf0 hxf]), ?_⟩
    simp only [Instr.wf, hd, Bool.true_and]
    exact Raw.short_or fun hx => by rw [Raw.xf0_false hx]; rfl
  case h_2 =>
    have hxf : r.x.xf.toNat ≤ 1 := Nat.le_of_lt_succ (by simpa using u.xf)
    have ha := a_ok hm u rfl
    have hd := chan_bit u.d
    refine ⟨congrArg some ?_, ?_⟩
    · simp [Row.masked, Row.ext, hop, hf, bit6_xf0 hxf]
      cases r.xf0 <;> simp
    · have ha' : (!r.xf0 || evenReg r.a) = true := by cases h0 : r.xf0 <;> simp [h0] at ha ⊢; exact ha
      simp only [Instr.wf, hd, ha', Bool.true_and]
      exact Raw.short_or fun hx => by rw [Raw.xf0_false hx]; rfl
  case h_4 =>
    have hxf : r.x.xf = 0 := by simpa using u.xf
    exact ⟨congrArg some (by simp [Row.masked, Row.ext, hop, hf, hxf]), chan_bit (a_ok hm u rfl)⟩
  all_goals
    have hxf : r.x.xf = 0 := by simpa using u.xf
    exact ⟨congrArg some (by simp [Row.masked, Row.ext, hop, hf, hxf]), chan_bit u.d⟩

theorem sound_group7A (r : Raw) (hop : r.op = 0x7A) : Answers (Sound r) (group7A r) := by
  unfold group7A
  split <;> rename_i hf
  case h_6 => exact answers_none
  all_goals
    replace hf := f_eq hf
    refine answers_some fun hm u => ?_
  case h_1 =>
    refine ⟨congrArg some (by simp [Row.masked, Row.ext, hop, hf]), ?_⟩
    simp [Instr.wf]
    exact r.ext_or.imp_right fun hx => by simp [hx]
  case h_5 =>
    have hxf : r.x.xf = 0 := by simpa using u.xf
    have hs : r.x.scope.toNat < 2 := u.scope
    refine ⟨congrArg some (by simp [Row.masked, Row.ext, hop, hf, hxf, Scope.code_ofCode (Nat.lt_trans hs (by decide))]), ?_⟩
    simp [Instr.wf, Scope.near_ofCode hs]
    exact r.ext_or.imp_right fun hx => by rw [hx]; rfl
  case h_2 =>
    have hs : r.x.scope.toNat < 4 := u.scope
    have hacq := Row.acq_false hm rfl
    refine ⟨congrArg some (by simp [Row.masked, Row.ext, hop, hf, hacq, Scope.code_ofCode (Nat.lt_succ_of_lt hs)]), ?_⟩
    simp [Instr.wf, hacq, Scope.ofCode_ne_system hs]
    exact r.ext_or.imp_right fun hx => ⟨Raw.order_zero hx, by simp [hx]⟩
  case h_3 | h_4 =>
    have hs : r.x.scope.toNat < 4 := u.scope
    have hrel := Row.rel_false hm rfl
    refine ⟨congrArg some (by simp [Row.masked, Row.ext, hop, hf, hrel, Scope.code_ofCode (Nat.lt_succ_of_lt hs)]), ?_⟩
    simp [Instr.wf, hrel, Scope.ofCode_ne_system hs]
    exact r.ext_or.imp_right fun hx => ⟨Raw.order_zero hx, by simp [hx]⟩

theorem sound_group7B (r : Raw) (hop : r.op = 0x7B) : Answers (Sound r) (group7B r) := by
  unfold group7B
  split <;> rename_i hf
  case h_5 => exact answers_none
  all_goals
    replace hf := f_eq hf
    refine answers_some fun hm u => ?_
    have hxf : r.x.xf = 0 := by simpa using u.xf
    refine ⟨congrArg some (by simp [Row.masked, Row.ext, hop, hf, hxf]), ?_⟩
    rcases r.ext_or with hx | hx <;> simp [Instr.wf, hx]

theorem sound_group7C (r : Raw) (hop : r.op = 0x7C) : Answers (Sound r) (group7C r) := by
  unfold group7C
  split <;> rename_i hf
  case h_7 => exact answers_none
  all_goals
    replace hf := f_eq hf
    refine answers_some fun hm u => ?_
  case h_1 | h_2 =>
    have hxf : r.x.xf.toNat < 2 ^ 2 := by simpa using u.xf
    refine ⟨congrArg some (by simp [Row.masked, Row.ext, hop, hf, xf_low hxf, e1_td]), ?_⟩
    simp [Instr.wf]
    exact r.ext_or.imp_right fun hx => by simp [hx]
  case h_3 =>
    have hxf : mmaTypes r.x.xf = true := u.xf
    have hext : r.ext.isSome = true := r.ext_or.resolve_right fun hx => by rw [hx] at hxf; exact absurd hxf (by decide)
    refine ⟨congrArg some (by simp [Row.masked, Row.ext, hop, hf, mma_xf hxf, e1_mma]), ?_⟩
    simp [Instr.wf, hext]
    exact hxf
  case h_4 =>
    have hxf : r.x.xf = 0 := by simpa using u.xf
    exact ⟨congrArg some (by simp [Row.masked, Row.ext, hop, hf, hxf]), rfl⟩
  case h_5 =>
    obtain ⟨-, hxf, -, -, -, -, -, -, -⟩ := u
    simp at hxf
    have hext : r.ext.isSome = true := r.ext_or.resolve_right fun hx => by simp [hx] at hxf
    obtain ⟨t, ht, hx⟩ : ∃ t : Ty, (t = .s32 ∨ t = .f) ∧ r.x.xf = t.code.setWidth 6 := by
      obtain hx | hx := hxf
      · exact ⟨.s32, .inl rfl, hx⟩
      · exact ⟨.f, .inr rfl, hx⟩
    exact ⟨congrArg some (by simp [Row.masked, Row.ext, hop, hf, xf_ty hx, ← hx]), by simp [Instr.wf, hext, xf_ty hx, ht]⟩
  case h_6 =>
    obtain ⟨-, hxf, -, -, -, -, -, -, -⟩ := u
    simp at hxf
    have hext : r.ext.isSome = true := r.ext_or.resolve_right fun hx => by simp [hx] at hxf
    obtain ⟨t, ht, hx⟩ : ∃ t : Ty, (((t = .s32 ∨ t = .f) ∨ t = .h) ∨ t = .bf) ∧ r.x.xf = t.code.setWidth 6 := by
      obtain ((hx | hx) | hx) | hx := hxf
      · exact ⟨.s32, .inl (.inl (.inl rfl)), hx⟩
      · exact ⟨.f, .inl (.inl (.inr rfl)), hx⟩
      · exact ⟨.h, .inl (.inr rfl), hx⟩
      · exact ⟨.bf, .inr rfl, hx⟩
    exact ⟨congrArg some (by simp [Row.masked, Row.ext, hop, hf, xf_ty hx, ← hx]), by simp [Instr.wf, hext, xf_ty hx, ht]⟩

theorem sound_group7D (r : Raw) (hop : r.op = 0x7D) : Answers (Sound r) (group7D r) := by
  unfold group7D
  split <;> rename_i hf
  case h_6 => exact answers_none
  all_goals
    replace hf := f_eq hf
    refine answers_some fun hm u => ?_
  case h_1 =>
    have hxf : r.x.xf.toNat < 2 ^ 3 := by simpa using u.xf
    refine ⟨congrArg some (by simp [Row.masked, Row.ext, hop, hf, xf_low hxf]), ?_⟩
    simp [Instr.wf]
    exact r.ext_or.imp_right fun hx => by simp [hx]
  case h_2 =>
    have hxf : r.x.xf = 0 := by simpa using u.xf
    have hacq := Row.acq_false hm rfl
    refine ⟨congrArg some (by simp [Row.masked, Row.ext, hop, hf, hxf, hacq, Scope.code_ofCode u.scope]), ?_⟩
    simp [Instr.wf, hacq]
    exact r.ext_or.imp_right Raw.order_zero
  case h_3 =>
    have hxf : r.x.xf = 0 := by simpa using u.xf
    exact ⟨congrArg some (by simp [Row.masked, Row.ext, hop, hf, hxf]), rfl⟩
  case h_4 =>
    have hxf : r.x.xf = 0 := by simpa using u.xf
    have hrel := Row.rel_false hm rfl
    refine ⟨congrArg some (by simp [Row.masked, Row.ext, hop, hf, hxf, hrel, Scope.code_ofCode u.scope]), ?_⟩
    simp [Instr.wf, hrel]
    exact r.ext_or.imp_right Raw.order_zero
  case h_5 =>
    have hxf : r.x.xf.toNat ≤ 1 := Nat.le_of_lt_succ (by simpa using u.xf)
    have hrel := Row.rel_false hm rfl
    obtain ⟨h1, h2, h3⟩ := b_fields hm rfl rfl rfl
    refine ⟨congrArg some ?_, ?_⟩
    · simp [Row.masked, Row.ext, hop, hf, hrel, Scope.code_ofCode u.scope, h1, h2, h3, bit6_xf0 hxf]
    · have hb : (!r.xf0 || r.srcB == .reg 0) = true := by
        cases h0 : r.xf0 with
        | false => rfl
        | true => rw [srcB_zero hm h0 (if_pos h0)]; rfl
      simp only [Instr.wf, hb, hrel, Raw.order_rel, Bool.not_false, Bool.true_and, Bool.and_self]
      exact Raw.short_or fun hx => by rw [Raw.order_zero hx, Raw.xf0_false hx]; rfl

theorem sound_group7E (r : Raw) (hop : r.op = 0x7E) : Answers (Sound r) (group7E r) := by
  unfold group7E
  split <;> rename_i hf
  case h_8 => exact answers_none
  all_goals
    replace hf := f_eq hf
    refine answers_some fun hm u => ?_
  case h_4 =>
    obtain ⟨-, hxf, -, hd, -, -, -, -, -⟩ := u
    simp at hxf hd
    refine ⟨congrArg some ?_, ?_⟩
    · have hd' : (if r.x.xf = 0#6 then Cls.even else Cls.any).mask r.d = r.d := by split <;> rfl
      simp [Row.masked, Row.ext, hop, hf, hd']
    · have hd' : (r.x.xf != 0 || evenReg r.d) = true := by
        by_cases h0 : r.x.xf = 0#6 <;> simp [h0] at hd ⊢
        exact hd
      simp only [Instr.wf, hd', hxf, decide_true, Bool.true_and]
      exact Raw.short_or fun hx => by rw [hx]; rfl
  case h_5 =>
    have hext : r.ext.isSome = true := r.ext_or.resolve_right fun hx => by
      have hxf := u.xf
      simp [hx] at hxf
    exact ⟨congrArg some (by simp [Row.masked, Row.ext, hop, hf]), by simpa [Instr.wf, hext] using u.xf⟩
  all_goals
    have hxf : r.x.xf = 0 := by simpa using u.xf
    refine ⟨congrArg some (by simp [Row.masked, Row.ext, hop, hf, hxf]), ?_⟩
    rcases r.ext_or with hx | hx <;> simp [Instr.wf, hx]

end Sys2Proof
end

section
/-! SUPPORT. Every row of the opcode map answers an instruction with the words it was read from (R87 to R101). -/

namespace Sys2Proof
/-- Every row of the opcode map answers an instruction that has the words it was read from. -/
theorem sound_rowOf (r : Raw) : Answers (Sound r) (rowOf r) := by
  unfold rowOf
  simp only
  split_ifs
  · exact sound_laneRow r
  · exact sound_floatRow r
  · exact sound_predRow r
  · exact sound_scalarRow r
  · exact sound_controlRow r
  · exact sound_memoryRow r
  · split <;> rename_i hop
    case h_8 => exact answers_none
    case h_1 => exact sound_group78 r (op_eq hop)
    case h_2 => exact sound_group79 r (op_eq hop)
    case h_3 => exact sound_group7A r (op_eq hop)
    case h_4 => exact sound_group7B r (op_eq hop)
    case h_5 => exact sound_group7C r (op_eq hop)
    case h_6 => exact sound_group7D r (op_eq hop)
    case h_7 => exact sound_group7E r (op_eq hop)
end Sys2Proof
end

section
/-! SUPPORT. Fields written by the encoder and read back by the decoder (R54 to R65). -/

namespace Sys2Proof

/-- The opcode of an instruction that words encode lies in a part of the opcode map. -/
def Instr.opIn (lo hi : Nat) (i : Instr) : Bool :=
  match toRaw i with
  | some r => decide (lo ≤ r.op.toNat) && decide (r.op.toNat < hi)
  | none => false

theorem withTy_code {r : Raw} {t : Ty} {acc : Ty → Bool} {f : Ty → Row × Instr} {k : Row} {i : Instr}
    (hf : r.f = t.code) (ht : acc t = true) (h : f t = (k, i)) : withTy r acc f = some (k, i) := by
  simp [withTy, hf, ht, h]

theorem withF_lt {r : Raw} {n : Nat} {k : Row} {i j : Instr} (hf : r.f.toNat < n) (h : j = i) :
    withF r n (k, j) = some (k, i) := by
  rw [withF, if_pos hf, h]

/-- The decoder finds the row of an instruction in its words, and the checks of the row pass. -/
def Reads (i : Instr) : Prop := ∀ r, toRaw i = some r → i.wf = true → ∃ k, rowOf r = some (k, i) ∧ k.masked r = r ∧ Used k r

/-- An instruction whose short form leaves out a zero extension has the extension x among its fields in both forms. -/
theorem reads_of {i : Instr} {h : Head} {x : Ext} {r : Raw} (hi : toRaw i = some (h.raw x r))
    (hx : i.wf = true → h.ext = false → x = {})
    (H : (h.raw x r).x = x → i.wf = true →
      ∃ k, rowOf (h.raw x r) = some (k, i) ∧ k.masked (h.raw x r) = h.raw x r ∧ Used k (h.raw x r)) : Reads i := by
  intro r' h' hw
  cases hi.symm.trans h'
  refine H (Head.x_raw _ ?_) hw
  cases he : h.ext with
  | true => exact .inl rfl
  | false => exact .inr (hx hw he)

@[simp] theorem Head.raw_f (h : Head) (x : Ext) (r : Raw) : (h.raw x r).f = r.f := rfl
@[simp] theorem Head.raw_b (h : Head) (x : Ext) (r : Raw) : (h.raw x r).b = r.b := rfl
@[simp] theorem Head.raw_a (h : Head) (x : Ext) (r : Raw) : (h.raw x r).a = r.a := rfl
@[simp] theorem Head.raw_d (h : Head) (x : Ext) (r : Raw) : (h.raw x r).d = r.d := rfl
@[simp] theorem Head.raw_op (h : Head) (x : Ext) (r : Raw) : (h.raw x r).op = r.op := rfl
@[simp] theorem Head.raw_neg (h : Head) (x : Ext) (r : Raw) : (h.raw x r).neg = h.neg := rfl
@[simp] theorem Head.raw_idx (h : Head) (x : Ext) (r : Raw) : (h.raw x r).idx = h.idx := rfl
@[simp] theorem Head.raw_lit (h : Head) (x : Ext) (r : Raw) : (h.raw x r).lit = r.lit := rfl

@[simp] theorem srcB_raw (h : Head) (x : Ext) (f : BitVec 4) (a d : BitVec 5) (op : BitVec 7) (neg : Bool) (idx : BitVec 3) (ext : Option Ext)
    (b : SrcB) : (h.raw x ⟨f, b.field, a, d, op, neg, idx, ext, b.lit?⟩).srcB = b := by cases b <;> rfl

/-! Sources (R62, R65). -/

@[simp] theorem SrcA.ofFields (a : SrcA) : (if a.isQueue then SrcA.queue a.queueNo else SrcA.reg a.field) = a := by cases a <;> rfl
@[simp] theorem SrcA.queueNo_mask (a : SrcA) : (if a.isQueue then a.queueNo else 0#4) = a.queueNo := by cases a <;> rfl
@[simp] theorem SrcA.field_mask (a : SrcA) : (if a.isQueue then 0#5 else a.field) = a.field := by cases a <;> rfl
@[simp] theorem SrcB.field_mask (b : SrcB) : (if b.lit?.isSome then 0#5 else b.field) = b.field := by cases b <;> rfl

@[simp] theorem SrcA.isQueue_eq_false (a : SrcA) : a.isQueue = false ↔ a.isReg = true := by cases a <;> simp [SrcA.isQueue, SrcA.isReg]
theorem SrcA.queueNo_of_isReg {a : SrcA} (h : a.isReg = true) : a.queueNo = 0#4 := by
  cases a with
  | reg r => rfl
  | queue q => cases h

theorem sat_mask {t : Ty} {sat : Bool} (h : sat = false ∨ t.isB = false) : (!t.isB && sat) = sat := by
  obtain rfl | h := h
  · exact Bool.and_false _
  · rw [h, Bool.not_false, Bool.true_and]

/-! Codes (R55, R57, R92, R99). -/

@[simp] theorem ShflMode.ofCode_code (m : ShflMode) : ShflMode.ofCode m.code = m := by cases m <;> rfl
theorem ShflMode.code_lt (m : ShflMode) : m.code.toNat < 4 := by cases m <;> decide
@[simp] theorem RedOp.ofCode_code (o : RedOp) : RedOp.ofCode (o.code.extractLsb' 0 3) = o := by cases o <;> rfl
theorem RedOp.code_lt (o : RedOp) : o.code.toNat < 6 := by cases o <;> decide

@[simp] theorem srcB_raw_none (h : Head) (x : Ext) (f : BitVec 4) (b a d : BitVec 5) (op : BitVec 7) (neg : Bool) (idx : BitVec 3)
    (ext : Option Ext) : (h.raw x ⟨f, b, a, d, op, neg, idx, ext, none⟩).srcB = .reg b := rfl
@[simp] theorem SrcB.fits_reg (k : Cls) (l : Option Bool) (b : Reg) : (SrcB.reg b).fits k l = k.ok b := rfl
@[simp] theorem SrcA.fits_reg (k : Cls) (a : Reg) : (SrcA.reg a).fits k = k.ok a := rfl
@[simp] theorem SrcB.litOk_true (b : SrcB) : b.litOk true = true := by cases b <;> rfl

theorem withCond_code {r : Raw} {float : Bool} {c : Cond} {f : Cond → Row × Instr} {k : Row} {i : Instr} (hf : r.f = c.code)
    (hc : float = true → c.isFloat = true) (h : f c = (k, i)) : withCond r float f = some (k, i) := by
  rw [withCond, Cond.ofCode_eq_some.2 ⟨hf, hc⟩, Option.map_some, h]

@[simp] theorem Rnd.ofCode_code (m : Rnd) : Rnd.ofCode m.code = m := by cases m <;> rfl
@[simp] theorem AtomOp.ofCode_code (o : AtomOp) : AtomOp.ofCode o.code = o := by cases o <;> rfl
@[simp] theorem Scope.ofCode_code (s : Scope) : Scope.ofCode s.code = s := by cases s <;> rfl
@[simp] theorem TagSub.ofCode_code (s : TagSub) : TagSub.ofCode s.code = s := by cases s <;> rfl
theorem TagSub.code_lt (s : TagSub) : s.code.toNat < 3 := by cases s <;> decide

/-! Fields narrower than the five bits that hold them (R53). -/

@[simp] theorem Cls.ok_low3 (p : PReg) : Cls.low3.ok (p.setWidth 5) = true := by revert p; decide
@[simp] theorem Cls.ok_low4 (q : BitVec 4) : Cls.low4.ok (q.setWidth 5) = true := by revert q; decide
@[simp] theorem Cls.ok_chan (q : BitVec 4) : Cls.chan.ok (q.setWidth 5) = q.getLsbD 3 := by revert q; decide
@[simp] theorem Cls.ok_acc (q : BitVec 2) : Cls.acc.ok (q.setWidth 5) = true := by revert q; decide
theorem extractLsb'_setWidth {n m : Nat} (v : BitVec n) (h : n ≤ m) : (v.setWidth m).extractLsb' 0 n = v := by
  rw [← BitVec.setWidth_eq_extractLsb' (by omega), BitVec.setWidth_setWidth_of_le _ h, BitVec.setWidth_eq]
@[simp] theorem low3_field (p : PReg) : (p.setWidth 5).extractLsb' 0 3 = p := extractLsb'_setWidth p (by decide)
@[simp] theorem low4_field (q : BitVec 4) : (q.setWidth 5).extractLsb' 0 4 = q := extractLsb'_setWidth q (by decide)
@[simp] theorem acc_field (q : BitVec 2) : (q.setWidth 5).extractLsb' 0 2 = q := extractLsb'_setWidth q (by decide)
@[simp] theorem imm9_field (f : BitVec 9) : f.extractLsb' 5 4 ++ f.extractLsb' 0 5 = f := by
  rw [BitVec.extractLsb'_append_extractLsb'_eq_extractLsb' (by decide), BitVec.extractLsb'_eq_self]
@[simp] theorem off_field (f : BitVec 14) : f.extractLsb' 10 4 ++ f.extractLsb' 5 5 ++ f.extractLsb' 0 5 = f := by
  rw [BitVec.extractLsb'_append_extractLsb'_eq_extractLsb' (by decide), BitVec.extractLsb'_append_extractLsb'_eq_extractLsb' (by decide),
    BitVec.extractLsb'_eq_self]

/-! XF of SCAN, of LDQ and of the atomics: a code and a bit, or an address operand and a code (R92, R98, R99). -/

@[simp] theorem scan_op (o : RedOp) (e : Bool) : RedOp.ofCode ((o.code ||| bit6 e <<< 3).extractLsb' 0 3) = o := by
  cases o <;> cases e <;> rfl
@[simp] theorem scan_excl (o : RedOp) (e : Bool) : (o.code ||| bit6 e <<< 3)[3] = e := by cases o <;> cases e <;> rfl
theorem scan_lt (o : RedOp) (e : Bool) : (o.code ||| bit6 e <<< 3).toNat < 16 ∧ (o.code ||| bit6 e <<< 3).toNat % 8 < 6 := by
  cases o <;> cases e <;> decide

@[simp] theorem ty_of_xf (t : Ty) : Ty.ofCodeD ((t.code.setWidth 6).extractLsb' 0 4) = t := xf_ty rfl
theorem Ty.code_range {t : Ty} (h : t.cv = true) : 1 ≤ (t.code.setWidth 6).toNat ∧ (t.code.setWidth 6).toNat ≤ 13 := by
  revert h; cases t <;> decide
theorem rnd_mask {t : Ty} {rnd : Rnd} (h : rnd = .fpctl ∨ ¬t = .e4 ∧ ¬t = .e5) :
    (if ¬t = .e4 ∧ ¬t = .e5 then rnd.code else 0#2) = rnd.code := by
  obtain rfl | h := h
  · exact ite_self _
  · exact if_pos h

/-! Fields of the compares (R55, R61). -/

@[simp] theorem wide_xf (w : Bool) : ((if w = true then 14#6 else 0#6) == 14#6) = w := by cases w <;> rfl
@[simp] theorem second_of_field (p : Option PReg) :
    (if (secondField p)[3] = true then some ((secondField p).extractLsb' 0 3) else none) = p := by
  cases p with
  | none => rfl
  | some p => revert p; decide
theorem Ty.ofFcmp_code {t : Ty} (h : t.fl3 = true) : Ty.ofFcmp (fcmpCode t) = t := by revert h; cases t <;> decide
theorem fcmpCode_or (t : Ty) : (fcmpCode t = 0#6 ∨ fcmpCode t = 10#6) ∨ fcmpCode t = 11#6 := by cases t <;> decide
theorem bit4_lt (v : Bool) : (bit4 v).toNat < 2 := by cases v <;> decide
@[simp] theorem bit4_beq_one (v : Bool) : (bit4 v == 1#4) = v := by cases v <;> rfl

@[simp] theorem xf_field_2 (v : BitVec 2) : (v.setWidth 6).extractLsb' 0 2 = v := extractLsb'_setWidth v (by decide)
theorem xf_lt {n m : Nat} (v : BitVec n) (h : n ≤ 6) (hm : 2 ^ n ≤ m) : (v.setWidth 6).toNat < m := by
  rw [BitVec.toNat_setWidth_of_le h]
  exact Nat.lt_of_lt_of_le v.isLt hm

/-! Address operands and orders written and read back (R60, R64). -/

theorem Scope.code_lt (s : Scope) : s.code.toNat < 5 := by cases s <;> decide

@[simp] theorem Addr.xf_noIdx (m : Addr) : m.xf[2] = m.noIdx := by
  rw [Addr.xf]
  generalize m.noIdx = n, m.scale = s
  revert n s
  decide
@[simp] theorem Addr.xf_scale (m : Addr) : m.xf.extractLsb' 0 2 = m.scale := by
  rw [Addr.xf]
  generalize m.noIdx = n, m.scale = s
  revert n s
  decide
theorem Addr.xf_lt (m : Addr) : m.xf.toNat < 8 := by
  rw [Addr.xf]
  generalize m.noIdx = n, m.scale = s
  revert n s
  decide
/-- Source B beside a bit that says that no B stands (R64, R101). -/
theorem SrcB.zero_mask {z : Bool} {b : SrcB} (h : z = false ∨ b = .reg 0#5) :
    (if b.lit?.isSome = true ∨ z = true then 0#5 else b.field) = b.field ∧ (if z = false then b.lit? else none) = b.lit? := by
  obtain rfl | rfl := h
  · simp
  · exact ⟨ite_self _, ite_self _⟩
theorem SrcB.zero_fits {z wide : Bool} {b : SrcB} (h : z = false ∨ b = .reg 0#5) (hl : b.litOk wide = true) :
    b.fits .any (if z = true then none else some wide) = true := by
  obtain rfl | rfl := h
  · simpa using hl
  · rfl
theorem Addr.ok_iff {m : Addr} {scalar : Bool} : m.ok scalar = true ↔ (m.noIdx = false ∨ m.idx = .reg 0#5) ∧ m.idx.litOk scalar = true := by
  simp [Addr.ok]
theorem Addr.xf_of_short {m : Addr} (h : m.short = true) : m.xf = 0#6 ∧ m.disp = 0#32 := by
  obtain ⟨b, n, i, s, d⟩ := m
  simp [Addr.short] at h
  obtain ⟨⟨rfl, rfl⟩, rfl⟩ := h
  exact ⟨by simp [Addr.xf, bit1], rfl⟩

@[simp] theorem Addr.xf_sform (m : Addr) (q : Bool) : (m.xf ||| bit6 q <<< 3)[3] = q := by
  rw [Addr.xf]
  generalize m.noIdx = n, m.scale = s
  revert n s q
  decide
@[simp] theorem Addr.xf_sform_noIdx (m : Addr) (q : Bool) : (m.xf ||| bit6 q <<< 3)[2] = m.noIdx := by
  rw [Addr.xf]
  generalize m.noIdx = n, m.scale = s
  revert n s q
  decide
@[simp] theorem Addr.xf_sform_scale (m : Addr) (q : Bool) : (m.xf ||| bit6 q <<< 3).extractLsb' 0 2 = m.scale := by
  rw [Addr.xf]
  generalize m.noIdx = n, m.scale = s
  revert n s q
  decide
theorem Addr.xf_sform_lt (m : Addr) (q : Bool) : (m.xf ||| bit6 q <<< 3).toNat < 16 := by
  rw [Addr.xf]
  generalize m.noIdx = n, m.scale = s
  revert n s q
  decide
@[simp] theorem Addr.xf_aop (m : Addr) (o : BitVec 3) : (m.xf ||| o.setWidth 6 <<< 3).extractLsb' 3 3 = o := by
  rw [Addr.xf]
  generalize m.noIdx = n, m.scale = s
  revert n s o
  decide
@[simp] theorem Addr.xf_aop_noIdx (m : Addr) (o : BitVec 3) : (m.xf ||| o.setWidth 6 <<< 3)[2] = m.noIdx := by
  rw [Addr.xf]
  generalize m.noIdx = n, m.scale = s
  revert n s o
  decide
@[simp] theorem Addr.xf_aop_scale (m : Addr) (o : BitVec 3) : (m.xf ||| o.setWidth 6 <<< 3).extractLsb' 0 2 = m.scale := by
  rw [Addr.xf]
  generalize m.noIdx = n, m.scale = s
  revert n s o
  decide

@[simp] theorem AtomOp.code_eq_cas (o : AtomOp) : o.code = 7#3 ↔ o = .cas := by cases o <;> decide
/-- Field E of an atomic: the register of CAS, and zero for the others (R99). -/
theorem AtomOp.e_mask {o : AtomOp} {w : Bool} {e : Reg} (h : if o = .cas then w = false ∨ evenReg e = true else e = 0#5) :
    (if o = .cas then Cls.pairIf w else .unused).mask e = e ∧ (if o = .cas then Cls.pairIf w else .unused).ok e = true := by
  split at h <;> rename_i ho
  · simpa [ho] using h
  · simp [ho, h]

@[simp] theorem bit6_bit (v : Bool) : (bit6 v)[0] = v := by cases v <;> rfl
theorem bit6_le (v : Bool) : (bit6 v).toNat ≤ 1 := by cases v <;> decide

/-! TAGI takes field A in two of its forms, and source B in one (R99). -/

@[simp] theorem TagSub.code_eq_one (s : TagSub) : s.code = 1#6 ↔ s = .all := by cases s <;> decide
@[simp] theorem TagSub.code_eq_two (s : TagSub) : s.code = 2#6 ↔ s = .region := by cases s <;> decide
theorem TagSub.b_mask {s : TagSub} {b : SrcB} (h : s = .region ∨ b = .reg 0#5) :
    (if b.lit?.isSome = true ∨ ¬s = .region then 0#5 else b.field) = b.field ∧ (if s = .region then b.lit? else none) = b.lit? ∧
      b.fits .any (if s = .region then some true else none) = true := by
  obtain rfl | rfl := h
  · simp
  · exact ⟨ite_self _, ite_self _, rfl⟩
theorem TagSub.a_mask {s : TagSub} {a : Reg} (h : ¬s = .all ∨ a = 0#5) : (if s = .all then 0#5 else a) = a := by
  obtain h | rfl := h
  · exact if_neg h
  · exact ite_self _
/-- A queue is read to a scalar register, or to a lane register, a pair for a wide type (R98). -/
theorem toS_class {s w : Bool} {d : Reg} (h : (s = true ∨ w = false) ∨ evenReg d = true) :
    (if s = true then Cls.any else Cls.pairIf w).ok d = true := by
  cases s
  · simpa using h
  · rfl
@[simp] theorem Cls.mask_ite (c : Prop) [Decidable c] (j k : Cls) (v : BitVec 5) :
    (if c then j else k).mask v = if c then j.mask v else k.mask v := apply_ite (·.mask v) c j k

/-! Fields of the groups (R100, R101). -/

@[simp] theorem xf_field_5 (v : BitVec 5) : (v.setWidth 6).extractLsb' 0 5 = v := extractLsb'_setWidth v (by decide)
@[simp] theorem xf_field_3 (v : BitVec 3) : (v.setWidth 6).extractLsb' 0 3 = v := extractLsb'_setWidth v (by decide)
@[simp] theorem td_field (v : BitVec 6) : (v.setWidth 32).extractLsb' 0 6 = v := extractLsb'_setWidth v (by decide)
theorem xf_ne_seven {v : BitVec 5} (h : v ≠ 7#5) : v.setWidth 6 ≠ 7#6 := by revert v; decide
theorem Scope.code_lt_four {s : Scope} (h : s ≠ .system) : s.code.toNat < 4 := by revert h; cases s <;> decide
theorem Scope.code_le_one {s : Scope} (h : s.near = true) : s.code.toNat ≤ 1 := by revert h; cases s <;> decide
@[simp] theorem Ty.ofCodeD_code (t : Ty) : Ty.ofCodeD t.code = t := by cases t <;> rfl
@[simp] theorem mma_ta (tb : BitVec 2) (t : BitVec 4) : (tb ++ t).extractLsb' 0 4 = t := BitVec.extractLsb'_append_eq_right
@[simp] theorem mma_tb (tb : BitVec 2) (t : BitVec 4) : (tb ++ t).extractLsb' 4 2 = tb := BitVec.extractLsb'_append_eq_left
@[simp] theorem td_mask (v : BitVec 6) : v.setWidth 32 &&& 63#32 = v.setWidth 32 := by rw [← e1_td, td_field]

@[simp] theorem toS_even (s : Bool) (a : Reg) : (if s = true then Cls.any else Cls.even).ok a = (s || evenReg a) := by cases s <;> rfl
@[simp] theorem vec_even (s : Bool) (a : Reg) : (if s = true then Cls.even else Cls.any).ok a = (!s || evenReg a) := by cases s <;> rfl

theorem accld_code {t : Ty} (h : t = .s32 ∨ t = .f) : t.code.setWidth 6 = 1#6 ∨ t.code.setWidth 6 = 9#6 := by
  obtain rfl | rfl := h
  · exact .inl rfl
  · exact .inr rfl
theorem accst_code {t : Ty} (h : ((t = .s32 ∨ t = .f) ∨ t = .h) ∨ t = .bf) :
    ((t.code.setWidth 6 = 1#6 ∨ t.code.setWidth 6 = 9#6) ∨ t.code.setWidth 6 = 10#6) ∨ t.code.setWidth 6 = 11#6 := by
  obtain (h | rfl) | rfl := h
  · exact .inl (.inl (accld_code h))
  · exact .inl (.inr rfl)
  · exact .inr rfl
theorem sreg_class {v : BitVec 6} {d : Reg} (h : ¬v = 0#6 ∨ evenReg d = true) : (if v = 0#6 then Cls.even else Cls.any).ok d = true := by
  split
  · exact h.resolve_left (· ‹_›)
  · rfl
theorem mma_tda (tdb tda : BitVec 6) : (tdb.setWidth 32 <<< 8 ||| tda.setWidth 32).extractLsb' 0 6 = tda := by
  refine BitVec.eq_of_getLsbD_eq fun i hi => ?_
  have h8 : i < 8 := by omega
  have h32 : i < 32 := by omega
  simp [hi, h8, h32]
theorem mma_tdb (tdb tda : BitVec 6) : (tdb.setWidth 32 <<< 8 ||| tda.setWidth 32).extractLsb' 8 6 = tdb := by
  refine BitVec.eq_of_getLsbD_eq fun i hi => ?_
  have h32 : 8 + i < 32 := by omega
  have h6 : tda.getLsbD (8 + i) = false := BitVec.getLsbD_of_ge _ _ (by omega)
  simp [hi, h32, h6]
theorem mma_mask (tdb tda : BitVec 6) : (tdb.setWidth 32 <<< 8 ||| tda.setWidth 32) &&& 16191#32 = tdb.setWidth 32 <<< 8 ||| tda.setWidth 32 := by
  rw [← e1_mma, mma_tda, mma_tdb]

end Sys2Proof
end

section
/-! SUPPORT. The decoder reads the lane instructions from their fields (R91, R92). -/

namespace Sys2Proof
/-- The rows of lane integer and data movement. -/
theorem reads_lane (i : Instr) (hi : i.opIn 0x00 0x24 = true) : Reads i := by
  cases i
  case add h t sat d a b | sub h t sat d a b | adds h t sat d a b | subs h t sat d a b | mul h t sat d a b | mad h t sat d a b c |
      abs h t sat d a | neg h t sat d a | mulh h t d a b | min h t d a b | max h t d a b | and h t d a b | or h t d a b | xor h t d a b |
      andn h t d a b | not h t d a | shl h t d a b | shr h t d a b | sar h t d a b | rol h t d a b | bfx h t d a b | bfi h t d a b |
      popc h t d a | clz h t d a | brev h t d a | mov h t d b | movs h t d a b | sel h t d a b pc =>
    refine reads_of rfl (fun hw he => ?_) fun hx hw => ⟨_, withTy_code rfl ?_ (Prod.ext rfl ?_), ?_, ?_⟩
    · simp [Instr.wf, he] at hw
      simp [hw, SrcA.queueNo_of_isReg]
    all_goals
      simp only [BitVec.ofNat_eq_ofNat] at hx
      simp [Instr.wf] at hw
    · simp [hw]
    · simp [hx, Raw.srcA]
    · simp [Row.masked, Row.ext, hx, hw, sat_mask]
    · constructor <;> simp [hx, Raw.srcA, hw]
  case shfl h mode t d a b | reds h mode t d a =>
    refine reads_of rfl (fun hw he => ?_) fun hx hw => ⟨_, withTy_code rfl ?_ (Prod.ext rfl ?_), ?_, ?_⟩
    · simp [Instr.wf, he] at hw
      simp [hw, SrcA.queueNo_of_isReg, ShflMode.code, RedOp.code]
    all_goals
      simp only [BitVec.ofNat_eq_ofNat] at hx
      simp [Instr.wf] at hw
    · simp [hw]
    · simp [hx, Raw.srcA]
    · simp [Row.masked, Row.ext, hx]
    · have hc := mode.code_lt
      constructor <;> simp [hx, Raw.srcA, hw, hc]
  case scan h rop excl t d a =>
    refine reads_of rfl (fun hw he => ?_) fun hx hw => ⟨_, withTy_code rfl ?_ (Prod.ext rfl ?_), ?_, ?_⟩
    · simp [Instr.wf, he] at hw
      simp [hw, SrcA.queueNo_of_isReg, RedOp.code, bit6]
    all_goals
      simp only [BitVec.ofNat_eq_ofNat] at hx
      simp [Instr.wf] at hw
    · simp [hw]
    · simp [-BitVec.getElem_or, hx, Raw.srcA]
    · simp [Row.masked, Row.ext, hx]
    · obtain ⟨h16, h6⟩ := scan_lt rop excl
      constructor <;> simp [-BitVec.toNat_or, hx, Raw.srcA, hw, h16, h6]
  case addi h d a f =>
    refine reads_of rfl (fun hw he => rfl) fun hx hw => ⟨_, congrArg some (Prod.ext rfl ?_), ?_, ?_⟩
    all_goals simp at hx
    · simp [Raw.imm9]
    · simp [Row.masked, Row.ext, hx]
    · constructor <;> simp [hx, Raw.srcA]
  case vote h d p =>
    refine reads_of rfl (fun hw he => rfl) fun hx hw => ⟨_, congrArg some (Prod.ext rfl ?_), ?_, ?_⟩
    all_goals simp at hx
    · simp
    · simp [Row.masked, Row.ext, hx]
    · constructor <;> simp [hx, Raw.srcA]
  case widf h l d =>
    refine reads_of rfl (fun hw he => rfl) fun hx hw => ⟨_, withF_lt ?_ ?_, ?_, ?_⟩
    all_goals
      simp at hx
      simp [Instr.wf] at hw
    · exact hw.1
    · simp
    · simp [Row.masked, Row.ext, hx]
    · constructor <;> simp [hx, Raw.srcA, hw]
  all_goals exact absurd hi Bool.false_ne_true
end Sys2Proof
end

section
/-! SUPPORT. The decoder reads the floating-point instructions from their fields (R93). -/

namespace Sys2Proof
/-- The rows of floating point and conversion. -/
theorem reads_float (i : Instr) (hi : i.opIn 0x24 0x3A = true) : Reads i := by
  cases i
  case fadd h t rnd d a b | fsub h t rnd d a b | fmul h t rnd d a b | fma h t rnd d a b c | fmin h t d a b | fmax h t d a b | fabs h t d a |
      fneg h t d a | fdiv h t rnd d a b | fsqrt h t rnd d a | frcp h t rnd d a | frsq h t rnd d a | fexp2 h t rnd d a | flog2 h t rnd d a |
      fscale h t rnd d a b | frnd h t rnd d a | fclass h t d a | qpack h t sat d a b | qunpk h t rnd d a b =>
    refine reads_of rfl (fun hw he => ?_) fun hx hw => ⟨_, withTy_code rfl ?_ (Prod.ext rfl ?_), ?_, ?_⟩
    · simp [Instr.wf, he] at hw
      simp [hw, SrcA.queueNo_of_isReg, Rnd.code]
    all_goals
      simp only [BitVec.ofNat_eq_ofNat] at hx
      simp [Instr.wf] at hw
    · simp [hw]
    · simp [hx, Raw.srcA]
    · simp [Row.masked, Row.ext, hx]
    · constructor <;> simp [hx, Raw.srcA, hw]
  case cvt h t src rnd sat d a =>
    refine reads_of rfl (fun hw he => ?_) fun hx hw => ⟨_, withTy_code rfl ?_ (Prod.ext rfl ?_), ?_, ?_⟩
    · simp [Instr.wf, he] at hw
    all_goals
      simp only [BitVec.ofNat_eq_ofNat] at hx
      simp [Instr.wf] at hw
      obtain ⟨⟨⟨⟨⟨ht, hd⟩, ha⟩, hr⟩, hs⟩, -⟩ := hw
    · exact ht
    · simp [hx, Raw.srcA]
    · simp [Row.masked, Row.ext, hx, rnd_mask hr]
    · have hc := Ty.code_range hs
      constructor <;> simp [-BitVec.toNat_setWidth, hx, Raw.srcA, hd, ha, hc, Ty.codeWide]
  case amax h d a =>
    refine reads_of rfl (fun hw he => ?_) fun hx hw => ⟨_, congrArg some (Prod.ext rfl ?_), ?_, ?_⟩
    · simp [Instr.wf, he] at hw
      simp [hw, SrcA.queueNo_of_isReg]
    all_goals
      simp only [BitVec.ofNat_eq_ofNat] at hx
      simp [Instr.wf] at hw
    · simp [hx, Raw.srcA]
    · simp [Row.masked, Row.ext, hx]
    · constructor <;> simp [hx, Raw.srcA, hw]
  all_goals exact absurd hi Bool.false_ne_true
end Sys2Proof
end

section
/-! SUPPORT. The decoder reads the compares and the predicate instructions from their fields (R94). -/

namespace Sys2Proof
/-- The rows of compare and predicates. -/
theorem reads_pred (i : Instr) (hi : i.opIn 0x3A 0x44 = true) : Reads i := by
  cases i
  case cmp h c wide pd pe a b =>
    refine reads_of rfl (fun hw he => ?_) fun hx hw => ⟨_, withCond_code rfl ?_ (Prod.ext rfl ?_), ?_, ?_⟩
    · simp [Instr.wf, he] at hw
      simp [hw, SrcA.queueNo_of_isReg, secondField]
    all_goals
      simp only [BitVec.ofNat_eq_ofNat] at hx
      simp [Instr.wf] at hw
    · simp
    · simp [hx, Raw.srcA, Raw.second]
    · simp [Row.masked, Row.ext, hx]
    · constructor <;> simp [hx, Raw.srcA, hw, Raw.second]
  case fcmp h c t pd pe a b =>
    refine reads_of rfl (fun hw he => ?_) fun hx hw => ⟨_, withCond_code rfl ?_ (Prod.ext rfl ?_), ?_, ?_⟩
    · simp [Instr.wf, he] at hw
      simp [hw, SrcA.queueNo_of_isReg, secondField, fcmpCode]
    all_goals
      simp only [BitVec.ofNat_eq_ofNat] at hx
      simp [Instr.wf] at hw
    · simp [hw]
    · simp [hx, Raw.srcA, Raw.second, hw, Ty.ofFcmp_code]
    · simp [Row.masked, Row.ext, hx]
    · constructor <;> simp [hx, Raw.srcA, hw, Raw.second, fcmpCode_or]
  case pand h pd pa pb | por h pd pa pb | pxor h pd pa pb | pnot h pd pa =>
    refine reads_of rfl (fun hw he => rfl) fun hx hw => ⟨_, congrArg some (Prod.ext rfl ?_), ?_, ?_⟩
    all_goals simp at hx
    · simp
    · simp [Row.masked, Row.ext, hx]
    · constructor <;> simp [hx, Raw.srcA]
  case pmask h pd a =>
    refine reads_of rfl (fun hw he => ?_) fun hx hw => ⟨_, congrArg some (Prod.ext rfl ?_), ?_, ?_⟩
    · simp [Instr.wf, he] at hw
      simp [hw, SrcA.queueNo_of_isReg]
    all_goals simp only [BitVec.ofNat_eq_ofNat] at hx
    · simp [hx, Raw.srcA]
    · simp [Row.masked, Row.ext, hx]
    · constructor <;> simp [hx, Raw.srcA]
  case pset h v pd =>
    refine reads_of rfl (fun hw he => rfl) fun hx hw => ⟨_, withF_lt ?_ ?_, ?_, ?_⟩
    all_goals simp at hx
    · exact bit4_lt v
    · simp
    · simp [Row.masked, Row.ext, hx]
    · constructor <;> simp [hx, Raw.srcA]
  all_goals exact absurd hi Bool.false_ne_true
end Sys2Proof
end

section
/-! SUPPORT. The decoder reads the scalar instructions from their fields (R95). -/

namespace Sys2Proof
/-- The rows of the scalar instructions. -/
theorem reads_scalar (i : Instr) (hi : i.opIn 0x44 0x5E = true) : Reads i := by
  cases i
  case smulh h t d a b | sdiv h t d a b | srem h t d a b | smin h t d a b | smax h t d a b | sbfx h t d a b =>
    refine reads_of rfl (fun hw he => ?_) fun hx hw => ⟨_, withTy_code rfl ?_ (Prod.ext rfl ?_), ?_, ?_⟩
    · simp [Instr.wf, he] at hw
      simp [hw, SrcA.queueNo_of_isReg]
    all_goals
      simp only [BitVec.ofNat_eq_ofNat] at hx
      simp [Instr.wf] at hw
    · simp [hw]
    · simp [hx, Raw.srcA]
    · simp [Row.masked, Row.ext, hx]
    · constructor <;> simp [hx, Raw.srcA, hw]
  case sadd h d a b | ssub h d a b | smul h d a b | sand h d a b | sor h d a b | sxor h d a b | sshl h d a b | sshr h d a b | ssar h d a b |
      smov h d b | sbfi h d a b | sclz h d a | spopc h d a | sfmul h rnd d a b | sfadd h rnd d a b | sfma h rnd d a b c =>
    refine reads_of rfl (fun hw he => ?_) fun hx hw => ⟨_, congrArg some (Prod.ext rfl ?_), ?_, ?_⟩
    · simp [Instr.wf, he] at hw
      simp [hw, SrcA.queueNo_of_isReg, Rnd.code]
    all_goals
      simp only [BitVec.ofNat_eq_ofNat] at hx
      simp [Instr.wf] at hw
    · simp [hx, Raw.srcA]
    · simp [Row.masked, Row.ext, hx]
    · constructor <;> simp [hx, Raw.srcA, hw]
  case slea h scale disp d a b =>
    refine reads_of rfl (fun hw he => ?_) fun hx hw => ⟨_, congrArg some (Prod.ext rfl ?_), ?_, ?_⟩
    · simp [Instr.wf, he] at hw
      simp [hw, SrcA.queueNo_of_isReg]
    all_goals simp only [BitVec.ofNat_eq_ofNat] at hx
    · simp [hx, Raw.srcA]
    · simp [Row.masked, Row.ext, hx]
    · constructor <;> simp [-BitVec.toNat_setWidth, hx, Raw.srcA, xf_lt]
  case scmp h c pd pe a b =>
    refine reads_of rfl (fun hw he => ?_) fun hx hw => ⟨_, withCond_code rfl ?_ (Prod.ext rfl ?_), ?_, ?_⟩
    · simp [Instr.wf, he] at hw
      simp [hw, SrcA.queueNo_of_isReg, secondField]
    all_goals
      simp only [BitVec.ofNat_eq_ofNat] at hx
      simp [Instr.wf] at hw
    · simp
    · simp [hx, Raw.srcA, Raw.second]
    · simp [Row.masked, Row.ext, hx]
    · constructor <;> simp [hx, Raw.srcA, hw, Raw.second]
  case saddi h d a f =>
    refine reads_of rfl (fun hw he => rfl) fun hx hw => ⟨_, congrArg some (Prod.ext rfl ?_), ?_, ?_⟩
    all_goals simp at hx
    · simp [Raw.imm9]
    · simp [Row.masked, Row.ext, hx]
    · constructor <;> simp [hx, Raw.srcA]
  all_goals exact absurd hi Bool.false_ne_true
end Sys2Proof
end

section
/-! SUPPORT. The decoder reads the local control instructions from their fields (R96, R97). -/

namespace Sys2Proof
/-- The rows of local control. -/
theorem reads_control (i : Instr) (hi : i.opIn 0x5E 0x68 = true) : Reads i := by
  cases i
  case br h off | brl h off | brx h a | ret h | brany h p off | brall h p off | loop h d off =>
    refine reads_of rfl (fun hw he => rfl) fun hx hw => ⟨_, congrArg some (Prod.ext rfl ?_), ?_, ?_⟩
    all_goals simp at hx
    · simp [Raw.off]
    · simp [Row.masked, Row.ext, hx]
    · constructor <;> simp [hx, Raw.srcA]
  case pushm h p | elsem h p | popm h =>
    refine reads_of rfl (fun hw he => rfl) fun hx hw => ⟨_, congrArg some (Prod.ext rfl ?_), ?_, ?_⟩
    all_goals
      simp at hx
      simp [Instr.wf] at hw
    · simp
    · simp [Row.masked, Row.ext, hx]
    · constructor <;> simp [hx, Raw.srcA, hw]
  all_goals exact absurd hi Bool.false_ne_true
end Sys2Proof
end

section
/-! SUPPORT. The decoder reads the memory instructions from their fields (R98, R99). -/

namespace Sys2Proof
/-- The rows of memory. -/
theorem reads_memory (i : Instr) (hi : i.opIn 0x68 0x78 = true) : Reads i := by
  cases i
  case ld h t d m | st h t d m | lds h t d m | sts h t d m =>
    refine reads_of rfl (fun hw he => ?_) fun hx hw => ⟨_, withTy_code rfl ?_ (Prod.ext rfl ?_), ?_, ?_⟩
    · simp [Instr.wf, he] at hw
      simp [Addr.xf_of_short, hw]
    all_goals
      simp only [BitVec.ofNat_eq_ofNat] at hx
      simp [Instr.wf] at hw
      obtain ⟨⟨ht, hm⟩, -⟩ := hw
      obtain ⟨hz, hl⟩ := Addr.ok_iff.1 hm
    · simp [ht]
    · simp [hx, Raw.addr, Raw.noIdx]
    · simp [Row.masked, Row.ext, hx, Raw.noIdx, SrcB.zero_mask hz]
    · constructor <;> simp [hx, Raw.srcA, Raw.noIdx, ht, SrcB.zero_fits hz hl, m.xf_lt]
  case stx h t o d m =>
    obtain ⟨acq, rel, s⟩ := o
    refine reads_of rfl (fun hw he => ?_) fun hx hw => ⟨_, withTy_code rfl ?_ (Prod.ext rfl ?_), ?_, ?_⟩
    · simp [Instr.wf, he] at hw
      simp [Addr.xf_of_short, hw, Scope.code]
    all_goals
      simp only [BitVec.ofNat_eq_ofNat] at hx
      simp [Instr.wf] at hw
      obtain ⟨⟨⟨⟨ht, hd⟩, hm⟩, rfl⟩, -⟩ := hw
      obtain ⟨hz, hl⟩ := Addr.ok_iff.1 hm
    · exact ht
    · simp [hx, Raw.addr, Raw.noIdx, Raw.order]
    · simp [Row.masked, Row.ext, hx, Raw.noIdx, SrcB.zero_mask hz]
    · constructor <;> simp [hx, Raw.srcA, Raw.noIdx, hd, SrcB.zero_fits hz hl, m.xf_lt, s.code_lt]
  case ldq h t q o d m =>
    obtain ⟨acq, rel, s⟩ := o
    refine reads_of rfl (fun hw he => ?_) fun hx hw => ⟨_, withTy_code rfl ?_ (Prod.ext rfl ?_), ?_, ?_⟩
    · simp [Instr.wf, he] at hw
      simp [Addr.xf_of_short, hw, Scope.code, bit6]
    all_goals
      simp only [BitVec.ofNat_eq_ofNat] at hx
      simp [Instr.wf] at hw
      obtain ⟨⟨⟨⟨ht, hm⟩, hq⟩, rfl⟩, -⟩ := hw
      obtain ⟨hz, hl⟩ := Addr.ok_iff.1 hm
    · exact ht
    · simp [-BitVec.getElem_or, hx, Raw.addr, Raw.noIdx, Raw.order]
    · simp [-BitVec.getElem_or, Row.masked, Row.ext, hx, Raw.noIdx, SrcB.zero_mask hz]
    · constructor <;> simp [-BitVec.getElem_or, -BitVec.toNat_or, hx, Raw.srcA, Raw.noIdx, hq, SrcB.zero_fits hz hl, m.xf_sform_lt q, s.code_lt]
  case atom h o t d m c e =>
    refine reads_of rfl (fun hw he => ?_) fun hx hw => ⟨_, withTy_code rfl ?_ (Prod.ext rfl ?_), ?_, ?_⟩
    · simp [Instr.wf, he] at hw
      simp [Addr.xf_of_short, hw, AtomOp.code]
    all_goals
      simp only [BitVec.ofNat_eq_ofNat] at hx
      simp [Instr.wf] at hw
      obtain ⟨⟨⟨⟨⟨⟨ht, hd⟩, hm⟩, hc⟩, he⟩, hb⟩, -⟩ := hw
      obtain ⟨hz, hl⟩ := Addr.ok_iff.1 hm
    · exact ht
    · simp [-BitVec.getElem_or, hx, Raw.addr, Raw.noIdx]
    · simp [-BitVec.getElem_or, Row.masked, Row.ext, hx, Raw.noIdx, SrcB.zero_mask hz, AtomOp.e_mask he]
    · constructor <;> simp [-BitVec.getElem_or, hx, Raw.srcA, Raw.noIdx, hd, hc, AtomOp.arith, hb, SrcB.zero_fits hz hl, AtomOp.e_mask he]
  case atomx h o t ord d m c e =>
    obtain ⟨acq, rel, s⟩ := ord
    refine reads_of rfl (fun hw he => ?_) fun hx hw => ⟨_, withTy_code rfl ?_ (Prod.ext rfl ?_), ?_, ?_⟩
    · simp [Instr.wf, he] at hw
      simp [Addr.xf_of_short, hw, AtomOp.code, Scope.code]
    all_goals
      simp only [BitVec.ofNat_eq_ofNat] at hx
      simp [Instr.wf] at hw
      obtain ⟨⟨⟨⟨⟨ht, hm⟩, hc⟩, he⟩, hb⟩, -⟩ := hw
      obtain ⟨hz, hl⟩ := Addr.ok_iff.1 hm
    · exact ht
    · simp [-BitVec.getElem_or, hx, Raw.addr, Raw.noIdx, Raw.order]
    · simp [-BitVec.getElem_or, Row.masked, Row.ext, hx, Raw.noIdx, SrcB.zero_mask hz, AtomOp.e_mask he]
    · constructor <;> simp [-BitVec.getElem_or, hx, Raw.srcA, Raw.noIdx, hc, AtomOp.arith, hb, SrcB.zero_fits hz hl, AtomOp.e_mask he, s.code_lt]
  case qpop h t s d q | qpeek h t s d q =>
    refine reads_of rfl (fun hw he => ?_) fun hx hw => ⟨_, withTy_code rfl ?_ (Prod.ext rfl ?_), ?_, ?_⟩
    · simp [Instr.wf, he] at hw
      simp [hw, bit6]
    all_goals
      simp only [BitVec.ofNat_eq_ofNat] at hx
      simp [Instr.wf] at hw
    · simp [hw]
    · simp [hx, Raw.xf0]
    · simp [Row.masked, Row.ext, hx, Raw.xf0]
    · constructor <;> simp [hx, Raw.srcA, Raw.xf0, bit6_le, toS_class hw.1.2]
  case qstat h d q | qdrop h q | tagl h d ra | tagw h ra b =>
    refine reads_of rfl (fun hw he => rfl) fun hx hw => ⟨_, congrArg some (Prod.ext rfl ?_), ?_, ?_⟩
    all_goals
      simp at hx
      simp [Instr.wf] at hw
    · simp
    · simp [Row.masked, Row.ext, hx]
    · constructor <;> simp [hx, Raw.srcA, hw]
  case tagi h s ra b =>
    refine reads_of rfl (fun hw he => ?_) fun hx hw => ⟨_, congrArg some (Prod.ext rfl ?_), ?_, ?_⟩
    · simp [Instr.wf, he] at hw
      simp [hw, TagSub.code]
    all_goals
      simp only [BitVec.ofNat_eq_ofNat] at hx
      simp [Instr.wf] at hw
      obtain ⟨⟨hb, ha⟩, -⟩ := hw
      obtain ⟨hb, hl, hf⟩ := TagSub.b_mask hb
    · simp [hx]
    · simp [Row.masked, Row.ext, hx, hb, hl, TagSub.a_mask ha]
    · constructor <;> simp [hx, Raw.srcA, s.code_lt, hf]
  case fence h s =>
    refine reads_of rfl (fun hw he => ?_) fun hx hw => ⟨_, congrArg some (Prod.ext rfl ?_), ?_, ?_⟩
    · simp [Instr.wf, he] at hw
      simp [hw, Scope.code]
    all_goals
      simp only [BitVec.ofNat_eq_ofNat] at hx
      simp [Instr.wf] at hw
    · simp [hx]
    · simp [Row.masked, Row.ext, hx]
    · constructor <;> simp [hx, Raw.srcA, s.code_lt]
  all_goals exact absurd hi Bool.false_ne_true
end Sys2Proof
end

section
/-! SUPPORT. The decoder reads the instructions of the groups from their fields (R100, R101). -/

namespace Sys2Proof
/-- The sub-operations of the groups. -/
theorem reads_group (i : Instr) (hi : i.opIn 0x78 0x7F = true) : Reads i := by
  cases i
  case jfar h s a v | cfar h s a v | chbind h s q a | chw h s q a =>
    refine reads_of rfl (fun hw he => ?_) fun hx hw => ⟨_, congrArg some (Prod.ext rfl ?_), ?_, ?_⟩
    · simp [Instr.wf, he] at hw
      simp [hw, bit6]
    all_goals
      simp only [BitVec.ofNat_eq_ofNat] at hx
      simp [Instr.wf] at hw
    · simp [hx, Raw.xf0]
    · simp [Row.masked, Row.ext, hx, Raw.xf0]
    · constructor <;> simp [hx, Raw.srcA, Raw.xf0, bit6_le, hw]
  case rfar h v | fork h a b c v | exit h | yield h v | chclose h q | chstat h d q | chunbind h q | barc h v a | step h a b c | stepend h |
      slack h d | sleept h a | accz h a | twmap h d a b | nop h | trap h v | svc h v | ckpt h | brk h v | gang h s | mfs h v d |
      mts h v a =>
    refine reads_of rfl (fun hw he => ?_) fun hx hw => ⟨_, congrArg some (Prod.ext rfl ?_), ?_, ?_⟩
    · simp [Instr.wf, he] at hw
      simp [hw, Scope.code]
    all_goals
      simp only [BitVec.ofNat_eq_ofNat] at hx
      simp [Instr.wf] at hw
    · simp [hx]
    · simp [Row.masked, Row.ext, hx]
    · constructor <;> simp [hx, Raw.srcA, hw, Scope.code_le_one, sreg_class]
  case send h c a b =>
    refine reads_of rfl (fun hw he => ?_) fun hx hw => ⟨_, congrArg some (Prod.ext rfl ?_), ?_, ?_⟩
    · simp [Instr.wf, he] at hw
      simp [hw]
    all_goals
      simp only [BitVec.ofNat_eq_ofNat] at hx
      simp [Instr.wf] at hw
    · simp [hx]
    · simp [Row.masked, Row.ext, hx]
    · constructor <;> simp [-BitVec.toNat_setWidth, hx, Raw.srcA, xf_lt, xf_ne_seven hw.1]
  case bara h v o | barw h v o | bart h v o p =>
    obtain ⟨acq, rel, s⟩ := o
    refine reads_of rfl (fun hw he => ?_) fun hx hw => ⟨_, congrArg some (Prod.ext rfl ?_), ?_, ?_⟩
    · simp [Instr.wf, he] at hw
      simp [hw, Scope.code]
    all_goals
      simp only [BitVec.ofNat_eq_ofNat] at hx
      simp [Instr.wf] at hw
      obtain ⟨⟨rfl, hs⟩, -⟩ := hw
    · simp [hx, Raw.order]
    · simp [Row.masked, Row.ext, hx]
    · constructor <;> simp [hx, Raw.srcA, Scope.code_lt_four hs]
  case twgo h o d | twtest h o p a b =>
    obtain ⟨acq, rel, s⟩ := o
    refine reads_of rfl (fun hw he => ?_) fun hx hw => ⟨_, congrArg some (Prod.ext rfl ?_), ?_, ?_⟩
    · simp [Instr.wf, he] at hw
      simp [hw, Scope.code]
    all_goals
      simp only [BitVec.ofNat_eq_ofNat] at hx
      simp [Instr.wf] at hw
      obtain ⟨rfl, -⟩ := hw
    · simp [hx, Raw.order]
    · simp [Row.masked, Row.ext, hx]
    · constructor <;> simp [hx, Raw.srcA, s.code_lt]
  case tdset h w t a | tdget h w t a | twset h w a =>
    refine reads_of rfl (fun hw he => ?_) fun hx hw => ⟨_, congrArg some (Prod.ext rfl ?_), ?_, ?_⟩
    · simp [Instr.wf, he] at hw
      simp [hw]
    all_goals
      simp only [BitVec.ofNat_eq_ofNat] at hx
    · simp [hx]
    · simp [Row.masked, Row.ext, hx]
    · constructor <;> simp [-BitVec.toNat_setWidth, hx, Raw.srcA, xf_lt]
  case mma h ta tb acc tda tdb | accld h t acc a | accst h t rnd sat acc a =>
    refine reads_of rfl (fun hw he => ?_) fun hx hw => ⟨_, congrArg some (Prod.ext rfl ?_), ?_, ?_⟩
    · simp [Instr.wf, he] at hw
    all_goals
      simp only [BitVec.ofNat_eq_ofNat] at hx
      simp [Instr.wf] at hw
    · simp [hx, mma_tda, mma_tdb]
    · simp [Row.masked, Row.ext, hx, mma_mask]
    · constructor <;> simp [hx, Raw.srcA, mmaTypes, accld_code, accst_code, hw]
  case twwait h all o a b =>
    obtain ⟨acq, rel, s⟩ := o
    refine reads_of rfl (fun hw he => ?_) fun hx hw => ⟨_, congrArg some (Prod.ext rfl ?_), ?_, ?_⟩
    · simp [Instr.wf, he] at hw
      simp [hw, Scope.code, bit6]
    all_goals
      simp only [BitVec.ofNat_eq_ofNat] at hx
      simp [Instr.wf] at hw
      obtain ⟨⟨hb, rfl⟩, -⟩ := hw
    · simp [hx, Raw.order, Raw.xf0]
    · simp [Row.masked, Row.ext, hx, SrcB.zero_mask hb, Raw.xf0]
    · constructor <;> simp [hx, Raw.srcA, s.code_lt, bit6_le, SrcB.zero_fits hb, Raw.xf0]
  all_goals exact absurd hi Bool.false_ne_true
end Sys2Proof
end

section
/-! SUPPORT. Words and their fields (R48, R50, R57, R65). -/

namespace Sys2Proof

/-! ### The words of an instruction and their fields (R48, R50, R57, R65) -/

@[simp] theorem bit1_bit (v : Bool) : (bit1 v).getLsbD 0 = v := by cases v <;> rfl

/-- A base word holds its fields. -/
theorem base_fields (f : BitVec 4) (b a d : BitVec 5) (op : BitVec 7) (neg : Bool) (idx : BitVec 3) (len : BitVec 2) :
    (f ++ b ++ a ++ d ++ op ++ bit1 neg ++ idx ++ len).extractLsb' 28 4 = f ∧
    (f ++ b ++ a ++ d ++ op ++ bit1 neg ++ idx ++ len).extractLsb' 23 5 = b ∧
    (f ++ b ++ a ++ d ++ op ++ bit1 neg ++ idx ++ len).extractLsb' 18 5 = a ∧
    (f ++ b ++ a ++ d ++ op ++ bit1 neg ++ idx ++ len).extractLsb' 13 5 = d ∧
    (f ++ b ++ a ++ d ++ op ++ bit1 neg ++ idx ++ len).extractLsb' 6 7 = op ∧
    (f ++ b ++ a ++ d ++ op ++ bit1 neg ++ idx ++ len).getLsbD 5 = neg ∧
    (f ++ b ++ a ++ d ++ op ++ bit1 neg ++ idx ++ len).extractLsb' 2 3 = idx ∧
    (f ++ b ++ a ++ d ++ op ++ bit1 neg ++ idx ++ len).extractLsb' 0 2 = len := by
  simp (disch := decide) [-Nat.reduceAdd, -BitVec.getLsbD_eq_getElem, BitVec.extractLsb'_append_eq_of_le,
    BitVec.extractLsb'_append_eq_of_add_le, BitVec.getLsbD_append, BitVec.extractLsb'_eq_self]

/-- E0 holds its fields. -/
theorem word_fields (res scope : BitVec 3) (rel acq : Bool) (rnd : BitVec 2) (sat xq : Bool) (qa : BitVec 4) (xf : BitVec 6) (e c : BitVec 5) :
    let w := res ++ scope ++ bit1 rel ++ bit1 acq ++ rnd ++ bit1 sat ++ bit1 xq ++ qa ++ xf ++ e ++ c
    w.extractLsb' 29 3 = res ∧ w.extractLsb' 26 3 = scope ∧ w.getLsbD 25 = rel ∧ w.getLsbD 24 = acq ∧ w.extractLsb' 22 2 = rnd ∧
    w.getLsbD 21 = sat ∧ w.getLsbD 20 = xq ∧ w.extractLsb' 16 4 = qa ∧ w.extractLsb' 10 6 = xf ∧ w.extractLsb' 5 5 = e ∧
    w.extractLsb' 0 5 = c := by
  simp (disch := decide) [-Nat.reduceAdd, -BitVec.getLsbD_eq_getElem, BitVec.extractLsb'_append_eq_of_le,
    BitVec.extractLsb'_append_eq_of_add_le, BitVec.getLsbD_append, BitVec.extractLsb'_eq_self]

theorem ofBase_base (r : Raw) : Raw.ofBase r.base r.ext r.lit = r := by
  obtain ⟨f, b, a, d, op, neg, idx, ext, lit⟩ := r
  obtain ⟨hf, hb, ha, hd, hop, hneg, hidx, -⟩ := base_fields f b a d op neg idx (bit1 lit.isSome ++ bit1 ext.isSome)
  exact Raw.mk.injEq .. ▸ ⟨hf, hb, ha, hd, hop, hneg, hidx, rfl, rfl⟩

theorem ofWords_word (x : Ext) : Ext.ofWords x.word x.e1 = x := by
  obtain ⟨res, scope, rel, acq, rnd, sat, xq, qa, xf, e, c, e1⟩ := x
  obtain ⟨hres, hscope, hrel, hacq, hrnd, hsat, hxq, hqa, hxf, he, hc⟩ := word_fields res scope rel acq rnd sat xq qa xf e c
  exact Ext.mk.injEq .. ▸ ⟨hres, hscope, hrel, hacq, hrnd, hsat, hxq, hqa, hxf, he, hc, rfl⟩

theorem len_base (r : Raw) : r.base.extractLsb' 0 2 = r.len := by
  obtain ⟨-, -, -, -, -, -, -, h⟩ := base_fields r.f r.b r.a r.d r.op r.neg r.idx r.len
  exact h

theorem len_bits (b c : Bool) : (bit1 b ++ bit1 c).getLsbD 0 = c ∧ (bit1 b ++ bit1 c).getLsbD 1 = b := by
  revert b c
  decide
theorem getLsbD_len {n : Nat} (w : BitVec n) {i : Nat} (h : i < 2) : w.getLsbD i = (w.extractLsb' 0 2).getLsbD i := by
  rw [BitVec.getLsbD_extractLsb', decide_eq_true h, Bool.true_and, Nat.zero_add]
@[simp] theorem base_ext (r : Raw) : r.base.getLsbD 0 = r.ext.isSome := by
  rw [getLsbD_len _ (by decide), len_base]
  exact (len_bits _ _).1
@[simp] theorem base_lit (r : Raw) : r.base.getLsbD 1 = r.lit.isSome := by
  rw [getLsbD_len _ (by decide), len_base]
  exact (len_bits _ _).2

theorem litWords_append (v : W64) : v.extractLsb' 32 32 ++ v.extractLsb' 0 32 = v := by
  rw [BitVec.extractLsb'_append_extractLsb'_eq_extractLsb' (by decide), BitVec.extractLsb'_eq_self]
theorem litWords_of_append (l h : W32) : litWords (h ++ l) = [l, h] := by
  rw [litWords, BitVec.extractLsb'_append_eq_left, BitVec.extractLsb'_append_eq_right]

theorem bit1_getLsbD {n : Nat} (w : BitVec n) (i : Nat) : bit1 (w.getLsbD i) = w.extractLsb' i 1 := by
  refine BitVec.eq_of_getLsbD_eq fun j hj => ?_
  obtain rfl : j = 0 := by omega
  simp [bit1]

theorem base_ofBase {w : W32} {e : Option Ext} {l : Option W64} (he : e.isSome = w.getLsbD 0) (hl : l.isSome = w.getLsbD 1) :
    (Raw.ofBase w e l).base = w := by
  simp only [Raw.base, Raw.ofBase, Raw.len, he, hl, bit1_getLsbD]
  simp (disch := decide) only [BitVec.extractLsb'_append_extractLsb'_eq_extractLsb', BitVec.extractLsb'_eq_self]
theorem word_ofWords (w e1 : W32) : (Ext.ofWords w e1).word = w := by
  simp only [Ext.ofWords, Ext.word, bit1_getLsbD]
  simp (disch := decide) only [BitVec.extractLsb'_append_extractLsb'_eq_extractLsb', BitVec.extractLsb'_eq_self]

theorem lenWords_bits (l e : Bool) : lenWords (bit1 l ++ bit1 e) = 1 + (if e then 2 else 0) + (if l then 2 else 0) := by
  revert l e
  decide
theorem lenWords_len (r : Raw) : lenWords r.len = r.words.length := by
  rw [Raw.len, lenWords_bits, Raw.words]
  cases r.ext <;> cases r.lit <;> rfl

/-- The fields of an instruction are read back from its words, whatever follows them. -/
theorem ofWords_words (r : Raw) (rest : List W32) : ∃ ws, r.words = r.base :: ws ∧ Raw.ofWords r.base (ws ++ rest) = some r := by
  have hr := ofBase_base r
  have h0 := base_ext r
  have h1 := base_lit r
  unfold Raw.ofWords Raw.words
  rw [h0, h1]
  cases hx : r.ext with
  | none => cases hl : r.lit with
    | none => exact ⟨[], rfl, congrArg some (by rw [← hl, ← hx, hr])⟩
    | some v => exact ⟨litWords v, rfl, congrArg some (by rw [litWords_append, ← hl, ← hx, hr])⟩
  | some x => cases hl : r.lit with
    | none => exact ⟨[x.word, x.e1], rfl, congrArg some (by rw [ofWords_word, ← hl, ← hx, hr])⟩
    | some v => exact ⟨x.word :: x.e1 :: litWords v, rfl, congrArg some (by rw [litWords_append, ofWords_word, ← hl, ← hx, hr])⟩

/-- The words that fields are read from are the words of these fields. -/
theorem words_ofWords {w : W32} {rest : List W32} {r : Raw} (h : Raw.ofWords w rest = some r) :
    lenWords (w.extractLsb' 0 2) = r.words.length ∧ r.words = (w :: rest).take r.words.length := by
  have key : r.base = w ∧ ∃ t, w :: rest = r.words ++ t := by
    unfold Raw.ofWords at h
    split at h
    case h_1 h0 h1 =>
      cases h
      have hb : (Raw.ofBase w none none).base = w := base_ofBase h0.symm h1.symm
      exact ⟨hb, _, congrArg (· :: _) hb.symm⟩
    case h_2 e0 e1 t h0 h1 =>
      cases h
      have hb : (Raw.ofBase w (some (.ofWords e0 e1)) none).base = w := base_ofBase h0.symm h1.symm
      refine ⟨hb, t, ?_⟩
      change _ = [Raw.base _, Ext.word _, e1] ++ t
      rw [hb, word_ofWords]
      rfl
    case h_3 l0 l1 t h0 h1 =>
      cases h
      have hb : (Raw.ofBase w none (some (l1 ++ l0))).base = w := base_ofBase h0.symm h1.symm
      refine ⟨hb, t, ?_⟩
      change _ = Raw.base _ :: litWords _ ++ t
      rw [hb, litWords_of_append]
      rfl
    case h_4 e0 e1 l0 l1 t h0 h1 =>
      cases h
      have hb : (Raw.ofBase w (some (.ofWords e0 e1)) (some (l1 ++ l0))).base = w := base_ofBase h0.symm h1.symm
      refine ⟨hb, t, ?_⟩
      change _ = Raw.base _ :: Ext.word _ :: e1 :: litWords _ ++ t
      rw [hb, word_ofWords, litWords_of_append]
      rfl
    case h_5 => cases h
  obtain ⟨rfl, t, ht⟩ := key
  rw [ht, len_base, lenWords_len, List.take_left]
  exact ⟨rfl, rfl⟩
end Sys2Proof
end

section
/-! SUPPORT. Decoding and encoding agree, in both directions (R48 to R70). -/

namespace Sys2Proof

/-! ### Words to fields to an instruction, and back (R48 to R70) -/

/-- The words of fields are decoded by their fields, whatever follows them. -/
theorem decode_words (r : Raw) (rest : List W32) : decode (r.words ++ rest) = decodeRaw r r.words.length := by
  obtain ⟨ws, hw, hr⟩ := ofWords_words r rest
  rw [← lenWords_len, ← len_base, hw, List.cons_append, decode, hr]

/-- For a word other than ONCE, the decoder answers the instruction of the row whose checks pass. -/
theorem decodeRaw_row {r : Raw} {n m : Nat} {i : Instr} (h : r.op ≠ 0x7F) :
    decodeRaw r n = .ok i m ↔ n = m ∧ ∃ k, rowOf r = some (k, i) ∧ passes k r = true := by
  unfold decodeRaw passes
  rw [if_neg (by simpa using h)]
  split
  case h_1 hr => simp [hr]
  case h_2 k j hr =>
    have key : (n = m ∧ ∃ k, rowOf r = some (k, i) ∧ (checkReserved k r && checkRange k r && checkLiteral k r) = true) ↔
        j = i ∧ n = m ∧ checkReserved k r = true ∧ checkRange k r = true ∧ checkLiteral k r = true := by
      simp [hr, and_assoc, and_left_comm]
    rw [key]
    split_ifs <;> simp_all

/-- The words that decode as ONCE are the one word that encodes it (R67). -/
theorem decodePrefix_ok {r : Raw} {m : Nat} {i : Instr} (hop : r.op = 0x7F) (h : decodePrefix r = .ok i m) :
    m = r.words.length ∧ toRaw i = some r ∧ i.wf = true := by
  obtain ⟨f, b, a, d, op, neg, idx, ext, lit⟩ := r
  unfold decodePrefix at h
  split at h
  case isFalse => cases h
  case isTrue hc =>
    cases h
    simp only [Bool.and_eq_true, beq_iff_eq, decide_eq_true_eq, Bool.not_eq_true'] at hc hop
    obtain ⟨⟨⟨⟨⟨⟨⟨hf, rfl⟩, rfl⟩, rfl⟩, rfl⟩, rfl⟩, rfl⟩, rfl⟩ := hc
    have hb : bit4 (f == 1) = f := bit4_eq (Nat.lt_succ_of_le hf)
    exact ⟨rfl, by rw [toRaw, hb, hop], rfl⟩

/-- What the decoder reads from fields is well-formed and has these fields. -/
theorem toRaw_of_decodeRaw {r : Raw} {m : Nat} {i : Instr} (h : decodeRaw r r.words.length = .ok i m) :
    m = r.words.length ∧ toRaw i = some r ∧ i.wf = true := by
  by_cases hop : r.op = 0x7F
  · have hp : decodePrefix r = .ok i m := by rwa [decodeRaw, if_pos (by simpa using hop)] at h
    exact decodePrefix_ok hop hp
  · obtain ⟨rfl, k, hk, hp⟩ := (decodeRaw_row hop).1 h
    obtain ⟨hm, u⟩ := (passes_iff k r).1 hp
    obtain ⟨hr, hw⟩ := sound_rowOf r k i hk hm u
    exact ⟨rfl, hm ▸ hr, hw⟩

theorem hasWord_eq (i : Instr) : i.hasWord = (toRaw i).isSome := by
  cases i <;> rfl

theorem opIn_of_toRaw {i : Instr} {r : Raw} (h : toRaw i = some r) (lo hi : Nat) :
    i.opIn lo hi = (decide (lo ≤ r.op.toNat) && decide (r.op.toNat < hi)) := by
  rw [Instr.opIn, h]

theorem once_of_op {i : Instr} (h : i.opIn 0x7F 0x80 = true) : ∃ c, i = .once c := by
  cases i
  case once c => exact ⟨c, rfl⟩
  all_goals exact absurd h Bool.false_ne_true

/-- The opcode map, chapter by chapter (R87). -/
theorem reads_of_op_lt {i : Instr} {r : Raw} (hi : toRaw i = some r) (h : r.op.toNat < 0x7F) : Reads i := by
  have key : ∀ lo hi, lo ≤ r.op.toNat → r.op.toNat < hi → i.opIn lo hi = true := fun lo hi' h1 h2 => by
    rw [opIn_of_toRaw hi, decide_eq_true h1, decide_eq_true h2, Bool.and_self]
  by_cases h1 : r.op.toNat < 0x24
  · exact reads_lane i (key _ _ (Nat.zero_le _) h1)
  by_cases h2 : r.op.toNat < 0x3A
  · exact reads_float i (key _ _ (Nat.le_of_not_lt h1) h2)
  by_cases h3 : r.op.toNat < 0x44
  · exact reads_pred i (key _ _ (Nat.le_of_not_lt h2) h3)
  by_cases h4 : r.op.toNat < 0x5E
  · exact reads_scalar i (key _ _ (Nat.le_of_not_lt h3) h4)
  by_cases h5 : r.op.toNat < 0x68
  · exact reads_control i (key _ _ (Nat.le_of_not_lt h4) h5)
  by_cases h6 : r.op.toNat < 0x78
  · exact reads_memory i (key _ _ (Nat.le_of_not_lt h5) h6)
  · exact reads_group i (key _ _ (Nat.le_of_not_lt h6) h)

/-- The decoder reads a well-formed instruction from its fields. -/
theorem decodeRaw_of_toRaw {i : Instr} {r : Raw} (hi : toRaw i = some r) (hw : i.wf = true) :
    decodeRaw r r.words.length = .ok i r.words.length := by
  by_cases h : r.op.toNat < 0x7F
  · obtain ⟨k, hk, hm, u⟩ := reads_of_op_lt hi h r hi hw
    have hop : r.op ≠ 0x7F := fun e => by rw [e] at h; exact absurd h (by decide)
    exact (decodeRaw_row hop).2 ⟨rfl, k, hk, (passes_iff k r).2 ⟨hm, u⟩⟩
  · obtain ⟨c, rfl⟩ := once_of_op (i := i) (by rw [opIn_of_toRaw hi]; simp; omega)
    cases hi
    cases c <;> rfl

theorem decode_encode {i : Instr} (rest : List W32) (hw : i.wf = true) (hh : i.hasWord = true) :
    decode (encode i ++ rest) = .ok i (encode i).length := by
  rw [hasWord_eq] at hh
  obtain ⟨r, hr⟩ := Option.isSome_iff_exists.1 hh
  rw [encode, hr]
  exact (decode_words r rest).trans (decodeRaw_of_toRaw hr hw)

theorem encode_decode {ws : List W32} {i : Instr} {n : Nat} (h : decode ws = .ok i n) :
    i.wf = true ∧ i.hasWord = true ∧ encode i = ws.take n := by
  unfold decode at h
  split at h
  · cases h
  · split at h
    · cases h
    · rename_i r hr
      obtain ⟨hl, ht⟩ := words_ofWords hr
      rw [hl] at h
      obtain ⟨rfl, hi, hw⟩ := toRaw_of_decodeRaw h
      refine ⟨hw, by rw [hasWord_eq, hi]; rfl, ?_⟩
      rw [encode, hi]
      exact ht

end Sys2Proof

namespace Sys2Proof.Machine
open Sys2Proof.Claims

/-- Settles O56: the words of a well-formed instruction hold its fields, from which the decoder finds its row, whose checks pass; and
the fields that pass the checks of a row are those that the encoder writes for the instruction of the row. -/
theorem decodeOfEncode : Obligations.DecodeOfEncode := ⟨fun _ rest hw hh => decode_encode rest hw hh, fun _ _ _ h => encode_decode h⟩

end Sys2Proof.Machine
end

section
/-! SUPPORT. What a home does with an access (R270, R390, R391): the stores that it comes behind, the checks, the write, and the response. -/

namespace Sys2Proof.Machine
open Sys2Proof.Claims

/-! ### Queued stores performed (R171) -/

/-- From s to t queued stores of cells have been performed: only memory and the queues of the cells have changed. -/
structure Settles (s t : State) : Prop where
  only : t = { s with mem := t.mem, cells := t.cells }
  cell : ∀ k, ∃ bankQ, t.cell k = { s.cell k with bankQ }

theorem Settles.refl (s : State) : Settles s s := ⟨rfl, fun _ => ⟨_, rfl⟩⟩

theorem Settles.trans {s t u : State} (h : Settles s t) (g : Settles t u) : Settles s u := by
  refine ⟨by rw [g.only, h.only], fun k => ?_⟩
  obtain ⟨q, hq⟩ := h.cell k
  obtain ⟨r, hr⟩ := g.cell k
  exact ⟨r, by rw [hr, hq]⟩

section
variable {s t : State} (h : Settles s t)
include h

theorem Settles.net : t.net = s.net := by rw [h.only]
theorem Settles.parts : t.parts = s.parts := by rw [h.only]
theorem Settles.clusters : t.clusters = s.clusters := by rw [h.only]

end

theorem settles_settleWhere (s : State) (n : Nat) (need : BankWrite → Bool) : Settles s (s.settleWhere n need) := by
  simp only [State.settleWhere]
  split
  · exact .refl s
  · refine ⟨by rw [performAll_only]; rfl, fun k => ?_⟩
    by_cases hk : k = n
    · exact ⟨_, by rw [hk, State.cell_setCell]⟩
    · exact ⟨(s.cell k).bankQ, by rw [State.cell_setCell_ne _ _ hk, State.cell_of_cells (cells_performAll n _ s)]⟩

theorem settles_settleAsker (s : State) (a : Access) : Settles s (s.settleAsker a) := by
  unfold State.settleAsker
  split
  · exact .refl s
  · exact settles_settleWhere s _ _

theorem settles_settleWord (s : State) (dst : Endp) (a : Access) : Settles s (s.settleWord dst a) := by
  cases dst with
  | cell c => exact settles_settleWhere s c _
  | _ => exact .refl s

/-- Two states with the same memory and the same cells. -/
def SameBytes (s t : State) : Prop := t.mem = s.mem ∧ t.cells = s.cells

theorem SameBytes.settleWhere {s t : State} (h : SameBytes s t) (n : Nat) (need : BankWrite → Bool) :
    SameBytes (s.settleWhere n need) (t.settleWhere n need) := by
  have hc : t.cell n = s.cell n := State.cell_of_cells h.2 n
  simp only [State.settleWhere, hc]
  split
  · exact h
  · exact ⟨mem_performAll n _ h.1, by simp only [State.setCell, cells_performAll, h.2]⟩

theorem SameBytes.settleAsker {s t : State} (h : SameBytes s t) (a : Access) : SameBytes (s.settleAsker a) (t.settleAsker a) := by
  simp only [State.settleAsker]
  split
  · exact h
  · exact h.settleWhere _ _

theorem SameBytes.settleWord {s t : State} (h : SameBytes s t) (dst : Endp) (a : Access) :
    SameBytes (s.settleWord dst a) (t.settleWord dst a) := by
  cases dst with
  | cell c => exact h.settleWhere c _
  | _ => exact h

theorem sameBytes_take (s : State) (i : Nat) : SameBytes s (s.take i) := ⟨rfl, rfl⟩

theorem SameBytes.homeRead {s t : State} (h : SameBytes s t) (dst : Endp) (key n : Nat) : t.homeRead dst key n = s.homeRead dst key n := by
  cases dst <;> simp only [State.homeRead, h.1, State.cell_of_cells h.2]

theorem mem_keepOld (s : State) (n off k : Nat) : (s.keepOld n off k).mem = s.mem := by
  unfold State.keepOld
  split
  · rfl
  · dsimp only
    split
    · split <;> rfl
    · split <;> rfl

theorem net_keepOld (s : State) (n off k : Nat) : (s.keepOld n off k).net = s.net := by
  unfold State.keepOld
  split
  · rfl
  · dsimp only
    split
    · split <;> rfl
    · split <;> rfl

/-- What a write at a home leaves of memory depends on memory and the cells alone. -/
theorem SameBytes.mem_homeWrite {s t : State} (h : SameBytes s t) (dst : Endp) (key n : Nat) (v : W64) :
    (t.homeWrite dst key n v).mem = (s.homeWrite dst key n v).mem := by
  cases dst with
  | cell c =>
    simp only [State.homeWrite]
    split
    · exact h.1
    · exact congrArg (writeLE · key n v.toNat) (by rw [mem_keepOld, mem_keepOld]; exact (h.settleWhere c _).1)
  | peer d => exact h.1
  | _ => exact congrArg (writeLE · key n v.toNat) h.1

theorem net_homeWrite (s : State) (dst : Endp) (key n : Nat) (v : W64) : (s.homeWrite dst key n v).net = s.net := by
  cases dst with
  | cell c =>
    simp only [State.homeWrite]
    split
    · rfl
    · exact (net_keepOld _ c _ n).trans (settles_settleWhere s c _).net
  | _ => rfl

/-! ### The checks (R390, R391, R400, R431) -/

theorem homeOwned_congr {s t : State} (h : t.parts = s.parts) (dst : Endp) (key part : Nat) :
    t.homeOwned dst key part = s.homeOwned dst key part := by
  cases dst <;> simp only [State.homeOwned, State.slabPart, State.partOf, State.clusterPart, h]

theorem poison_congr {s t : State} (h : t.clusters = s.clusters) (dst : Endp) (key : Nat) : t.poison dst key = s.poison dst key := by
  cases dst <;> simp only [State.poison, State.cluster, h]

theorem homeError_gone {a : Access} {c : BitVec 7} (h : a.gone = some c) (s : State) (dst : Endp) (write : Bool) :
    s.homeError dst a write = (some c, s) := by
  simp only [State.homeError, h, Option.isSome_some, if_true]

theorem homeError_foreign {s : State} {dst : Endp} {a : Access} (h : a.gone = none) (ho : s.homeOwned dst a.key a.part = false) (write : Bool) :
    s.homeError dst a write = (some causePartitionViolation, s.violated dst a) := by
  simp only [State.homeError, h, ho, Option.isSome_none, Bool.false_eq_true, if_false, Bool.not_false, if_true]

theorem homeError_clear {s : State} {dst : Endp} {a : Access} (hd : ∀ d, dst ≠ .peer d) (h : a.gone = none)
    (ho : s.homeOwned dst a.key a.part = true) {write : Bool} (hp : write = true ∨ s.poison dst a.key = none) :
    s.homeError dst a write = (none, s) := by
  have hw : (!write && (s.poison dst a.key).isSome) = false := by
    rcases hp with hp | hp <;> simp [hp]
  simp only [State.homeError, h, ho, Option.isSome_none, Bool.false_eq_true, if_false, Bool.not_true, hw]

/-- A violation at a home: memory is as it was, the log has its record, and one fault record has been sent. -/
theorem violated_spec (s : State) (dst : Endp) (a : Access) :
    (s.violated dst a).mem = s.mem ∧ (∃ v, (s.violated dst a).violations.getLast? = some v ∧ v.addr = a.ea ∧ v.part = a.part) ∧
    ∃ r d e, (s.violated dst a).net = s.net ++ [{ vn := .system, src := dst, dst := e, body := .parcel (.record r d) }] ∧
      r.cause = causePartitionViolation := by
  obtain ⟨v, hv, ha, hp⟩ : ∃ v, s.logAtHome dst a = s.logViolation v ∧ v.addr = a.ea ∧ v.part = a.part := ⟨_, rfl, rfl, rfl⟩
  have hlog : (s.logViolation v).mem = s.mem ∧ (s.logViolation v).net = s.net ∧ (s.logViolation v).violations.getLast? = some v := by
    unfold State.logViolation
    split <;> exact ⟨rfl, rfl, List.getLast?_concat⟩
  obtain ⟨r, hr, hc⟩ : ∃ r, s.violated dst a = (s.logViolation v).report a.part dst r ∧ r.cause = causePartitionViolation := by
    exact ⟨_, congrArg (State.report · a.part dst _) hv, rfl⟩
  obtain ⟨hm, -, -, seq, d, e, hn⟩ := reports_report (s.logViolation v) a.part dst r
  have hvs : ((s.logViolation v).report a.part dst r).violations = (s.logViolation v).violations := by
    simp only [State.report]
    split <;> rfl
  rw [hr]
  exact ⟨hm.trans hlog.1, ⟨v, by rw [hvs, hlog.2.2], ha, hp⟩, { r with seq }, d, e, by rw [hn, hlog.2.1], hc⟩

/-! ### The responses (R195, R457) -/

/-- The response to an access, to the cell or the peer that has made it. -/
def Access.reply (a : Access) (home : Endp) (b : Body) : Msg :=
  { vn := .response, src := home, dst := a.asker.getD (.cell a.who.cell), body := b }

/-- An access of a cell or of a peer (R457). -/
def Access.ofMesh (a : Access) : Prop := ∀ e, a.asker = some e → ∃ d, e = .peer d

theorem replyTo_eq {a : Access} (h : a.ofMesh) : a.replyTo = some (a.asker.getD (.cell a.who.cell)) := by
  unfold Access.replyTo
  cases he : a.asker with
  | none => rfl
  | some e =>
    obtain ⟨d, rfl⟩ := h e he
    rfl

theorem replyRead_eq {a : Access} (h : a.ofMesh) (dst : Endp) (v : W64) (bad : Option (BitVec 7)) (deps : List Nat) (s : State) :
    replyRead dst a v bad deps s = s.post (a.reply dst (.readReply a v bad deps)) := by
  rw [replyRead, replyTo_eq h]
  rfl

theorem replyWrite_eq {a : Access} (h : a.ofMesh) (dst : Endp) (bad : Option (BitVec 7)) (s : State) :
    replyWrite dst a bad s = s.post (a.reply dst (.writeAck a bad)) := by
  rw [replyWrite, replyTo_eq h]
  rfl

/-- The acknowledgement of an atomic's write goes to a cell alone. -/
theorem ackAtomic_spec {a : Access} (h : a.ofMesh) (dst : Endp) (s : State) :
    (ackAtomic dst a s).mem = s.mem ∧ (ackAtomic dst a s).net = s.net ++ if a.asker = none then [a.reply dst (.writeAck a none)] else [] := by
  cases he : a.asker with
  | none =>
    rw [ackAtomic, he, replyWrite_eq h, if_pos rfl]
    exact ⟨rfl, rfl⟩
  | some e =>
    rw [if_neg (by simp), ackAtomic, he]
    exact ⟨rfl, (List.append_nil _).symm⟩

/-! ### What an access does, by its operation (R270) -/

/-- What a read acquires. -/
def State.acquires (s : State) (a : Access) : List Nat :=
  match a.acq with
  | some sc => s.depsAt a.key a.size a.who.cell sc
  | none => []

theorem homeDo_read {s t : State} {dst : Endp} {a : Access} {bad : Option (BitVec 7)} (h : a.op = .read)
    (he : (s.settleAsker a).homeError dst a false = (bad, t)) :
    s.homeDo dst a = replyRead dst a (if bad.isSome then 0 else t.homeValue dst a) bad (t.acquires a) (t.performedAt a.who.cell a.id dst) := by
  simp only [State.homeDo, h, he]
  rfl

theorem homeDo_write_failed {s t : State} {dst : Endp} {a : Access} {c : BitVec 7} (h : a.op = .write)
    (he : s.homeError dst a true = (some c, t)) : s.homeDo dst a = replyWrite dst a (some c) t := by
  simp only [State.homeDo, h, he]

theorem homeDo_write {s t : State} {dst : Endp} {a : Access} (h : a.op = .write) (he : s.homeError dst a true = (none, t)) :
    s.homeDo dst a =
      replyWrite dst a none (((t.homeWrite dst a.key a.size a.data).noteRel a.key a.size a.leaves).unpoison dst a.key a.size) := by
  simp only [State.homeDo, h, he]

theorem homeDo_atomic {s t : State} {dst : Endp} {a : Access} {op : AtomOp} {ty : Ty} (h : a.op = .atomic op ty)
    (he : ((s.settleAsker a).settleWord dst a).homeError dst a false = (none, t)) :
    ∃ relDeps, s.homeDo dst a = replyRead dst a (t.homeValue dst a) none (t.acquires a)
      (ackAtomic dst a { t.homeWrite dst a.key a.size (atomNew op ty (t.homeValue dst a) a.data a.cmp) with relDeps }) := by
  simp only [State.homeDo, h, he]
  exact ⟨_, rfl⟩

theorem homeValue_eq {dst : Endp} (hd : ∀ d, dst ≠ .peer d) (s : State) (a : Access) : s.homeValue dst a = s.homeRead dst a.key a.size := by
  cases dst with
  | peer d => exact absurd rfl (hd d)
  | _ => rfl

/-- The atomic operations of R191. -/
theorem atomNew_eq (op : AtomOp) (t : Ty) (m c e : W64) : atomNew op t m c e = atomicValue op t m c e := by
  cases op with
  | cas => simp only [atomNew, atomicValue, beq_iff_eq]; rfl
  | _ => rfl

theorem noteRel_spec (s : State) (key n : Nat) (r : Option RelDep) : (s.noteRel key n r).mem = s.mem ∧ (s.noteRel key n r).net = s.net := by
  unfold State.noteRel
  split <;> exact ⟨rfl, rfl⟩

theorem unpoison_spec (s : State) (dst : Endp) (key n : Nat) :
    (s.unpoison dst key n).mem = s.mem ∧ (s.unpoison dst key n).net = s.net := by
  unfold State.unpoison
  split <;> exact ⟨rfl, rfl⟩

end Sys2Proof.Machine
end

section
/-! The steps of the homes and of their responses (O42). -/

namespace Sys2Proof.Machine
open Sys2Proof.Claims

/-! ### HOME_ACCESS: an access (R270, R390, R391, R400) -/

theorem homeAccess_next {s : State} {i : Nat} {src dst : Endp} {a : Access} (h : Arrives s i src dst (.access a))
    (hd : (∀ d, dst ≠ .peer d) ∨ ∃ d, dst = .peer d ∧ s.portDown d = true) :
    exec (.homeAccess i) s = .next ((s.take i).homeDo dst a) := by
  obtain ⟨vn, he⟩ := arrived_of_arrives h
  simp only [exec, execHomeAccess, he]
  cases dst with
  | peer d =>
    have hp : (s.take i).portDown d = true := by
      rcases hd with hd | ⟨e, hde, hp⟩
      · exact absurd rfl (hd d)
      · cases hde
        exact hp
    simp only [hp, if_true]
    rfl
  | _ => rfl

/-- The state in which an access is performed: a read and an atomic come behind the stores that their context has queued (R273). -/
def State.behind (s : State) (a : Access) : State := if a.op = .write then s else s.settleAsker a

theorem settles_behind (s : State) (a : Access) : Settles s (s.behind a) := by
  unfold State.behind
  split
  · exact .refl s
  · exact settles_settleAsker s a

theorem SameBytes.behind {s t : State} (h : SameBytes s t) (a : Access) : SameBytes (s.behind a) (t.behind a) := by
  unfold State.behind
  split
  · exact h
  · exact h.settleAsker a

theorem behind_write {a : Access} (h : a.op = .write) (s : State) : s.behind a = s := if_pos h

theorem behind_read {a : Access} (h : a.op ≠ .write) (s : State) : s.behind a = s.settleAsker a := if_neg h

/-- From s to t the one thing said to the network is a response to an access, and nothing is performed. -/
structure Responds (a : Access) (home : Endp) (b : Body) (s t : State) : Prop where
  mem : t.mem = s.mem
  violations : t.violations = s.violations
  net : t.net = s.net ++ [a.reply home b]

/-- The response to a read or a write with an error. -/
def Access.failsWith (a : Access) (c : BitVec 7) (b : Body) : Prop := b = .writeAck a (some c) ∨ ∃ d, b = .readReply a 0 (some c) d

section
variable {s : State} {dst : Endp} {a : Access} (hm : a.ofMesh)
include hm

/-- A read or a write that has an error at its home is answered with it. -/
theorem homeDo_failed {c : BitVec 7} {t : State} (hop : a.op = .read ∨ a.op = .write)
    (he : ∀ w, (s.behind a).homeError dst a w = (some c, t)) : ∃ b, a.failsWith c b ∧ Responds a dst b t (s.homeDo dst a) := by
  rcases hop with hop | hop
  · have he' := he false
    rw [behind_read (by simp [hop])] at he'
    rw [homeDo_read hop he', replyRead_eq hm]
    exact ⟨_, .inr ⟨_, rfl⟩, rfl, rfl, rfl⟩
  · have he' := he true
    rw [behind_write hop] at he'
    rw [homeDo_write_failed hop he', replyWrite_eq hm]
    exact ⟨_, .inl rfl, rfl, rfl, rfl⟩

/-- One whose translation has been taken away changes nothing (R400). -/
theorem homeDo_gone (i : Nat) {c : BitVec 7} (hop : a.op = .read ∨ a.op = .write) (hg : a.gone = some c) :
    ((s.take i).homeDo dst a).mem = (s.behind a).mem ∧
    ∃ b, ((s.take i).homeDo dst a).net = (s.take i).net ++ [a.reply dst b] ∧ a.failsWith c b := by
  obtain ⟨b, hb, hr⟩ := homeDo_failed (s := s.take i) (dst := dst) hm hop fun w => homeError_gone hg _ dst w
  exact ⟨hr.mem.trans ((sameBytes_take s i).behind a).1, b, by rw [hr.net, (settles_behind _ a).net], hb⟩

/-- One at a home of another partition changes nothing, is logged and reported (R390, R391). -/
theorem homeDo_foreign (i : Nat) (hop : a.op = .read ∨ a.op = .write) (hg : a.gone = none) (ho : s.homeOwned dst a.key a.part = false) :
    let t := (s.take i).homeDo dst a
    t.mem = (s.behind a).mem ∧ (∃ v, t.violations.getLast? = some v ∧ v.addr = a.ea ∧ v.part = a.part) ∧
    (∃ r d e, ({ vn := .system, src := dst, dst := e, body := .parcel (.record r d) } : Msg) ∈ t.net ∧
      r.cause = causePartitionViolation) ∧
    ∃ b, t.net.getLast? = some (a.reply dst b) ∧ a.failsWith causePartitionViolation b := by
  have ho' : ((s.take i).behind a).homeOwned dst a.key a.part = false :=
    (homeOwned_congr (settles_behind (s.take i) a).parts dst a.key a.part).trans ho
  obtain ⟨b, hb, hr⟩ := homeDo_failed hm hop fun w => homeError_foreign hg ho' w
  obtain ⟨h1, hv, r, d, e, hn, hc⟩ := violated_spec ((s.take i).behind a) dst a
  refine ⟨hr.mem.trans (h1.trans ((sameBytes_take s i).behind a).1), by rw [hr.violations]; exact hv, ⟨r, d, e, ?_, hc⟩, b, ?_, hb⟩
  · rw [hr.net, hn]
    exact List.mem_append_left _ (List.mem_append_right _ List.mem_cons_self)
  · rw [hr.net, List.getLast?_concat]

section
variable (i : Nat) (hd : ∀ d, dst ≠ .peer d) (hg : a.gone = none) (ho : s.homeOwned dst a.key a.part = true)
include hd hg ho

/-- A read returns the bytes that the stores queued before it have left (R270, R273). -/
theorem homeDo_read_clear (hop : a.op = .read) (hp : s.poison dst a.key = none) :
    ((s.take i).homeDo dst a).mem = (s.behind a).mem ∧ ∃ deps, ((s.take i).homeDo dst a).net = (s.take i).net ++
      [a.reply dst (.readReply a ((s.behind a).homeRead dst a.key a.size) none deps)] := by
  have hset := settles_settleAsker (s.take i) a
  have hb := (sameBytes_take s i).settleAsker a
  have he := homeError_clear (s := (s.take i).settleAsker a) (write := false) hd hg
    ((homeOwned_congr hset.parts dst a.key a.part).trans ho) (.inr ((poison_congr hset.clusters dst a.key).trans hp))
  rw [behind_read (by simp [hop]), homeDo_read hop he, replyRead_eq hm, ← hb.homeRead dst, ← homeValue_eq hd]
  exact ⟨hb.1, _, congrArg (· ++ _) hset.net⟩

/-- A write writes its bytes. -/
theorem homeDo_write_clear (hop : a.op = .write) :
    ((s.take i).homeDo dst a).net = (s.take i).net ++ [a.reply dst (.writeAck a none)] ∧
    ((s.take i).homeDo dst a).mem = (s.homeWrite dst a.key a.size a.data).mem := by
  have he := homeError_clear (s := s.take i) (write := true) hd hg ho (.inl rfl)
  let v := (s.take i).homeWrite dst a.key a.size a.data
  obtain ⟨n1, n2⟩ := noteRel_spec v a.key a.size a.leaves
  obtain ⟨p1, p2⟩ := unpoison_spec (v.noteRel a.key a.size a.leaves) dst a.key a.size
  rw [homeDo_write hop he, replyWrite_eq hm]
  exact ⟨congrArg (· ++ _) (p2.trans (n2.trans (net_homeWrite _ dst _ _ _))),
    p1.trans (n1.trans ((sameBytes_take s i).mem_homeWrite dst _ _ _))⟩

/-- An atomic comes behind the queued ATOMs of its word, and writes over what they leave there (R191, R192). -/
theorem homeDo_atomic_clear {op : AtomOp} {ty : Ty} (hop : a.op = .atomic op ty) (hp : s.poison dst a.key = none) :
    let w := (s.behind a).settleWord dst a
    ((s.take i).homeDo dst a).mem =
      (w.homeWrite dst a.key a.size (atomicValue op ty (w.homeRead dst a.key a.size) a.data a.cmp)).mem ∧
    ∃ deps, ((s.take i).homeDo dst a).net = (s.take i).net ++
      (if a.asker = none then [a.reply dst (.writeAck a none)] else []) ++
      [a.reply dst (.readReply a (w.homeRead dst a.key a.size) none deps)] := by
  intro w
  let w' := ((s.take i).settleAsker a).settleWord dst a
  have hset : Settles (s.take i) w' := (settles_settleAsker _ a).trans (settles_settleWord _ dst a)
  have hw : w = (s.settleAsker a).settleWord dst a := by
    show (s.behind a).settleWord dst a = _
    rw [behind_read (by simp [hop])]
  have hb : SameBytes w w' := by
    rw [hw]
    exact ((sameBytes_take s i).settleAsker a).settleWord dst a
  have he := homeError_clear (s := w') (write := false) hd hg
    ((homeOwned_congr hset.parts dst a.key a.part).trans ho) (.inr ((poison_congr hset.clusters dst a.key).trans hp))
  obtain ⟨relDeps, hdo⟩ := homeDo_atomic hop he
  obtain ⟨k1, k2⟩ := ackAtomic_spec hm dst
    { w'.homeWrite dst a.key a.size (atomNew op ty (w'.homeValue dst a) a.data a.cmp) with relDeps }
  rw [hdo, replyRead_eq hm, ← hb.homeRead dst, ← homeValue_eq hd, ← atomNew_eq]
  refine ⟨k1.trans (hb.mem_homeWrite dst _ _ _), _, congrArg (· ++ _) (k2.trans ?_)⟩
  exact congrArg (· ++ _) ((net_homeWrite w' dst _ _ _).trans hset.net)

end
end

/-! ### HOME_ACCESS: the writes of the loader (R84, R288) -/

theorem codeWrite_spec {s : State} {i n key : Nat} {src : Endp} {b : List Byte} (h : Arrives s i src (.cell n) (.codeWrite key b)) :
    Happens (exec (.homeAccess i) s) fun t =>
      t.mem = writeBytes (s.settleAtoms n (key % 2 ^ 20) b.length).mem key b ∧ t.net = (s.take i).net := by
  obtain ⟨vn, he⟩ := arrived_of_arrives h
  simp only [exec, execHomeAccess, he]
  refine happens_event ⟨congrArg (writeBytes · key b) ?_, ?_⟩
  · rw [mem_keepOld]
    exact ((sameBytes_take s i).settleWhere n _).1
  · exact (net_keepOld _ n _ _).trans (settles_settleWhere (s.take i) n _).net

theorem mem_insertEntry {r x : EntryRec} {l : List EntryRec} : r ∈ insertEntry x l ↔ r = x ∨ r ∈ l := by
  induction l with
  | nil => simp [insertEntry]
  | cons e l ih =>
    rw [insertEntry]
    split
    · exact List.mem_cons
    · rw [List.mem_cons, List.mem_cons, ih, or_left_comm]

theorem mem_foldl_insertEntry {r : EntryRec} (xs l : List EntryRec) :
    r ∈ xs.foldl (fun es x => insertEntry x es) l ↔ r ∈ xs ∨ r ∈ l := by
  induction xs generalizing l with
  | nil => simp
  | cons x xs ih => rw [List.foldl_cons, ih, mem_insertEntry, List.mem_cons, ← or_assoc, or_comm (a := r ∈ xs)]

theorem tget_foldl_tset_ne {α : Type} (d : α) (l : List (Nat × α)) {k : Nat} (h : ∀ y ∈ l, y.1 ≠ k) (t : Tbl α) :
    tget d (l.foldl (fun t y => tset t y.1 y.2) t) k = tget d t k := by
  induction l generalizing t with
  | nil => rfl
  | cons y l ih =>
    rw [List.foldl_cons, ih fun z hz => h z (List.mem_cons_of_mem _ hz), tget_tset_ne _ _ _ (h y List.mem_cons_self).symm]

theorem cellTables_spec {s : State} {i n : Nat} {src : Endp} {z : CellTables} (h : Arrives s i src (.cell n) (.cellTables z)) :
    Happens (exec (.homeAccess i) s) fun t => InCell s t n ∧ t.net = (s.take i).net ∧
      (∀ r, r ∈ (t.cell n).entries ↔ r ∈ z.entries ∨ r ∈ (s.cell n).entries ∧ r.entry ∈ z.kept) ∧
      ∀ k, (∀ y ∈ z.handlers, y.1 ≠ k) → (t.cell n).handler k = (s.cell n).handler k := by
  obtain ⟨vn, he⟩ := arrived_of_arrives h
  simp only [exec, execHomeAccess, he]
  refine happens_event ⟨⟨rfl, fun k hk => State.cell_setCell_ne _ _ hk⟩, rfl, fun r => ?_, fun k hk => ?_⟩
  · rw [State.cell_setCell, Cell.withTables, mem_foldl_insertEntry, List.mem_filter, List.contains_iff_mem]
    rfl
  · rw [State.cell_setCell]
    exact tget_foldl_tset_ne 0 z.handlers hk _

end Sys2Proof.Machine
end

section
/-! SUPPORT. Responses at a cell: an entry of a queue, an error latched, and a write acknowledged (R172, R183, R195). -/

namespace Sys2Proof.Machine
open Sys2Proof.Claims

/-! ### Masks of lanes -/

/-- The sum of the powers of two that a test picks below n has the bits that it picks. -/
theorem testBit_foldl_two_pow (p : Nat → Bool) (n : Nat) :
    (List.range n).foldl (fun a i => if p i then a + 2 ^ i else a) 0 < 2 ^ n ∧
    ∀ k < n, ((List.range n).foldl (fun a i => if p i then a + 2 ^ i else a) 0).testBit k = p k := by
  induction n with
  | zero => exact ⟨Nat.one_pos, fun k hk => absurd hk (Nat.not_lt_zero k)⟩
  | succ n ih =>
    obtain ⟨hlt, hbit⟩ := ih
    rw [List.range_succ, List.foldl_append]
    generalize (List.range n).foldl (fun a i => if p i then a + 2 ^ i else a) 0 = x at hlt hbit
    have h2 : 2 ^ (n + 1) = 2 ^ n + 2 ^ n := by rw [Nat.pow_succ]; omega
    simp only [List.foldl_cons, List.foldl_nil]
    cases hp : p n with
    | false =>
      refine ⟨by simp; omega, fun k hk => ?_⟩
      rcases Nat.lt_succ_iff_lt_or_eq.1 hk with hk | rfl
      · simpa using hbit k hk
      · simpa [hp] using Nat.testBit_lt_two_pow hlt
    | true =>
      refine ⟨by simp; omega, fun k hk => ?_⟩
      rw [if_pos rfl, Nat.add_comm]
      rcases Nat.lt_succ_iff_lt_or_eq.1 hk with hk | rfl
      · rw [Nat.testBit_two_pow_add_gt hk, hbit k hk]
      · rw [Nat.testBit_two_pow_add_eq, Nat.testBit_lt_two_pow hlt, hp]
        rfl

theorem getLsbD_maskOf (p : Nat → Bool) {L : Nat} (h : L < 32) : (maskOf p).getLsbD L = p L := by
  simp only [maskOf, BitVec.getLsbD_ofNat, h, decide_true, Bool.true_and]
  exact (testBit_foldl_two_pow p 32).2 L h

/-! ### QUEUE_RESPONSE (R172, R174, R175) -/

/-- An entry that has received the response of one lane. -/
structure Received (e : QEntry) (a : Access) (v : W64) (bad : Option (BitVec 7)) (e' : QEntry) : Prop where
  id : e'.id = e.id
  awaited : e'.awaited = e.awaited - 1
  value : match bad with
    | none => if e.scalar then e'.value = v else a.lane < 32 → lane e'.lanes a.lane = v.extractLsb' 0 32
    | some _ => e'.tag = .poison ∧ ∀ L < 32, e'.badLanes.getLsbD L = (e.badLanes.getLsbD L || decide (L = a.lane))

theorem received_got (e : QEntry) (a : Access) (v : W64) (bad : Option (BitVec 7)) : Received e a v bad (e.got a v bad false) := by
  cases bad with
  | none =>
    cases hs : e.scalar with
    | true =>
      simp only [QEntry.got, hs, if_true]
      exact ⟨rfl, rfl, by simp only [hs, if_true]⟩
    | false =>
      simp only [QEntry.got, hs, Bool.false_eq_true, if_false]
      refine ⟨rfl, rfl, ?_⟩
      simp only [hs, Bool.false_eq_true, if_false]
      intro hl
      rw [lane_mkLanes _ hl, if_pos rfl]
      rfl
  | some c =>
    refine ⟨rfl, rfl, rfl, fun L hL => ?_⟩
    simp only [QEntry.got, BitVec.getLsbD_or, getLsbD_maskOf _ hL]
    rfl

/-- The entry that a response is for has received it. -/
theorem response_entry {x : Ctx} {a : Access} {v : W64} {bad : Option (BitVec 7)} {e : QEntry} (h : e ∈ (tget {} x.qs a.q).entries)
    (hid : e.id = a.id) (hw : e.awaited ≠ 0) :
    ∃ e' ∈ (tget {} (x.response a v bad).qs a.q).entries, Received e a v bad e' := by
  refine ⟨e.got a v bad false, ?_, received_got e a v bad⟩
  simp only [Ctx.response, tget_tset]
  exact List.mem_map.2 ⟨e, h, by simp [hid, hw]⟩

/-- What a context acquires does not change its queues. -/
theorem acquired_spec (s : State) (w : Who) (l : List Nat) :
    (s.acquired w l).mem = s.mem ∧ (s.acquired w l).net = s.net ∧ ((s.acquired w l).ctx w).qs = (s.ctx w).qs := by
  simp only [State.acquired]
  split
  · exact ⟨rfl, rfl, rfl⟩
  · exact ⟨rfl, rfl, by rw [State.ctx_setCtx]⟩

/-! ### Errors latched (R183) -/

theorem ctx_tmap (c : Cell) (f : Ctx → Ctx) (hf : f {} = {}) (k : Nat) (d : Option Ctx) :
    ({ c with ctxs := tmap (fun _ x => f x) c.ctxs, displaced := d } : Cell).ctx k = f (c.ctx k) :=
  tget_tmap_of_default ({} : Ctx) (fun _ x => f x) c.ctxs k hf

theorem ctx_performedAt (s : State) (n id : Nat) (home : Endp) (k : Nat) :
    (s.performedAt n id home).ctx ⟨n, k⟩ = (s.ctx ⟨n, k⟩).performed id home := by
  simp only [State.performedAt, State.ctx, State.cell_setCell]
  exact ctx_tmap (s.cell n) (fun x => x.performed id home) rfl k _

/-- What a performed access leaves of its context but the list of what is still out. -/
theorem performed_only (x : Ctx) (id : Nat) (home : Endp) : ∃ out, x.performed id home = { x with out } := by
  unfold Ctx.performed
  split
  · exact ⟨_, rfl⟩
  · exact ⟨x.out, rfl⟩

theorem latchOrReport_ctx {s : State} {n act k : Nat} (h : (s.ctx ⟨n, k⟩).holds act = true) (cause : BitVec 7) (addr : W64) :
    let t := s.latchOrReport n act cause addr
    t.mem = s.mem ∧ t.net = s.net ∧ t.ctx ⟨n, k⟩ = (s.ctx ⟨n, k⟩).latch cause addr := by
  have hany : (s.cell n).ctxs.any (fun x => x.2.holds act) = true := by
    have hfree : ({} : Ctx).holds act = false := Bool.and_false _
    obtain ⟨y, hy⟩ := Option.ne_none_iff_exists'.1 (find?_ne_none_of_tget (f := fun x : Ctx => x.holds act) hfree h)
    exact List.any_eq_true.2 ⟨y, List.mem_of_find?_eq_some hy, List.find?_some (p := fun e : Nat × Ctx => e.2.holds act) hy⟩
  let f : Ctx → Ctx := fun x => if x.holds act then x.latch cause addr else x
  have hf : f {} = {} := if_neg (by simp [Ctx.holds])
  simp only [State.latchOrReport, hany, Bool.true_or, if_true]
  refine ⟨rfl, rfl, ?_⟩
  simp only [State.ctx, State.cell_setCell]
  rw [ctx_tmap (s.cell n) f hf k _]
  exact if_pos h

/-! ### Writes acknowledged (R195, R277) -/

theorem findIdx_go_split {α : Type} {p : α → Bool} {o : α} (ho : p o = true) (l1 l2 : List α) (h : ∀ y ∈ l1, p y = false) (m : Nat) :
    findIdx.go p m (l1 ++ o :: l2) = some (m + l1.length, o) := by
  induction l1 generalizing m with
  | nil => exact if_pos ho
  | cons y l1 ih =>
    rw [List.cons_append, findIdx.go, if_neg (by simp [h y List.mem_cons_self]), ih (fun z hz => h z (List.mem_cons_of_mem _ hz)),
      List.length_cons]
    congr 2
    omega

theorem delAt_split {α : Type} (l1 : List α) (o : α) (l2 : List α) : delAt (l1 ++ o :: l2) l1.length = l1 ++ l2 := by
  induction l1 with
  | nil => rfl
  | cons y l1 ih => exact congrArg (y :: ·) ih

theorem performed_split {x : Ctx} {id : Nat} {home : Endp} {l1 l2 : List Pending} {o : Pending} (h : x.out = l1 ++ o :: l2)
    (hid : o.id = id) (hh : o.home = home) (hne : ∀ y ∈ l1, ¬ (y.id = id ∧ y.home = home)) : (x.performed id home).out = l1 ++ l2 := by
  have hf : findIdx (fun o => o.id == id && o.home == home) x.out = some (0 + l1.length, o) := by
    rw [h]
    refine findIdx_go_split (by simp [hid, hh]) l1 l2 (fun y hy => ?_) 0
    simpa using hne y hy
  rw [Nat.zero_add] at hf
  simp only [Ctx.performed, hf]
  rw [h, delAt_split]

end Sys2Proof.Machine
end

section
/-! The steps of the homes and of their responses, put together (O42). -/

namespace Sys2Proof.Machine
open Sys2Proof.Claims

/-! ### The responses (R172, R175, R183, R195) -/

/-- A response whose activation stands in its context goes into the entry that it is for (R172). -/
theorem queueResponse_held {s : State} {i c : Nat} {src : Endp} {a : Access} {v : W64} {bad : Option (BitVec 7)} {deps : List Nat}
    (h : Arrives s i src (.cell c) (.readReply a v bad deps)) (hx : (s.ctx a.who).act = a.act ∧ (s.ctx a.who).status ≠ .free) :
    Happens (exec (.queueResponse i) s) fun t => t.mem = s.mem ∧ t.net = (s.take i).net ∧
      ∀ e ∈ (tget {} (s.ctx a.who).qs a.q).entries, e.id = a.id → e.awaited ≠ 0 →
        ∃ e' ∈ (tget {} (t.ctx a.who).qs a.q).entries, Received e a (extendTo a.ty v.toNat) bad e' := by
  obtain ⟨vn, he⟩ := arrived_of_arrives h
  have hg : (((s.take i).ctx a.who).act == a.act && ((s.take i).ctx a.who).status != .free) = true := by
    rw [Bool.and_eq_true, beq_iff_eq, bne_iff_ne]
    exact hx
  simp only [exec, execQueueResponse, he, if_pos hg]
  let t := (s.take i).setCtx a.who ((s.ctx a.who).response a (extendTo a.ty v.toNat) bad)
  have ht : t.ctx a.who = (s.ctx a.who).response a (extendTo a.ty v.toNat) bad := State.ctx_setCtx _ _ _
  obtain ⟨q1, q2, q3⟩ := acquired_spec t a.who deps
  split
  · refine happens_event (t := t.acquired a.who deps) ⟨q1, q2, fun e hm hid hw => ?_⟩
    rw [q3, ht]
    exact response_entry hm hid hw
  · refine happens_event (t := t) ⟨rfl, rfl, fun e hm hid hw => ?_⟩
    rw [ht]
    exact response_entry hm hid hw

/-- One whose activation has ended is discarded (R175). -/
theorem queueResponse_gone {s : State} {i c : Nat} {src : Endp} {a : Access} {v : W64} {bad : Option (BitVec 7)} {deps : List Nat}
    (h : Arrives s i src (.cell c) (.readReply a v bad deps)) (hx : ¬ ((s.ctx a.who).act = a.act ∧ (s.ctx a.who).status ≠ .free)) :
    exec (.queueResponse i) s = .next (s.take i) := by
  obtain ⟨vn, he⟩ := arrived_of_arrives h
  have hg : ¬ (((s.take i).ctx a.who).act == a.act && ((s.take i).ctx a.who).status != .free) = true := by
    rw [Bool.and_eq_true, beq_iff_eq, bne_iff_ne]
    exact hx
  simp only [exec, execQueueResponse, he, if_neg hg]
  rfl

theorem stxErrorResponse_spec {s : State} {i c k : Nat} {src : Endp} {a : Access} {cause : BitVec 7}
    (h : Arrives s i src (.cell c) (.writeAck a (some cause))) (ha : (s.ctx ⟨a.who.cell, k⟩).act = a.act)
    (hf : (s.ctx ⟨a.who.cell, k⟩).status ≠ .free) :
    Happens (exec (.stxErrorResponse i) s) fun t => t.mem = s.mem ∧ t.net = (s.take i).net ∧
      ∃ out, t.ctx ⟨a.who.cell, k⟩ = ({ s.ctx ⟨a.who.cell, k⟩ with out } : Ctx).latch cause a.ea := by
  obtain ⟨vn, he⟩ := arrived_of_arrives h
  simp only [exec, execStxErrorResponse, he]
  let u := (s.take i).performedAt a.who.cell a.id src
  obtain ⟨out, ho⟩ := performed_only (s.ctx ⟨a.who.cell, k⟩) a.id src
  have hu : u.ctx ⟨a.who.cell, k⟩ = { s.ctx ⟨a.who.cell, k⟩ with out } := (ctx_performedAt (s.take i) a.who.cell a.id src k).trans ho
  have hh : (u.ctx ⟨a.who.cell, k⟩).holds a.act = true := by
    rw [hu, Ctx.holds, Bool.and_eq_true, beq_iff_eq, bne_iff_ne]
    exact ⟨ha, hf⟩
  obtain ⟨h1, h2, h3⟩ := latchOrReport_ctx hh cause a.ea
  exact happens_event ⟨h1, h2, out, by rw [h3, hu]⟩

theorem writeAcknowledgement_spec {s : State} {i c : Nat} {src : Endp} {a : Access} (h : Arrives s i src (.cell c) (.writeAck a none))
    (hop : ∀ slot k, a.op ≠ .engineWrite slot k) :
    Happens (exec (.writeAcknowledgement i) s) fun t => t.mem = s.mem ∧ t.net = (s.take i).net ∧
      ∀ k, t.ctx ⟨a.who.cell, k⟩ = (s.ctx ⟨a.who.cell, k⟩).performed a.id src := by
  obtain ⟨vn, he⟩ := arrived_of_arrives h
  simp only [exec, execWriteAcknowledgement, he]
  exact happens_event ⟨rfl, rfl, ctx_performedAt (s.take i) a.who.cell a.id src⟩

theorem writeAcknowledgement_engine {s : State} {i c slot k : Nat} {src : Endp} {a : Access}
    (h : Arrives s i src (.cell c) (.writeAck a none)) (hop : a.op = .engineWrite slot k) :
    exec (.writeAcknowledgement i) s = .next ((s.take i).engineDone a.who.cell slot k) := by
  obtain ⟨vn, he⟩ := arrived_of_arrives h
  simp only [exec, execWriteAcknowledgement, he, hop]
  rfl

/-! ### Errors that a home or a cell corrects or meets (R431) -/

theorem mem_report (s : State) (pn : Nat) (src : Endp) (r : Frec) : (s.report pn src r).mem = s.mem := (reports_report s pn src r).1

theorem cells_report (s : State) (pn : Nat) (src : Endp) (r : Frec) : (s.report pn src r).cells = s.cells := (reports_report s pn src r).2.1

theorem clusters_report (s : State) (pn : Nat) (src : Endp) (r : Frec) : (s.report pn src r).clusters = s.clusters := by
  simp only [State.report]
  split <;> rfl

theorem reportLimited_spec (s : State) (pn : Nat) (src : Endp) (r : Frec) :
    (s.reportLimited pn src r).mem = s.mem ∧ (s.reportLimited pn src r).cells = s.cells ∧
    (s.reportLimited pn src r).clusters = s.clusters ∧
    (tget 0 s.sentAt (64 * (128 * src.code + r.cause.toNat) + pn) = 0 →
      Reports s (s.reportLimited pn src r) r.cause fun r' => r'.tbc = r.tbc) := by
  simp only [State.reportLimited]
  split
  · rename_i h
    refine ⟨rfl, rfl, rfl, fun h0 => ?_⟩
    simp [h0] at h
  · let u : State := { s with
      sentAt := tset s.sentAt (64 * (128 * src.code + r.cause.toNat) + pn) (s.tbc + 1)
      heldBack := tset s.heldBack (64 * (128 * src.code + r.cause.toNat) + pn) 0 }
    let r' : Frec := { r with count := count32 (r.count.toNat + tget 0 s.heldBack (64 * (128 * src.code + r.cause.toNat) + pn)) }
    obtain ⟨h1, h2, -, seq, d, dst, h4⟩ := reports_report u pn src r'
    exact ⟨h1, h2, clusters_report u pn src r', fun _ => ⟨{ r' with seq }, d, src, dst, h4, rfl, rfl⟩⟩

theorem hbmError_corrected {s : State} {pa : Nat} (hb : s.boot = .ready) (hpa : pa < 192 * 2 ^ 32) :
    Happens (exec (.hbmError pa true) s) fun t => t.mem = s.mem ∧ t.clusters = s.clusters ∧ t.cells = s.cells := by
  have hk : pa / 2 ^ 32 < 192 := Nat.div_lt_of_lt_mul (by rwa [Nat.mul_comm])
  simp only [exec, execHbmError, hb, hk, beq_self_eq_true, decide_true, Bool.and_self, if_true]
  refine happens_event ?_
  split
  · obtain ⟨h1, h2, h3, -⟩ := reportLimited_spec s _ (.home (pa / 2 ^ 32)) { s.recAt _ none causeHbmCorrected 3 with addr := BitVec.ofNat 64 pa }
    exact ⟨h1, h3, h2⟩
  · exact ⟨rfl, rfl, rfl⟩

/-- A line poisoned anew has no byte that has been written since. -/
theorem poison_setCluster (s : State) (k pa : Nat) (c : Cluster) :
    (s.setCluster k { c with poisoned := (c.poisoned.filter fun y => y.1 != pa / 64) ++ [(pa / 64, 0)] }).poison (.home k) pa = some 0 := by
  have hn : (c.poisoned.filter fun y => y.1 != pa / 64).find? (fun y => y.1 == pa / 64) = none :=
    List.find?_eq_none.2 fun y hy => by simpa using (List.mem_filter.1 hy).2
  simp only [State.poison, State.cluster, State.setCluster, tget_tset, List.find?_append, hn, Option.none_or]
  simp

theorem hbmError_poisons {s : State} {pa : Nat} (hb : s.boot = .ready) (hpa : pa < 192 * 2 ^ 32) :
    Happens (exec (.hbmError pa false) s) fun t => t.mem = s.mem ∧ t.cells = s.cells ∧ t.poison (.home (pa / 2 ^ 32)) pa = some 0 := by
  have hk : pa / 2 ^ 32 < 192 := Nat.div_lt_of_lt_mul (by rwa [Nat.mul_comm])
  simp only [exec, execHbmError, hb, hk, beq_self_eq_true, decide_true, Bool.and_self, if_true, Bool.false_eq_true, if_false]
  refine happens_event ⟨?_, ?_, poison_setCluster _ _ _ _⟩
  · rw [State.setCluster_mem]
    split
    · split
      · rw [mem_report]
      · rfl
    · rfl
  · rw [State.setCluster_cells]
    split
    · split
      · rw [cells_report]
      · rfl
    · rfl

theorem scratchCorrected_spec {s : State} {n pn : Nat} (h : s.partOf n = some pn) :
    Happens (exec (.scratchCorrected n) s) fun t => t.mem = s.mem ∧ t.cells = s.cells ∧
      (tget 0 s.sentAt (64 * (128 * n + 0x50) + pn) = 0 → Reports s t causeScratchCorrected fun r => r.tbc = BitVec.ofNat 64 s.tbc) := by
  simp only [exec, execScratchCorrected, h, Option.map_some]
  obtain ⟨h1, h2, -, h4⟩ := reportLimited_spec s pn (.cell n) (s.recAt pn (some n) causeScratchCorrected 1)
  exact happens_event ⟨h1, h2, h4⟩

/-! ### The statement -/

/-- Settles O42: each step by its own lemma, and an access by its operation and what its home finds. -/
theorem homeSteps : Obligations.HomeSteps := by
  unfold Obligations.HomeSteps
  intro s i src dst a u behind w reply
  refine ⟨fun h hd => ⟨⟨_, homeAccess_next h hd⟩, fun hm => ⟨fun c hg hop => ?_, fun hg ho hop => ?_,
      fun hp hg ho => ⟨fun hop hs => ?_, fun hop => ?_, fun op ty hop hs => ?_⟩⟩⟩,
    fun n key b h => codeWrite_spec h, fun n z h => cellTables_spec h, fun c v bad deps h => ?_,
    fun c cause k h ha hf => ?_, fun c h hop => ?_, fun c slot k h hop => writeAcknowledgement_engine h hop,
    fun pa hb hpa => ⟨hbmError_corrected hb hpa, hbmError_poisons hb hpa⟩, fun n pn h => scratchCorrected_spec h⟩
  · obtain ⟨h1, b, h2, h3⟩ := homeDo_gone (dst := dst) hm i hop hg
    exact ⟨_, homeAccess_next h hd, h1, b, h2, h3⟩
  · exact ⟨_, homeAccess_next h hd, homeDo_foreign hm i hop hg ho⟩
  · exact ⟨_, homeAccess_next h hd, homeDo_read_clear hm i hp hg ho hop hs⟩
  · exact ⟨_, homeAccess_next h hd, homeDo_write_clear hm i hp hg ho hop⟩
  · exact ⟨_, homeAccess_next h hd, homeDo_atomic_clear hm i hp hg ho hop hs⟩
  · by_cases hx : (s.ctx a.who).act = a.act ∧ (s.ctx a.who).status ≠ .free
    · obtain ⟨t, ht, h1, h2, h3⟩ := queueResponse_held h hx
      refine ⟨t, ht, h1, h2, ?_⟩
      show if _ then _ else _
      rw [if_pos hx]
      intro e he hid hw
      obtain ⟨e', hm, hr⟩ := h3 e he hid hw
      have hv := hr.value
      exact ⟨e', hm, hr.id.trans hid, hr.awaited, by cases bad <;> exact hv⟩
    · refine ⟨_, queueResponse_gone h hx, rfl, rfl, ?_⟩
      show if _ then _ else _
      rw [if_neg hx]
  · obtain ⟨t, ht, h1, h2, out, h3⟩ := stxErrorResponse_spec h ha hf
    refine ⟨t, ht, h1, h2, ?_⟩
    rw [h3]
    cases hl : (s.ctx ⟨a.who.cell, k⟩).latched with
    | none => simp only [Ctx.latch, hl, and_self]
    | some l => simp only [Ctx.latch, hl, and_self]
  · obtain ⟨t, ht, h1, h2, h3⟩ := writeAcknowledgement_spec h hop
    exact ⟨t, ht, h1, h2, fun k l1 l2 o ho hid hh hne => by rw [h3 k]; exact performed_split ho hid hh hne⟩

end Sys2Proof.Machine
end

section
/-! SUPPORT. How a host command is taken and answered (R405): the registers of its function, and what an answer leaves as it was. -/

namespace Sys2Proof.Machine
open Sys2Proof.Claims

/-! ### The registers of a function -/

@[simp] theorem State.bar_setBar (s : State) (fn off : Nat) (v : W64) : (s.setBar fn off v).bar fn off = v := by
  simp only [State.bar, State.setBar, tget_tset]

theorem State.bar_setBar_ne (s : State) (fn : Nat) {off k : Nat} (v : W64) (h : k ≠ off) : (s.setBar fn off v).bar fn k = s.bar fn k := by
  simp only [State.bar, State.setBar, tget_tset, tget_tset_ne _ _ _ h]

/-- A write to CMD0 leaves the parameters. -/
theorem cmd_setBar (s : State) (fn : Nat) (v : W64) {k : Nat} (h : k ≠ 0) : (s.setBar fn 0 v).cmd fn k = s.cmd fn k :=
  State.bar_setBar_ne s fn v (by omega)

theorem setRsp_only (fn : Nat) (l : List W64) (k : Nat) (s : State) : ∃ bars, setRsp fn k l s = { s with bars } := by
  induction l generalizing k s with
  | nil => exact ⟨_, rfl⟩
  | cons v l ih =>
    obtain ⟨bars, h⟩ := ih (k + 1) (s.setBar fn (0x40 + 8 * k) v)
    exact ⟨bars, h⟩

theorem bar_setRsp_below (fn : Nat) (l : List W64) {k j : Nat} (h : j < k) (s : State) :
    (setRsp fn k l s).bar fn (0x40 + 8 * j) = s.bar fn (0x40 + 8 * j) := by
  induction l generalizing k s with
  | nil => rfl
  | cons v l ih => rw [setRsp, ih (Nat.lt_succ_of_lt h), State.bar_setBar_ne _ _ _ (by omega)]

/-- Response doubleword j holds what stands at place j of the list. -/
theorem bar_setRsp (fn : Nat) {l : List W64} {j : Nat} {v : W64} (h : l[j]? = some v) (k : Nat) (s : State) :
    (setRsp fn k l s).bar fn (0x40 + 8 * (k + j)) = v := by
  induction l generalizing k j s with
  | nil => cases h
  | cons x l ih =>
    cases j with
    | zero =>
      cases h
      show (setRsp fn (k + 1) l (s.setBar fn (0x40 + 8 * k) v)).bar fn (0x40 + 8 * k) = v
      rw [bar_setRsp_below fn l (Nat.lt_add_one k), State.bar_setBar]
    | succ j =>
      rw [setRsp, show k + (j + 1) = k + 1 + j by omega]
      exact ih h (k + 1) _

theorem respond_only (s : State) (fn : Nat) (tag : W32) (status : Nat) (results : List W64) :
    ∃ bars, s.respond fn tag status results = { s with bars } := setRsp_only fn _ 0 s

theorem bar_respond_status (s : State) (fn : Nat) (tag : W32) (status : Nat) (results : List W64) :
    (s.respond fn tag status results).bar fn 0x40 = tag ++ BitVec.ofNat 32 status := bar_setRsp fn (j := 0) rfl 0 s

theorem bar_respond_result (s : State) (fn : Nat) (tag : W32) (status : Nat) {results : List W64} {k : Nat} {v : W64}
    (h : results[k]? = some v) (hk : k < 7) : (s.respond fn tag status results).bar fn (0x48 + 8 * k) = v := by
  have hl : ((tag ++ BitVec.ofNat 32 status : W64) :: (results ++ List.replicate 7 0).take 7)[k + 1]? = some v := by
    rw [List.getElem?_cons_succ, List.getElem?_take_of_lt hk, List.getElem?_append_left (List.getElem?_eq_some_iff.1 h).1, h]
  have hb := bar_setRsp fn hl 0 s
  rw [show 0x40 + 8 * (0 + (k + 1)) = 0x48 + 8 * k by omega] at hb
  exact hb

/-- An answer changes response registers, the interrupts and the command in flight. -/
theorem answer_only (s : State) (fn : Nat) (tag : W32) (status : Nat) (results : List W64) :
    ∃ bars, s.answer fn tag status results = { s with bars, irqs := s.irqs ++ [(fn, 0)], cmds := tset s.cmds fn {} } := by
  obtain ⟨bars, h⟩ := respond_only s fn tag status results
  exact ⟨bars, by rw [State.answer, h]⟩

section
variable (s : State) (fn : Nat) (tag : W32) (status : Nat) (results : List W64)

@[simp] theorem State.answer_mem : (s.answer fn tag status results).mem = s.mem := by
  obtain ⟨_, h⟩ := answer_only s fn tag status results
  rw [h]
@[simp] theorem State.answer_cells : (s.answer fn tag status results).cells = s.cells := by
  obtain ⟨_, h⟩ := answer_only s fn tag status results
  rw [h]
@[simp] theorem State.answer_parts : (s.answer fn tag status results).parts = s.parts := by
  obtain ⟨_, h⟩ := answer_only s fn tag status results
  rw [h]
@[simp] theorem State.answer_net : (s.answer fn tag status results).net = s.net := by
  obtain ⟨_, h⟩ := answer_only s fn tag status results
  rw [h]
@[simp] theorem State.answer_invals : (s.answer fn tag status results).invals = s.invals := by
  obtain ⟨_, h⟩ := answer_only s fn tag status results
  rw [h]
@[simp] theorem State.answer_irqs : (s.answer fn tag status results).irqs = s.irqs ++ [(fn, 0)] := by
  obtain ⟨_, h⟩ := answer_only s fn tag status results
  rw [h]
@[simp] theorem State.answer_part (pn : Nat) : (s.answer fn tag status results).part pn = s.part pn := by
  rw [State.part, State.answer_parts, State.part]
@[simp] theorem State.answer_cell (n : Nat) : (s.answer fn tag status results).cell n = s.cell n := by
  rw [State.cell, State.answer_cells, State.cell]
@[simp] theorem State.answer_inFlight : (s.answer fn tag status results).inFlight fn = {} := by
  obtain ⟨_, h⟩ := answer_only s fn tag status results
  rw [h, State.inFlight, tget_tset]

theorem bar_answer_result {k : Nat} {v : W64} (h : results[k]? = some v) (hk : k < 7) :
    (s.answer fn tag status results).bar fn (0x48 + 8 * k) = v := bar_respond_result s fn tag status h hk

end

/-- What is said of an answered command, of a state that has the interrupts of the one before. -/
theorem answered_answer {s t : State} {fn : Fn} {cmd0 : W64} {status : Nat} {results : List W64} (h : t.irqs = s.irqs)
    (hl : results.length ≤ 7) :
    Answered s (t.answer (Fn.num fn) (cmd0.extractLsb' 32 32) status results) fn cmd0 status results :=
  ⟨by rw [State.answer_irqs, h], State.answer_inFlight _ _ _ _ _, bar_respond_status t _ _ status results,
    fun _ _ hk => bar_respond_result t _ _ status hk (Nat.lt_of_lt_of_le (List.getElem?_eq_some_iff.1 hk).1 hl)⟩

/-- A command that is accepted: its response says that it is in flight, and what it waits for. -/
def State.accepted (s : State) (fn : Fn) (cmd0 : W64) (w : CmdWait) : State :=
  { s.respond (Fn.num fn) (cmd0.extractLsb' 32 32) 0xFFFF [] with
    cmds := tset s.cmds (Fn.num fn) { tag := cmd0.extractLsb' 32 32, wait := w } }

theorem accepted_only (s : State) (fn : Fn) (cmd0 : W64) (w : CmdWait) :
    ∃ bars cmds, s.accepted fn cmd0 w = { s with bars, cmds } := by
  obtain ⟨bars, h⟩ := respond_only s (Fn.num fn) (cmd0.extractLsb' 32 32) 0xFFFF []
  exact ⟨bars, _, by rw [State.accepted, h]⟩

section
variable (s : State) (fn : Fn) (cmd0 : W64) (w : CmdWait)

@[simp] theorem State.accepted_mem : (s.accepted fn cmd0 w).mem = s.mem := by
  obtain ⟨_, _, h⟩ := accepted_only s fn cmd0 w
  rw [h]
@[simp] theorem State.accepted_cells : (s.accepted fn cmd0 w).cells = s.cells := by
  obtain ⟨_, _, h⟩ := accepted_only s fn cmd0 w
  rw [h]
@[simp] theorem State.accepted_part (pn : Nat) : (s.accepted fn cmd0 w).part pn = s.part pn := by
  obtain ⟨_, _, h⟩ := accepted_only s fn cmd0 w
  rw [h]
  rfl
@[simp] theorem State.accepted_net : (s.accepted fn cmd0 w).net = s.net := by
  obtain ⟨_, _, h⟩ := accepted_only s fn cmd0 w
  rw [h]
@[simp] theorem State.accepted_invals : (s.accepted fn cmd0 w).invals = s.invals := by
  obtain ⟨_, _, h⟩ := accepted_only s fn cmd0 w
  rw [h]
@[simp] theorem State.accepted_irqs : (s.accepted fn cmd0 w).irqs = s.irqs := by
  obtain ⟨_, _, h⟩ := accepted_only s fn cmd0 w
  rw [h]
@[simp] theorem State.accepted_inFlight :
    (s.accepted fn cmd0 w).inFlight (Fn.num fn) = { tag := cmd0.extractLsb' 32 32, wait := w } := tget_tset _ _ _ _

end

theorem accepted_accepted {s t : State} {fn : Fn} {cmd0 : W64} {w : CmdWait} (h : t.irqs = s.irqs) :
    Accepted s (t.accepted fn cmd0 w) fn cmd0 w := by
  have hbar : (t.accepted fn cmd0 w).bar (Fn.num fn) 0x40 = (t.respond (Fn.num fn) (cmd0.extractLsb' 32 32) 0xFFFF []).bar (Fn.num fn) 0x40 := rfl
  exact ⟨by rw [State.accepted_irqs, h], State.accepted_inFlight _ _ _ _, by rw [hbar, bar_respond_status]; rfl⟩

/-- The state that a command comes to, by what its row comes to. -/
def Cmd.ends (fn : Fn) (cmd0 : W64) (s : State) : Cmd → State
  | .fail st => s.answer (Fn.num fn) (cmd0.extractLsb' 32 32) st []
  | .done r t => t.answer (Fn.num fn) (cmd0.extractLsb' 32 32) stDone r
  | .wait w t => t.accepted fn cmd0 w

/-! ### A command taken -/

/-- The state in which a command acts: CMD0 has been written. -/
def State.taken (s : State) (fn : Fn) (cmd0 : W64) : State := s.setBar (Fn.num fn) 0 (cmd0Kept cmd0)

section
variable {s : State} {fn : Fn} {cmd0 : W64} {sh : CmdShape} {sel : State → Bool}
  (h : Taken s fn cmd0 sh.opcode sh.masks sh.vf sh.target) (hsel : sel s = true)
include h

theorem turnedAway_of_taken : (s.taken fn cmd0).turnedAway fn cmd0 sh = none := by
  obtain ⟨hb, -, -, hres, -, hmask, hvf, htarget⟩ := h
  have hclear : (s.taken fn cmd0).reservedClear (Fn.num fn) sh.masks = true :=
    List.all_eq_true.2 fun k hk => by
      rw [State.taken, cmd_setBar _ _ _ (Nat.succ_ne_zero k), beq_iff_eq]
      exact hmask k (List.mem_range.1 hk)
  have hv : (fn != .pf && cmd0.extractLsb' 16 8 != 0) = false ∧ (fn != .pf && !sh.vf) = false := by
    by_cases hf : fn = .pf
    · simp [hf]
    · simp [hvf hf]
  have ht : (sh.target && !(decide (cmdPart fn cmd0 < 48) && (s.part (cmdPart fn cmd0)).open_)) = false := by
    cases hx : sh.target with
    | false => rfl
    | true => simp [htarget hx]
  have hboot : (s.taken fn cmd0).boot = .ready := hb
  have hpart : (s.taken fn cmd0).part (cmdPart fn cmd0) = s.part (cmdPart fn cmd0) := rfl
  simp only [State.turnedAway, hboot, hpart, hres, hclear, hv, ht]
  rfl

include hsel

/-- A command that is taken does what its row does (R405). -/
theorem command_of_taken (name : String) (run : Nat → State → Cmd) :
    command name sh fn cmd0 s sel run =
      event name (some ((run (cmdPart fn cmd0) (s.taken fn cmd0)).ends fn cmd0 (s.taken fn cmd0))) := by
  have hturn := turnedAway_of_taken h
  obtain ⟨-, hacc, hop, -, hwait, -⟩ := h
  have hw : ((s.taken fn cmd0).inFlight (Fn.num fn)).wait = .none := hwait
  simp only [command, hacc, hop, hsel, beq_self_eq_true, Bool.and_self, if_true]
  rw [State.taken] at hturn hw ⊢
  simp only [hw, hturn, bne_self_eq_false, Bool.false_eq_true, if_false]
  generalize run (cmdPart fn cmd0) (s.setBar (Fn.num fn) 0 (cmd0Kept cmd0)) = c
  cases c <;> rfl

/-- One that is done answers DONE. -/
theorem happens_done {name : String} {run : Nat → State → Cmd} {results : List W64} {t : State} {P : State → Prop}
    (hr : run (cmdPart fn cmd0) (s.taken fn cmd0) = .done results t)
    (hP : P (t.answer (Fn.num fn) (cmd0.extractLsb' 32 32) 0 results)) : Happens (command name sh fn cmd0 s sel run) P := by
  rw [command_of_taken h hsel, hr]
  exact ⟨_, rfl, hP⟩

/-- One that waits is in flight. -/
theorem happens_wait {name : String} {run : Nat → State → Cmd} {w : CmdWait} {t : State} {P : State → Prop}
    (hr : run (cmdPart fn cmd0) (s.taken fn cmd0) = .wait w t) (hP : P (t.accepted fn cmd0 w)) :
    Happens (command name sh fn cmd0 s sel run) P := by
  rw [command_of_taken h hsel, hr]
  exact ⟨_, rfl, hP⟩

end

end Sys2Proof.Machine
end

section
/-! The commands that change a record of a partition, an ASID or a mapping, and those that write to the host (O51). -/

namespace Sys2Proof.Machine
open Sys2Proof.Claims

/-- Messages sent one after another. -/
theorem foldl_post {α : Type} (f : α → Msg) (l : List α) (s : State) :
    l.foldl (fun s x => s.post (f x)) s = { s with net := s.net ++ l.map f } := by
  induction l generalizing s with
  | nil => simp only [List.foldl_nil, List.map_nil, List.append_nil]
  | cons x l ih =>
    rw [List.foldl_cons, ih]
    simp only [State.post, List.map_cons, List.append_assoc, List.singleton_append]

/-- From s to t an invalidation has begun (R400): memory, the cells, the partitions and the interrupts are as they were. -/
structure Invalidates (s t : State) (asid : BitVec 12) (page : Option (W64 × Nat)) (after : After) : Prop where
  mem : t.mem = s.mem
  cells : t.cells = s.cells
  parts : t.parts = s.parts
  irqs : t.irqs = s.irqs
  begun : ∃ z ∈ t.invals, z.asid = asid ∧ z.page = page ∧ z.after = after ∧ z.waiting = invalParties

theorem invalidates_invalidate (s : State) (asid : BitVec 12) (page : Option (W64 × Nat)) (after : After) :
    Invalidates s (s.invalidate asid page after) asid page after := by
  simp only [State.invalidate, foldl_post]
  exact ⟨rfl, rfl, rfl, rfl, _, List.mem_append_right _ List.mem_cons_self, rfl, rfl, rfl, rfl⟩

section
variable {s : State} {fn : Fn} {cmd0 : W64}

theorem cmd_taken (s : State) (fn : Fn) (cmd0 : W64) {k : Nat} (h : k ≠ 0) : (s.taken fn cmd0).cmd (Fn.num fn) k = s.cmd (Fn.num fn) k :=
  cmd_setBar s _ _ h

/-- A command that no virtual function may give comes from the physical one. -/
theorem eq_pf_of_taken {opcode : Nat} {masks : List W64} {target : Bool} (h : Taken s fn cmd0 opcode masks false target) : fn = .pf := by
  obtain ⟨-, -, -, -, -, -, hvf, -⟩ := h
  by_contra hf
  exact Bool.false_ne_true (hvf hf).1

/-! ### Partitions (R367, R408, R410, R423) -/

theorem rail_railReached (s : State) (r pn : Nat) : ((s.railReached r).part pn).rail = (s.part pn).rail := by
  simp only [State.part, State.railReached]
  rw [tget_tmap_of_default ({} : Part) _ s.parts pn rfl]
  split
  · split <;> rfl
  · rfl

theorem partSetRail_spec (h : Taken s fn cmd0 0x0003 [3] false true) (hr : (s.part (cmdPart fn cmd0)).running = [])
    (hp : (s.part (cmdPart fn cmd0)).gov.inForce ≤ s.rail (s.cmd (Fn.num fn) 1).toNat) :
    Happens (exec (.partSetRail fn cmd0) s) fun t =>
      Answered s t fn cmd0 0 [] ∧ t.mem = s.mem ∧ t.cells = s.cells ∧
      (t.part (cmdPart fn cmd0)).rail = (s.cmd (Fn.num fn) 1).toNat := by
  obtain rfl := eq_pf_of_taken h
  have hc : (s.taken .pf cmd0).cmd 0 1 = s.cmd 0 1 := cmd_taken s .pf cmd0 Nat.one_ne_zero
  have hp' : ¬ (s.taken .pf cmd0).rail (s.cmd 0 1).toNat < (s.part (cmdPart .pf cmd0)).gov.inForce := Nat.not_lt.2 hp
  have hrun : ((s.taken .pf cmd0).part (cmdPart .pf cmd0)).running.isEmpty = true := List.isEmpty_iff.2 hr
  simp only [exec, execPartSetRail]
  refine happens_done h rfl (results := []) (t := (s.taken .pf cmd0).connectRail (cmdPart .pf cmd0) (s.cmd 0 1).toNat) ?_
    ⟨answered_answer rfl (Nat.zero_le _), ?_⟩
  · simp only [hc, hrun, Bool.not_true, Bool.false_eq_true, if_false]
    exact if_neg hp'
  · rw [State.answer_mem, State.answer_cells, State.answer_part]
    refine ⟨rfl, rfl, ?_⟩
    rw [State.connectRail, rail_railReached, State.part_setPart]
    rfl

/-- From s to t records have been sent: memory, the cells, the interrupts and the fault servers are as they were. -/
structure Notifies (s t : State) : Prop where
  mem : t.mem = s.mem
  cells : t.cells = s.cells
  irqs : t.irqs = s.irqs
  server : ∀ j, (t.part j).faultSrv = (s.part j).faultSrv

theorem Notifies.refl (s : State) : Notifies s s := ⟨rfl, rfl, rfl, fun _ => rfl⟩

theorem Notifies.trans {s t u : State} (h : Notifies s t) (g : Notifies t u) : Notifies s u :=
  ⟨g.mem.trans h.mem, g.cells.trans h.cells, g.irqs.trans h.irqs, fun j => (g.server j).trans (h.server j)⟩

theorem Notifies.foldl {α : Type} {f : State → α → State} (h : ∀ s a, Notifies s (f s a)) (l : List α) (s : State) :
    Notifies s (l.foldl f s) := by
  induction l generalizing s with
  | nil => exact .refl s
  | cons a l ih => exact (h s a).trans (ih _)

theorem notifies_report (s : State) (pn : Nat) (src : Endp) (r : Frec) : Notifies s (s.report pn src r) := by
  refine ⟨mem_report s pn src r, cells_report s pn src r, ?_, fun j => ?_⟩
  · simp only [State.report]
    split <;> rfl
  · simp only [State.report]
    split
    · show ((s.setPart pn { s.part pn with seq := (s.part pn).seq + 1 }).part j).faultSrv = _
      by_cases hj : j = pn
      · rw [hj, State.part_setPart]
      · rw [State.part_setPart_ne _ _ hj]
    · rfl

theorem notifies_resendTraps (s : State) (pn : Nat) : Notifies s (s.resendTraps pn) :=
  .foldl (fun t n => .foldl (fun u _ => notifies_report u pn (.cell n) _) _ t) _ s

theorem partSetFaultsrv_spec (h : Taken s fn cmd0 0x0004 [all64] true true) :
    Happens (exec (.partSetFaultsrv fn cmd0) s) fun t =>
      Answered s t fn cmd0 0 [(s.part (cmdPart fn cmd0)).faultSrv] ∧ t.mem = s.mem ∧ t.cells = s.cells ∧
      (t.part (cmdPart fn cmd0)).faultSrv = s.cmd (Fn.num fn) 1 := by
  let pn := cmdPart fn cmd0
  let u := (s.taken fn cmd0).setPart pn { s.part pn with faultSrv := (s.taken fn cmd0).cmd (Fn.num fn) 1 }
  have hn := notifies_resendTraps u pn
  simp only [exec, execPartSetFaultsrv]
  refine happens_done h rfl (results := [(s.part pn).faultSrv]) (t := u.resendTraps pn) rfl ⟨answered_answer hn.irqs (by simp), ?_⟩
  rw [State.answer_mem, State.answer_cells, State.answer_part, hn.server, State.part_setPart]
  exact ⟨hn.mem, hn.cells, cmd_taken s fn cmd0 Nat.one_ne_zero⟩

section
variable (h : Taken s fn cmd0 0x0005 [1, all64] false true) (hd : (s.part (cmdPart fn cmd0)).dumpOk (s.cmd (Fn.num fn) 2).toNat = true)
  (hb : (s.cmd (Fn.num fn) 1).getLsbD 0 = false)
include h hd hb

theorem partPreempt_waits {u : State} {P : State → Prop}
    (hc : (s.part (cmdPart fn cmd0)).cut = .none ∧
        u = (s.taken fn cmd0).setPart (cmdPart fn cmd0) { s.part (cmdPart fn cmd0) with cut := .closing } ∨
      (s.part (cmdPart fn cmd0)).cutting = true ∧ u = s.taken fn cmd0)
    (hP : P (u.accepted fn cmd0 (.preemptSoon (cmdPart fn cmd0) (s.cmd (Fn.num fn) 2).toNat))) : Happens (exec (.partPreempt fn cmd0) s) P := by
  obtain rfl := eq_pf_of_taken h
  have h2 : (s.taken .pf cmd0).cmd 0 2 = s.cmd 0 2 := cmd_taken s .pf cmd0 (by decide)
  have hp : (s.taken .pf cmd0).part (cmdPart .pf cmd0) = s.part (cmdPart .pf cmd0) := rfl
  have hd' : (s.part (cmdPart .pf cmd0)).dumpOk (s.cmd 0 2).toNat = true := hd
  simp only [exec, execPartPreempt]
  refine happens_wait h (by rw [hb]; rfl) ?_ hP
  simp only [h2, hp, hd', Bool.not_true, Bool.false_eq_true, if_false]
  rcases hc with ⟨hc, rfl⟩ | ⟨hc, rfl⟩
  · have hn : (s.part (cmdPart .pf cmd0)).cutting = false := by rw [Part.cutting, hc]
    simp only [hc, hn, bne_self_eq_false, Bool.false_and, Bool.false_eq_true, if_false]
    rfl
  · simp only [hc, Bool.not_true, Bool.and_false, Bool.false_eq_true, if_false, if_true]
    rfl

theorem partPreempt_closes (hc : (s.part (cmdPart fn cmd0)).cut = .none) :
    Happens (exec (.partPreempt fn cmd0) s) fun t =>
      Accepted s t fn cmd0 (.preemptSoon (cmdPart fn cmd0) (s.cmd (Fn.num fn) 2).toNat) ∧ t.mem = s.mem ∧ t.cells = s.cells ∧
      (t.part (cmdPart fn cmd0)).cut = .closing := by
  refine partPreempt_waits h hd hb (.inl ⟨hc, rfl⟩) ⟨accepted_accepted rfl, ?_⟩
  rw [State.accepted_mem, State.accepted_cells, State.accepted_part, State.part_setPart]
  exact ⟨rfl, rfl, rfl⟩

theorem partPreempt_joins (hc : (s.part (cmdPart fn cmd0)).cutting = true) :
    Happens (exec (.partPreempt fn cmd0) s) fun t =>
      Accepted s t fn cmd0 (.preemptSoon (cmdPart fn cmd0) (s.cmd (Fn.num fn) 2).toNat) ∧ t.mem = s.mem ∧ t.cells = s.cells ∧
      (t.part (cmdPart fn cmd0)).cut = (s.part (cmdPart fn cmd0)).cut := by
  refine partPreempt_waits h hd hb (.inr ⟨hc, rfl⟩) ⟨accepted_accepted rfl, ?_⟩
  rw [State.accepted_mem, State.accepted_cells, State.accepted_part]
  exact ⟨rfl, rfl, rfl⟩

end

/-! ### ASIDs and mappings (R398 to R401, R406) -/

/-- A partition with the record of an ASID replaced. -/
def Part.withAsid (p : Part) (a : Nat) (x : Asid) : Part := { p with asids := tset p.asids a (some x) }

theorem tget_withAsid (p : Part) (a : Nat) (x : Asid) : tget none (p.withAsid a x).asids a = some x := tget_tset _ _ _ _

theorem asidAlloc_spec {a : Nat} (h : Taken s fn cmd0 0x0101 [all64, 1, all64] true true)
    (ha : (s.cmd (Fn.num fn) 1).toNat % 0x10000 = 0) (ho : (s.part (cmdPart fn cmd0)).ownsRange (s.cmd (Fn.num fn) 1).toNat 0x10000 = true)
    (hw : (s.cmd (Fn.num fn) 2).getLsbD 0 = true → (s.part (cmdPart fn cmd0)).ownsPa (s.cmd (Fn.num fn) 3).toNat = true)
    (hf : s.freeAsid (s.part (cmdPart fn cmd0)) = some a) :
    Happens (exec (.asidAlloc fn cmd0) s) fun t => Answered s t fn cmd0 0 [BitVec.ofNat 64 a] ∧ t.mem = s.mem ∧ t.cells = s.cells ∧
      tget none (t.part (cmdPart fn cmd0)).asids a =
        some ⟨(s.cmd (Fn.num fn) 1).toNat, (s.cmd (Fn.num fn) 2).getLsbD 0, (s.cmd (Fn.num fn) 3).toNat, false⟩ := by
  have h1 := cmd_taken s fn cmd0 (k := 1) (by decide)
  have h2 := cmd_taken s fn cmd0 (k := 2) (by decide)
  have h3 := cmd_taken s fn cmd0 (k := 3) (by decide)
  have hp : (s.taken fn cmd0).part (cmdPart fn cmd0) = s.part (cmdPart fn cmd0) := rfl
  have hfree : (s.taken fn cmd0).freeAsid (s.part (cmdPart fn cmd0)) = some a := hf
  have hw' : ((s.cmd (Fn.num fn) 2).getLsbD 0 && !(s.part (cmdPart fn cmd0)).ownsPa (s.cmd (Fn.num fn) 3).toNat) = false := by
    cases hx : (s.cmd (Fn.num fn) 2).getLsbD 0 with
    | false => rfl
    | true => rw [hw hx]; rfl
  simp only [exec, execAsidAlloc]
  refine happens_done h rfl (results := [BitVec.ofNat 64 a]) (t := (s.taken fn cmd0).setPart (cmdPart fn cmd0)
    ((s.part (cmdPart fn cmd0)).withAsid a
      ⟨(s.cmd (Fn.num fn) 1).toNat, (s.cmd (Fn.num fn) 2).getLsbD 0, (s.cmd (Fn.num fn) 3).toNat, false⟩)) ?_
    ⟨answered_answer rfl (by simp), ?_⟩
  · simp only [h1, h2, h3, hp, ha, ho, hw', hfree, bne_self_eq_false, Bool.not_true, Bool.or_self, Bool.false_eq_true, if_false]
    rfl
  · rw [State.answer_mem, State.answer_cells, State.answer_part, State.part_setPart, tget_withAsid]
    exact ⟨rfl, rfl, rfl⟩

theorem asidRelease_spec {x : Asid} (h : Taken s fn cmd0 0x0102 [0xFFF] true true)
    (hx : tget none (s.part (cmdPart fn cmd0)).asids (s.cmd (Fn.num fn) 1).toNat = some x) (hq : x.quarantine = false)
    (hb : (s.cmd (Fn.num fn) 1).toNat ≠ (s.part (cmdPart fn cmd0)).asidBase)
    (hm : ∀ m ∈ (s.part (cmdPart fn cmd0)).cells, (s.cell m).casid.toNat ≠ (s.cmd (Fn.num fn) 1).toNat) :
    Happens (exec (.asidRelease fn cmd0) s) fun t => Answered s t fn cmd0 0 [] ∧ t.mem = s.mem ∧ t.cells = s.cells ∧
      tget none (t.part (cmdPart fn cmd0)).asids (s.cmd (Fn.num fn) 1).toNat = some { x with quarantine := true } ∧
      ∃ z ∈ t.invals, z.asid = (s.cmd (Fn.num fn) 1).extractLsb' 0 12 ∧ z.after = .asidFree (s.cmd (Fn.num fn) 1).toNat ∧
        z.waiting = invalParties := by
  have h1 := cmd_taken s fn cmd0 (k := 1) (by decide)
  have hp : (s.taken fn cmd0).part (cmdPart fn cmd0) = s.part (cmdPart fn cmd0) := rfl
  have hbase : ((s.cmd (Fn.num fn) 1).toNat == (s.part (cmdPart fn cmd0)).asidBase) = false := beq_eq_false_iff_ne.2 hb
  have hfree : ((s.part (cmdPart fn cmd0)).cells.any fun m => ((s.taken fn cmd0).cell m).casid.toNat == (s.cmd (Fn.num fn) 1).toNat) = false :=
    List.any_eq_false.2 fun m hmem => by rw [beq_iff_eq]; exact hm m hmem
  let u := (s.taken fn cmd0).setPart (cmdPart fn cmd0)
    ((s.part (cmdPart fn cmd0)).withAsid (s.cmd (Fn.num fn) 1).toNat { x with quarantine := true })
  have hi := invalidates_invalidate u (BitVec.ofNat 12 (s.cmd (Fn.num fn) 1).toNat) none (.asidFree (s.cmd (Fn.num fn) 1).toNat)
  obtain ⟨z, hz, hasid, -, hafter, hwait⟩ := hi.begun
  simp only [exec, execAsidRelease]
  refine happens_done h rfl (results := [])
    (t := u.invalidate (BitVec.ofNat 12 (s.cmd (Fn.num fn) 1).toNat) none (.asidFree (s.cmd (Fn.num fn) 1).toNat)) ?_
    ⟨answered_answer hi.irqs (Nat.zero_le _), ?_⟩
  · simp only [h1, hp, hx, hq, hbase, hfree, Bool.or_self, Bool.false_eq_true, if_false]
    rfl
  · rw [State.answer_mem, State.answer_cells, State.answer_part, State.answer_invals, hi.mem, hi.cells, State.part, hi.parts]
    refine ⟨rfl, rfl, ?_, z, hz, hasid.trans (BitVec.eq_of_toNat_eq (by simp)), hafter, hwait⟩
    show tget none (u.part _).asids _ = _
    rw [State.part_setPart, tget_withAsid]

theorem written_only (s : State) (pa n : Nat) : ∃ clusters, s.written pa n = { s with clusters } := by
  simp only [State.written]
  split <;> exact ⟨_, rfl⟩

section
variable (s : State) (pa : Nat) (e : W64)

@[simp] theorem State.setEntry_mem : (s.setEntry pa e).mem = writeLE s.mem pa 8 e.toNat := by
  obtain ⟨_, h⟩ := written_only { s with mem := writeLE s.mem (hbmKey pa) 8 e.toNat } pa 8
  rw [State.setEntry, State.hbmWrite, h]
  rfl
@[simp] theorem State.setEntry_cells : (s.setEntry pa e).cells = s.cells := by
  obtain ⟨_, h⟩ := written_only { s with mem := writeLE s.mem (hbmKey pa) 8 e.toNat } pa 8
  rw [State.setEntry, State.hbmWrite, h]
@[simp] theorem State.setEntry_parts : (s.setEntry pa e).parts = s.parts := by
  obtain ⟨_, h⟩ := written_only { s with mem := writeLE s.mem (hbmKey pa) 8 e.toNat } pa 8
  rw [State.setEntry, State.hbmWrite, h]
@[simp] theorem State.setEntry_irqs : (s.setEntry pa e).irqs = s.irqs := by
  obtain ⟨_, h⟩ := written_only { s with mem := writeLE s.mem (hbmKey pa) 8 e.toNat } pa 8
  rw [State.setEntry, State.hbmWrite, h]

end

/-- One page mapped: its leaf is written, and its invalidation begins (R400, R406). -/
theorem mapPages_one {s : State} {p : Part} {asid : BitVec 12} {va size pa : Nat} (h : s.leafOf p asid va size = some pa) (e : W64) (fn : Nat) :
    mapPages p asid e va size fn [0] s =
      (s.setEntry pa (leafAt e size 0)).invalidate asid (some (BitVec.ofNat 64 va, size)) (.memMapDone fn) := by
  simp only [mapPages, Nat.zero_mul, Nat.add_zero, h]

theorem memMap_spec {pa : Nat} (h : Taken s fn cmd0 0x0103 [0xFFF, all64, all64, 0x3FFFFFFFF] true true) :
    let n := Fn.num fn
    let c := s.cmd n
    let p := s.part (cmdPart fn cmd0)
    let asid := (c 1).extractLsb' 0 12
    let size := ((c 4).extractLsb' 32 2).toNat
    (c 4).extractLsb' 0 32 = 1 → p.asidOk asid = true → p.romAsid asid = true → size ≤ 2 → s.leafOf p asid (c 2).toNat size = some pa →
    p.mayMap (leafAt (c 3) size 0) = true → Happens (exec (.memMap fn cmd0) s) fun t =>
      Accepted s t fn cmd0 (.mapping 1 1) ∧ t.cells = s.cells ∧ t.mem = writeLE s.mem pa 8 (leafAt (c 3) size 0).toNat ∧
      ∃ z ∈ t.invals, z.asid = asid ∧ z.page = some (c 2, size) ∧ z.after = .memMapDone n ∧ z.waiting = invalParties := by
  intro n c p asid size hcount hok hrom hsize hleaf hmay
  have hc : ∀ k, k ≠ 0 → (s.taken fn cmd0).cmd (Fn.num fn) k = c k := fun k hk => cmd_taken s fn cmd0 hk
  have hleaf' : (s.taken fn cmd0).leafOf p asid (c 2).toNat size = some pa := hleaf
  have hp : (s.taken fn cmd0).part (cmdPart fn cmd0) = p := rfl
  have hone : ((c 4).extractLsb' 0 32).toNat = 1 := by rw [hcount]; rfl
  have hpages : (List.range 1).any (fun i => ((s.taken fn cmd0).leafOf p asid ((c 2).toNat + i * pageBytes size) size).isNone ||
      !p.mayMap (leafAt (c 3) size i)) = false := by
    simp [hleaf', hmay]
  have hbad : (!p.asidOk asid || !p.romAsid asid || decide (2 < size) || (List.range 1).any (fun i =>
      ((s.taken fn cmd0).leafOf p asid ((c 2).toNat + i * pageBytes size) size).isNone || !p.mayMap (leafAt (c 3) size i))) = false := by
    rw [hpages, hok, hrom, decide_eq_false (Nat.not_lt.2 hsize)]
    rfl
  let u := (s.taken fn cmd0).setEntry pa (leafAt (c 3) size 0)
  have hi := invalidates_invalidate u asid (some (BitVec.ofNat 64 (c 2).toNat, size)) (.memMapDone n)
  obtain ⟨z, hz, hasid, hpage, hafter, hwait⟩ := hi.begun
  simp only [exec, execMemMap]
  refine happens_wait h rfl (w := .mapping 1 1) (t := u.invalidate asid (some (BitVec.ofNat 64 (c 2).toNat, size)) (.memMapDone n)) ?_
    ⟨accepted_accepted (hi.irqs.trans (State.setEntry_irqs _ _ _)), ?_⟩
  · simp only [hc 1 (by decide), hc 2 (by decide), hc 3 (by decide), hc 4 (by decide), hp, hone]
    rw [if_neg (Bool.eq_false_iff.1 hbad), if_neg (by decide)]
    exact congrArg (Cmd.wait (.mapping 1 1)) (mapPages_one hleaf' _ _)
  · rw [State.accepted_cells, State.accepted_mem, State.accepted_invals, hi.cells, hi.mem, State.setEntry_cells, State.setEntry_mem]
    exact ⟨rfl, rfl, z, hz, hasid, hpage.trans (by rw [BitVec.ofNat_toNat, BitVec.setWidth_eq]), hafter, hwait⟩

/-! ### Attestation (R404, R406) -/

theorem quote_taken (s : State) (fn : Fn) (cmd0 : W64) (pn : Nat) (nonce : List Byte) : (s.taken fn cmd0).quote pn nonce = s.quote pn nonce := by
  have hp : (s.taken fn cmd0).part pn = s.part pn := rfl
  have ht : (s.taken fn cmd0).tbc = s.tbc := rfl
  have hf : (s.taken fn cmd0).fwDigest = s.fwDigest := rfl
  simp only [State.quote, State.quoteBody, hp, ht, hf]

theorem attestQuote_spec (h : Taken s fn cmd0 0x0401 [all64, all64, all64, all64, all64, 1] true true)
    (hb : (s.cmd (Fn.num fn) 6).getLsbD 0 = false) :
    Happens (exec (.attestQuote fn cmd0) s) fun t => Answered s t fn cmd0 0 [384] ∧ t.cells = s.cells ∧
      t.mem = writeBytes s.mem (hostKey (s.cmd (Fn.num fn) 1).toNat)
        (s.quote (cmdPart fn cmd0) ([2, 3, 4, 5].flatMap fun k => leBytes 8 (s.cmd (Fn.num fn) k).toNat)) := by
  have hk : ∀ k, k ≠ 0 → (s.taken fn cmd0).cmd (Fn.num fn) k = s.cmd (Fn.num fn) k := fun k hk => cmd_taken s fn cmd0 hk
  have hnonce : ([2, 3, 4, 5].flatMap fun k => leBytes 8 ((s.taken fn cmd0).cmd (Fn.num fn) k).toNat) =
      [2, 3, 4, 5].flatMap fun k => leBytes 8 (s.cmd (Fn.num fn) k).toNat := by
    simp only [List.flatMap_cons, List.flatMap_nil, hk _ (Nat.succ_ne_zero _)]
  generalize hq : s.quote (cmdPart fn cmd0) ([2, 3, 4, 5].flatMap fun k => leBytes 8 (s.cmd (Fn.num fn) k).toNat) = quote
  simp only [exec, execAttestQuote]
  refine happens_done h (by rw [hb]; rfl) (results := [384])
    (t := { s.taken fn cmd0 with mem := writeBytes s.mem (hostKey (s.cmd (Fn.num fn) 1).toNat) quote }) ?_
    ⟨answered_answer rfl (by simp), State.answer_cells _ _ _ _ _, State.answer_mem _ _ _ _ _⟩
  simp only [hnonce, quote_taken, hk 1 (by decide), hq]
  rfl

theorem attestPublicKey_spec (h : Taken s fn cmd0 0x0401 [all64, all64, all64, all64, all64, 1] true true)
    (hb : (s.cmd (Fn.num fn) 6).getLsbD 0 = true) :
    Happens (exec (.attestPublicKey fn cmd0) s) fun t => Answered s t fn cmd0 0 [57] ∧ t.cells = s.cells ∧
      t.mem = writeBytes s.mem (hostKey (s.cmd (Fn.num fn) 1).toNat) deviceKey := by
  simp only [exec, execAttestPublicKey]
  generalize deviceKey = key
  refine happens_done h hb (results := [57])
    (t := { s.taken fn cmd0 with mem := writeBytes s.mem (hostKey (s.cmd (Fn.num fn) 1).toNat) key }) ?_
    ⟨answered_answer rfl (by simp), State.answer_cells _ _ _ _ _, State.answer_mem _ _ _ _ _⟩
  simp only [cmd_taken s fn cmd0 Nat.one_ne_zero]
  rfl

end

end Sys2Proof.Machine
end

section
/-! The commands that make, take down and resume a partition (O51). -/

namespace Sys2Proof.Machine
open Sys2Proof.Claims

/-- What one step of a fold brings about, and every step keeps, holds at its end. -/
theorem foldl_reaches {σ α : Type} {f : σ → α → σ} {P : σ → Prop} (hkeep : ∀ s x, P s → P (f s x)) {a : α} (hdo : ∀ s, P (f s a))
    {l : List α} (ha : a ∈ l) (s : σ) : P (l.foldl f s) := by
  obtain ⟨l₁, l₂, rfl⟩ := List.append_of_mem ha
  rw [List.foldl_append, List.foldl_cons]
  exact List.foldlRecOn l₂ f (hdo _) fun b hb x _ => hkeep b x hb

/-! ### PART_CREATE (R407, R408) -/

/-- The record that a partition brought up from a PCB has. -/
def Part.opened (p : Part) (s : State) (pn : Nat) : Part :=
  { p.begun s.tbc with
    open_ := true, stopped := s.machineCheck, freeBlocks := List.range p.poolB, reservedBlocks := p.inboxBlocks
    asids := tset (s.part pn).asids p.asidBase (some { root := p.tableArea }) }

theorem foldl_setCell_only (f : State → Nat → Cell) (l : List Nat) (s : State) :
    ∃ cells, l.foldl (fun s n => s.setCell n (f s n)) s = { s with cells } :=
  List.foldlRecOn (motive := fun t => ∃ cells, t = { s with cells }) l _ ⟨_, rfl⟩ fun _ ⟨_, h⟩ _ _ => ⟨_, by rw [h]; rfl⟩

theorem foldl_setCluster_only (f : State → Nat → Cluster) (l : List Nat) (s : State) :
    ∃ clusters, l.foldl (fun s k => s.setCluster k (f s k)) s = { s with clusters } :=
  List.foldlRecOn (motive := fun t => ∃ clusters, t = { s with clusters }) l _ ⟨_, rfl⟩ fun _ ⟨_, h⟩ _ _ => ⟨_, by rw [h]; rfl⟩

/-- Every cell of a list given a tailrace quota has it. -/
theorem tailQuota_foldl (q : Nat) {l : List Nat} {m : Nat} (hm : m ∈ l) (s : State) :
    ((l.foldl (fun s n => s.setCell n { s.cell n with tailQuota := q }) s).cell m).tailQuota = q := by
  refine foldl_reaches (P := fun t : State => (t.cell m).tailQuota = q) (fun t n ht => ?_) (fun t => ?_) hm s
  · by_cases h : m = n
    · rw [h, State.cell_setCell]
    · rw [State.cell_setCell_ne _ _ h, ht]
  · rw [State.cell_setCell]

/-- From s to t a partition has been brought up. -/
structure Creates (s t : State) (pn : Nat) (p : Part) : Prop where
  irqs : t.irqs = s.irqs
  net : t.net = s.net
  part : t.part pn = p.opened s pn
  others : ∀ j, j ≠ pn → t.part j = s.part j
  quota : ∀ m ∈ p.cells, (t.cell m).tailQuota = p.inboxQ

/-- A new partition with its system tables, before its cells and clusters are set up. -/
def State.opening (s : State) (pn : Nat) (p : Part) : State :=
  (({ s with mem := p.sysTables (clearRange s.mem (hbmKey p.sysPa) (p.sysEnd - p.sysPa)) } : State).sound
    [(p.sysPa, p.sysEnd - p.sysPa)]).setPart pn (p.opened s pn)

/-- The cells of a new partition with their tailrace quotas. -/
def State.withQuotas (s : State) (p : Part) : State := p.cells.foldl (fun s n => s.setCell n { s.cell n with tailQuota := p.inboxQ }) s

theorem soundMem_setPart_only (s : State) (mem : Memory) (l : List (Nat × Nat)) (pn : Nat) (p : Part) :
    ∃ clusters, (({ s with mem } : State).sound l).setPart pn p = { s with mem, clusters, parts := tset s.parts pn p } := ⟨_, rfl⟩

theorem createPart_clusters (s : State) (pn : Nat) (p : Part) :
    ∃ clusters, s.createPart pn p = { (s.opening pn p).withQuotas p with clusters } := foldl_setCluster_only _ _ _

theorem createPart_only (s : State) (pn : Nat) (p : Part) :
    ∃ mem cells clusters, s.createPart pn p = { s with mem, cells, clusters, parts := tset s.parts pn (p.opened s pn) } := by
  obtain ⟨_, ht⟩ := createPart_clusters s pn p
  obtain ⟨_, hq⟩ : ∃ cells, (s.opening pn p).withQuotas p = { s.opening pn p with cells } := foldl_setCell_only _ _ _
  obtain ⟨_, ho⟩ := soundMem_setPart_only s (p.sysTables (clearRange s.mem (hbmKey p.sysPa) (p.sysEnd - p.sysPa)))
    [(p.sysPa, p.sysEnd - p.sysPa)] pn (p.opened s pn)
  exact ⟨_, _, _, by rw [ht, hq, State.opening, ho]⟩

theorem creates_createPart (s : State) (pn : Nat) (p : Part) : Creates s (s.createPart pn p) pn p := by
  have hq : ∀ m ∈ p.cells, ((s.createPart pn p).cell m).tailQuota = p.inboxQ := fun m hm => by
    obtain ⟨_, ht⟩ := createPart_clusters s pn p
    rw [ht]
    exact tailQuota_foldl _ hm _
  obtain ⟨_, _, _, ht⟩ := createPart_only s pn p
  exact ⟨by rw [ht], by rw [ht], by rw [ht, State.part, tget_tset], fun j hj => by rw [ht, State.part, tget_tset_ne _ _ _ hj, State.part], hq⟩

section
variable {s : State} {fn : Fn} {cmd0 : W64}

theorem partCreate_spec (h : Taken s fn cmd0 0x0001 [all64] false false) :
    let pn := cmdPart fn cmd0
    let b := readBytes s.mem (hostKey (s.cmd (Fn.num fn) 1).toNat) 256
    let q := Part.ofPcb b
    pcbOk pn b q = true → s.inUse pn q = false → s.fits q = true → q.startPoint ≤ s.rail q.rail →
      Happens (exec (.partCreate fn cmd0) s) fun t =>
        Answered s t fn cmd0 0 [] ∧ t.net = s.net ∧ (t.part pn).open_ = true ∧ (t.part pn).clusters = q.clusters ∧
        (t.part pn).slabs = q.slabs ∧ (t.part pn).faultSrv = q.faultSrv ∧ (t.part pn).freeBlocks = List.range q.poolB ∧
        (t.part pn).gov.chosen = max q.defpt q.floor ∧ tget none (t.part pn).asids q.asidBase = some { root := q.tableArea } ∧
        (∀ m ∈ q.cells, (t.cell m).tailQuota = q.inboxQ) ∧ ∀ j, j ≠ pn → t.part j = s.part j := by
  obtain rfl := eq_pf_of_taken h
  intro pn b q hok huse hfits hrail
  have hb : readBytes (s.taken .pf cmd0).mem (hostKey ((s.taken .pf cmd0).cmd 0 1).toNat) 256 = b :=
    congrArg (fun v : W64 => readBytes s.mem (hostKey v.toNat) 256) (cmd_taken s .pf cmd0 Nat.one_ne_zero)
  have huse' : (s.taken .pf cmd0).inUse pn q = false := huse
  have hfits' : (s.taken .pf cmd0).fits q = true := hfits
  have hrail' : ¬ (s.taken .pf cmd0).rail q.rail < q.startPoint := Nat.not_lt.2 hrail
  have hc := creates_createPart (s.taken .pf cmd0) pn q
  simp only [exec, execPartCreate]
  refine happens_done h rfl (results := []) (t := (s.taken .pf cmd0).createPart pn q) ?_ ⟨answered_answer hc.irqs (Nat.zero_le _), ?_⟩
  · rw [hb, hok, huse', hfits', if_neg hrail']
    rfl
  · simp only [State.answer_net, State.answer_part, State.answer_cell]
    refine ⟨hc.net, ?_⟩
    rw [hc.part]
    exact ⟨rfl, rfl, rfl, rfl, rfl, rfl, tget_tset _ _ _ _, hc.quota, hc.others⟩

end

/-! ### PART_DESTROY (R401, R409) -/

/-- What has been cleared stays clear as another range is cleared. -/
theorem mread_clearRange_zero {m : Memory} {c : Nat} (h : mread m c = 0) (a n : Nat) : mread (clearRange m a n) c = 0 := by
  by_cases hc : a ≤ c ∧ c < a + n
  · exact mread_clearRange m hc.1 hc.2
  · rw [mread_clearRange_outside m (by omega), h]

theorem mread_clearSlabs_zero {m : Memory} {c : Nat} (h : mread m c = 0) (p : Part) : mread (clearSlabs p m) c = 0 :=
  List.foldlRecOn (motive := fun m => mread m c = 0) p.slabs _ h fun _ hb _ _ => mread_clearRange_zero hb _ _

theorem mread_clearSlabs {p : Part} {k a : Nat} (hk : k ∈ p.slabs) (h1 : k * 2 ^ 32 ≤ a) (h2 : a < k * 2 ^ 32 + 2 ^ 32) (m : Memory) :
    mread (clearSlabs p m) a = 0 := by
  refine foldl_reaches (P := fun m => mread m a = 0) (fun _ _ hm => ?_) (fun m => ?_) hk m
  · exact mread_clearRange_zero hm _ _
  · exact mread_clearRange m h1 h2

/-- From s to t memory, cells and messages may have changed: the partitions and the interrupts are as they were. -/
structure SameParts (s t : State) : Prop where
  irqs : t.irqs = s.irqs
  parts : t.parts = s.parts

theorem SameParts.trans {s t u : State} (h : SameParts s t) (h' : SameParts t u) : SameParts s u :=
  ⟨h'.irqs.trans h.irqs, h'.parts.trans h.parts⟩

theorem SameParts.foldl {α : Type} {f : State → α → State} (h : ∀ s a, SameParts s (f s a)) (l : List α) (s : State) :
    SameParts s (l.foldl f s) :=
  List.foldlRecOn (motive := SameParts s) l f ⟨rfl, rfl⟩ fun t ht a _ => ht.trans (h t a)

theorem sameParts_logViolation (s : State) (v : Violation) : SameParts s (s.logViolation v) := by
  rw [State.logViolation]
  split <;> exact ⟨rfl, rfl⟩

theorem sameParts_logDropped (s : State) (pn : Nat) : SameParts s (s.logDropped pn) := by
  refine SameParts.foldl (fun t m => ?_) _ s
  split
  · split
    · exact sameParts_logViolation t _
    · exact ⟨rfl, rfl⟩
  · exact ⟨rfl, rfl⟩

/-- The cells of a partition with the apertures cleared. -/
def State.wipeCells (s : State) (p : Part) : State :=
  p.cells.foldl (fun s n => { s.setCell n (s.cell n).zeroed with mem := clearRange s.mem (cellKey n 0) 0x90000 }) s

theorem sameParts_wipePart (s : State) (pn : Nat) : SameParts s (s.wipePart pn) := by
  have h : SameParts s (s.wipeCells (s.part pn)) := by
    refine SameParts.foldl (fun t n => ?_) _ s
    exact ⟨rfl, rfl⟩
  exact ⟨h.irqs, h.parts⟩

theorem wipePart_mem (s : State) (pn : Nat) : (s.wipePart pn).mem = clearSlabs (s.part pn) (s.wipeCells (s.part pn)).mem := rfl

theorem mread_wipeCells {p : Part} {m off : Nat} (hm : m ∈ p.cells) (ho : off < 0x90000) (s : State) :
    mread (s.wipeCells p).mem (cellKey m off) = 0 := by
  refine foldl_reaches (P := fun t : State => mread t.mem (cellKey m off) = 0) (fun _ _ ht => mread_clearRange_zero ht _ _) (fun t => ?_) hm s
  exact mread_clearRange t.mem (by simp only [cellKey]; omega) (by simp only [cellKey]; omega)

/-- One ASID of a partition put into quarantine, with its invalidation. -/
def State.quarantine (s : State) (pn a : Nat) : State :=
  (s.setPart pn ((s.part pn).withAsid a { quarantine := true })).invalidate (BitVec.ofNat 12 a) none (.asidFree a)

theorem quarantineAll_eq (s : State) (pn : Nat) (p : Part) :
    s.quarantineAll pn p = (List.range p.asidCount).foldl (fun s k => s.quarantine pn (p.asidBase + k)) s := rfl

theorem quarantine_mem (s : State) (pn a : Nat) : (s.quarantine pn a).mem = s.mem := (invalidates_invalidate _ _ _ _).mem
theorem quarantine_irqs (s : State) (pn a : Nat) : (s.quarantine pn a).irqs = s.irqs := (invalidates_invalidate _ _ _ _).irqs
theorem quarantine_part (s : State) (pn a : Nat) : (s.quarantine pn a).part pn = (s.part pn).withAsid a { quarantine := true } := by
  rw [State.part, State.quarantine, (invalidates_invalidate _ _ _ _).parts]
  exact State.part_setPart _ _ _
theorem quarantine_part_ne (s : State) {pn j : Nat} (a : Nat) (h : j ≠ pn) : (s.quarantine pn a).part j = s.part j := by
  rw [State.part, State.quarantine, (invalidates_invalidate _ _ _ _).parts]
  exact State.part_setPart_ne _ _ h

/-- From s to t ASIDs of a partition have gone into quarantine. -/
structure Quarantines (s t : State) (pn : Nat) : Prop where
  mem : t.mem = s.mem
  irqs : t.irqs = s.irqs
  open_ : (t.part pn).open_ = (s.part pn).open_
  others : ∀ j, j ≠ pn → t.part j = s.part j

theorem quarantines_quarantineAll (s : State) (pn : Nat) (p : Part) : Quarantines s (s.quarantineAll pn p) pn := by
  rw [quarantineAll_eq]
  refine List.foldlRecOn (motive := fun t => Quarantines s t pn) _ _ ⟨rfl, rfl, rfl, fun _ _ => rfl⟩ fun t ht k _ => ?_
  exact ⟨(quarantine_mem _ _ _).trans ht.mem, (quarantine_irqs _ _ _).trans ht.irqs, by rw [quarantine_part]; exact ht.open_,
    fun j hj => (quarantine_part_ne _ _ hj).trans (ht.others j hj)⟩

theorem asids_quarantineAll (s : State) (pn : Nat) {p : Part} {k : Nat} (hk : k < p.asidCount) :
    tget none ((s.quarantineAll pn p).part pn).asids (p.asidBase + k) = some { quarantine := true } := by
  rw [quarantineAll_eq]
  refine foldl_reaches (P := fun t : State => tget none (t.part pn).asids (p.asidBase + k) = some { quarantine := true }) (fun t j ht => ?_)
    (fun t => ?_) (List.mem_range.2 hk) s
  · rw [quarantine_part]
    by_cases h : p.asidBase + k = p.asidBase + j
    · rw [h, tget_withAsid]
    · exact (tget_tset_ne _ _ _ h).trans ht
  · rw [quarantine_part, tget_withAsid]

/-- From s to t a partition has been taken down. -/
structure Destroys (s t : State) (pn : Nat) : Prop where
  irqs : t.irqs = s.irqs
  closed : (t.part pn).open_ = false
  others : ∀ j, j ≠ pn → t.part j = s.part j
  slabs : ∀ k ∈ (s.part pn).slabs, ∀ a, k * 2 ^ 32 ≤ a → a < k * 2 ^ 32 + 2 ^ 32 → mread t.mem a = 0
  cells : ∀ m ∈ (s.part pn).cells, ∀ off < 0x90000, mread t.mem (cellKey m off) = 0
  asids : ∀ k < (s.part pn).asidCount, tget none (t.part pn).asids ((s.part pn).asidBase + k) = some { quarantine := true }

/-- A partition wiped, with its record, its registers and its command gone, and its invalidations without their end. -/
def State.takenDown (s : State) (pn : Nat) : State :=
  let p := s.part pn
  let s := (s.logDropped pn).wipePart pn
  { s.setPart pn { asids := p.asids.filter fun y => y.2.any (·.quarantine) } with
    bars := tdel s.bars (pn + 1), cmds := tdel s.cmds (pn + 1)
    invals := s.invals.map fun (v : Inval) => { v with after := v.after.without p pn } }

theorem destroyPart_eq (s : State) (pn : Nat) : s.destroyPart pn = (s.takenDown pn).quarantineAll pn (s.part pn) := rfl

theorem destroys_destroyPart (s : State) (pn : Nat) : Destroys s (s.destroyPart pn) pn := by
  have hl := sameParts_logDropped s pn
  have hw := hl.trans (sameParts_wipePart (s.logDropped pn) pn)
  have hq := quarantines_quarantineAll (s.takenDown pn) pn (s.part pn)
  have hpart : (s.logDropped pn).part pn = s.part pn := by rw [State.part, hl.parts, State.part]
  have hmem : (s.destroyPart pn).mem = clearSlabs (s.part pn) ((s.logDropped pn).wipeCells (s.part pn)).mem := by
    rw [destroyPart_eq, hq.mem]
    show ((s.logDropped pn).wipePart pn).mem = _
    rw [wipePart_mem, hpart]
  refine ⟨?_, ?_, fun j hj => ?_, fun k hk a h1 h2 => ?_, fun m hm off ho => ?_, fun k hk => asids_quarantineAll _ _ hk⟩
  · exact hq.irqs.trans hw.irqs
  · rw [destroyPart_eq, hq.open_]
    show ((((s.logDropped pn).wipePart pn).setPart pn _).part pn).open_ = false
    rw [State.part_setPart]
  · rw [destroyPart_eq, hq.others j hj]
    show (((s.logDropped pn).wipePart pn).setPart pn _).part j = s.part j
    rw [State.part_setPart_ne _ _ hj, State.part, hw.parts, State.part]
  · rw [hmem, mread_clearSlabs hk h1 h2]
  · rw [hmem, mread_clearSlabs_zero (mread_wipeCells hm ho _)]

section
variable {s : State} {fn : Fn} {cmd0 : W64}

theorem partDestroy_spec (h : Taken s fn cmd0 0x0002 [] false true) :
    let pn := cmdPart fn cmd0
    let p := s.part pn
    Happens (exec (.partDestroy fn cmd0) s) fun t =>
      Answered s t fn cmd0 0 [BitVec.ofNat 64 p.slabs.length] ∧ (t.part pn).open_ = false ∧
      (∀ k ∈ p.slabs, ∀ a, k * 2 ^ 32 ≤ a → a < k * 2 ^ 32 + 2 ^ 32 → mread t.mem a = 0) ∧
      (∀ m ∈ p.cells, ∀ off < 0x90000, mread t.mem (cellKey m off) = 0) ∧
      (∀ k < p.asidCount, tget none (t.part pn).asids (p.asidBase + k) = some { quarantine := true }) ∧
      ∀ j, j ≠ pn → t.part j = s.part j := by
  intro pn p
  have hd := destroys_destroyPart (s.taken fn cmd0) pn
  simp only [exec, execPartDestroy]
  refine happens_done h rfl (results := [BitVec.ofNat 64 p.slabs.length]) (t := (s.taken fn cmd0).destroyPart pn) rfl
    ⟨answered_answer hd.irqs (by simp), ?_⟩
  simp only [State.answer_mem, State.answer_part]
  exact ⟨hd.closed, hd.slabs, hd.cells, hd.asids, hd.others⟩

end

/-! ### PART_RESUME (R410, R434) -/

/-- From s to t a cell has been worked on: the other cells, the interrupts and the cuts of the partitions are as they were. -/
structure Touches (n : Nat) (s t : State) : Prop where
  irqs : t.irqs = s.irqs
  cut : ∀ j, (t.part j).cut = (s.part j).cut
  others : ∀ m, m ≠ n → t.cell m = s.cell m

theorem Touches.refl (n : Nat) (s : State) : Touches n s s := ⟨rfl, fun _ => rfl, fun _ _ => rfl⟩

theorem Touches.trans {n : Nat} {s t u : State} (h : Touches n s t) (h' : Touches n t u) : Touches n s u :=
  ⟨h'.irqs.trans h.irqs, fun j => (h'.cut j).trans (h.cut j), fun m hm => (h'.others m hm).trans (h.others m hm)⟩

theorem Touches.ite {n : Nat} {s t u : State} (c : Bool) (ht : Touches n s t) (hu : Touches n s u) :
    Touches n s (if c = true then t else u) := by
  cases c
  · exact hu
  · exact ht

theorem touches_setCell (n : Nat) (s : State) (c : Cell) : Touches n s (s.setCell n c) :=
  ⟨rfl, fun _ => rfl, fun _ hm => State.cell_setCell_ne _ _ hm⟩

theorem touches_memNet (n : Nat) (s : State) (mem : Memory) (net : List Msg) : Touches n s { s with mem, net } :=
  ⟨rfl, fun _ => rfl, fun _ _ => rfl⟩

theorem touches_setPart (n : Nat) (s : State) {pn : Nat} {p : Part} (h : p.cut = (s.part pn).cut) : Touches n s (s.setPart pn p) := by
  refine ⟨rfl, fun j => ?_, fun _ _ => rfl⟩
  by_cases hj : j = pn
  · rw [hj, State.part_setPart, h]
  · rw [State.part_setPart_ne _ _ hj]

theorem touches_freeBlocks (n : Nat) (s : State) (pn : Nat) (l : List Nat) : Touches n s (s.freeBlocks pn l) := touches_setPart n s rfl

theorem touches_reload (n : Nat) (s : State) (at_ : Nat → Nat) : Touches n s (s.reload n at_) := by
  have h : Touches n s (s.loadImage n at_) := by
    unfold State.loadImage
    extract_lets
    exact (touches_memNet n s _ _).trans (touches_setCell n _ _)
  exact h.trans (touches_setCell n _ _)

theorem touches_swapIn (n : Nat) (s : State) : Touches n s (s.swapIn n) :=
  .ite _ (.refl n s) (((touches_reload n s _).trans (touches_setCell n _ _)).trans ((touches_freeBlocks n _ _ _).trans (touches_setPart n _ rfl)))

theorem touches_notifyResume (n : Nat) (s : State) : Touches n s (s.notifyResume n) := by
  simp only [State.notifyResume, foldl_post]
  exact (touches_setCell n s _).trans (touches_memNet n _ _ _)

theorem touches_resumeCell (n : Nat) (s : State) : Touches n s (s.resumeCell n) :=
  ((touches_swapIn n s).trans (touches_setCell n _ _)).trans (touches_notifyResume n _)

theorem out_notifyResume (s : State) (n : Nat) : ((s.notifyResume n).cell n).out = (s.cell n).out := by
  simp only [State.notifyResume, foldl_post]
  show ((s.setCell n _).cell n).out = _
  rw [State.cell_setCell]

theorem out_resumeCell (s : State) (n : Nat) : ((s.resumeCell n).cell n).out = false := by
  simp only [State.resumeCell]
  rw [out_notifyResume, State.cell_setCell]

/-- One cell of a pre-empted partition reloaded, and resumed where it may. -/
def State.resumeFrom (s : State) (dump k n : Nat) : State :=
  let c := s.cell n
  let s := if !c.out || c.gone then s else s.reload n fun j => hbmKey (dump + 0x100000 * k + j)
  if !c.out || c.gone || c.tripped then s else s.resumeCell n

theorem resumeCells_cons (dump k n : Nat) (l : List (Nat × Nat)) (s : State) :
    resumeCells dump ((k, n) :: l) s = resumeCells dump l (s.resumeFrom dump k n) := rfl

theorem touches_resumeFrom (s : State) (dump k n : Nat) : Touches n s (s.resumeFrom dump k n) := by
  have h := Touches.ite (!(s.cell n).out || (s.cell n).gone) (.refl n s) (touches_reload n s fun j => hbmKey (dump + 0x100000 * k + j))
  exact .ite _ h (h.trans (touches_resumeCell n _))

/-- A cell that works, or that has neither gone nor tripped, works after its turn. -/
theorem out_resumeFrom {s : State} {n : Nat} (h : (s.cell n).out = false ∨ (s.cell n).gone = false ∧ (s.cell n).tripped = false)
    (dump k : Nat) : ((s.resumeFrom dump k n).cell n).out = false := by
  cases ho : (s.cell n).out with
  | false =>
    simp only [State.resumeFrom, ho, Bool.not_false, Bool.true_or, if_true]
  | true =>
    obtain ⟨hg, ht⟩ := h.resolve_left (by simp [ho])
    simp only [State.resumeFrom, ho, hg, ht, Bool.not_true, Bool.or_self, Bool.false_eq_true, if_false, out_resumeCell]

theorem irqs_resumeCells (dump : Nat) (l : List (Nat × Nat)) (s : State) : (resumeCells dump l s).irqs = s.irqs := by
  induction l generalizing s with
  | nil => rfl
  | cons y l ih => rw [resumeCells_cons, ih, (touches_resumeFrom s dump y.1 y.2).irqs]

theorem cut_resumeCells (dump : Nat) (l : List (Nat × Nat)) (s : State) (j : Nat) :
    ((resumeCells dump l s).part j).cut = (s.part j).cut := by
  induction l generalizing s with
  | nil => rfl
  | cons y l ih => rw [resumeCells_cons, ih, (touches_resumeFrom s dump y.1 y.2).cut]

/-- A cell that works goes on working, and one whose turn comes works after it. -/
theorem out_resumeCells {m : Nat} {l : List (Nat × Nat)} {s : State} (dump : Nat)
    (h : (s.cell m).out = false ∨ m ∈ l.map (·.2) ∧ (s.cell m).gone = false ∧ (s.cell m).tripped = false) :
    ((resumeCells dump l s).cell m).out = false := by
  induction l generalizing s with
  | nil => exact h.resolve_right (by simp)
  | cons y l ih =>
    rw [resumeCells_cons]
    by_cases hm : m = y.2
    · subst hm
      exact ih (.inl (out_resumeFrom (h.imp_right And.right) dump y.1))
    · refine ih ?_
      rw [(touches_resumeFrom s dump y.1 y.2).others m hm]
      exact h.imp_right fun ⟨hmem, hg⟩ => ⟨(List.mem_cons.1 hmem).resolve_left hm, hg⟩

section
variable {s : State} {fn : Fn} {cmd0 : W64}

theorem partResume_spec (h : Taken s fn cmd0 0x0005 [1, all64] false true)
    (hd : (s.part (cmdPart fn cmd0)).dumpOk (s.cmd (Fn.num fn) 2).toNat = true) (hb : (s.cmd (Fn.num fn) 1).getLsbD 0 = true)
    (hc : (s.part (cmdPart fn cmd0)).cut = .preempted) :
    Happens (exec (.partResume fn cmd0) s) fun t => Answered s t fn cmd0 0 [] ∧ (t.part (cmdPart fn cmd0)).cut = .none ∧
      ∀ m ∈ (s.part (cmdPart fn cmd0)).cells, (s.cell m).out = true → (s.cell m).gone = false → (s.cell m).tripped = false →
        (t.cell m).out = false := by
  obtain rfl := eq_pf_of_taken h
  let pn := cmdPart .pf cmd0
  let u := (s.taken .pf cmd0).setPart pn { s.part pn with cut := .none }
  have h2 : (s.taken .pf cmd0).cmd 0 2 = s.cmd 0 2 := cmd_taken s .pf cmd0 (by decide)
  have hp : (s.taken .pf cmd0).part pn = s.part pn := rfl
  have hd' : (s.part pn).dumpOk (s.cmd 0 2).toNat = true := hd
  have hc' : (s.part pn).cut = .preempted := hc
  simp only [exec, execPartResume]
  refine happens_done h hb (results := []) (t := resumeCells (s.cmd 0 2).toNat (number 0 (s.part pn).cells) u) ?_
    ⟨answered_answer (irqs_resumeCells _ _ _) (Nat.zero_le _), ?_, fun m hm _ hg ht => ?_⟩
  · simp only [h2, pn, hp, hd', hc', bne_self_eq_false, Bool.not_true, Bool.false_eq_true, if_false]
    rfl
  · rw [State.answer_part, cut_resumeCells, State.part_setPart]
  · rw [State.answer_cell]
    refine out_resumeCells _ (.inr ⟨?_, hg, ht⟩)
    rw [map_snd_number]
    exact hm

end

end Sys2Proof.Machine
end

section
/-! The commands that load and unload a graph, and the acknowledgements of its start messages (O51). -/

namespace Sys2Proof.Machine
open Sys2Proof.Claims

/-! ### GRAPH_LOAD (R84 to R86, R395) -/

theorem irqs_foldl {α : Type} {f : State → α → State} (h : ∀ s a, (f s a).irqs = s.irqs) (l : List α) (s : State) :
    (l.foldl f s).irqs = s.irqs :=
  List.foldlRecOn (motive := fun t => t.irqs = s.irqs) l f rfl fun t ht a _ => (h t a).trans ht

theorem irqs_soundMem (s : State) (mem : Memory) (l : List (Nat × Nat)) : (({ s with mem } : State).sound l).irqs = s.irqs := rfl

theorem irqs_hbmWrite (s : State) (pa n v : Nat) : (s.hbmWrite pa n v).irqs = s.irqs := by
  obtain ⟨_, h⟩ := written_only { s with mem := writeLE s.mem (hbmKey pa) n v } pa n
  rw [State.hbmWrite, h]

theorem irqs_chanWords (p : Part) (id k : Nat) (l : List Nat) (s : State) : (chanWords p id k l s).irqs = s.irqs := by
  induction l generalizing k s with
  | nil => rfl
  | cons v l ih => rw [chanWords, ih, State.chanWord, irqs_hbmWrite]

theorem irqs_declare (s : State) (pn : Nat) (d : Desc) : (s.declare pn d).irqs = s.irqs := by
  unfold State.declare
  extract_lets p old cur u t v
  have ht : t.irqs = s.irqs := by
    unfold t
    split <;> rfl
  rw [State.setPart_irqs, show v.irqs = t.irqs from irqs_chanWords _ _ _ _ _, ht]

theorem irqs_openLane (s : State) (pn : Nat) (x : Placed) (capacity ringPa : Nat) : (s.openLane pn x capacity ringPa).irqs = s.irqs := by
  unfold State.openLane
  split <;> rfl

/-- A load raises no interrupt. -/
theorem irqs_loadWith {s t : State} {pick : Nat → Nat} {pn : Nat} {asid : BitVec 12} {objs : List CodeObj} {z : GraphObj} {load : Nat}
    {g : Graph} (h : s.loadWith pick pn asid objs z load = .inr (g, t)) : t.irqs = s.irqs := by
  unfold State.loadWith at h
  extract_lets p at h
  split at h
  · nomatch h
  · split at h
    · extract_lets _ _ _ _ _ _ _ _ t1 t2 t3 _ t4 _ t5 at h
      have h5 : t5.irqs = s.irqs := by
        calc t5.irqs
          _ = t4.irqs := State.setPart_irqs _ _ _
          _ = t3.irqs := irqs_foldl State.post_irqs _ _
          _ = t2.irqs := irqs_foldl (fun _ _ => irqs_openLane _ _ _ _ _) _ _
          _ = t1.irqs := irqs_foldl (fun _ _ => irqs_declare _ _ _) _ _
          _ = s.irqs := irqs_soundMem _ _ _
      iterate 3 (split at h; · nomatch h)
      split at h
      · obtain ⟨-, rfl⟩ := Prod.mk.inj (Sum.inr.inj h)
        exact h5
      · nomatch h
    · nomatch h

/-- A load that is made is made with the loader's choices, or with the lowest ones where those do not fit. -/
theorem loadMade_eq_inr {s : State} {pn : Nat} {asid : BitVec 12} {objs : List CodeObj} {z : GraphObj} {load : Nat} {y : Graph × State}
    (h : loadMade s pn asid objs z load = .inr y) :
    s.loadWith (Config.placement s.turn) pn asid objs z load = .inr y ∨
      (∃ st, s.loadWith (Config.placement s.turn) pn asid objs z load = .inl st) ∧ s.loadWith (fun _ => 0) pn asid objs z load = .inr y := by
  unfold loadMade at h
  split at h
  next heq => exact .inl (heq.trans h)
  next heq => exact .inr ⟨⟨_, heq⟩, h⟩

/-- CASIDs written at a load change cells alone. -/
theorem casidAtLoad_only (s : State) (g : Graph) : ∃ cells, s.casidAtLoad g = { s with cells } :=
  List.foldlRecOn (motive := fun t => ∃ cells, t = { s with cells }) g.cells _ ⟨_, rfl⟩ fun t ⟨cells, ht⟩ n _ => by
    subst ht
    dsimp only
    split
    · exact ⟨_, rfl⟩
    · exact ⟨_, rfl⟩

/-- The record of a partition with a graph entered, or taken out. -/
def Part.withGraph (p : Part) (h : Nat) (g : Option Graph) : Part := { p with graphs := tset p.graphs h g }

theorem graph_withGraph (p : Part) (h : Nat) (g : Option Graph) : (p.withGraph h g).graph h = g := tget_tset _ _ _ _
theorem graph_withGraph_ne (p : Part) {h j : Nat} (g : Option Graph) (hj : j ≠ h) : (p.withGraph h g).graph j = p.graph j :=
  tget_tset_ne _ _ _ hj

/-- A state with a loaded graph entered under its handle. -/
def State.entered (s : State) (pn h : Nat) (g : Graph) : State := (s.setPart pn ((s.part pn).withGraph h (some g))).casidAtLoad g

theorem entered_only (s : State) (pn h : Nat) (g : Graph) :
    ∃ cells, s.entered pn h g = { s.setPart pn ((s.part pn).withGraph h (some g)) with cells } := casidAtLoad_only _ g

section
variable {s : State} {fn : Fn} {cmd0 : W64}

/-- The start messages of a load sent. -/
def State.startAll (s : State) (pn load h : Nat) (p : Part) (cells : List Nat) : State :=
  cells.foldl (fun s c => s.post (startMessage pn (p.rel c) c load h)) s

theorem startAll_eq (s : State) (pn load h : Nat) (p : Part) (cells : List Nat) :
    s.startAll pn load h p cells = { s with net := s.net ++ cells.map fun c => startMessage pn (p.rel c) c load h } := foldl_post _ _ _

theorem graphLoad_spec {objs : List CodeObj} {z : GraphObj} {g : Graph} {x : State} {h : Nat}
    (ht : Taken s fn cmd0 0x0201 [all64, all64, 0xFFFF, 0xFFF] true true) :
    let n := Fn.num fn
    let c := s.cmd n
    let pn := cmdPart fn cmd0
    let p := s.part pn
    let v := s.taken fn cmd0
    s.loading pn = false → c 3 ≠ 0 → (c 3).toNat ≤ 64 →
      let size := readLE s.mem (hostKey ((c 1).toNat + 0x20)) 4
      64 ≤ size → v.loadObjs (c 2).toNat (c 3).toNat = some objs → parseGraph (readBytes s.mem (hostKey (c 1).toNat) size) = some z →
      loadMade v pn ((c 4).extractLsb' 0 12) objs z (p.loads + 1) = .inr (g, x) →
      v.freeHandle p = some h → Happens (exec (.graphLoad fn cmd0) s) fun t => t.mem = x.mem ∧ (t.part pn).graph h = some g ∧
        if g.cells = [] then Answered s t fn cmd0 0 [BitVec.ofNat 64 h]
        else (t.inFlight n).wait = .loading pn (p.loads + 1) h g.cells ∧
          ∀ m ∈ g.cells, startMessage pn ((x.part pn).rel m) m (p.loads + 1) h ∈ t.net := by
  dsimp only
  intro hload hpos hmax hsize hobjs hparse hmade hfree
  have hc : ∀ k, k ≠ 0 → (s.taken fn cmd0).cmd (Fn.num fn) k = s.cmd (Fn.num fn) k := fun k hk => cmd_taken s fn cmd0 hk
  have hmem : (s.taken fn cmd0).mem = s.mem := rfl
  have hp : (s.taken fn cmd0).part (cmdPart fn cmd0) = s.part (cmdPart fn cmd0) := rfl
  have hmade' := loadMade_eq_inr hmade
  have hirqs : x.irqs = (s.taken fn cmd0).irqs := hmade'.elim irqs_loadWith fun hx => irqs_loadWith hx.2
  have hcount : (s.cmd (Fn.num fn) 3).toNat ≠ 0 := fun h0 => hpos (BitVec.eq_of_toNat_eq h0)
  have hbad : ((s.cmd (Fn.num fn) 3).toNat == 0 || decide (64 < (s.cmd (Fn.num fn) 3).toNat) ||
      decide (readLE s.mem (hostKey ((s.cmd (Fn.num fn) 1).toNat + 0x20)) 4 < 64)) = false := by
    rw [beq_eq_false_iff_ne.2 hcount, decide_eq_false (Nat.not_lt.2 hmax), decide_eq_false (Nat.not_lt.2 hsize)]
    rfl
  have hsel : (!s.loading (cmdPart fn cmd0) || (s.inFlight (Fn.num fn)).wait != .none) = true := by rw [hload]; rfl
  have hrun : exec (.graphLoad fn cmd0) s = event "GRAPH_LOAD" (some (Cmd.ends fn cmd0 (s.taken fn cmd0) (
      if g.cells.isEmpty then .done [BitVec.ofNat 64 h] (x.entered (cmdPart fn cmd0) h g)
      else .wait (.loading (cmdPart fn cmd0) ((s.part (cmdPart fn cmd0)).loads + 1) h g.cells)
        ((x.entered (cmdPart fn cmd0) h g).startAll (cmdPart fn cmd0) ((s.part (cmdPart fn cmd0)).loads + 1) h
          (x.part (cmdPart fn cmd0)) g.cells)))) := by
    simp only [exec, execGraphLoad]
    rw [command_of_taken ht hsel]
    simp only [hc 1 (by decide), hc 2 (by decide), hc 3 (by decide), hc 4 (by decide), hmem, hbad, hobjs, hparse, hp, hfree,
      Bool.false_eq_true, if_false]
    obtain h1 | ⟨⟨st, h1⟩, h2⟩ := hmade'
    · simp only [h1]
      rfl
    · simp only [h1, h2]
      rfl
  obtain ⟨cells, he⟩ := entered_only x (cmdPart fn cmd0) h g
  have hgraph : ((x.entered (cmdPart fn cmd0) h g).part (cmdPart fn cmd0)).graph h = some g := by
    rw [he]
    exact (congrArg (fun p : Part => p.graph h) (State.part_setPart x _ _)).trans (graph_withGraph _ _ _)
  have hmem' : (x.entered (cmdPart fn cmd0) h g).mem = x.mem := by rw [he]; rfl
  have hirqs' : (x.entered (cmdPart fn cmd0) h g).irqs = s.irqs := by rw [he]; exact hirqs
  refine ⟨_, hrun, ?_⟩
  generalize x.entered (cmdPart fn cmd0) h g = u at hgraph hmem' hirqs'
  by_cases hg : g.cells = []
  · simp only [hg, List.isEmpty_nil, if_true, Cmd.ends]
    exact ⟨(State.answer_mem _ _ _ _ _).trans hmem', by rw [State.answer_part, hgraph], answered_answer hirqs' (by simp)⟩
  · have hne : g.cells.isEmpty = false := List.isEmpty_eq_false_iff.2 hg
    simp only [hne, if_neg hg, Bool.false_eq_true, if_false, Cmd.ends, startAll_eq]
    refine ⟨(State.accepted_mem _ _ _ _).trans hmem', by rw [State.accepted_part]; exact hgraph, ?_, fun m hm => ?_⟩
    · rw [State.accepted_inFlight]
    · rw [State.accepted_net]
      exact List.mem_append_right _ (List.mem_map_of_mem hm)

end

/-! ### START_ACK (R86) -/

theorem startAck_spec {s : State} {i q load from_ fn h : Nat} {src : Endp} {l tag : W32} {cells : List Nat}
    (ha : Arrives s i src (.loader q) (.startAck l from_)) (hf : s.loadCmd q l.toNat = some (fn, { tag, wait := .loading q load h cells })) :
    Happens (exec (.startAck i) s) fun t => t.mem = s.mem ∧ t.cells = s.cells ∧
      if ∀ m ∈ cells, m = from_ then t.inFlight fn = {} ∧ t.irqs = s.irqs ++ [(fn, 0)] ∧ t.bar fn 0x48 = BitVec.ofNat 64 h
      else t.inFlight fn = { tag, wait := .loading q load h (cells.filter (· != from_)) } ∧ t.irqs = s.irqs := by
  obtain ⟨vn, he⟩ := arrived_of_arrives ha
  have hf' : (s.take i).loadCmd q l.toNat = some (fn, { tag, wait := .loading q load h cells }) := hf
  have hleft : (cells.filter (· != from_)).isEmpty = decide (∀ m ∈ cells, m = from_) := by
    rw [Bool.eq_iff_iff, List.isEmpty_iff, List.filter_eq_nil_iff, decide_eq_true_iff]
    simp only [bne_iff_ne, ne_eq, not_not]
  simp only [exec, execStartAck, he, hf', hleft]
  refine ⟨_, rfl, ?_⟩
  by_cases hall : ∀ m ∈ cells, m = from_
  · simp only [if_pos hall, decide_eq_true hall, if_true]
    exact ⟨State.answer_mem _ _ _ _ _, State.answer_cells _ _ _ _ _, State.answer_inFlight _ _ _ _ _, State.answer_irqs _ _ _ _ _,
      bar_answer_result (s.take i) fn tag stDone _ (k := 0) rfl (by decide)⟩
  · simp only [if_neg hall, decide_eq_false hall, Bool.false_eq_true, if_false]
    exact ⟨rfl, rfl, tget_tset _ _ _ _, rfl⟩

/-! ### GRAPH_UNLOAD (R84) -/

/-- From s to t pages, tables and lanes have been given back: the cells, the graphs and the interrupts are as they were. -/
structure GivesBack (s t : State) : Prop where
  irqs : t.irqs = s.irqs
  cells : t.cells = s.cells
  graphs : ∀ j, (t.part j).graphs = (s.part j).graphs

theorem GivesBack.refl (s : State) : GivesBack s s := ⟨rfl, rfl, fun _ => rfl⟩

theorem GivesBack.trans {s t u : State} (h : GivesBack s t) (h' : GivesBack t u) : GivesBack s u :=
  ⟨h'.irqs.trans h.irqs, h'.cells.trans h.cells, fun j => (h'.graphs j).trans (h.graphs j)⟩

theorem givesBack_setEntry (s : State) (pa : Nat) (e : W64) : GivesBack s (s.setEntry pa e) :=
  ⟨State.setEntry_irqs s pa e, State.setEntry_cells s pa e, fun j => by rw [State.part, State.setEntry_parts, State.part]⟩

theorem givesBack_setPart (s : State) {pn : Nat} {p : Part} (h : p.graphs = (s.part pn).graphs) : GivesBack s (s.setPart pn p) := by
  refine ⟨rfl, rfl, fun j => ?_⟩
  by_cases hj : j = pn
  · rw [hj, State.part_setPart, h]
  · rw [State.part_setPart_ne _ _ hj]

theorem givesBack_setDie (s : State) (d : Nat) (x : Die) : GivesBack s (s.setDie d x) := ⟨rfl, rfl, fun _ => rfl⟩

theorem givesBack_unmapPages (p : Part) (asid : BitVec 12) (l : List (W64 × Nat)) (s : State) : GivesBack s (s.unmapPages p asid l) := by
  induction l generalizing s with
  | nil => exact .refl s
  | cons y l ih =>
    rw [State.unmapPages]
    refine GivesBack.trans ?_ (ih _)
    split
    · split
      · exact givesBack_setEntry _ _ _
      · exact .refl s
    · exact .refl s

theorem givesBack_dropTables (pn : Nat) (l : List (Nat × Nat × Nat)) (s : State) : GivesBack s (s.dropTables pn l) := by
  induction l with
  | nil => exact .refl s
  | cons y l ih =>
    rw [State.dropTables]
    refine ih.trans ?_
    generalize s.dropTables pn l = u
    split
    · exact .refl u
    · exact (givesBack_setEntry u y.2.2 0).trans (givesBack_setPart _ ((givesBack_setEntry u y.2.2 0).graphs pn).symm)

theorem givesBack_closeLanes (pn : Nat) (l : List (Nat × Nat)) (s : State) : GivesBack s (s.closeLanes pn l) := by
  induction l generalizing s with
  | nil => exact .refl s
  | cons y l ih =>
    have hf : GivesBack s (s.freeBlocks pn (s.lane y.1 y.2).chain.blocks) := givesBack_setPart s rfl
    rw [State.closeLanes]
    refine GivesBack.trans ?_ (ih _)
    refine hf.trans (GivesBack.trans ?_ (givesBack_setDie _ _ _))
    exact givesBack_setPart _ rfl

/-- What a graph held given back. -/
def State.returned (s : State) (pn : Nat) (g : Graph) : State :=
  ((s.unmapPages (s.part pn) g.asid g.pages).dropTables pn (s.part pn).tables).closeLanes pn g.lanes

theorem givesBack_returned (s : State) (pn : Nat) (g : Graph) : GivesBack s (s.returned pn g) :=
  ((givesBack_unmapPages _ _ _ s).trans (givesBack_dropTables _ _ _)).trans (givesBack_closeLanes _ _ _)

/-- A graph unloaded: what it held given back, its handle free, and the invalidation of its mappings begun where it had any. -/
def State.unloaded (s : State) (pn h : Nat) (g : Graph) : State :=
  let t := (s.returned pn g).setPart pn (((s.returned pn g).part pn).withGraph h none)
  if g.pages.isEmpty then t else t.invalidate g.asid none .nothing

/-- From s to t a graph has been unloaded. -/
structure Unloads (s t : State) (pn h : Nat) : Prop where
  irqs : t.irqs = s.irqs
  cells : t.cells = s.cells
  free : (t.part pn).graph h = none
  others : ∀ j, j ≠ h → (t.part pn).graph j = (s.part pn).graph j

theorem unloads_unloaded (s : State) (pn h : Nat) (g : Graph) : Unloads s (s.unloaded pn h g) pn h := by
  have hb := givesBack_returned s pn g
  let t := (s.returned pn g).setPart pn (((s.returned pn g).part pn).withGraph h none)
  have hp : t.part pn = ((s.returned pn g).part pn).withGraph h none := State.part_setPart _ _ _
  have ht : Unloads s t pn h := by
    refine ⟨hb.irqs, hb.cells, by rw [hp, graph_withGraph], fun j hj => ?_⟩
    rw [hp, graph_withGraph_ne _ _ hj, Part.graph, hb.graphs, Part.graph]
  have hi := invalidates_invalidate t g.asid none .nothing
  have hu : s.unloaded pn h g = if g.pages.isEmpty then t else t.invalidate g.asid none .nothing := rfl
  rw [hu]
  split
  · exact ht
  · refine ⟨hi.irqs.trans ht.irqs, hi.cells.trans ht.cells, ?_, fun j hj => ?_⟩
    · rw [State.part, hi.parts]
      exact ht.free
    · rw [State.part, hi.parts]
      exact ht.others j hj

theorem graphUnload_spec {s : State} {fn : Fn} {cmd0 : W64} {g : Graph} (h : Taken s fn cmd0 0x0202 [0xFF] true true) :
    let pn := cmdPart fn cmd0
    let p := s.part pn
    let k := (s.cmd (Fn.num fn) 1).toNat
    p.graph k = some g → p.graphBusy k = false → s.loading pn = false → Happens (exec (.graphUnload fn cmd0) s) fun t =>
      Answered s t fn cmd0 0 [] ∧ t.cells = s.cells ∧ (t.part pn).graph k = Option.none ∧
      ∀ j, j ≠ k → (t.part pn).graph j = p.graph j := by
  dsimp only
  intro hg hbusy hload
  have h1 : (s.taken fn cmd0).cmd (Fn.num fn) 1 = s.cmd (Fn.num fn) 1 := cmd_taken s fn cmd0 Nat.one_ne_zero
  have hg' : ((s.taken fn cmd0).part (cmdPart fn cmd0)).graph (s.cmd (Fn.num fn) 1).toNat = some g := hg
  have hbusy' : ((s.taken fn cmd0).part (cmdPart fn cmd0)).graphBusy (s.cmd (Fn.num fn) 1).toNat = false := hbusy
  have hload' : (s.taken fn cmd0).loading (cmdPart fn cmd0) = false := hload
  have hu := unloads_unloaded (s.taken fn cmd0) (cmdPart fn cmd0) (s.cmd (Fn.num fn) 1).toNat g
  simp only [exec, execGraphUnload]
  refine happens_done h rfl (results := [])
    (t := (s.taken fn cmd0).unloaded (cmdPart fn cmd0) (s.cmd (Fn.num fn) 1).toNat g) ?_ ⟨answered_answer hu.irqs (Nat.zero_le _), ?_⟩
  · simp only [h1, hg', hbusy', hload', Bool.or_self, Bool.false_eq_true, if_false]
    rfl
  · simp only [State.answer_cells, State.answer_part]
    exact ⟨hu.cells, hu.free, hu.others⟩

/-! ### The commands together -/

/-- Settles O51: each command is taken (command_of_taken) and its row ends as its own rule says. -/
theorem partitionCommands : Obligations.PartitionCommands := by
  unfold Obligations.PartitionCommands
  intro s fn cmd0 n c pn p v
  exact ⟨fun h => partCreate_spec h, fun h => partDestroy_spec h, fun h hr hp => partSetRail_spec h hr hp, fun h => partSetFaultsrv_spec h,
    fun h hd => ⟨fun hb hc => partPreempt_closes h hd hb hc, fun hb hc => partPreempt_joins h hd hb hc,
      fun hb hc => partResume_spec h hd hb hc⟩,
    fun a h ha ho hw hf => asidAlloc_spec h ha ho hw hf, fun x h hx hq hb hm => asidRelease_spec h hx hq hb hm,
    fun pa h => memMap_spec h, fun h => ⟨fun hb => attestQuote_spec h hb, fun hb => attestPublicKey_spec h hb⟩,
    fun objs z g x k h => graphLoad_spec h, fun i q load from_ fn' k src l tag cells ha hf => startAck_spec ha hf,
    fun g h hg hbusy hload => graphUnload_spec h hg hbusy hload⟩

end Sys2Proof.Machine
end
